-- ==== Sys2Proof/Word.lean ====
section
/-!
DEFINITION. The word types of the block: 64-bit registers (R7) and bytes (R4).
-/
namespace Sys2Proof

/-- A 64-bit register or memory word (R7). -/
abbrev Word := BitVec 64

/-- A byte. -/
abbrev Byte := BitVec 8

end Sys2Proof
end

