-- ==== Sys2Proof/Syntax.lean ====
section
/-!
DEFINITION. The commands of the block: one constructor per row of the opcode table, with the row's operands. A number
that the hardware bounds is a bit vector or a `Fin`, so that no command can name a unit that does not exist.
-/
namespace Sys2Proof

/-- What a read of host memory brought: the bytes, or the way in which the host's completion failed (R485). -/
inductive HostData where
  | data (bytes : List (BitVec 8))
  | unsupported
  | aborted
  | poisoned
  | timedOut
  deriving DecidableEq, Repr

/-- A place where planned work runs: engine class 0–5 (R30), physical unit, and the core of a Fold. -/
structure EngRef where
  cls : Fin 6
  phys : Fin 32
  core : Fin 8
  deriving DecidableEq, Repr

/-- A frame on a fronthaul port: its bytes from the destination address on without FCS, whether the FCS is correct, the device time of
its SFD at the MAC/PCS boundary, whether the receive buffer is full as it arrives (R89, R90, R102), and how many codewords RS-FEC
corrected, and found uncorrectable, on the port since its last frame (R111). -/
structure RxFrame where
  port : Fin 64
  bytes : List (BitVec 8)
  fcsOk : Bool
  sfd : BitVec 64
  full : Bool
  corrected : BitVec 16
  uncorrectable : BitVec 16
  deriving DecidableEq, Repr

/-- A syllable other than an extension syllable (R226): the core that issues it, STOP, the guard PG, and the operand
bits [19:0], which each group lays out in its own way. -/
structure Syl where
  core : Fin 136
  stop : Bool
  pg : BitVec 3
  ops : BitVec 20
  /-- The OPC of a word whose OPC is reserved (R230): such a word is given as the command of its group that stands for them. -/
  rsv : Option (BitVec 5)
  deriving DecidableEq, Repr

/-- A packet of the on-chip network (R264): the header's fields and the data. -/
structure Packet where
  route : BitVec 32
  hop : BitVec 3
  ch : BitVec 2
  type : BitVec 4
  src : BitVec 8
  dst : BitVec 8
  ridx : BitVec 8
  tag : BitVec 12
  len : BitVec 8
  status : BitVec 3
  space : Bool
  rsvd : BitVec 103
  addr : BitVec 64
  data : List (BitVec 8)
  deriving DecidableEq, Repr

/-- What one evaluation finds on a reference input (R375): an edge in its activity interval, its frequency offset from XO_IN
(signed, 10^-12), and its filtered phase, reference minus local (signed, 2^-16 ns). -/
structure RefObs where
  edge : Bool
  fofs : BitVec 32
  phase : BitVec 64
  deriving DecidableEq, Repr

/-- A write that a master port of R284 makes to the register space: the port, the device address, and the bytes. -/
structure RegWrite where
  port : Fin 5
  addr : BitVec 48
  data : List (BitVec 8)
  deriving DecidableEq, Repr

/-- The commands of the block. -/
inductive Instr where
  -- the tick and the almanac
  | tickEdge
  | guardTimeStart
  | templateFetch
  | releaseComplete (e : EngRef)
  | almCtrlStart
  | almCtrlAbort
  | almStatClr
  | almanacLoadComplete
  | almSwapArm
  | almSwapPoolArm
  | almSwapDisarm
  | swapPowerOverride
  | commitPoint
  | swap
  | poolSwapDecision
  | poolNoCommit
  | rebind
  -- the Drover: requests, cell commands, completions
  | drvRqDb (q : Fin 16) (v : BitVec 64)
  | requestAccept (q : Fin 16) (desc ext : HostData) (data : List HostData)
  | stop (q : Fin 16) (ring : BitVec 16) (tag : BitVec 32) (cell : Fin 128) (frame : BitVec 20)
  | migrate (q : Fin 16) (ring : BitVec 16) (tag : BitVec 32) (cell : Fin 128) (frame : BitVec 20) (dest : Fin 64)
  | start (q : Fin 16) (ring : BitVec 16) (tag : BitVec 32) (cell : Fin 128) (frame : BitVec 20)
  | commandResolve
  | commandEffect
  | completionPost (q : Fin 16) (ring : BitVec 16)
  | coalTicksExpiry (ring : Fin 20)
  | drvCqDb (q : Fin 16) (v : BitVec 64)
  | drvRqCfg (q : Fin 16) (v : BitVec 64)
  | drvCqCfg (q : Fin 16) (v : BitVec 64)
  | drvStatClr
  -- the fronthaul
  | frameReceive (f : RxFrame)
  | uplaneReceive (f : RxFrame)
  | oneWayDelayRequest (f : RxFrame)
  | remoteRequest (f : RxFrame)
  | oneWayDelayResponse (f : RxFrame)
  | fhlDlySend (v : BitVec 64)
  | windowOpen (w : BitVec 16)
  | windowClose (w : BitVec 16)
  | txWindowOpen (w : BitVec 16) (started : BitVec 16)
  | txWindowClose (w : BitVec 16) (started : BitVec 16)
  | linkStateChange (port : Fin 64) (started : BitVec 16) (busy locked fecLock localFault remoteFault : Bool)
  | fhlStatClr
  -- channel processing: MCE jobs, the kernels of the Folds (Fold, core and the buffers that Taruno placed), PRACH search
  | loadWeights (m : Fin 12)
  | combine (m : Fin 12)
  | precode (m : Fin 12)
  | demap (m : Fin 12)
  | demapReplay (m : Fin 12)
  | mceStatClr
  | gainSelect (fold : Fin 16) (core : Fin 8) (gain : BitVec 48)
  | puschChest (fold : Fin 16) (core : Fin 8) (gain out : BitVec 48) (gLog2 : Fin 5)
  | puschMmse (fold : Fin 16) (core : Fin 8) (est weights scale : BitVec 48) (rows cols first groups : BitVec 8) (stride : BitVec 16)
      (gLog2 : Fin 5) (unitLog2 : Fin 15)
  | foTrack (fold : Fin 16) (core : Fin 8) (est : List (BitVec 16 × BitVec 32))
  | puschPhase (fold : Fin 16) (core : Fin 8) (out : BitVec 48)
  | puschTpIdft (fold : Fin 16) (core : Fin 8) (layers : BitVec 48) (nsc : BitVec 12) (stride : BitVec 32)
  | puschUci (fold : Fin 16) (core : Fin 8) (llrs ulsch : BitVec 48)
  | pucch (fold : Fin 16) (core : Fin 8)
  | srsEst (fold : Fin 16) (core : Fin 8)
  | dlWeights (fold : Fin 16) (core : Fin 8) (weights : BitVec 48) (rows cols first groups : BitVec 8) (stride : BitVec 16) (gLog2 : Fin 5)
  | dlRs (fold : Fin 16) (core : Fin 8) (grid : BitVec 48) (nsc : BitVec 12) (stride : BitVec 32) (ssb : BitVec 6) (second : Bool)
  | lteUci (fold : Fin 16) (core : Fin 8) (llrs ulsch : BitVec 48)
  | accum (e : Fin 4)
  | detect (e : Fin 4)
  | praRecordPost (e : Fin 4)
  | praRingDb (r : Fin 4) (v : BitVec 64)
  | praRingCfg (r : Fin 4) (v : BitVec 64)
  | praStatClr
  -- channel coding
  | decLdpc (u : Fin 32)
  | decTurbo (u : Fin 32)
  | tbDone (u : Fin 32)
  | decLdpcReplay (u : Fin 32)
  | decTurboReplay (u : Fin 32)
  | tbDoneReplay (u : Fin 32)
  | encDlsch (m : Fin 8)
  | encLteDlsch (m : Fin 8)
  | encCtrl (m : Fin 8)
  | encPbch (m : Fin 8)
  | lteCtrlMap (m : Fin 8)
  | decStatClr
  -- the syllables of the Fold DSP cores (0–127: core 8 f + c) and the control cores (128–135)
  | ext (core : Fin 136) (stop : Bool) (hi : BitVec 28)
  | add (y : Syl)
  | sub (y : Syl)
  | and (y : Syl)
  | or (y : Syl)
  | xor (y : Syl)
  | andn (y : Syl)
  | shl (y : Syl)
  | shr (y : Syl)
  | sar (y : Syl)
  | min (y : Syl)
  | max (y : Syl)
  | minu (y : Syl)
  | maxu (y : Syl)
  | abs (y : Syl)
  | clz (y : Syl)
  | popc (y : Syl)
  | mul (y : Syl)
  | mulh (y : Syl)
  | mulq (y : Syl)
  | mov (y : Syl)
  | sext (y : Syl)
  | cmpeq (y : Syl)
  | cmplt (y : Syl)
  | cmpltu (y : Syl)
  | cmple (y : Syl)
  | addi (y : Syl)
  | andi (y : Syl)
  | ori (y : Syl)
  | xori (y : Syl)
  | shli (y : Syl)
  | shri (y : Syl)
  | sari (y : Syl)
  | sarri (y : Syl)
  | muli (y : Syl)
  | movi (y : Syl)
  | cmpeqi (y : Syl)
  | cmplti (y : Syl)
  | cmpltui (y : Syl)
  | addpi (y : Syl)
  | addp (y : Syl)
  | movps (y : Syl)
  | movsp (y : Syl)
  | movks (y : Syl)
  | movsk (y : Syl)
  | qand (y : Syl)
  | qor (y : Syl)
  | qxor (y : Syl)
  | qandn (y : Syl)
  | qnot (y : Syl)
  | qfroms (y : Syl)
  | qtos (y : Syl)
  | qseti (y : Syl)
  | ldb (y : Syl)
  | ldbu (y : Syl)
  | ldh (y : Syl)
  | ldhu (y : Syl)
  | ldw (y : Syl)
  | ldwu (y : Syl)
  | ldd (y : Syl)
  | ldp (y : Syl)
  | vld (y : Syl)
  | vldw (y : Syl)
  | stb (y : Syl)
  | sth (y : Syl)
  | stw (y : Syl)
  | std (y : Syl)
  | stp (y : Syl)
  | vst (y : Syl)
  | vstw (y : Syl)
  | vadd (y : Syl)
  | vsub (y : Syl)
  | vmin (y : Syl)
  | vmax (y : Syl)
  | vabs (y : Syl)
  | vneg (y : Syl)
  | vand (y : Syl)
  | vor (y : Syl)
  | vxor (y : Syl)
  | vshl (y : Syl)
  | vshr (y : Syl)
  | vcmpeq (y : Syl)
  | vcmplt (y : Syl)
  | vsel (y : Syl)
  | vperm (y : Syl)
  | vsplat (y : Syl)
  | vext (y : Syl)
  | vconj (y : Syl)
  | vswapiq (y : Syl)
  | vpack (y : Syl)
  | vunpkl (y : Syl)
  | vunpkh (y : Syl)
  | vmov (y : Syl)
  | vmul (y : Syl)
  | vcmul (y : Syl)
  | vcmulc (y : Syl)
  | vmac (y : Syl)
  | vmsu (y : Syl)
  | vcmac (y : Syl)
  | vcmacc (y : Syl)
  | vcmag (y : Syl)
  | vaclr (y : Syl)
  | vrd (y : Syl)
  | vacsl (y : Syl)
  | vacsh (y : Syl)
  | nop (y : Syl)
  | br (y : Syl)
  | call (y : Syl)
  | jr (y : Syl)
  | loop (y : Syl)
  | loopi (y : Syl)
  | loopEnd (core : Fin 136)
  | rep (y : Syl)
  | repi (y : Syl)
  | fence (y : Syl)
  | done (y : Syl)
  | trap (y : Syl)
  | rfe (y : Syl)
  | signal (y : Syl)
  | viol (y : Syl)
  | mfc (y : Syl)
  | mtc (y : Syl)
  | acq (y : Syl)
  | acwait (y : Syl)
  | acpoll (y : Syl)
  -- control-core caches, interrupts, write buffers, accelerators
  | dcClean (core : Fin 8) (addr : BitVec 48)
  | dcInv (core : Fin 8) (addr : BitVec 48)
  | dcFlush (core : Fin 8) (addr : BitVec 48)
  | icInv (core : Fin 8) (addr : BitVec 48)
  | interruptEntry (core : Fin 136)
  | cycCmpMatch (core : Fin 136)
  | writeBufferDrain (core : Fin 136)
  | acqCommit (core : Fin 128)
  | acceleratorCommandComplete (fold : Fin 16) (unit : Fin 4)
  | gram (fold : Fin 16)
  | chol (fold : Fin 16)
  | trsv (fold : Fin 16)
  | solve (fold : Fin 16)
  | dft (fold : Fin 16)
  | idft (fold : Fin 16)
  | goldBits (fold : Fin 16)
  | goldQpsk (fold : Fin 16)
  | zc (fold : Fin 16)
  | lowpapr (fold : Fin 16)
  | decode (fold : Fin 16)
  -- the on-chip network
  | read (p : Packet)
  | write (p : Packet)
  | writeAck (p : Packet)
  | readResp (p : Packet)
  | writeResp (p : Packet)
  | nocIsolate (n : Fin 2) (v : BitVec 64)
  | nocRelease (n : Fin 2) (v : BitVec 64)
  | nocRtDataRead
  | nocRtDataWrite (v : BitVec 64)
  | nocStatClr
  -- memories and Move engines
  | scrubWord (g : Fin 64)
  | memoryInitComplete (g : Fin 64) (ok : Bool)
  | memStatClr
  | copy (e : Fin 8) (host : HostData)
  | movGo (e : Fin 8) (h : Fin 16) (v : BitVec 64)
  | movKick (e : Fin 8) (h : Fin 16)
  | movTransferComplete (e : Fin 8)
  | clear (e : Fin 8) (h : Fin 16)
  | movChRing (e : Fin 8) (h : Fin 16) (v : BitVec 64)
  | movStatClr
  -- Drove links; a received frame is its line bits from the alignment word on, and the delay that deskew would give the lane
  | drlGrpLanes (g : Fin 32) (v : BitVec 64)
  | drlGrpCfg (g : Fin 32) (v : BitVec 64)
  | droveFrameTransmit (g : Fin 32)
  | droveFrameReceive (l : Fin 64) (line : List Bool) (skew : BitVec 16)
  | pmSecondEnd
  | pmPeriodEnd
  | drlStatClr
  -- the Burlos fabric; a received message is its first segment's header as received, and its payload from the muster number on
  | segmentReceive (g : Fin 32)
  | remoteRequestSend
  | fabTimeout (tag : BitVec 8)
  | tagQuarantineEnd (tag : BitVec 8)
  | beHoldExpiry (g : Fin 32)
  | fabMsgTx (v : BitVec 64)
  | fabRxDb (v : BitVec 64)
  | musterCall (h : BitVec 64) (p : List (BitVec 8))
  | musterLinks (h : BitVec 64) (p : List (BitVec 8))
  | musterAssign (h : BitVec 64) (p : List (BitVec 8))
  | musterAck (p : List (BitVec 8))
  | musterDone (h : BitVec 64) (p : List (BitVec 8))
  | musterAbort (h : BitVec 64) (p : List (BitVec 8))
  | muster (v : BitVec 64)
  | musterEpoch
  | musterTimeout
  | musterBackoffEnd
  | musterPeriodicCall
  | loneProbe
  | swapAnnounce (h : BitVec 64) (p : List (BitVec 8))
  | swapAck (h : BitVec 64) (p : List (BitVec 8))
  | swapNak (h : BitVec 64) (p : List (BitVec 8))
  | swapCommit (h : BitVec 64) (p : List (BitVec 8))
  | swapCancel (h : BitVec 64) (p : List (BitVec 8))
  | cellStart (h : BitVec 64) (p : List (BitVec 8))
  | cellResult (p : List (BitVec 8))
  | fabStatClr
  -- serial lanes
  | sdsQuadCfg (q : Fin 16) (v : BitVec 64)
  | pllLock (q : Fin 16)
  | quadReady (q : Fin 16)
  | pllNoLock (q : Fin 16)
  | pllLossOfLock (q : Fin 16)
  | signalChange (l : Fin 64) (present : Bool)
  | cdrLockChange (l : Fin 64) (tracking : Bool)
  | adaptationComplete (l : Fin 64) (ctle : BitVec 4) (taps : BitVec 51) (h : Fin 65) (v : Fin 129)
  | readapt (l : Fin 64) (v : BitVec 64)
  | lpbk (l : Fin 64) (v : BitVec 64)
  | fomMeasurement (l : Fin 64) (taps : BitVec 51) (h : Fin 65) (v : Fin 129)
  | sdsLaneFfe (l : Fin 64) (v : BitVec 64)
  | errInj (l : Fin 64) (v : BitVec 64)
  | chkEn (l : Fin 64) (v : BitVec 64)
  | sdsStatClr
  | prbsCheckerLock (l : Fin 64) (lock : Bool) (mismatches : BitVec 32)
  -- time
  | referenceEvaluation (obs : List RefObs) (dco : BitVec 32)
  | timeStepFix
  | timeStep
  | pullComplete
  | timStepArm
  | timStepDisarm
  | timVrefSub (v : BitVec 64)
  | timTodSecRead
  | timOutStep (o : Fin 6) (v : BitVec 64)
  | outputStepApply (o : Fin 6)
  | ptpFrameReceive (f : RxFrame)
  | esmcReceive (f : RxFrame)
  | esmcTimeout (n : Fin 2)
  | timRxDb (v : BitVec 64)
  | timTxDb (v : BitVec 64)
  | ptpTxDeparture (sfd : BitVec 64)
  | eventTimerArm (n : Fin 2) (v : BitVec 64)
  | eventTimerFire (n : Fin 8)
  | gpioPulseEnd (n : Fin 32)
  | timStatClr
  -- power
  | powerPlanTransition (d : Fin 69)
  | handshakeReask (d : Fin 69)
  | entryComplete (d : Fin 69)
  | powerGood (d : Fin 69)
  | domainWakeFail (d : Fin 69)
  | domainWakeComplete (d : Fin 69)
  | avsExchangeStart
  | avsAck
  | avsNoAck
  | pwrForceOn (n : Fin 2) (v : BitVec 64)
  | fwState (d : Fin 69) (v : BitVec 64)
  | clearFail (d : Fin 69)
  | pwrStatClr
  -- start-up and host; an image is what the flash holds from byte 0 on, and a BAR access names its offset in the window
  | powerOnReset
  | deviceReset (v : BitVec 64)
  | pcieReset
  | pcieReady
  | pcieLinkChange (up : Bool) (speed : BitVec 3) (width : BitVec 4)
  | hostBarWrite (bar2 : Bool) (offset : BitVec 37) (data : List (BitVec 8))
  | hostBarRead (bar2 : Bool) (offset : BitVec 37) (len : BitVec 13)
  | pcieReadCompletion (n : Fin 256) (status : Fin 4) (data : List (BitVec 8))
  | completionTimeout (n : Fin 256)
  | bootReadComplete (image : List (BitVec 8))
  | noFlash
  | flashError (section_ : Fin 32)
  | sysBootGo
  | bootLock
  | almanacStart
  | fhReady
  | statusPortRead (addr : BitVec 16)
  | stpDb (addr : BitVec 16) (v : BitVec 32)
  | thermCrossing (temp : BitVec 16)
  | registerWrite (ws : List RegWrite) (reads : List (BitVec 48))
  | aonPowerGood
  | aonPowerLoss
  | pwronNRelease
  | dcoFreerunStart
  | systemPllLock
  | configurationRequest (write : Bool) (offset : BitVec 12) (v : BitVec 32)
  -- faults and return to service
  | unitHwFault (cls : Fin 6) (phys : Fin 32) (sram : Bool)
  | fltReset (cls : Fin 7) (phys : Fin 32)
  | fltRestore (cls : Fin 6) (phys : Fin 32)
  | restoreComplete (cls : Fin 6) (phys : Fin 32) (ok : Bool)
  | fltReturn (cls : Fin 6) (phys : Fin 32)
  | unitReturned
  | unitBarred
  | consume (n : BitVec 8)
  | fltStatClr
  -- the Crook port and the maintenance UART; a received character is what its samples read: data, parity and stop bits
  | testLogicReset
  | extest (cells : List Bool)
  | sample
  | idcode
  | bypass
  | nonce
  | auth (mac : BitVec 256)
  | lockoutEnd
  | access (write : Bool) (addr : BitVec 48) (data : BitVec 64)
  | accessComplete
  | halt
  | resume
  | resumeRestart
  | almanacRestart
  | detach
  | sleepEmulationEnd
  | uartTx (v : BitVec 64)
  | uartRxCharacter (data : BitVec 8) (parity stop : Bool)
  | uartRx
  | uartCfg (v : BitVec 64)
  | uartTxEmpty
  deriving DecidableEq, Repr

end Sys2Proof
end

