-- ==== Sys2Proof/Decode.lean ====
section
/-!
DEFINITION. The command that a word of the opcode table spells: the table gives no row any bits, so no word spells a command. And the
syllables of the DSP cores: the command that a 32-bit word is, and its word (R226 to R239).
-/
namespace Sys2Proof

/-- The command of a word of `nbits` bits: none, since no row of the table has bits. -/
def decodeTableWord (_nbits _w : Nat) : Option Instr := none

/-! ### Syllables -/

/-- The fields of a syllable; an extension syllable shows its core and STOP. -/
def sylOf : Instr → Option Syl
  | .ext core stop _ => some ⟨core, stop, 0, 0, none⟩
  | .add y | .sub y | .and y | .or y | .xor y | .andn y | .shl y | .shr y
  | .sar y | .min y | .max y | .minu y | .maxu y | .abs y | .clz y | .popc y
  | .mul y | .mulh y | .mulq y | .mov y | .sext y | .cmpeq y | .cmplt y | .cmpltu y
  | .cmple y | .addi y | .andi y | .ori y | .xori y | .shli y | .shri y | .sari y
  | .sarri y | .muli y | .movi y | .cmpeqi y | .cmplti y | .cmpltui y | .addpi y | .addp y
  | .movps y | .movsp y | .movks y | .movsk y | .qand y | .qor y | .qxor y | .qandn y
  | .qnot y | .qfroms y | .qtos y | .qseti y | .ldb y | .ldbu y | .ldh y | .ldhu y
  | .ldw y | .ldwu y | .ldd y | .ldp y | .vld y | .vldw y | .stb y | .sth y
  | .stw y | .std y | .stp y | .vst y | .vstw y | .vadd y | .vsub y | .vmin y
  | .vmax y | .vabs y | .vneg y | .vand y | .vor y | .vxor y | .vshl y | .vshr y
  | .vcmpeq y | .vcmplt y | .vsel y | .vperm y | .vsplat y | .vext y | .vconj y | .vswapiq y
  | .vpack y | .vunpkl y | .vunpkh y | .vmov y | .vmul y | .vcmul y | .vcmulc y | .vmac y
  | .vmsu y | .vcmac y | .vcmacc y | .vcmag y | .vaclr y | .vrd y | .vacsl y | .vacsh y
  | .nop y | .br y | .call y | .jr y | .loop y | .loopi y | .rep y | .repi y
  | .fence y | .done y | .trap y | .rfe y | .signal y | .viol y | .mfc y | .mtc y
  | .acq y | .acwait y | .acpoll y => some y
  | _ => none

/-- Group 0 (R231): the operation of OPC. A reserved OPC is given as the command of the group that stands here, marked. -/
def group0 (opc : BitVec 5) (y : Syl) : Instr :=
  match opc.toNat with
  | 0x00 => .add y
  | 0x01 => .sub y
  | 0x02 => .and y
  | 0x03 => .or y
  | 0x04 => .xor y
  | 0x05 => .andn y
  | 0x06 => .shl y
  | 0x07 => .shr y
  | 0x08 => .sar y
  | 0x09 => .min y
  | 0x0A => .max y
  | 0x0B => .minu y
  | 0x0C => .maxu y
  | 0x0D => .abs y
  | 0x0E => .clz y
  | 0x0F => .popc y
  | 0x10 => .mul y
  | 0x11 => .mulh y
  | 0x12 => .mulq y
  | 0x13 => .mov y
  | 0x14 => .sext y
  | 0x18 => .cmpeq y
  | 0x19 => .cmplt y
  | 0x1A => .cmpltu y
  | 0x1B => .cmple y
  | _ => .add { y with rsv := some opc }

/-- Group 1 (R232): the operation of OPC. A reserved OPC is given as the command of the group that stands here, marked. -/
def group1 (opc : BitVec 5) (y : Syl) : Instr :=
  match opc.toNat with
  | 0x00 => .addi y
  | 0x02 => .andi y
  | 0x03 => .ori y
  | 0x04 => .xori y
  | 0x06 => .shli y
  | 0x07 => .shri y
  | 0x08 => .sari y
  | 0x09 => .sarri y
  | 0x10 => .muli y
  | 0x13 => .movi y
  | 0x18 => .cmpeqi y
  | 0x19 => .cmplti y
  | 0x1A => .cmpltui y
  | _ => .addi { y with rsv := some opc }

/-- Group 2 (R233): the operation of OPC. A reserved OPC is given as the command of the group that stands here, marked. -/
def group2 (opc : BitVec 5) (y : Syl) : Instr :=
  match opc.toNat with
  | 0x00 => .addpi y
  | 0x01 => .addp y
  | 0x02 => .movps y
  | 0x03 => .movsp y
  | 0x04 => .movks y
  | 0x05 => .movsk y
  | 0x08 => .qand y
  | 0x09 => .qor y
  | 0x0A => .qxor y
  | 0x0B => .qandn y
  | 0x0C => .qnot y
  | 0x0D => .qfroms y
  | 0x0E => .qtos y
  | 0x0F => .qseti y
  | _ => .addp { y with rsv := some opc }

/-- Group 3 (R234): the operation of OPC. A reserved OPC is given as the command of the group that stands here, marked. -/
def group3 (opc : BitVec 5) (y : Syl) : Instr :=
  match opc.toNat with
  | 0x00 => .ldb y
  | 0x01 => .ldbu y
  | 0x02 => .ldh y
  | 0x03 => .ldhu y
  | 0x04 => .ldw y
  | 0x05 => .ldwu y
  | 0x06 => .ldd y
  | 0x07 => .ldp y
  | 0x08 => .vld y
  | 0x09 => .vldw y
  | 0x10 => .stb y
  | 0x11 => .sth y
  | 0x12 => .stw y
  | 0x13 => .std y
  | 0x14 => .stp y
  | 0x18 => .vst y
  | 0x19 => .vstw y
  | _ => .ldb { y with rsv := some opc }

/-- Group 4 (R236): the operation of OPC. A reserved OPC is given as the command of the group that stands here, marked. -/
def group4 (opc : BitVec 5) (y : Syl) : Instr :=
  match opc.toNat with
  | 0x00 => .vadd y
  | 0x01 => .vsub y
  | 0x02 => .vmin y
  | 0x03 => .vmax y
  | 0x04 => .vabs y
  | 0x05 => .vneg y
  | 0x06 => .vand y
  | 0x07 => .vor y
  | 0x08 => .vxor y
  | 0x09 => .vshl y
  | 0x0A => .vshr y
  | 0x0C => .vcmpeq y
  | 0x0D => .vcmplt y
  | 0x0E => .vsel y
  | 0x0F => .vperm y
  | 0x10 => .vsplat y
  | 0x11 => .vext y
  | 0x12 => .vconj y
  | 0x13 => .vswapiq y
  | 0x14 => .vpack y
  | 0x16 => .vunpkl y
  | 0x17 => .vunpkh y
  | 0x18 => .vmov y
  | _ => .vadd { y with rsv := some opc }

/-- Group 5 (R237, R238): the operation of OPC. A reserved OPC is given as the command of the group that stands here, marked. -/
def group5 (opc : BitVec 5) (y : Syl) : Instr :=
  match opc.toNat with
  | 0x00 => .vmul y
  | 0x01 => .vcmul y
  | 0x02 => .vcmulc y
  | 0x04 => .vmac y
  | 0x05 => .vmsu y
  | 0x06 => .vcmac y
  | 0x07 => .vcmacc y
  | 0x08 => .vcmag y
  | 0x09 => .vaclr y
  | 0x0C => .vrd y
  | 0x10 => .vacsl y
  | 0x11 => .vacsh y
  | _ => .vmul { y with rsv := some opc }

/-- Group 6 (R239): the operation of OPC. A reserved OPC is given as the command of the group that stands here, marked. -/
def group6 (opc : BitVec 5) (y : Syl) : Instr :=
  match opc.toNat with
  | 0x00 => .nop y
  | 0x01 => .br y
  | 0x02 => .call y
  | 0x03 => .jr y
  | 0x04 => .loop y
  | 0x05 => .loopi y
  | 0x06 => .rep y
  | 0x07 => .repi y
  | 0x08 => .fence y
  | 0x09 => .done y
  | 0x0A => .trap y
  | 0x0B => .rfe y
  | 0x0C => .signal y
  | 0x0D => .viol y
  | 0x0E => .mfc y
  | 0x0F => .mtc y
  | 0x10 => .acq y
  | 0x11 => .acwait y
  | 0x12 => .acpoll y
  | _ => .nop { y with rsv := some opc }

/-- The command of a syllable's word (R226, R227, R228). -/
def decodeSyllable (core : Fin 136) (w : BitVec 32) : Instr :=
  let opc : BitVec 5 := w.extractLsb' 20 5
  let y : Syl := ⟨core, w.getLsbD 31, w.extractLsb' 25 3, w.extractLsb' 0 20, none⟩
  match (w.extractLsb' 28 3).toNat with
  | 0 => group0 opc y
  | 1 => group1 opc y
  | 2 => group2 opc y
  | 3 => group3 opc y
  | 4 => group4 opc y
  | 5 => group5 opc y
  | 6 => group6 opc y
  | _ => .ext core (w.getLsbD 31) (w.extractLsb' 0 28)

/-- Group and OPC of a syllable other than an extension. -/
def sylCode : Instr → Option (BitVec 3 × BitVec 5)
  | .add _ => some (0, 0x00)
  | .sub _ => some (0, 0x01)
  | .and _ => some (0, 0x02)
  | .or _ => some (0, 0x03)
  | .xor _ => some (0, 0x04)
  | .andn _ => some (0, 0x05)
  | .shl _ => some (0, 0x06)
  | .shr _ => some (0, 0x07)
  | .sar _ => some (0, 0x08)
  | .min _ => some (0, 0x09)
  | .max _ => some (0, 0x0A)
  | .minu _ => some (0, 0x0B)
  | .maxu _ => some (0, 0x0C)
  | .abs _ => some (0, 0x0D)
  | .clz _ => some (0, 0x0E)
  | .popc _ => some (0, 0x0F)
  | .mul _ => some (0, 0x10)
  | .mulh _ => some (0, 0x11)
  | .mulq _ => some (0, 0x12)
  | .mov _ => some (0, 0x13)
  | .sext _ => some (0, 0x14)
  | .cmpeq _ => some (0, 0x18)
  | .cmplt _ => some (0, 0x19)
  | .cmpltu _ => some (0, 0x1A)
  | .cmple _ => some (0, 0x1B)
  | .addi _ => some (1, 0x00)
  | .andi _ => some (1, 0x02)
  | .ori _ => some (1, 0x03)
  | .xori _ => some (1, 0x04)
  | .shli _ => some (1, 0x06)
  | .shri _ => some (1, 0x07)
  | .sari _ => some (1, 0x08)
  | .sarri _ => some (1, 0x09)
  | .muli _ => some (1, 0x10)
  | .movi _ => some (1, 0x13)
  | .cmpeqi _ => some (1, 0x18)
  | .cmplti _ => some (1, 0x19)
  | .cmpltui _ => some (1, 0x1A)
  | .addpi _ => some (2, 0x00)
  | .addp _ => some (2, 0x01)
  | .movps _ => some (2, 0x02)
  | .movsp _ => some (2, 0x03)
  | .movks _ => some (2, 0x04)
  | .movsk _ => some (2, 0x05)
  | .qand _ => some (2, 0x08)
  | .qor _ => some (2, 0x09)
  | .qxor _ => some (2, 0x0A)
  | .qandn _ => some (2, 0x0B)
  | .qnot _ => some (2, 0x0C)
  | .qfroms _ => some (2, 0x0D)
  | .qtos _ => some (2, 0x0E)
  | .qseti _ => some (2, 0x0F)
  | .ldb _ => some (3, 0x00)
  | .ldbu _ => some (3, 0x01)
  | .ldh _ => some (3, 0x02)
  | .ldhu _ => some (3, 0x03)
  | .ldw _ => some (3, 0x04)
  | .ldwu _ => some (3, 0x05)
  | .ldd _ => some (3, 0x06)
  | .ldp _ => some (3, 0x07)
  | .vld _ => some (3, 0x08)
  | .vldw _ => some (3, 0x09)
  | .stb _ => some (3, 0x10)
  | .sth _ => some (3, 0x11)
  | .stw _ => some (3, 0x12)
  | .std _ => some (3, 0x13)
  | .stp _ => some (3, 0x14)
  | .vst _ => some (3, 0x18)
  | .vstw _ => some (3, 0x19)
  | .vadd _ => some (4, 0x00)
  | .vsub _ => some (4, 0x01)
  | .vmin _ => some (4, 0x02)
  | .vmax _ => some (4, 0x03)
  | .vabs _ => some (4, 0x04)
  | .vneg _ => some (4, 0x05)
  | .vand _ => some (4, 0x06)
  | .vor _ => some (4, 0x07)
  | .vxor _ => some (4, 0x08)
  | .vshl _ => some (4, 0x09)
  | .vshr _ => some (4, 0x0A)
  | .vcmpeq _ => some (4, 0x0C)
  | .vcmplt _ => some (4, 0x0D)
  | .vsel _ => some (4, 0x0E)
  | .vperm _ => some (4, 0x0F)
  | .vsplat _ => some (4, 0x10)
  | .vext _ => some (4, 0x11)
  | .vconj _ => some (4, 0x12)
  | .vswapiq _ => some (4, 0x13)
  | .vpack _ => some (4, 0x14)
  | .vunpkl _ => some (4, 0x16)
  | .vunpkh _ => some (4, 0x17)
  | .vmov _ => some (4, 0x18)
  | .vmul _ => some (5, 0x00)
  | .vcmul _ => some (5, 0x01)
  | .vcmulc _ => some (5, 0x02)
  | .vmac _ => some (5, 0x04)
  | .vmsu _ => some (5, 0x05)
  | .vcmac _ => some (5, 0x06)
  | .vcmacc _ => some (5, 0x07)
  | .vcmag _ => some (5, 0x08)
  | .vaclr _ => some (5, 0x09)
  | .vrd _ => some (5, 0x0C)
  | .vacsl _ => some (5, 0x10)
  | .vacsh _ => some (5, 0x11)
  | .nop _ => some (6, 0x00)
  | .br _ => some (6, 0x01)
  | .call _ => some (6, 0x02)
  | .jr _ => some (6, 0x03)
  | .loop _ => some (6, 0x04)
  | .loopi _ => some (6, 0x05)
  | .rep _ => some (6, 0x06)
  | .repi _ => some (6, 0x07)
  | .fence _ => some (6, 0x08)
  | .done _ => some (6, 0x09)
  | .trap _ => some (6, 0x0A)
  | .rfe _ => some (6, 0x0B)
  | .signal _ => some (6, 0x0C)
  | .viol _ => some (6, 0x0D)
  | .mfc _ => some (6, 0x0E)
  | .mtc _ => some (6, 0x0F)
  | .acq _ => some (6, 0x10)
  | .acwait _ => some (6, 0x11)
  | .acpoll _ => some (6, 0x12)
  | _ => none

/-- The word of a syllable. -/
def encodeSyllable (i : Instr) : Option (BitVec 32) :=
  match i with
  | .ext _ stop hi => some (BitVec.ofBool stop ++ (7 : BitVec 3) ++ hi)
  | i => match sylCode i, sylOf i with
    | some c, some y => some (BitVec.ofBool y.stop ++ c.1 ++ y.pg ++ y.rsv.getD c.2 ++ y.ops)
    | _, _ => none

/-- Whether an OPC is reserved in a group. -/
def reservedOpc (group : BitVec 3) (opc : BitVec 5) : Bool :=
  let used : List Nat := match group.toNat with
    | 0 => [0x00, 0x01, 0x02, 0x03, 0x04, 0x05, 0x06, 0x07, 0x08, 0x09, 0x0A, 0x0B, 0x0C, 0x0D, 0x0E, 0x0F, 0x10, 0x11, 0x12, 0x13, 0x14, 0x18, 0x19, 0x1A, 0x1B]
    | 1 => [0x00, 0x02, 0x03, 0x04, 0x06, 0x07, 0x08, 0x09, 0x10, 0x13, 0x18, 0x19, 0x1A]
    | 2 => [0x00, 0x01, 0x02, 0x03, 0x04, 0x05, 0x08, 0x09, 0x0A, 0x0B, 0x0C, 0x0D, 0x0E, 0x0F]
    | 3 => [0x00, 0x01, 0x02, 0x03, 0x04, 0x05, 0x06, 0x07, 0x08, 0x09, 0x10, 0x11, 0x12, 0x13, 0x14, 0x18, 0x19]
    | 4 => [0x00, 0x01, 0x02, 0x03, 0x04, 0x05, 0x06, 0x07, 0x08, 0x09, 0x0A, 0x0C, 0x0D, 0x0E, 0x0F, 0x10, 0x11, 0x12, 0x13, 0x14, 0x16, 0x17, 0x18]
    | 5 => [0x00, 0x01, 0x02, 0x04, 0x05, 0x06, 0x07, 0x08, 0x09, 0x0C, 0x10, 0x11]
    | 6 => [0x00, 0x01, 0x02, 0x03, 0x04, 0x05, 0x06, 0x07, 0x08, 0x09, 0x0A, 0x0B, 0x0C, 0x0D, 0x0E, 0x0F, 0x10, 0x11, 0x12]
    | _ => []
  !used.contains opc.toNat

/-- Whether a command is one that stands for the reserved OPCs of its group. -/
def standsForGroup : Instr → Bool
  | .add _ | .addi _ | .addp _ | .ldb _ | .vadd _ | .vmul _ | .nop _ => true
  | _ => false

/-- Whether a command's mark of a reserved OPC, if it has one, is one that a word can have. -/
def sylOk (i : Instr) : Bool :=
  match sylOf i, sylCode i with
  | some y, some c => match y.rsv with
    | some o => standsForGroup i && reservedOpc c.1 o
    | none => true
  | _, _ => true

end Sys2Proof
end

