-- ==== Sys2Proof/Config.lean ====
section
/-!
DEFINITION. What the spec leaves to the part, to fuses or to nobody: constants with no body. A statement about one of
them holds for every value it may have. The uses are listed in the assumption log.
-/
namespace Sys2Proof.Config

/-- A value of `w` bits that the spec leaves open; the argument is the count of values drawn so far. -/
opaque freeBits (w : Nat) : Nat → BitVec w

/-- A boolean outcome that the spec leaves open. -/
opaque freeBool : Nat → Bool

/-- Silicon revision, from fuses (R438 SYS_ID, R459). -/
opaque fuseRevision : BitVec 8

/-- Unique id, from fuses (R356 FAB_UID). -/
opaque fuseUid : Word

/-- Subsystem id, from fuses (R440). -/
opaque fuseSsid : BitVec 16

/-- Subsystem vendor id, from fuses (R440). -/
opaque fuseSsvid : BitVec 16

/-- Device id, from fuses (R433). -/
opaque fuseDid : BitVec 16

/-- Vendor id, from fuses (R433). -/
opaque fuseVid : BitVec 16

/-- Fused minimum of rail `r` in mV (R418 PWR_AVS_CFG.VMIN). -/
opaque fuseVmin (r : Nat) : BitVec 10

/-- The AUTH_REQ fuse (R425, R460). -/
opaque fuseAuthReq : Bool

/-- Manufacturer identity of the IDCODE word, from fuses (R459). -/
opaque fuseManufacturer : BitVec 11

/-- The KEY_HASH fuses: a SHA-384 digest, most significant byte first (R425). -/
opaque fuseKeyHash : BitVec 384

/-- The debug key fuses, byte i in bits [8i+7:8i] (R460). -/
opaque fuseDebugKey : BitVec 256

/-- Bytes of the staging space that the build report of an almanac build assigns to a cell, slot and entry index (R173). -/
opaque stagingBytes (build : Word) (cell slot index : Nat) : BitVec 32

/-- Device address of that staging space in Pasture memory (R173). -/
opaque stagingAddr (build : Word) (cell slot index : Nat) : BitVec 32

/-- Device address that the Drover gives a release for the staged copy of its request entry (R62). -/
opaque entryAddr (request entry : Nat) : BitVec 48

/-- Byte offset in Pasture memory of the antenna buffer that Taruno places for a cell's symbol occurrence, named by the calendar index
of its slot and its symbol (R115). -/
opaque antennaBuffer (build : Word) (cell slotIndex symbol : Nat) : BitVec 27

/-- Byte offset in Pasture memory of the transmit buffer of a cell's symbol occurrence (R115). -/
opaque transmitBuffer (build : Word) (cell slotIndex symbol : Nat) : BitVec 27

/-- Whether a subcarrier of a transform-precoded PUSCH symbol carries PTRS: the request entry holds too little to place them
(R136). -/
opaque transformPtrs (rnti prbs symbol subcarrier : Nat) : Bool

/-- Base graph of an MCS that gives no code rate of its own: whether it is base graph 2 (R153). -/
opaque reservedGraph2 (table mcs tbs : Nat) : Bool

/-- Whether the SSB of the build report occupies subcarrier `k` of a symbol of a cell's slot (R175). -/
opaque ssbRe (build : Word) (cell slotIndex symbol k : Nat) : Bool

/-- Byte offset in Pasture memory of the channel store that WEIGHT_SET names in a cell (R133). -/
opaque channelStore (build : Word) (cell weightSet : Nat) : BitVec 27

/-- Coded bits of HARQ-ACK, SR and CSI part 1 on a PUCCH that also carries CSI part 2: they follow from a code rate that the entry does not
hold (TS 38.212 clause 6.3.1.4). -/
opaque pucchSplit (entry : List Byte) : Nat

/-- First symbol in its slot and first subcarrier of an SSB of the build report (R130, R177). -/
opaque ssbSymbol (build : Word) (cell ssb : Nat) : BitVec 4
opaque ssbCarrier (build : Word) (cell ssb : Nat) : BitVec 12

/-- The largest number of SSBs of a half-frame of a cell: 4, 8 or 64 (TS 38.213 clause 4.1). -/
opaque ssbMost (build : Word) (cell : Nat) : Nat

/-- Index of the first sample of a part of the LTE control buffer: 0 the PCFICH, 1 the PHICH groups, 2 the CCEs (R177). -/
opaque lteControlBase (part : Nat) : BitVec 16

/-- Index `i` of the polar sequence, in ascending reliability (TS 38.212 table 5.3.1.2-1). -/
opaque polarOrder (i : Nat) : BitVec 10

/-- Row `i` of the basis of the (32, 11) block code, M_(i,0) in bit 0 (TS 38.212 table 5.3.3.3-1, TS 36.212 table 5.2.2.6.4-1). -/
opaque reedMullerRow (i : Nat) : BitVec 11

/-- f1 and f2 of the internal interleaver of a turbo code of `k` bits (TS 36.212 table 5.1.3-3). -/
opaque qppF1 (k : Nat) : BitVec 10
opaque qppF2 (k : Nat) : BitVec 10

/-- The shift V of an entry of a base graph for a set of lifting sizes, none where the entry is 0 (TS 38.212 tables 5.3.2-2 and 5.3.2-3). -/
opaque ldpcShift (graph2 : Bool) (set row column : Nat) : Option (BitVec 9)

/-- The phase φ(n) of a base sequence of length 6, 12, 18 or 24, as (φ + 3) / 2 (TS 38.211 tables 5.2.2.2-1 to 5.2.2.2-4). -/
opaque shortPhase (length u n : Nat) : BitVec 2

/-- How long CLKOUT stays high after a rising edge, in 2^-16 ns, for each FREQ, and the frequency in Hz that a reserved FREQ gives (R391). -/
opaque clkHigh (freq : BitVec 3) : BitVec 24
opaque clkReserved (freq : BitVec 3) : BitVec 28

/-- Δss of an LTE cell (TS 36.211 clause 5.5.1.3). -/
opaque lteDeltaSs (cell : Nat) : BitVec 5

/-- The physical root that a logical root of the long PRACH sequences names (TS 38.211 table 6.3.3.1-3, R142). -/
opaque prachLongRoot (logical : Nat) : BitVec 10

/-- The first RE of the PRACH sequence within the PRBs of an FDM occasion of a PRA_CELL entry. -/
opaque prachFirstRe (build : Word) (entry : Nat) : BitVec 6

/-- The power of two that scales a power-delay profile of a format into its 32-bit words (R144). -/
opaque prachShift (format : Nat) : Nat

/-- The first word of a bank in the memory of its PRACH engine, by PRA_CELL entry, FDM occasion and format select (R144). -/
opaque prachBank (build : Word) (entry fdm sel : Nat) : BitVec 18

/-- One less than the profile word that stands for 0 dBFS in the records of a format (R147). -/
opaque prachFull (format : Nat) : Nat

/-- Whether three quarters of a magnitude that is no multiple of 4 are rounded up (R159). -/
opaque quarterUp (magnitude : Nat) : Bool

/-- Boundary-scan cells of the part (R459). -/
opaque boundaryCells : Nat

/-- Offset in PCI Express configuration space of the power management control and status register, whose bits [1:0] select D0 or
D3hot (R433). -/
opaque pmcsrOffset : Nat

/-- What a byte of PCI Express configuration space that the spec gives no value reads as until it is written. -/
opaque configByte (offset : Nat) : BitVec 8

end Sys2Proof.Config
end

