-- ==== Sys2Proof/Machine/RegMap.lean ====
section
/-!
DEFINITION. The register map of the twenty register blocks (R8, and the map of each block: R56, R86, R112, R150, R151,
R181, R285, R310, R311, R332, R356, R372, R401, R418, R438, R439, R440, R458, R470, R471): the registers by the
spec's names, where each lies (as BAR0 offset, R9), the access code of every field as write masks (R5), the reset
values, and the places of the fields.
-/
namespace Sys2Proof.Machine

/-- The registers of the spec's register maps, by the spec's names; a bracketed index is an argument. -/
inductive Reg where
  | ALM_ID
  | ALM_LOAD_SRC
  | ALM_LOAD_LEN
  | ALM_FW_SRC
  | ALM_FW_LEN
  | ALM_CTRL
  | ALM_LOAD_STATUS
  | ALM_SHADOW_INFO
  | ALM_SHADOW_BUILD
  | ALM_ACTIVE_INFO
  | ALM_ACTIVE_BUILD
  | ALM_SWAP_FRAME
  | ALM_SWAP_GROUP
  | ALM_SWAP_CTRL
  | ALM_SWAP_STATUS
  | ALM_POS
  | ALM_STATS
  | ALM_SHED
  | ALM_EMAP (n : Nat)
  | ALM_FALLOW (m : Nat)
  | DRV_CTRL
  | DRV_STORE
  | DRV_STATS_A
  | DRV_STATS_B
  | DRV_REJ_LAST
  | DRV_CELLCFG_SH (i : Nat)
  | DRV_CELLCFG (i : Nat)
  | DRV_CELL_STATE (i : Nat)
  | DRV_RQ_BASE (q : Nat)
  | DRV_RQ_CFG (q : Nat)
  | DRV_RQ_DB (q : Nat)
  | DRV_RQ_CI (q : Nat)
  | DRV_CQ_BASE (q : Nat)
  | DRV_CQ_CFG (q : Nat)
  | DRV_CQ_DB (q : Nat)
  | DRV_CQ_PI (q : Nat)
  | FHL_CTRL
  | FHL_EARLY
  | FHL_DLY_CTRL
  | FHL_DLY_RESULT
  | FHL_PEER (m : Nat)
  | FHL_EAXC (n : Nat)
  | FHL_PORT_CFG (p : Nat)
  | FHL_PORT_MAC (p : Nat)
  | FHL_PORT_VLAN (p : Nat)
  | FHL_PORT_STATUS (p : Nat)
  | FHL_CNT (p : Nat) (i : Nat)
  | MCE_CTRL
  | MCE_GAIN_CFG
  | MCE_STATUS (n : Nat)
  | MCE_JOBS (n : Nat)
  | MCE_SAT (n : Nat)
  | PRA_CTRL
  | PRA_RING_BASE (r : Nat)
  | PRA_RING_CFG (r : Nat)
  | PRA_RING_DB (r : Nat)
  | PRA_RING_PI (r : Nat)
  | PRA_STATS (r : Nat)
  | PRA_CELL_A (i : Nat)
  | PRA_CELL_B (i : Nat)
  | PRA_CELL_C (i : Nat)
  | PRA_CELL_D (i : Nat)
  | DEC_CTRL
  | DEC_STATS
  | DEC_UID_STATUS (n : Nat)
  | DEC_ENC_STATUS (m : Nat)
  | DEC_CELL_A (c : Nat)
  | DEC_CELL_B (c : Nat)
  | DEC_CELL_C (c : Nat)
  | NOC_CTRL
  | NOC_RT_ADDR
  | NOC_RT_DATA
  | NOC_ISOLATE (i : Nat)
  | NOC_RELEASE (i : Nat)
  | NOC_CNT (k : Nat)
  | NOC_ERR_LAST
  | NOC_LINK (l : Nat)
  | NOC_NI (n : Nat)
  | MEM_CTRL
  | MEM_SCRUB_RATE
  | MEM_SCRUB_STAT
  | MEM_ECC_LAST
  | MEM_INJECT
  | MEM_REMAP_SEL
  | MEM_REMAP_DATA
  | MEM_DDR_CFG (c : Nat)
  | MEM_DDR_DEV (c : Nat)
  | MEM_GRP (g : Nat)
  | MOV_CTRL
  | MOV_ENG (e : Nat)
  | MOV_CH_CFG (e : Nat) (h : Nat)
  | MOV_CH_SRC (e : Nat) (h : Nat)
  | MOV_CH_DST (e : Nat) (h : Nat)
  | MOV_CH_XFER (e : Nat) (h : Nat)
  | MOV_CH_RING (e : Nat) (h : Nat)
  | MOV_CH_STATUS (e : Nat) (h : Nat)
  | MOV_CH_POS (e : Nat) (h : Nat)
  | MOV_CH_ERR_ADDR (e : Nat) (h : Nat)
  | DRL_CTRL
  | DRL_CFG
  | DRL_GRP_CFG (g : Nat)
  | DRL_GRP_LANES (g : Nat)
  | DRL_GRP_STATUS (g : Nat)
  | DRL_GRP_PEER_UID (g : Nat)
  | DRL_GRP_PEER (g : Nat)
  | DRL_LANE_STATUS (l : Nat)
  | DRL_PM (x : Nat) (k : Nat)
  | FAB_CTRL
  | FAB_CFG
  | FAB_UID
  | FAB_ADDR
  | FAB_MUSTER
  | FAB_EPOCH
  | FAB_MSG_TX
  | FAB_RX_BASE
  | FAB_RX_CFG
  | FAB_RX_DB
  | FAB_RX_PI
  | FAB_ERR_LAST
  | FAB_CNT (k : Nat)
  | FAB_GRP (g : Nat)
  | FAB_ROUTE (a : Nat)
  | FAB_ROUTE_SH (a : Nat)
  | FAB_POOL (a : Nat)
  | SDS_CTRL
  | SDS_QUAD_CFG (q : Nat)
  | SDS_QUAD_STATUS (q : Nat)
  | SDS_LANE_CFG (l : Nat)
  | SDS_LANE_FFE (l : Nat)
  | SDS_LANE_STATUS (l : Nat)
  | SDS_LANE_EQ (l : Nat)
  | SDS_LANE_PRBS (l : Nat)
  | SDS_LANE_PRBS_CNT (l : Nat)
  | TIM_CTRL
  | TIM_CFG
  | TIM_STATUS
  | TIM_DT
  | TIM_TOD_SEC
  | TIM_TOD_SUB
  | TIM_POS
  | TIM_TOD_SET
  | TIM_STEP_ARM
  | TIM_FREQ
  | TIM_VREF_SEC
  | TIM_VREF_AT
  | TIM_VREF_SUB
  | TIM_RX_BASE
  | TIM_RX_CFG
  | TIM_RX_DB
  | TIM_RX_PI
  | TIM_TX_BASE
  | TIM_TX_CFG
  | TIM_TX_DB
  | TIM_TX_CI
  | TIM_CNT (k : Nat)
  | TIM_REF_CFG (i : Nat)
  | TIM_REF_STATUS (i : Nat)
  | TIM_OUT (o : Nat)
  | TIM_OUT_STEP (o : Nat)
  | TIM_EVT_CMP (n : Nat)
  | TIM_EVT_CTRL (n : Nat)
  | TIM_PORT (p : Nat)
  | PWR_CTRL
  | PWR_MODE
  | PWR_STATS
  | PWR_REFUSE
  | PWR_FORCE_ON (i : Nat)
  | PWR_AVS_CFG (r : Nat)
  | PWR_AVS_STATUS (r : Nat)
  | PWR_DOM (d : Nat)
  | PWR_DOM_CFG (d : Nat)
  | SYS_ID
  | SYS_READY
  | SYS_CTRL
  | SYS_BOOT_STATUS
  | SYS_BOOT_SRC
  | SYS_BOOT_CTRL
  | SYS_COLLIDE
  | SYS_ALARM
  | SYS_THERM
  | HST_ID
  | HST_STATUS
  | HST_EVT_CFG
  | HST_STATS
  | FLT_CTRL
  | FLT_STATUS
  | FLT_UNIT_CTRL
  | FLT_UNIT_STATUS
  | FLT_STATS
  | FLT_UNIT_STATE (c : Nat) (h : Nat)
  | FLT_REC (i : Nat) (w : Nat)
  | DBG_CTRL
  | DBG_ATTACH
  | DBG_STATUS
  | DBG_AUTH_STAT
  | DBG_CORE_SEL
  | UART_CFG
  | UART_STATUS
  | UART_TX
  | UART_RX
  | UART_IRQ
  | STP_CTRL
  | STP_STATUS
  | STP_DB_PEND
  | STP_DB (i : Nat)
  | STP_FW (i : Nat)
  | HST_MSIX_ADDR (v : Nat)
  | HST_MSIX_CTRL (v : Nat)
  | HST_PBA
  deriving DecidableEq, Repr

/-- The BAR0 offset of a register (R8, R9). -/
def Reg.off : Reg → Nat
  | .ALM_ID => 0x020000
  | .ALM_LOAD_SRC => 0x020008
  | .ALM_LOAD_LEN => 0x020010
  | .ALM_FW_SRC => 0x020018
  | .ALM_FW_LEN => 0x020020
  | .ALM_CTRL => 0x020028
  | .ALM_LOAD_STATUS => 0x020030
  | .ALM_SHADOW_INFO => 0x020038
  | .ALM_SHADOW_BUILD => 0x020040
  | .ALM_ACTIVE_INFO => 0x020048
  | .ALM_ACTIVE_BUILD => 0x020050
  | .ALM_SWAP_FRAME => 0x020058
  | .ALM_SWAP_GROUP => 0x020060
  | .ALM_SWAP_CTRL => 0x020068
  | .ALM_SWAP_STATUS => 0x020070
  | .ALM_POS => 0x020078
  | .ALM_STATS => 0x020080
  | .ALM_SHED => 0x020088
  | .ALM_EMAP n => 0x020100 + 8 * n
  | .ALM_FALLOW m => 0x020380 + 8 * m
  | .DRV_CTRL => 0x030000
  | .DRV_STORE => 0x030008
  | .DRV_STATS_A => 0x030010
  | .DRV_STATS_B => 0x030018
  | .DRV_REJ_LAST => 0x030020
  | .DRV_CELLCFG_SH i => 0x030100 + 8 * i
  | .DRV_CELLCFG i => 0x030180 + 8 * i
  | .DRV_CELL_STATE i => 0x030200 + 8 * i
  | .DRV_RQ_BASE q => 0x031000 + 64 * q
  | .DRV_RQ_CFG q => 0x031008 + 64 * q
  | .DRV_RQ_DB q => 0x031010 + 64 * q
  | .DRV_RQ_CI q => 0x031018 + 64 * q
  | .DRV_CQ_BASE q => 0x031020 + 64 * q
  | .DRV_CQ_CFG q => 0x031028 + 64 * q
  | .DRV_CQ_DB q => 0x031030 + 64 * q
  | .DRV_CQ_PI q => 0x031038 + 64 * q
  | .FHL_CTRL => 0x080000
  | .FHL_EARLY => 0x080008
  | .FHL_DLY_CTRL => 0x080010
  | .FHL_DLY_RESULT => 0x080018
  | .FHL_PEER m => 0x080100 + 8 * m
  | .FHL_EAXC n => 0x081000 + 8 * n
  | .FHL_PORT_CFG p => 0x084000 + 256 * p
  | .FHL_PORT_MAC p => 0x084008 + 256 * p
  | .FHL_PORT_VLAN p => 0x084010 + 256 * p
  | .FHL_PORT_STATUS p => 0x084018 + 256 * p
  | .FHL_CNT p i => 0x084020 + 256 * p + 8 * i
  | .MCE_CTRL => 0x0C0000
  | .MCE_GAIN_CFG => 0x0C0008
  | .MCE_STATUS n => 0x0C0100 + 8 * n
  | .MCE_JOBS n => 0x0C0200 + 8 * n
  | .MCE_SAT n => 0x0C0280 + 8 * n
  | .PRA_CTRL => 0x0E0000
  | .PRA_RING_BASE r => 0x0E0100 + 64 * r
  | .PRA_RING_CFG r => 0x0E0108 + 64 * r
  | .PRA_RING_DB r => 0x0E0110 + 64 * r
  | .PRA_RING_PI r => 0x0E0118 + 64 * r
  | .PRA_STATS r => 0x0E0120 + 64 * r
  | .PRA_CELL_A i => 0x0E1000 + 32 * i
  | .PRA_CELL_B i => 0x0E1008 + 32 * i
  | .PRA_CELL_C i => 0x0E1010 + 32 * i
  | .PRA_CELL_D i => 0x0E1018 + 32 * i
  | .DEC_CTRL => 0x0D0000
  | .DEC_STATS => 0x0D0008
  | .DEC_UID_STATUS n => 0x0D0100 + 8 * n
  | .DEC_ENC_STATUS m => 0x0D0200 + 8 * m
  | .DEC_CELL_A c => 0x0D1000 + 32 * c
  | .DEC_CELL_B c => 0x0D1008 + 32 * c
  | .DEC_CELL_C c => 0x0D1010 + 32 * c
  | .NOC_CTRL => 0x040000
  | .NOC_RT_ADDR => 0x040008
  | .NOC_RT_DATA => 0x040010
  | .NOC_ISOLATE i => 0x040018 + 8 * i
  | .NOC_RELEASE i => 0x040028 + 8 * i
  | .NOC_CNT k => 0x040040 + 8 * k
  | .NOC_ERR_LAST => 0x040070
  | .NOC_LINK l => 0x040100 + 8 * l
  | .NOC_NI n => 0x040900 + 8 * n
  | .MEM_CTRL => 0x050000
  | .MEM_SCRUB_RATE => 0x050008
  | .MEM_SCRUB_STAT => 0x050010
  | .MEM_ECC_LAST => 0x050018
  | .MEM_INJECT => 0x050020
  | .MEM_REMAP_SEL => 0x050028
  | .MEM_REMAP_DATA => 0x050030
  | .MEM_DDR_CFG c => 0x050040 + 8 * c
  | .MEM_DDR_DEV c => 0x050060 + 8 * c
  | .MEM_GRP g => 0x050100 + 8 * g
  | .MOV_CTRL => 0x060000
  | .MOV_ENG e => 0x060100 + 8 * e
  | .MOV_CH_CFG e h => 0x061000 + 1024 * e + 64 * h
  | .MOV_CH_SRC e h => 0x061008 + 1024 * e + 64 * h
  | .MOV_CH_DST e h => 0x061010 + 1024 * e + 64 * h
  | .MOV_CH_XFER e h => 0x061018 + 1024 * e + 64 * h
  | .MOV_CH_RING e h => 0x061020 + 1024 * e + 64 * h
  | .MOV_CH_STATUS e h => 0x061028 + 1024 * e + 64 * h
  | .MOV_CH_POS e h => 0x061030 + 1024 * e + 64 * h
  | .MOV_CH_ERR_ADDR e h => 0x061038 + 1024 * e + 64 * h
  | .DRL_CTRL => 0x0A0000
  | .DRL_CFG => 0x0A0008
  | .DRL_GRP_CFG g => 0x0A0100 + 64 * g
  | .DRL_GRP_LANES g => 0x0A0108 + 64 * g
  | .DRL_GRP_STATUS g => 0x0A0110 + 64 * g
  | .DRL_GRP_PEER_UID g => 0x0A0118 + 64 * g
  | .DRL_GRP_PEER g => 0x0A0120 + 64 * g
  | .DRL_LANE_STATUS l => 0x0A0900 + 8 * l
  | .DRL_PM x k => 0x0A1000 + 256 * x + 8 * k
  | .FAB_CTRL => 0x090000
  | .FAB_CFG => 0x090008
  | .FAB_UID => 0x090010
  | .FAB_ADDR => 0x090018
  | .FAB_MUSTER => 0x090020
  | .FAB_EPOCH => 0x090028
  | .FAB_MSG_TX => 0x090030
  | .FAB_RX_BASE => 0x090038
  | .FAB_RX_CFG => 0x090040
  | .FAB_RX_DB => 0x090048
  | .FAB_RX_PI => 0x090050
  | .FAB_ERR_LAST => 0x090058
  | .FAB_CNT k => 0x090080 + 8 * k
  | .FAB_GRP g => 0x090100 + 8 * g
  | .FAB_ROUTE a => 0x090200 + 8 * a
  | .FAB_ROUTE_SH a => 0x090400 + 8 * a
  | .FAB_POOL a => 0x090600 + 8 * a
  | .SDS_CTRL => 0x0B0000
  | .SDS_QUAD_CFG q => 0x0B0100 + 8 * q
  | .SDS_QUAD_STATUS q => 0x0B0180 + 8 * q
  | .SDS_LANE_CFG l => 0x0B1000 + 64 * l
  | .SDS_LANE_FFE l => 0x0B1008 + 64 * l
  | .SDS_LANE_STATUS l => 0x0B1010 + 64 * l
  | .SDS_LANE_EQ l => 0x0B1018 + 64 * l
  | .SDS_LANE_PRBS l => 0x0B1020 + 64 * l
  | .SDS_LANE_PRBS_CNT l => 0x0B1028 + 64 * l
  | .TIM_CTRL => 0x070000
  | .TIM_CFG => 0x070008
  | .TIM_STATUS => 0x070010
  | .TIM_DT => 0x070018
  | .TIM_TOD_SEC => 0x070020
  | .TIM_TOD_SUB => 0x070028
  | .TIM_POS => 0x070030
  | .TIM_TOD_SET => 0x070038
  | .TIM_STEP_ARM => 0x070040
  | .TIM_FREQ => 0x070048
  | .TIM_VREF_SEC => 0x070050
  | .TIM_VREF_AT => 0x070058
  | .TIM_VREF_SUB => 0x070060
  | .TIM_RX_BASE => 0x070068
  | .TIM_RX_CFG => 0x070070
  | .TIM_RX_DB => 0x070078
  | .TIM_RX_PI => 0x070080
  | .TIM_TX_BASE => 0x070088
  | .TIM_TX_CFG => 0x070090
  | .TIM_TX_DB => 0x070098
  | .TIM_TX_CI => 0x0700A0
  | .TIM_CNT k => 0x0700C0 + 8 * k
  | .TIM_REF_CFG i => 0x070100 + 8 * i
  | .TIM_REF_STATUS i => 0x070140 + 8 * i
  | .TIM_OUT o => 0x070200 + 8 * o
  | .TIM_OUT_STEP o => 0x070240 + 8 * o
  | .TIM_EVT_CMP n => 0x070300 + 16 * n
  | .TIM_EVT_CTRL n => 0x070308 + 16 * n
  | .TIM_PORT p => 0x071000 + 8 * p
  | .PWR_CTRL => 0x010000
  | .PWR_MODE => 0x010008
  | .PWR_STATS => 0x010010
  | .PWR_REFUSE => 0x010018
  | .PWR_FORCE_ON i => 0x010020 + 8 * i
  | .PWR_AVS_CFG r => 0x010040 + 8 * r
  | .PWR_AVS_STATUS r => 0x010050 + 8 * r
  | .PWR_DOM d => 0x010100 + 8 * d
  | .PWR_DOM_CFG d => 0x010400 + 8 * d
  | .SYS_ID => 0x000000
  | .SYS_READY => 0x000008
  | .SYS_CTRL => 0x000010
  | .SYS_BOOT_STATUS => 0x000018
  | .SYS_BOOT_SRC => 0x000020
  | .SYS_BOOT_CTRL => 0x000028
  | .SYS_COLLIDE => 0x000030
  | .SYS_ALARM => 0x000038
  | .SYS_THERM => 0x000040
  | .HST_ID => 0x120000
  | .HST_STATUS => 0x120008
  | .HST_EVT_CFG => 0x120010
  | .HST_STATS => 0x120018
  | .FLT_CTRL => 0x130000
  | .FLT_STATUS => 0x130008
  | .FLT_UNIT_CTRL => 0x130010
  | .FLT_UNIT_STATUS => 0x130018
  | .FLT_STATS => 0x130020
  | .FLT_UNIT_STATE c h => 0x130100 + 8 * c + 64 * h
  | .FLT_REC i w => 0x131000 + 32 * i + 8 * w
  | .DBG_CTRL => 0x0F0000
  | .DBG_ATTACH => 0x0F0008
  | .DBG_STATUS => 0x0F0010
  | .DBG_AUTH_STAT => 0x0F0018
  | .DBG_CORE_SEL => 0x0F0020
  | .UART_CFG => 0x100000
  | .UART_STATUS => 0x100008
  | .UART_TX => 0x100010
  | .UART_RX => 0x100018
  | .UART_IRQ => 0x100020
  | .STP_CTRL => 0x110000
  | .STP_STATUS => 0x110008
  | .STP_DB_PEND => 0x110010
  | .STP_DB i => 0x110100 + 8 * i
  | .STP_FW i => 0x110400 + 8 * i
  | .HST_MSIX_ADDR v => 0x128000 + 16 * v
  | .HST_MSIX_CTRL v => 0x128008 + 16 * v
  | .HST_PBA => 0x129000

/-- The index `i` of an array that begins at `base`, holds `count` elements `stride` bytes apart, and whose element `i`
lies at `off`. -/
def arrayIndex (off base stride count : Nat) : Option Nat :=
  if base ≤ off ∧ (off - base) % stride = 0 ∧ (off - base) / stride < count then some ((off - base) / stride) else none

/-- As `arrayIndex` for an array of arrays: outer index, inner index. -/
def arrayIndex2 (off base stride count stride' count' : Nat) : Option (Nat × Nat) :=
  if base ≤ off ∧ (off - base) % stride % stride' = 0 ∧ (off - base) / stride < count
      ∧ (off - base) % stride / stride' < count' then
    some ((off - base) / stride, (off - base) % stride / stride') else none

/-- The register of the SYS block at an offset within BAR0. -/
def regAtSys (off : Nat) : Option Reg :=
  if off = 0x000000 then some .SYS_ID else
  if off = 0x000008 then some .SYS_READY else
  if off = 0x000010 then some .SYS_CTRL else
  if off = 0x000018 then some .SYS_BOOT_STATUS else
  if off = 0x000020 then some .SYS_BOOT_SRC else
  if off = 0x000028 then some .SYS_BOOT_CTRL else
  if off = 0x000030 then some .SYS_COLLIDE else
  if off = 0x000038 then some .SYS_ALARM else
  if off = 0x000040 then some .SYS_THERM else
  none

/-- The register of the PWR block at an offset within BAR0. -/
def regAtPwr (off : Nat) : Option Reg :=
  if off = 0x010000 then some .PWR_CTRL else
  if off = 0x010008 then some .PWR_MODE else
  if off = 0x010010 then some .PWR_STATS else
  if off = 0x010018 then some .PWR_REFUSE else
  ((arrayIndex off 0x010020 8 2).map .PWR_FORCE_ON) <|>
  ((arrayIndex off 0x010040 8 2).map .PWR_AVS_CFG) <|>
  ((arrayIndex off 0x010050 8 2).map .PWR_AVS_STATUS) <|>
  ((arrayIndex off 0x010100 8 71).map .PWR_DOM) <|>
  ((arrayIndex off 0x010400 8 69).map .PWR_DOM_CFG)

/-- The register of the ALM block at an offset within BAR0. -/
def regAtAlm (off : Nat) : Option Reg :=
  if off = 0x020000 then some .ALM_ID else
  if off = 0x020008 then some .ALM_LOAD_SRC else
  if off = 0x020010 then some .ALM_LOAD_LEN else
  if off = 0x020018 then some .ALM_FW_SRC else
  if off = 0x020020 then some .ALM_FW_LEN else
  if off = 0x020028 then some .ALM_CTRL else
  if off = 0x020030 then some .ALM_LOAD_STATUS else
  if off = 0x020038 then some .ALM_SHADOW_INFO else
  if off = 0x020040 then some .ALM_SHADOW_BUILD else
  if off = 0x020048 then some .ALM_ACTIVE_INFO else
  if off = 0x020050 then some .ALM_ACTIVE_BUILD else
  if off = 0x020058 then some .ALM_SWAP_FRAME else
  if off = 0x020060 then some .ALM_SWAP_GROUP else
  if off = 0x020068 then some .ALM_SWAP_CTRL else
  if off = 0x020070 then some .ALM_SWAP_STATUS else
  if off = 0x020078 then some .ALM_POS else
  if off = 0x020080 then some .ALM_STATS else
  if off = 0x020088 then some .ALM_SHED else
  ((arrayIndex off 0x020100 8 80).map .ALM_EMAP) <|>
  ((arrayIndex off 0x020380 8 16).map .ALM_FALLOW)

/-- The register of the DRV block at an offset within BAR0. -/
def regAtDrv (off : Nat) : Option Reg :=
  if off = 0x030000 then some .DRV_CTRL else
  if off = 0x030008 then some .DRV_STORE else
  if off = 0x030010 then some .DRV_STATS_A else
  if off = 0x030018 then some .DRV_STATS_B else
  if off = 0x030020 then some .DRV_REJ_LAST else
  ((arrayIndex off 0x030100 8 16).map .DRV_CELLCFG_SH) <|>
  ((arrayIndex off 0x030180 8 16).map .DRV_CELLCFG) <|>
  ((arrayIndex off 0x030200 8 4).map .DRV_CELL_STATE) <|>
  ((arrayIndex off 0x031000 64 16).map .DRV_RQ_BASE) <|>
  ((arrayIndex off 0x031008 64 16).map .DRV_RQ_CFG) <|>
  ((arrayIndex off 0x031010 64 16).map .DRV_RQ_DB) <|>
  ((arrayIndex off 0x031018 64 16).map .DRV_RQ_CI) <|>
  ((arrayIndex off 0x031020 64 16).map .DRV_CQ_BASE) <|>
  ((arrayIndex off 0x031028 64 16).map .DRV_CQ_CFG) <|>
  ((arrayIndex off 0x031030 64 16).map .DRV_CQ_DB) <|>
  ((arrayIndex off 0x031038 64 16).map .DRV_CQ_PI)

/-- The register of the NOC block at an offset within BAR0. -/
def regAtNoc (off : Nat) : Option Reg :=
  if off = 0x040000 then some .NOC_CTRL else
  if off = 0x040008 then some .NOC_RT_ADDR else
  if off = 0x040010 then some .NOC_RT_DATA else
  if off = 0x040070 then some .NOC_ERR_LAST else
  ((arrayIndex off 0x040018 8 2).map .NOC_ISOLATE) <|>
  ((arrayIndex off 0x040028 8 2).map .NOC_RELEASE) <|>
  ((arrayIndex off 0x040040 8 6).map .NOC_CNT) <|>
  ((arrayIndex off 0x040100 8 240).map .NOC_LINK) <|>
  ((arrayIndex off 0x040900 8 79).map .NOC_NI)

/-- The register of the MEM block at an offset within BAR0. -/
def regAtMem (off : Nat) : Option Reg :=
  if off = 0x050000 then some .MEM_CTRL else
  if off = 0x050008 then some .MEM_SCRUB_RATE else
  if off = 0x050010 then some .MEM_SCRUB_STAT else
  if off = 0x050018 then some .MEM_ECC_LAST else
  if off = 0x050020 then some .MEM_INJECT else
  if off = 0x050028 then some .MEM_REMAP_SEL else
  if off = 0x050030 then some .MEM_REMAP_DATA else
  ((arrayIndex off 0x050040 8 4).map .MEM_DDR_CFG) <|>
  ((arrayIndex off 0x050060 8 4).map .MEM_DDR_DEV) <|>
  ((arrayIndex off 0x050100 8 60).map .MEM_GRP)

/-- The register of the MOV block at an offset within BAR0. -/
def regAtMov (off : Nat) : Option Reg :=
  if off = 0x060000 then some .MOV_CTRL else
  ((arrayIndex off 0x060100 8 8).map .MOV_ENG) <|>
  ((arrayIndex2 off 0x061000 1024 8 64 16).map fun p => .MOV_CH_CFG p.1 p.2) <|>
  ((arrayIndex2 off 0x061008 1024 8 64 16).map fun p => .MOV_CH_SRC p.1 p.2) <|>
  ((arrayIndex2 off 0x061010 1024 8 64 16).map fun p => .MOV_CH_DST p.1 p.2) <|>
  ((arrayIndex2 off 0x061018 1024 8 64 16).map fun p => .MOV_CH_XFER p.1 p.2) <|>
  ((arrayIndex2 off 0x061020 1024 8 64 16).map fun p => .MOV_CH_RING p.1 p.2) <|>
  ((arrayIndex2 off 0x061028 1024 8 64 16).map fun p => .MOV_CH_STATUS p.1 p.2) <|>
  ((arrayIndex2 off 0x061030 1024 8 64 16).map fun p => .MOV_CH_POS p.1 p.2) <|>
  ((arrayIndex2 off 0x061038 1024 8 64 16).map fun p => .MOV_CH_ERR_ADDR p.1 p.2)

/-- The register of the TIM block at an offset within BAR0. -/
def regAtTim (off : Nat) : Option Reg :=
  if off = 0x070000 then some .TIM_CTRL else
  if off = 0x070008 then some .TIM_CFG else
  if off = 0x070010 then some .TIM_STATUS else
  if off = 0x070018 then some .TIM_DT else
  if off = 0x070020 then some .TIM_TOD_SEC else
  if off = 0x070028 then some .TIM_TOD_SUB else
  if off = 0x070030 then some .TIM_POS else
  if off = 0x070038 then some .TIM_TOD_SET else
  if off = 0x070040 then some .TIM_STEP_ARM else
  if off = 0x070048 then some .TIM_FREQ else
  if off = 0x070050 then some .TIM_VREF_SEC else
  if off = 0x070058 then some .TIM_VREF_AT else
  if off = 0x070060 then some .TIM_VREF_SUB else
  if off = 0x070068 then some .TIM_RX_BASE else
  if off = 0x070070 then some .TIM_RX_CFG else
  if off = 0x070078 then some .TIM_RX_DB else
  if off = 0x070080 then some .TIM_RX_PI else
  if off = 0x070088 then some .TIM_TX_BASE else
  if off = 0x070090 then some .TIM_TX_CFG else
  if off = 0x070098 then some .TIM_TX_DB else
  if off = 0x0700A0 then some .TIM_TX_CI else
  ((arrayIndex off 0x0700C0 8 5).map .TIM_CNT) <|>
  ((arrayIndex off 0x070100 8 8).map .TIM_REF_CFG) <|>
  ((arrayIndex off 0x070140 8 8).map .TIM_REF_STATUS) <|>
  ((arrayIndex off 0x070200 8 6).map .TIM_OUT) <|>
  ((arrayIndex off 0x070240 8 6).map .TIM_OUT_STEP) <|>
  ((arrayIndex off 0x070300 16 8).map .TIM_EVT_CMP) <|>
  ((arrayIndex off 0x070308 16 8).map .TIM_EVT_CTRL) <|>
  ((arrayIndex off 0x071000 8 64).map .TIM_PORT)

/-- The register of the FHL block at an offset within BAR0. -/
def regAtFhl (off : Nat) : Option Reg :=
  if off = 0x080000 then some .FHL_CTRL else
  if off = 0x080008 then some .FHL_EARLY else
  if off = 0x080010 then some .FHL_DLY_CTRL else
  if off = 0x080018 then some .FHL_DLY_RESULT else
  ((arrayIndex off 0x080100 8 64).map .FHL_PEER) <|>
  ((arrayIndex off 0x081000 8 1024).map .FHL_EAXC) <|>
  ((arrayIndex off 0x084000 256 64).map .FHL_PORT_CFG) <|>
  ((arrayIndex off 0x084008 256 64).map .FHL_PORT_MAC) <|>
  ((arrayIndex off 0x084010 256 64).map .FHL_PORT_VLAN) <|>
  ((arrayIndex off 0x084018 256 64).map .FHL_PORT_STATUS) <|>
  ((arrayIndex2 off 0x084020 256 64 8 26).map fun p => .FHL_CNT p.1 p.2)

/-- The register of the FAB block at an offset within BAR0. -/
def regAtFab (off : Nat) : Option Reg :=
  if off = 0x090000 then some .FAB_CTRL else
  if off = 0x090008 then some .FAB_CFG else
  if off = 0x090010 then some .FAB_UID else
  if off = 0x090018 then some .FAB_ADDR else
  if off = 0x090020 then some .FAB_MUSTER else
  if off = 0x090028 then some .FAB_EPOCH else
  if off = 0x090030 then some .FAB_MSG_TX else
  if off = 0x090038 then some .FAB_RX_BASE else
  if off = 0x090040 then some .FAB_RX_CFG else
  if off = 0x090048 then some .FAB_RX_DB else
  if off = 0x090050 then some .FAB_RX_PI else
  if off = 0x090058 then some .FAB_ERR_LAST else
  ((arrayIndex off 0x090080 8 14).map .FAB_CNT) <|>
  ((arrayIndex off 0x090100 8 32).map .FAB_GRP) <|>
  ((arrayIndex off 0x090200 8 64).map .FAB_ROUTE) <|>
  ((arrayIndex off 0x090400 8 64).map .FAB_ROUTE_SH) <|>
  ((arrayIndex off 0x090600 8 64).map .FAB_POOL)

/-- The register of the DRL block at an offset within BAR0. -/
def regAtDrl (off : Nat) : Option Reg :=
  if off = 0x0A0000 then some .DRL_CTRL else
  if off = 0x0A0008 then some .DRL_CFG else
  ((arrayIndex off 0x0A0100 64 32).map .DRL_GRP_CFG) <|>
  ((arrayIndex off 0x0A0108 64 32).map .DRL_GRP_LANES) <|>
  ((arrayIndex off 0x0A0110 64 32).map .DRL_GRP_STATUS) <|>
  ((arrayIndex off 0x0A0118 64 32).map .DRL_GRP_PEER_UID) <|>
  ((arrayIndex off 0x0A0120 64 32).map .DRL_GRP_PEER) <|>
  ((arrayIndex off 0x0A0900 8 64).map .DRL_LANE_STATUS) <|>
  ((arrayIndex2 off 0x0A1000 256 96 8 19).map fun p => .DRL_PM p.1 p.2)

/-- The register of the SDS block at an offset within BAR0. -/
def regAtSds (off : Nat) : Option Reg :=
  if off = 0x0B0000 then some .SDS_CTRL else
  ((arrayIndex off 0x0B0100 8 16).map .SDS_QUAD_CFG) <|>
  ((arrayIndex off 0x0B0180 8 16).map .SDS_QUAD_STATUS) <|>
  ((arrayIndex off 0x0B1000 64 64).map .SDS_LANE_CFG) <|>
  ((arrayIndex off 0x0B1008 64 64).map .SDS_LANE_FFE) <|>
  ((arrayIndex off 0x0B1010 64 64).map .SDS_LANE_STATUS) <|>
  ((arrayIndex off 0x0B1018 64 64).map .SDS_LANE_EQ) <|>
  ((arrayIndex off 0x0B1020 64 64).map .SDS_LANE_PRBS) <|>
  ((arrayIndex off 0x0B1028 64 64).map .SDS_LANE_PRBS_CNT)

/-- The register of the MCE block at an offset within BAR0. -/
def regAtMce (off : Nat) : Option Reg :=
  if off = 0x0C0000 then some .MCE_CTRL else
  if off = 0x0C0008 then some .MCE_GAIN_CFG else
  ((arrayIndex off 0x0C0100 8 12).map .MCE_STATUS) <|>
  ((arrayIndex off 0x0C0200 8 12).map .MCE_JOBS) <|>
  ((arrayIndex off 0x0C0280 8 12).map .MCE_SAT)

/-- The register of the DEC block at an offset within BAR0. -/
def regAtDec (off : Nat) : Option Reg :=
  if off = 0x0D0000 then some .DEC_CTRL else
  if off = 0x0D0008 then some .DEC_STATS else
  ((arrayIndex off 0x0D0100 8 32).map .DEC_UID_STATUS) <|>
  ((arrayIndex off 0x0D0200 8 8).map .DEC_ENC_STATUS) <|>
  ((arrayIndex off 0x0D1000 32 128).map .DEC_CELL_A) <|>
  ((arrayIndex off 0x0D1008 32 128).map .DEC_CELL_B) <|>
  ((arrayIndex off 0x0D1010 32 128).map .DEC_CELL_C)

/-- The register of the PRA block at an offset within BAR0. -/
def regAtPra (off : Nat) : Option Reg :=
  if off = 0x0E0000 then some .PRA_CTRL else
  ((arrayIndex off 0x0E0100 64 4).map .PRA_RING_BASE) <|>
  ((arrayIndex off 0x0E0108 64 4).map .PRA_RING_CFG) <|>
  ((arrayIndex off 0x0E0110 64 4).map .PRA_RING_DB) <|>
  ((arrayIndex off 0x0E0118 64 4).map .PRA_RING_PI) <|>
  ((arrayIndex off 0x0E0120 64 4).map .PRA_STATS) <|>
  ((arrayIndex off 0x0E1000 32 64).map .PRA_CELL_A) <|>
  ((arrayIndex off 0x0E1008 32 64).map .PRA_CELL_B) <|>
  ((arrayIndex off 0x0E1010 32 64).map .PRA_CELL_C) <|>
  ((arrayIndex off 0x0E1018 32 64).map .PRA_CELL_D)

/-- The register of the DBG block at an offset within BAR0. -/
def regAtDbg (off : Nat) : Option Reg :=
  if off = 0x0F0000 then some .DBG_CTRL else
  if off = 0x0F0008 then some .DBG_ATTACH else
  if off = 0x0F0010 then some .DBG_STATUS else
  if off = 0x0F0018 then some .DBG_AUTH_STAT else
  if off = 0x0F0020 then some .DBG_CORE_SEL else
  none

/-- The register of the UART block at an offset within BAR0. -/
def regAtUart (off : Nat) : Option Reg :=
  if off = 0x100000 then some .UART_CFG else
  if off = 0x100008 then some .UART_STATUS else
  if off = 0x100010 then some .UART_TX else
  if off = 0x100018 then some .UART_RX else
  if off = 0x100020 then some .UART_IRQ else
  none

/-- The register of the STP block at an offset within BAR0. -/
def regAtStp (off : Nat) : Option Reg :=
  if off = 0x110000 then some .STP_CTRL else
  if off = 0x110008 then some .STP_STATUS else
  if off = 0x110010 then some .STP_DB_PEND else
  ((arrayIndex off 0x110100 8 64).map .STP_DB) <|>
  ((arrayIndex off 0x110400 8 256).map .STP_FW)

/-- The register of the HST block at an offset within BAR0. -/
def regAtHst (off : Nat) : Option Reg :=
  if off = 0x120000 then some .HST_ID else
  if off = 0x120008 then some .HST_STATUS else
  if off = 0x120010 then some .HST_EVT_CFG else
  if off = 0x120018 then some .HST_STATS else
  if off = 0x129000 then some .HST_PBA else
  ((arrayIndex off 0x128000 16 64).map .HST_MSIX_ADDR) <|>
  ((arrayIndex off 0x128008 16 64).map .HST_MSIX_CTRL)

/-- The register of the FLT block at an offset within BAR0. -/
def regAtFlt (off : Nat) : Option Reg :=
  if off = 0x130000 then some .FLT_CTRL else
  if off = 0x130008 then some .FLT_STATUS else
  if off = 0x130010 then some .FLT_UNIT_CTRL else
  if off = 0x130018 then some .FLT_UNIT_STATUS else
  if off = 0x130020 then some .FLT_STATS else
  ((arrayIndex2 off 0x130100 64 2 8 6).map fun p => .FLT_UNIT_STATE p.2 p.1) <|>
  ((arrayIndex2 off 0x131000 32 64 8 4).map fun p => .FLT_REC p.1 p.2)

/-- The register at a BAR0 offset, if a map names one there (R9). -/
def regAt (off : Nat) : Option Reg :=
  match off / 0x10000 with
  | 0 => regAtSys off
  | 1 => regAtPwr off
  | 2 => regAtAlm off
  | 3 => regAtDrv off
  | 4 => regAtNoc off
  | 5 => regAtMem off
  | 6 => regAtMov off
  | 7 => regAtTim off
  | 8 => regAtFhl off
  | 9 => regAtFab off
  | 10 => regAtDrl off
  | 11 => regAtSds off
  | 12 => regAtMce off
  | 13 => regAtDec off
  | 14 => regAtPra off
  | 15 => regAtDbg off
  | 16 => regAtUart off
  | 17 => regAtStp off
  | 18 => regAtHst off
  | 19 => regAtFlt off
  | _ => none

/-- The access codes of a register's bits as masks (R5); a bit in no mask is RO, WO or RSVD. -/
structure Access where
  /-- RW bits. -/
  rw : Word := 0
  /-- RWL bits, RW until the boot lock is set. -/
  rwl : Word := 0
  /-- W1C bits. -/
  w1c : Word := 0
  /-- W1S bits. -/
  w1s : Word := 0
  deriving DecidableEq, Repr

/-- The access masks of each register. -/
def Reg.access : Reg → Access
  | .ALM_ID => { rwl := 0x0000FFFF00000000 }
  | .ALM_LOAD_SRC => { rw := 0x0000FFFFFFFFFFFF }
  | .ALM_LOAD_LEN => { rw := 0x0000000000FFFFFF }
  | .ALM_FW_SRC => { rw := 0x0000FFFFFFFFFFFF }
  | .ALM_FW_LEN => { rw := 0x0000000000FFFFFF }
  | .ALM_CTRL => {}
  | .ALM_LOAD_STATUS => { w1c := 0x0000000000000002 }
  | .ALM_SHADOW_INFO => {}
  | .ALM_SHADOW_BUILD => {}
  | .ALM_ACTIVE_INFO => {}
  | .ALM_ACTIVE_BUILD => {}
  | .ALM_SWAP_FRAME => { rw := 0x00000000000FFFFF }
  | .ALM_SWAP_GROUP => { rw := 0xFFFFFFFFFFFFFFFF }
  | .ALM_SWAP_CTRL => {}
  | .ALM_SWAP_STATUS => { w1c := 0x000000000000000C }
  | .ALM_POS => {}
  | .ALM_STATS => {}
  | .ALM_SHED => {}
  | .ALM_EMAP _ => {}
  | .ALM_FALLOW _ => {}
  | .DRV_CTRL => {}
  | .DRV_STORE => {}
  | .DRV_STATS_A => {}
  | .DRV_STATS_B => {}
  | .DRV_REJ_LAST => {}
  | .DRV_CELLCFG_SH _ => { rw := 0xFFFFFFFFFFFFFFFF }
  | .DRV_CELLCFG _ => {}
  | .DRV_CELL_STATE _ => {}
  | .DRV_RQ_BASE _ => { rw := 0xFFFFFFFFFFFFFFFF }
  | .DRV_RQ_CFG _ => { rw := 0x000000000000001F }
  | .DRV_RQ_DB _ => { rw := 0x000000000000FFFF }
  | .DRV_RQ_CI _ => {}
  | .DRV_CQ_BASE _ => { rw := 0xFFFFFFFFFFFFFFFF }
  | .DRV_CQ_CFG _ => { rw := 0x000000001FFFFF8F }
  | .DRV_CQ_DB _ => { rw := 0x000000000000FFFF }
  | .DRV_CQ_PI _ => {}
  | .FHL_CTRL => { rw := 0x0000000000003F02 }
  | .FHL_EARLY => {}
  | .FHL_DLY_CTRL => { rw := 0x000000003F3FFF00 }
  | .FHL_DLY_RESULT => { w1c := 0x8000000000000000 }
  | .FHL_PEER _ => { rw := 0x8000FFFFFFFFFFFF }
  | .FHL_EAXC _ => { rw := 0xFFFFFFFFFBFFFFFF }
  | .FHL_PORT_CFG _ => { rw := 0x000000007FFF3FF7 }
  | .FHL_PORT_MAC _ => { rw := 0x0000FFFFFFFFFFFF }
  | .FHL_PORT_VLAN _ => { rw := 0x000000003FFFFFFF }
  | .FHL_PORT_STATUS _ => { w1c := 0x0000000000000008 }
  | .FHL_CNT _ _ => {}
  | .MCE_CTRL => {}
  | .MCE_GAIN_CFG => { rw := 0x0000FFFF0FFFFFFF }
  | .MCE_STATUS _ => {}
  | .MCE_JOBS _ => {}
  | .MCE_SAT _ => {}
  | .PRA_CTRL => {}
  | .PRA_RING_BASE _ => { rw := 0xFFFFFFFFFFFFFFFF }
  | .PRA_RING_CFG _ => { rw := 0x000000001FFFFF8F }
  | .PRA_RING_DB _ => { rw := 0x000000000000FFFF }
  | .PRA_RING_PI _ => {}
  | .PRA_STATS _ => {}
  | .PRA_CELL_A _ => { rw := 0xFFFFFFFFFFFFFC00 }
  | .PRA_CELL_B _ => { rw := 0xFFFFFE0000000000 }
  | .PRA_CELL_C _ => { rw := 0xFFFFFFFFFFFFF000 }
  | .PRA_CELL_D _ => { rw := 0x0000FFFFFFFFFFFF }
  | .DEC_CTRL => {}
  | .DEC_STATS => {}
  | .DEC_UID_STATUS _ => {}
  | .DEC_ENC_STATUS _ => {}
  | .DEC_CELL_A _ => { rw := 0xFFFFFFFFFFFFF000 }
  | .DEC_CELL_B _ => { rw := 0xFFFFFFFFFFFF0000 }
  | .DEC_CELL_C _ => { rw := 0xFFFFFFFFF8000000 }
  | .NOC_CTRL => {}
  | .NOC_RT_ADDR => { rw := 0x000000000000FFFF }
  | .NOC_RT_DATA => { rwl := 0x80FF0007FFFFFFFF }
  | .NOC_ISOLATE i => { w1s := if i = 0 then 0xFFFFFFFFFFFFFFFF else 0x7FFF }
  | .NOC_RELEASE _ => {}
  | .NOC_CNT _ => {}
  | .NOC_ERR_LAST => { w1c := 0x0000010000000000 }
  | .NOC_LINK _ => {}
  | .NOC_NI _ => {}
  | .MEM_CTRL => {}
  | .MEM_SCRUB_RATE => { rw := 0x00FFFFFFFFFFFFFF }
  | .MEM_SCRUB_STAT => {}
  | .MEM_ECC_LAST => { w1c := 0x8000000000000000 }
  | .MEM_INJECT => { rw := 0xFFFFFC00001FFFFF }
  | .MEM_REMAP_SEL => { rw := 0x0000000000003F07 }
  | .MEM_REMAP_DATA => {}
  | .MEM_DDR_CFG _ => { rwl := 0x0000000000000003 }
  | .MEM_DDR_DEV _ => {}
  | .MEM_GRP _ => {}
  | .MOV_CTRL => {}
  | .MOV_ENG _ => {}
  | .MOV_CH_CFG _ _ => { rw := 0x00000000000001FF }
  | .MOV_CH_SRC _ _ => { rw := 0xFFFFFFFFFFFFFFFF }
  | .MOV_CH_DST _ _ => { rw := 0xFFFFFFFFFFFFFFFF }
  | .MOV_CH_XFER _ _ => { rw := 0x000001F8FFFFFFFF }
  | .MOV_CH_RING _ _ => { rw := 0xFFFFFFFFFFFFFFFF }
  | .MOV_CH_STATUS _ _ => { w1c := 0x0000000000000078 }
  | .MOV_CH_POS _ _ => {}
  | .MOV_CH_ERR_ADDR _ _ => {}
  | .DRL_CTRL => { rw := 0x0000000000003F02 }
  | .DRL_CFG => { rw := 0xFFFFFFFF0F000F07 }
  | .DRL_GRP_CFG _ => { rw := 0x00000000000001C1, w1c := 0x0000000000000200 }
  | .DRL_GRP_LANES _ => { rw := 0xFFFFFFFFFFFFFFFF }
  | .DRL_GRP_STATUS _ => { w1c := 0x0000000000000080 }
  | .DRL_GRP_PEER_UID _ => {}
  | .DRL_GRP_PEER _ => {}
  | .DRL_LANE_STATUS _ => { w1c := 0x0000000000000010 }
  | .DRL_PM _ _ => {}
  | .FAB_CTRL => { rw := 0x0000000000003F02 }
  | .FAB_CFG => { rw := 0x0000000003FF001F }
  | .FAB_UID => {}
  | .FAB_ADDR => { rw := 0x000000007F010080 }
  | .FAB_MUSTER => { rw := 0xFFFFFFFF00FF0007 }
  | .FAB_EPOCH => { rw := 0xFFFFFFFFFFFFFFFF }
  | .FAB_MSG_TX => { rw := 0x0000FFFFFFFFFFFF }
  | .FAB_RX_BASE => { rw := 0x0000FFFFFFFFFFFF }
  | .FAB_RX_CFG => { rw := 0x000000001FC0000F }
  | .FAB_RX_DB => { rw := 0x000000000000FFFF }
  | .FAB_RX_PI => {}
  | .FAB_ERR_LAST => { w1c := 0x0000000020000000 }
  | .FAB_CNT _ => {}
  | .FAB_GRP _ => { w1c := 0x0000000000000008 }
  | .FAB_ROUTE _ => {}
  | .FAB_ROUTE_SH _ => { rw := 0x8000000000CFFFFF }
  | .FAB_POOL _ => { rw := 0xFFFFFFFFFFFFFFFF }
  | .SDS_CTRL => { rw := 0x000000003FFF3F02 }
  | .SDS_QUAD_CFG _ => { rw := 0x0000000000000007 }
  | .SDS_QUAD_STATUS _ => { w1c := 0x0000000000000008 }
  | .SDS_LANE_CFG _ => { rw := 0x000000FF000001FB }
  | .SDS_LANE_FFE _ => { rw := 0x000000003FFFFFFF }
  | .SDS_LANE_STATUS _ => { w1c := 0x0000000000000060 }
  | .SDS_LANE_EQ _ => {}
  | .SDS_LANE_PRBS _ => { rw := 0x0000000000000F1E }
  | .SDS_LANE_PRBS_CNT _ => {}
  | .TIM_CTRL => { rw := 0x0000000000003F02 }
  | .TIM_CFG => { rw := 0xFFFFFFFFFFFFFFFE, rwl := 0x0000000000000001 }
  | .TIM_STATUS => { w1c := 0x0000000000000080 }
  | .TIM_DT => {}
  | .TIM_TOD_SEC => {}
  | .TIM_TOD_SUB => {}
  | .TIM_POS => {}
  | .TIM_TOD_SET => { rw := 0x8000FFFFFFFFFFFF }
  | .TIM_STEP_ARM => { w1s := 0x0000000000000001 }
  | .TIM_FREQ => {}
  | .TIM_VREF_SEC => { rw := 0x0000FFFFFFFFFFFF }
  | .TIM_VREF_AT => { rw := 0xFFFFFFFFFFFFFFFF }
  | .TIM_VREF_SUB => {}
  | .TIM_RX_BASE => { rw := 0x0000FFFFFFFFFFFF }
  | .TIM_RX_CFG => { rw := 0x000000001FC0000F }
  | .TIM_RX_DB => { rw := 0x000000000000FFFF }
  | .TIM_RX_PI => {}
  | .TIM_TX_BASE => { rw := 0x0000FFFFFFFFFFFF }
  | .TIM_TX_CFG => { rw := 0x000000001FC0000F }
  | .TIM_TX_DB => { rw := 0x000000000000FFFF }
  | .TIM_TX_CI => {}
  | .TIM_CNT _ => {}
  | .TIM_REF_CFG _ => { rw := 0xFFFFF800FFFFFFFF }
  | .TIM_REF_STATUS _ => { w1c := 0x0000000000000010 }
  | .TIM_OUT _ => { rw := 0xFFFF000000000000, w1c := 0x0000800000000000 }
  | .TIM_OUT_STEP _ => {}
  | .TIM_EVT_CMP n => { rw := if n < 6 then 0 else 0xFFFFFFFFFFFFFFFF }
  | .TIM_EVT_CTRL n => { rw := if n < 6 then 0 else 0x8000FFFFFFFFFFFF, w1c := 0x6000000000000000 }
  | .TIM_PORT _ => { rw := 0xFFFFFFFFFFFFFFFF }
  | .PWR_CTRL => { rw := 0x0000000000003F02 }
  | .PWR_MODE => { rw := 0x0000000000000003 }
  | .PWR_STATS => {}
  | .PWR_REFUSE => { w1c := 0x8000000000000000 }
  | .PWR_FORCE_ON i => { rw := if i = 0 then 0xFFFFFFFFFFFFFFFF else 0x1F }
  | .PWR_AVS_CFG _ => { rwl := 0x000000000F0FFC00 }
  | .PWR_AVS_STATUS _ => { w1c := 0x0000000000000002 }
  | .PWR_DOM _ => { w1c := 0x0000000000000020 }
  | .PWR_DOM_CFG _ => { rw := 0x0000000000000C00, rwl := 0x000000000000001F }
  | .SYS_ID => {}
  | .SYS_READY => {}
  | .SYS_CTRL => { w1s := 0x0000000000000005 }
  | .SYS_BOOT_STATUS => {}
  | .SYS_BOOT_SRC => { rw := 0x0000FFFFFFFFFFFF }
  | .SYS_BOOT_CTRL => {}
  | .SYS_COLLIDE => { w1c := 0x8000000000000000 }
  | .SYS_ALARM => { rw := 0x0000000000000F08, w1c := 0x0000000000000002 }
  | .SYS_THERM => { rw := 0x00000000000000FF }
  | .HST_ID => {}
  | .HST_STATUS => { w1c := 0x0000000000000100 }
  | .HST_EVT_CFG => { rw := 0x0000000000007F7F }
  | .HST_STATS => {}
  | .FLT_CTRL => { rw := 0x0000000000003F06 }
  | .FLT_STATUS => { w1c := 0x0000000000010000 }
  | .FLT_UNIT_CTRL => { rw := 0x0000000000001F0F }
  | .FLT_UNIT_STATUS => {}
  | .FLT_STATS => {}
  | .FLT_UNIT_STATE _ _ => {}
  | .FLT_REC _ _ => {}
  | .DBG_CTRL => {}
  | .DBG_ATTACH => {}
  | .DBG_STATUS => {}
  | .DBG_AUTH_STAT => {}
  | .DBG_CORE_SEL => { rw := 0x00000000000001F7 }
  | .UART_CFG => { rw := 0x0000000003FFFFFF }
  | .UART_STATUS => { w1c := 0x0000000000000038 }
  | .UART_TX => {}
  | .UART_RX => {}
  | .UART_IRQ => { rw := 0x0000000000003F0E }
  | .STP_CTRL => { rw := 0x0000000000000001 }
  | .STP_STATUS => { w1c := 0x0000000100000000 }
  | .STP_DB_PEND => { w1c := 0xFFFFFFFFFFFFFFFF }
  | .STP_DB _ => {}
  | .STP_FW _ => { rw := 0x00000000FFFFFFFF }
  | .HST_MSIX_ADDR _ => { rw := 0xFFFFFFFFFFFFFFFC }
  | .HST_MSIX_CTRL _ => { rw := 0x00000001FFFFFFFF }
  | .HST_PBA => {}

/-- The reset value of each register; the fuse fields are the values of Config. -/
def Reg.reset : Reg → Word
  | .ALM_ID => 0x0000000000000001
  | .ALM_LOAD_SRC => 0
  | .ALM_LOAD_LEN => 0
  | .ALM_FW_SRC => 0
  | .ALM_FW_LEN => 0
  | .ALM_CTRL => 0
  | .ALM_LOAD_STATUS => 0
  | .ALM_SHADOW_INFO => 0
  | .ALM_SHADOW_BUILD => 0
  | .ALM_ACTIVE_INFO => 0
  | .ALM_ACTIVE_BUILD => 0
  | .ALM_SWAP_FRAME => 0
  | .ALM_SWAP_GROUP => 0
  | .ALM_SWAP_CTRL => 0
  | .ALM_SWAP_STATUS => 0
  | .ALM_POS => 0
  | .ALM_STATS => 0
  | .ALM_SHED => 0
  | .ALM_EMAP _ => 0
  | .ALM_FALLOW _ => 0
  | .DRV_CTRL => 0
  | .DRV_STORE => 0
  | .DRV_STATS_A => 0
  | .DRV_STATS_B => 0
  | .DRV_REJ_LAST => 0
  | .DRV_CELLCFG_SH _ => 0
  | .DRV_CELLCFG _ => 0
  | .DRV_CELL_STATE _ => 0
  | .DRV_RQ_BASE _ => 0
  | .DRV_RQ_CFG _ => 0
  | .DRV_RQ_DB _ => 0
  | .DRV_RQ_CI _ => 0
  | .DRV_CQ_BASE _ => 0
  | .DRV_CQ_CFG _ => 0x0000000000000080
  | .DRV_CQ_DB _ => 0
  | .DRV_CQ_PI _ => 0x0000000000010000
  | .FHL_CTRL => 0
  | .FHL_EARLY => 0
  | .FHL_DLY_CTRL => 0
  | .FHL_DLY_RESULT => 0
  | .FHL_PEER _ => 0
  | .FHL_EAXC _ => 0
  | .FHL_PORT_CFG _ => 0x000000000BE40800
  | .FHL_PORT_MAC _ => 0
  | .FHL_PORT_VLAN _ => 0
  | .FHL_PORT_STATUS _ => 0
  | .FHL_CNT _ _ => 0
  | .MCE_CTRL => 0
  | .MCE_GAIN_CFG => 0x00000064002212B8
  | .MCE_STATUS _ => 0
  | .MCE_JOBS _ => 0
  | .MCE_SAT _ => 0
  | .PRA_CTRL => 0
  | .PRA_RING_BASE _ => 0
  | .PRA_RING_CFG _ => 0x0000000000000080
  | .PRA_RING_DB _ => 0
  | .PRA_RING_PI _ => 0x0000000000010000
  | .PRA_STATS _ => 0
  | .PRA_CELL_A _ => 0x0003C00001000000
  | .PRA_CELL_B _ => 0x0000020000000000
  | .PRA_CELL_C _ => 0
  | .PRA_CELL_D _ => 0
  | .DEC_CTRL => 0
  | .DEC_STATS => 0
  | .DEC_UID_STATUS _ => 0
  | .DEC_ENC_STATUS _ => 0
  | .DEC_CELL_A _ => 0
  | .DEC_CELL_B _ => 0x4001000000000000
  | .DEC_CELL_C _ => 0
  | .NOC_CTRL => 0
  | .NOC_RT_ADDR => 0
  | .NOC_RT_DATA => 0
  | .NOC_ISOLATE _ => 0
  | .NOC_RELEASE _ => 0
  | .NOC_CNT _ => 0
  | .NOC_ERR_LAST => 0
  | .NOC_LINK _ => 0
  | .NOC_NI _ => 0
  | .MEM_CTRL => 0
  | .MEM_SCRUB_RATE => 0x0020020801050502
  | .MEM_SCRUB_STAT => 0
  | .MEM_ECC_LAST => 0
  | .MEM_INJECT => 0
  | .MEM_REMAP_SEL => 0
  | .MEM_REMAP_DATA => 0
  | .MEM_DDR_CFG _ => 0
  | .MEM_DDR_DEV _ => 0
  | .MEM_GRP _ => 0
  | .MOV_CTRL => 0
  | .MOV_ENG _ => 0
  | .MOV_CH_CFG _ _ => 0
  | .MOV_CH_SRC _ _ => 0
  | .MOV_CH_DST _ _ => 0
  | .MOV_CH_XFER _ _ => 0
  | .MOV_CH_RING _ _ => 0
  | .MOV_CH_STATUS _ _ => 0
  | .MOV_CH_POS _ _ => 0
  | .MOV_CH_ERR_ADDR _ _ => 0
  | .DRL_CTRL => 0
  | .DRL_CFG => 0x00006D6007000403
  | .DRL_GRP_CFG _ => 0
  | .DRL_GRP_LANES _ => 0
  | .DRL_GRP_STATUS _ => 0x0000000000000010
  | .DRL_GRP_PEER_UID _ => 0
  | .DRL_GRP_PEER _ => 0
  | .DRL_LANE_STATUS _ => 0
  | .DRL_PM _ _ => 0
  | .FAB_CTRL => 0
  | .FAB_CFG => 0x0000000000140004
  | .FAB_UID => BitVec.ofNat 64 (2 ^ 0 * Config.fuseUid.toNat)
  | .FAB_ADDR => 0x0000000001008000
  | .FAB_MUSTER => 0
  | .FAB_EPOCH => 0
  | .FAB_MSG_TX => 0
  | .FAB_RX_BASE => 0
  | .FAB_RX_CFG => 0
  | .FAB_RX_DB => 0
  | .FAB_RX_PI => 0x0000000000010000
  | .FAB_ERR_LAST => 0
  | .FAB_CNT _ => 0
  | .FAB_GRP _ => 0
  | .FAB_ROUTE _ => 0
  | .FAB_ROUTE_SH _ => 0
  | .FAB_POOL _ => 0
  | .SDS_CTRL => 0
  | .SDS_QUAD_CFG _ => 0
  | .SDS_QUAD_STATUS _ => 0
  | .SDS_LANE_CFG _ => 0
  | .SDS_LANE_FFE _ => 0x0000000000EF6F00
  | .SDS_LANE_STATUS _ => 0x0000000000000001
  | .SDS_LANE_EQ _ => 0
  | .SDS_LANE_PRBS _ => 0
  | .SDS_LANE_PRBS_CNT _ => 0
  | .TIM_CTRL => 0
  | .TIM_CFG => 0x840A4B20C801432E
  | .TIM_STATUS => 0x0000000000BFF000
  | .TIM_DT => 0
  | .TIM_TOD_SEC => 0x0000000012D53D93
  | .TIM_TOD_SUB => 0
  | .TIM_POS => 0
  | .TIM_TOD_SET => 0
  | .TIM_STEP_ARM => 0
  | .TIM_FREQ => 0
  | .TIM_VREF_SEC => 0
  | .TIM_VREF_AT => 0
  | .TIM_VREF_SUB => 0
  | .TIM_RX_BASE => 0
  | .TIM_RX_CFG => 0
  | .TIM_RX_DB => 0
  | .TIM_RX_PI => 0x0000000000010000
  | .TIM_TX_BASE => 0
  | .TIM_TX_CFG => 0
  | .TIM_TX_DB => 0
  | .TIM_TX_CI => 0
  | .TIM_CNT _ => 0
  | .TIM_REF_CFG _ => 0x43FFC00000000000
  | .TIM_REF_STATUS _ => 0x0000000000000F00
  | .TIM_OUT _ => 0x4064000000000000
  | .TIM_OUT_STEP _ => 0
  | .TIM_EVT_CMP _ => 0
  | .TIM_EVT_CTRL _ => 0
  | .TIM_PORT _ => 0
  | .PWR_CTRL => 0
  | .PWR_MODE => 0
  | .PWR_STATS => 0
  | .PWR_REFUSE => 0
  | .PWR_FORCE_ON _ => 0
  | .PWR_AVS_CFG r => BitVec.ofNat 64 (2 ^ 38 * (Config.fuseVmin r).toNat) ||| BitVec.ofNat 64 (2 ^ 28 * (if r = 0 then 850 else 900)) ||| BitVec.ofNat 64 (2 ^ 24 * r) ||| BitVec.ofNat 64 (2 ^ 10 * (if r = 0 then 800 else 850))
  | .PWR_AVS_STATUS r => BitVec.ofNat 64 (2 ^ 54 * (if r = 0 then 800 else 850)) ||| BitVec.ofNat 64 (2 ^ 44 * (if r = 0 then 800 else 850))
  | .PWR_DOM _ => 0
  | .PWR_DOM_CFG _ => 0
  | .SYS_ID => BitVec.ofNat 64 (2 ^ 40 * Config.fuseRevision.toNat) ||| 0x6402000000000000
  | .SYS_READY => 0
  | .SYS_CTRL => 0
  | .SYS_BOOT_STATUS => 0
  | .SYS_BOOT_SRC => 0
  | .SYS_BOOT_CTRL => 0
  | .SYS_COLLIDE => 0
  | .SYS_ALARM => 0x0000000000000F01
  | .SYS_THERM => 0x0000000000000073
  | .HST_ID => BitVec.ofNat 64 (2 ^ 48 * Config.fuseSsid.toNat) ||| BitVec.ofNat 64 (2 ^ 32 * Config.fuseSsvid.toNat) ||| BitVec.ofNat 64 (2 ^ 16 * Config.fuseDid.toNat) ||| BitVec.ofNat 64 (2 ^ 0 * Config.fuseVid.toNat)
  | .HST_STATUS => 0
  | .HST_EVT_CFG => 0
  | .HST_STATS => 0
  | .FLT_CTRL => 0x0000000000000004
  | .FLT_STATUS => 0
  | .FLT_UNIT_CTRL => 0
  | .FLT_UNIT_STATUS => 0
  | .FLT_STATS => 0
  | .FLT_UNIT_STATE _ _ => 0
  | .FLT_REC _ _ => 0
  | .DBG_CTRL => 0
  | .DBG_ATTACH => 0
  | .DBG_STATUS => 0
  | .DBG_AUTH_STAT => 0
  | .DBG_CORE_SEL => 0
  | .UART_CFG => 0x00000000000D4AC9
  | .UART_STATUS => 0x0000000000000004
  | .UART_TX => 0
  | .UART_RX => 0
  | .UART_IRQ => 0x0000000000000008
  | .STP_CTRL => 0x0000000000000001
  | .STP_STATUS => 0
  | .STP_DB_PEND => 0
  | .STP_DB _ => 0
  | .STP_FW _ => 0
  | .HST_MSIX_ADDR _ => 0
  | .HST_MSIX_CTRL _ => 0x0000000100000000
  | .HST_PBA => 0

/-- The reset value at a BAR0 offset; an offset that names no register reads 0 (R9). -/
def regReset (off : Nat) : Word :=
  match regAt off with
  | some r => r.reset
  | none => 0

/-- A field: the bits [lo + w - 1 : lo] of a word. -/
structure BitField where
  /-- Least significant bit. -/
  lo : Nat
  /-- Width in bits. -/
  w : Nat
  deriving DecidableEq, Repr

namespace Fld

/-! ALM_ID -/
def ALM_ID_BURLOS_MAJ : BitField := ⟨40, 8⟩
def ALM_ID_BURLOS_MIN : BitField := ⟨32, 8⟩
def ALM_ID_FORMAT : BitField := ⟨0, 16⟩
/-! ALM_LOAD_SRC -/
def ALM_LOAD_SRC_ADDR : BitField := ⟨0, 48⟩
/-! ALM_LOAD_LEN -/
def ALM_LOAD_LEN_LEN : BitField := ⟨0, 24⟩
/-! ALM_FW_SRC -/
def ALM_FW_SRC_ADDR : BitField := ⟨0, 48⟩
/-! ALM_FW_LEN -/
def ALM_FW_LEN_LEN : BitField := ⟨0, 24⟩
/-! ALM_CTRL -/
def ALM_CTRL_STAT_CLR : BitField := ⟨2, 1⟩
def ALM_CTRL_ABORT : BitField := ⟨1, 1⟩
def ALM_CTRL_START : BitField := ⟨0, 1⟩
/-! ALM_LOAD_STATUS -/
def ALM_LOAD_STATUS_CODE : BitField := ⟨56, 8⟩
def ALM_LOAD_STATUS_SECTION : BitField := ⟨52, 4⟩
def ALM_LOAD_STATUS_OFFSET : BitField := ⟨24, 24⟩
def ALM_LOAD_STATUS_DONE : BitField := ⟨1, 1⟩
def ALM_LOAD_STATUS_BUSY : BitField := ⟨0, 1⟩
/-! ALM_SHADOW_INFO -/
def ALM_SHADOW_INFO_ALM_VERSION : BitField := ⟨32, 32⟩
def ALM_SHADOW_INFO_FLAGS : BitField := ⟨24, 8⟩
def ALM_SHADOW_INFO_CYCLE_K : BitField := ⟨16, 8⟩
def ALM_SHADOW_INFO_STATE : BitField := ⟨0, 2⟩
/-! ALM_SHADOW_BUILD -/
def ALM_SHADOW_BUILD_BUILD : BitField := ⟨0, 64⟩
/-! ALM_ACTIVE_INFO -/
def ALM_ACTIVE_INFO_ALM_VERSION : BitField := ⟨32, 32⟩
def ALM_ACTIVE_INFO_FLAGS : BitField := ⟨24, 8⟩
def ALM_ACTIVE_INFO_CYCLE_K : BitField := ⟨16, 8⟩
def ALM_ACTIVE_INFO_STATE : BitField := ⟨0, 2⟩
/-! ALM_ACTIVE_BUILD -/
def ALM_ACTIVE_BUILD_BUILD : BitField := ⟨0, 64⟩
/-! ALM_SWAP_FRAME -/
def ALM_SWAP_FRAME_FRAME : BitField := ⟨0, 20⟩
/-! ALM_SWAP_GROUP -/
def ALM_SWAP_GROUP_MEMBERS : BitField := ⟨0, 64⟩
/-! ALM_SWAP_CTRL -/
def ALM_SWAP_CTRL_DISARM : BitField := ⟨2, 1⟩
def ALM_SWAP_CTRL_POOL : BitField := ⟨1, 1⟩
def ALM_SWAP_CTRL_ARM : BitField := ⟨0, 1⟩
/-! ALM_SWAP_STATUS -/
def ALM_SWAP_STATUS_CODE : BitField := ⟨56, 8⟩
def ALM_SWAP_STATUS_LAST_FRAME : BitField := ⟨36, 20⟩
def ALM_SWAP_STATUS_SWAPPED : BitField := ⟨3, 1⟩
def ALM_SWAP_STATUS_FAILED : BitField := ⟨2, 1⟩
def ALM_SWAP_STATUS_COMMITTED : BitField := ⟨1, 1⟩
def ALM_SWAP_STATUS_ARMED : BitField := ⟨0, 1⟩
/-! ALM_POS -/
def ALM_POS_TEMPLATE : BitField := ⟨32, 11⟩
def ALM_POS_INDEX : BitField := ⟨0, 15⟩
/-! ALM_STATS -/
def ALM_STATS_SWAPS : BitField := ⟨48, 16⟩
def ALM_STATS_OVERRUN : BitField := ⟨32, 16⟩
def ALM_STATS_PWR_MISS : BitField := ⟨16, 16⟩
def ALM_STATS_REMAPS : BitField := ⟨0, 16⟩
/-! ALM_SHED -/
def ALM_SHED_DEPTH : BitField := ⟨0, 8⟩
/-! ALM_EMAP -/
def ALM_EMAP_UNBOUND : BitField := ⟨32, 1⟩
def ALM_EMAP_CLASS : BitField := ⟨28, 4⟩
def ALM_EMAP_PHYS : BitField := ⟨0, 8⟩
/-! ALM_FALLOW -/
def ALM_FALLOW_VALID : BitField := ⟨15, 1⟩
def ALM_FALLOW_CLASS : BitField := ⟨8, 4⟩
def ALM_FALLOW_PHYS : BitField := ⟨0, 8⟩
/-! DRV_CTRL -/
def DRV_CTRL_STAT_CLR : BitField := ⟨0, 1⟩
/-! DRV_STORE -/
def DRV_STORE_ENTRIES : BitField := ⟨32, 16⟩
def DRV_STORE_REQUESTS : BitField := ⟨0, 11⟩
/-! DRV_STATS_A -/
def DRV_STATS_A_LATE : BitField := ⟨48, 16⟩
def DRV_STATS_A_REJECTED : BitField := ⟨32, 16⟩
def DRV_STATS_A_SUPERSEDED : BitField := ⟨16, 16⟩
def DRV_STATS_A_SHED : BitField := ⟨0, 16⟩
/-! DRV_STATS_B -/
def DRV_STATS_B_DISCARDED : BitField := ⟨48, 16⟩
def DRV_STATS_B_UNSTARTED : BitField := ⟨32, 16⟩
def DRV_STATS_B_EMPTY_FILL : BitField := ⟨16, 16⟩
def DRV_STATS_B_CMD_APPLIED : BitField := ⟨0, 16⟩
/-! DRV_REJ_LAST -/
def DRV_REJ_LAST_DETAIL : BitField := ⟨56, 8⟩
def DRV_REJ_LAST_QUEUE : BitField := ⟨52, 4⟩
def DRV_REJ_LAST_RING_INDEX : BitField := ⟨36, 16⟩
def DRV_REJ_LAST_ENTRY : BitField := ⟨20, 16⟩
/-! DRV_CELLCFG_SH -/
def DRV_CELLCFG_SH_CELLS : BitField := ⟨0, 64⟩
/-! DRV_CELLCFG -/
def DRV_CELLCFG_CELLS : BitField := ⟨0, 64⟩
/-! DRV_CELL_STATE -/
def DRV_CELL_STATE_STATES : BitField := ⟨0, 64⟩
/-! DRV_RQ_BASE -/
def DRV_RQ_BASE_ADDR : BitField := ⟨0, 64⟩
/-! DRV_RQ_CFG -/
def DRV_RQ_CFG_DB_ERR : BitField := ⟨5, 1⟩
def DRV_RQ_CFG_ENABLE : BitField := ⟨4, 1⟩
def DRV_RQ_CFG_LOG2_SIZE : BitField := ⟨0, 4⟩
/-! DRV_RQ_DB -/
def DRV_RQ_DB_INDEX : BitField := ⟨0, 16⟩
/-! DRV_RQ_CI -/
def DRV_RQ_CI_INDEX : BitField := ⟨0, 16⟩
/-! DRV_CQ_BASE -/
def DRV_CQ_BASE_ADDR : BitField := ⟨0, 64⟩
/-! DRV_CQ_CFG -/
def DRV_CQ_CFG_ENABLE : BitField := ⟨28, 1⟩
def DRV_CQ_CFG_VECTOR : BitField := ⟨22, 6⟩
def DRV_CQ_CFG_COAL_TICKS : BitField := ⟨14, 8⟩
def DRV_CQ_CFG_COAL_COUNT : BitField := ⟨7, 7⟩
def DRV_CQ_CFG_LOG2_SIZE : BitField := ⟨0, 4⟩
/-! DRV_CQ_DB -/
def DRV_CQ_DB_INDEX : BitField := ⟨0, 16⟩
/-! DRV_CQ_PI -/
def DRV_CQ_PI_PHASE : BitField := ⟨16, 1⟩
def DRV_CQ_PI_INDEX : BitField := ⟨0, 16⟩
/-! FHL_CTRL -/
def FHL_CTRL_VECTOR : BitField := ⟨8, 6⟩
def FHL_CTRL_EVT_EN : BitField := ⟨1, 1⟩
def FHL_CTRL_STAT_CLR : BitField := ⟨0, 1⟩
/-! FHL_EARLY -/
def FHL_EARLY_FH_EARLY_DROP : BitField := ⟨0, 64⟩
/-! FHL_DLY_CTRL -/
def FHL_DLY_CTRL_PEER : BitField := ⟨24, 6⟩
def FHL_DLY_CTRL_PORT : BitField := ⟨16, 6⟩
def FHL_DLY_CTRL_MEAS_ID : BitField := ⟨8, 8⟩
def FHL_DLY_CTRL_SEND : BitField := ⟨0, 1⟩
/-! FHL_DLY_RESULT -/
def FHL_DLY_RESULT_VALID : BitField := ⟨63, 1⟩
def FHL_DLY_RESULT_MEAS_ID : BitField := ⟨48, 8⟩
def FHL_DLY_RESULT_DELAY : BitField := ⟨0, 48⟩
/-! FHL_PEER -/
def FHL_PEER_VALID : BitField := ⟨63, 1⟩
def FHL_PEER_ADDR : BitField := ⟨0, 48⟩
/-! FHL_EAXC -/
def FHL_EAXC_VALID : BitField := ⟨63, 1⟩
def FHL_EAXC_DIR : BitField := ⟨62, 1⟩
def FHL_EAXC_KIND : BitField := ⟨60, 2⟩
def FHL_EAXC_PORT : BitField := ⟨54, 6⟩
def FHL_EAXC_CELL : BitField := ⟨47, 7⟩
def FHL_EAXC_ANT : BitField := ⟨41, 6⟩
def FHL_EAXC_PEER : BitField := ⟨35, 6⟩
def FHL_EAXC_METHOD : BitField := ⟨31, 4⟩
def FHL_EAXC_WIDTH : BitField := ⟨27, 4⟩
def FHL_EAXC_NPRB : BitField := ⟨16, 10⟩
def FHL_EAXC_EAXC_ID : BitField := ⟨0, 16⟩
/-! FHL_PORT_CFG -/
def FHL_PORT_CFG_MAX_FRAME : BitField := ⟨17, 14⟩
def FHL_PORT_CFG_UDCOMP_HDR : BitField := ⟨16, 1⟩
def FHL_PORT_CFG_PRB_PKT : BitField := ⟨6, 8⟩
def FHL_PORT_CFG_FEC : BitField := ⟨4, 2⟩
def FHL_PORT_CFG_MODE : BitField := ⟨0, 3⟩
/-! FHL_PORT_MAC -/
def FHL_PORT_MAC_ADDR : BitField := ⟨0, 48⟩
/-! FHL_PORT_VLAN -/
def FHL_PORT_VLAN_PCP_C : BitField := ⟨27, 3⟩
def FHL_PORT_VLAN_PCP_U : BitField := ⟨24, 3⟩
def FHL_PORT_VLAN_VID_TX : BitField := ⟨12, 12⟩
def FHL_PORT_VLAN_VID_RX : BitField := ⟨0, 12⟩
/-! FHL_PORT_STATUS -/
def FHL_PORT_STATUS_CHANGE : BitField := ⟨3, 1⟩
def FHL_PORT_STATUS_FEC_LOCK : BitField := ⟨2, 1⟩
def FHL_PORT_STATUS_REMOTE_FAULT : BitField := ⟨1, 1⟩
def FHL_PORT_STATUS_LINK_UP : BitField := ⟨0, 1⟩
/-! FHL_CNT -/
def FHL_CNT_COUNT : BitField := ⟨0, 64⟩
/-! MCE_CTRL -/
def MCE_CTRL_STAT_CLR : BitField := ⟨0, 1⟩
/-! MCE_GAIN_CFG -/
def MCE_GAIN_CFG_CLIP_PPM : BitField := ⟨32, 16⟩
def MCE_GAIN_CFG_HOLD : BitField := ⟨20, 8⟩
def MCE_GAIN_CFG_MAX_STEPS : BitField := ⟨16, 4⟩
def MCE_GAIN_CFG_HYST : BitField := ⟨8, 8⟩
def MCE_GAIN_CFG_TARGET : BitField := ⟨0, 8⟩
/-! MCE_STATUS -/
def MCE_STATUS_WMISS : BitField := ⟨48, 16⟩
def MCE_STATUS_WVALID : BitField := ⟨32, 14⟩
def MCE_STATUS_FROZEN : BitField := ⟨2, 1⟩
def MCE_STATUS_DEMAP_BUSY : BitField := ⟨1, 1⟩
def MCE_STATUS_ARRAY_BUSY : BitField := ⟨0, 1⟩
/-! MCE_JOBS -/
def MCE_JOBS_COUNT : BitField := ⟨0, 64⟩
/-! MCE_SAT -/
def MCE_SAT_COUNT : BitField := ⟨0, 64⟩
/-! PRA_CTRL -/
def PRA_CTRL_STAT_CLR : BitField := ⟨0, 1⟩
/-! PRA_RING_BASE -/
def PRA_RING_BASE_ADDR : BitField := ⟨0, 64⟩
/-! PRA_RING_CFG -/
def PRA_RING_CFG_ENABLE : BitField := ⟨28, 1⟩
def PRA_RING_CFG_VECTOR : BitField := ⟨22, 6⟩
def PRA_RING_CFG_COAL_TICKS : BitField := ⟨14, 8⟩
def PRA_RING_CFG_COAL_COUNT : BitField := ⟨7, 7⟩
def PRA_RING_CFG_LOG2_SIZE : BitField := ⟨0, 4⟩
/-! PRA_RING_DB -/
def PRA_RING_DB_INDEX : BitField := ⟨0, 16⟩
/-! PRA_RING_PI -/
def PRA_RING_PI_PHASE : BitField := ⟨16, 1⟩
def PRA_RING_PI_INDEX : BitField := ⟨0, 16⟩
/-! PRA_STATS -/
def PRA_STATS_DROPS : BitField := ⟨32, 32⟩
def PRA_STATS_PEAKS : BitField := ⟨0, 32⟩
/-! PRA_CELL_A -/
def PRA_CELL_A_VALID : BitField := ⟨63, 1⟩
def PRA_CELL_A_CELL : BitField := ⟨56, 7⟩
def PRA_CELL_A_RING : BitField := ⟨54, 2⟩
def PRA_CELL_A_FORMAT0 : BitField := ⟨50, 4⟩
def PRA_CELL_A_FORMAT1 : BitField := ⟨46, 4⟩
def PRA_CELL_A_SCS : BitField := ⟨43, 3⟩
def PRA_CELL_A_FDM_LOG2 : BitField := ⟨41, 2⟩
def PRA_CELL_A_ROOT : BitField := ⟨31, 10⟩
def PRA_CELL_A_NROOT : BitField := ⟨24, 7⟩
def PRA_CELL_A_NCS_CFG : BitField := ⟨20, 4⟩
def PRA_CELL_A_EAXC_BASE : BitField := ⟨10, 10⟩
/-! PRA_CELL_B -/
def PRA_CELL_B_THRESH : BitField := ⟨48, 16⟩
def PRA_CELL_B_ANT : BitField := ⟨41, 7⟩
/-! PRA_CELL_C -/
def PRA_CELL_C_TIME_OFFSET : BitField := ⟨48, 16⟩
def PRA_CELL_C_CP_LENGTH : BitField := ⟨32, 16⟩
def PRA_CELL_C_FRAME_STRUCT : BitField := ⟨24, 8⟩
def PRA_CELL_C_NUM_PRBC : BitField := ⟨16, 8⟩
def PRA_CELL_C_NUM_SYMBOL : BitField := ⟨12, 4⟩
/-! PRA_CELL_D -/
def PRA_CELL_D_FREQ_STEP : BitField := ⟨24, 24⟩
def PRA_CELL_D_FREQ_OFS : BitField := ⟨0, 24⟩
/-! DEC_CTRL -/
def DEC_CTRL_STAT_CLR : BitField := ⟨0, 1⟩
/-! DEC_STATS -/
def DEC_STATS_HARQ_RESET : BitField := ⟨48, 16⟩
def DEC_STATS_NO_HBUF : BitField := ⟨32, 16⟩
def DEC_STATS_STEP_SHORT : BitField := ⟨16, 16⟩
def DEC_STATS_CRC_FAIL : BitField := ⟨0, 16⟩
/-! DEC_UID_STATUS -/
def DEC_UID_STATUS_JOBS : BitField := ⟨32, 32⟩
def DEC_UID_STATUS_FROZEN : BitField := ⟨1, 1⟩
def DEC_UID_STATUS_BUSY : BitField := ⟨0, 1⟩
/-! DEC_ENC_STATUS -/
def DEC_ENC_STATUS_JOBS : BitField := ⟨32, 32⟩
def DEC_ENC_STATUS_FROZEN : BitField := ⟨1, 1⟩
def DEC_ENC_STATUS_BUSY : BitField := ⟨0, 1⟩
/-! DEC_CELL_A -/
def DEC_CELL_A_VALID : BitField := ⟨63, 1⟩
def DEC_CELL_A_NUE : BitField := ⟨48, 15⟩
def DEC_CELL_A_DIR_BASE : BitField := ⟨12, 36⟩
/-! DEC_CELL_B -/
def DEC_CELL_B_NPROC : BitField := ⟨58, 6⟩
def DEC_CELL_B_CB_SLOTS : BitField := ⟨48, 10⟩
def DEC_CELL_B_BUF_BASE : BitField := ⟨16, 32⟩
/-! DEC_CELL_C -/
def DEC_CELL_C_MIB : BitField := ⟨40, 24⟩
def DEC_CELL_C_PCI : BitField := ⟨30, 10⟩
def DEC_CELL_C_CRS_PORTS : BitField := ⟨28, 2⟩
def DEC_CELL_C_LTE : BitField := ⟨27, 1⟩
/-! NOC_CTRL -/
def NOC_CTRL_STAT_CLR : BitField := ⟨0, 1⟩
/-! NOC_RT_ADDR -/
def NOC_RT_ADDR_NI : BitField := ⟨8, 8⟩
def NOC_RT_ADDR_ENTRY : BitField := ⟨0, 8⟩
/-! NOC_RT_DATA -/
def NOC_RT_DATA_VALID : BitField := ⟨63, 1⟩
def NOC_RT_DATA_DEST_NI : BitField := ⟨48, 8⟩
def NOC_RT_DATA_LAST : BitField := ⟨32, 3⟩
def NOC_RT_DATA_ROUTE : BitField := ⟨0, 32⟩
/-! NOC_ISOLATE -/
def NOC_ISOLATE_NI : BitField := ⟨0, 64⟩
/-! NOC_RELEASE -/
def NOC_RELEASE_NI : BitField := ⟨0, 64⟩
/-! NOC_CNT -/
def NOC_CNT_COUNT : BitField := ⟨0, 64⟩
/-! NOC_ERR_LAST -/
def NOC_ERR_LAST_SRC_NI : BitField := ⟨56, 8⟩
def NOC_ERR_LAST_DST_NI : BitField := ⟨48, 8⟩
def NOC_ERR_LAST_TYPE : BitField := ⟨44, 4⟩
def NOC_ERR_LAST_STATUS : BitField := ⟨41, 3⟩
def NOC_ERR_LAST_VALID : BitField := ⟨40, 1⟩
/-! NOC_LINK -/
def NOC_LINK_GT_FLITS : BitField := ⟨32, 32⟩
def NOC_LINK_BE_FLITS : BitField := ⟨0, 32⟩
/-! NOC_NI -/
def NOC_NI_HELD : BitField := ⟨48, 16⟩
def NOC_NI_WAKING : BitField := ⟨2, 1⟩
def NOC_NI_DEAD : BitField := ⟨1, 1⟩
def NOC_NI_ISOLATED : BitField := ⟨0, 1⟩
/-! MEM_CTRL -/
def MEM_CTRL_STAT_CLR : BitField := ⟨0, 1⟩
/-! MEM_SCRUB_RATE -/
def MEM_SCRUB_RATE_DDR : BitField := ⟨48, 8⟩
def MEM_SCRUB_RATE_PRACH : BitField := ⟨40, 8⟩
def MEM_SCRUB_RATE_ALM : BitField := ⟨32, 8⟩
def MEM_SCRUB_RATE_MCE : BitField := ⟨24, 8⟩
def MEM_SCRUB_RATE_PASTURE : BitField := ⟨16, 8⟩
def MEM_SCRUB_RATE_FOLD : BitField := ⟨8, 8⟩
def MEM_SCRUB_RATE_SHEP : BitField := ⟨0, 8⟩
/-! MEM_SCRUB_STAT -/
def MEM_SCRUB_STAT_PASSES : BitField := ⟨32, 32⟩
def MEM_SCRUB_STAT_BEHIND : BitField := ⟨0, 32⟩
/-! MEM_ECC_LAST -/
def MEM_ECC_LAST_VALID : BitField := ⟨63, 1⟩
def MEM_ECC_LAST_UNCORR : BitField := ⟨62, 1⟩
def MEM_ECC_LAST_GROUP : BitField := ⟨56, 6⟩
def MEM_ECC_LAST_SYNDROME : BitField := ⟨48, 8⟩
def MEM_ECC_LAST_ADDR : BitField := ⟨0, 48⟩
/-! MEM_INJECT -/
def MEM_INJECT_ARM : BitField := ⟨63, 1⟩
def MEM_INJECT_DOUBLE : BitField := ⟨62, 1⟩
def MEM_INJECT_GROUP : BitField := ⟨56, 6⟩
def MEM_INJECT_BIT_A : BitField := ⟨49, 7⟩
def MEM_INJECT_BIT_B : BitField := ⟨42, 7⟩
def MEM_INJECT_WORD : BitField := ⟨0, 21⟩
/-! MEM_REMAP_SEL -/
def MEM_REMAP_SEL_GROUP : BitField := ⟨8, 6⟩
def MEM_REMAP_SEL_ENTRY : BitField := ⟨0, 3⟩
/-! MEM_REMAP_DATA -/
def MEM_REMAP_DATA_VALID : BitField := ⟨63, 1⟩
def MEM_REMAP_DATA_ADDR : BitField := ⟨0, 48⟩
/-! MEM_DDR_CFG -/
def MEM_DDR_CFG_INIT_DONE : BitField := ⟨2, 1⟩
def MEM_DDR_CFG_SIZE : BitField := ⟨0, 2⟩
/-! MEM_DDR_DEV -/
def MEM_DDR_DEV_DEVS : BitField := ⟨0, 60⟩
/-! MEM_GRP -/
def MEM_GRP_FAILED : BitField := ⟨63, 1⟩
def MEM_GRP_REMAP_USED : BitField := ⟨56, 4⟩
def MEM_GRP_PARTIAL_DROP : BitField := ⟨40, 16⟩
def MEM_GRP_UNCORR : BitField := ⟨32, 8⟩
def MEM_GRP_CORR : BitField := ⟨0, 32⟩
/-! MOV_CTRL -/
def MOV_CTRL_STAT_CLR : BitField := ⟨0, 1⟩
/-! MOV_ENG -/
def MOV_ENG_TRANSFERS : BitField := ⟨32, 32⟩
def MOV_ENG_CUR_CH : BitField := ⟨4, 4⟩
def MOV_ENG_BUSY : BitField := ⟨3, 1⟩
def MOV_ENG_FROZEN : BitField := ⟨2, 1⟩
def MOV_ENG_STATE : BitField := ⟨0, 2⟩
/-! MOV_CH_CFG -/
def MOV_CH_CFG_CLEAR : BitField := ⟨9, 1⟩
def MOV_CH_CFG_VECTOR : BitField := ⟨3, 6⟩
def MOV_CH_CFG_TARGET : BitField := ⟨2, 1⟩
def MOV_CH_CFG_MODE : BitField := ⟨1, 1⟩
def MOV_CH_CFG_ENABLE : BitField := ⟨0, 1⟩
/-! MOV_CH_SRC -/
def MOV_CH_SRC_ADDR : BitField := ⟨0, 64⟩
/-! MOV_CH_DST -/
def MOV_CH_DST_ADDR : BitField := ⟨0, 64⟩
/-! MOV_CH_XFER -/
def MOV_CH_XFER_GO : BitField := ⟨63, 1⟩
def MOV_CH_XFER_IRQ_FULL : BitField := ⟨40, 1⟩
def MOV_CH_XFER_IRQ_HALF : BitField := ⟨39, 1⟩
def MOV_CH_XFER_ELEM : BitField := ⟨37, 2⟩
def MOV_CH_XFER_DST_FIX : BitField := ⟨36, 1⟩
def MOV_CH_XFER_SRC_FIX : BitField := ⟨35, 1⟩
def MOV_CH_XFER_LEN : BitField := ⟨0, 32⟩
/-! MOV_CH_RING -/
def MOV_CH_RING_BASE : BitField := ⟨0, 64⟩
/-! MOV_CH_STATUS -/
def MOV_CH_STATUS_ERR_DIR : BitField := ⟨11, 1⟩
def MOV_CH_STATUS_ERR_STATUS : BitField := ⟨8, 3⟩
def MOV_CH_STATUS_SWAP_ABORT : BitField := ⟨6, 1⟩
def MOV_CH_STATUS_SH_REJECT : BitField := ⟨5, 1⟩
def MOV_CH_STATUS_FULL : BitField := ⟨4, 1⟩
def MOV_CH_STATUS_HALF : BitField := ⟨3, 1⟩
def MOV_CH_STATUS_HALTED : BitField := ⟨2, 1⟩
def MOV_CH_STATUS_SH_FULL : BitField := ⟨1, 1⟩
def MOV_CH_STATUS_BUSY : BitField := ⟨0, 1⟩
/-! MOV_CH_POS -/
def MOV_CH_POS_RING_IDX : BitField := ⟨32, 16⟩
def MOV_CH_POS_DONE_BYTES : BitField := ⟨0, 32⟩
/-! MOV_CH_ERR_ADDR -/
def MOV_CH_ERR_ADDR_ADDR : BitField := ⟨0, 64⟩
/-! DRL_CTRL -/
def DRL_CTRL_VECTOR : BitField := ⟨8, 6⟩
def DRL_CTRL_EVT_EN : BitField := ⟨1, 1⟩
def DRL_CTRL_STAT_CLR : BitField := ⟨0, 1⟩
/-! DRL_CFG -/
def DRL_CFG_DEG_THR : BitField := ⟨32, 32⟩
def DRL_CFG_DEG_M : BitField := ⟨24, 4⟩
def DRL_CFG_M : BitField := ⟨8, 4⟩
def DRL_CFG_N : BitField := ⟨0, 3⟩
/-! DRL_GRP_CFG -/
def DRL_GRP_CFG_MASK_REJECT : BitField := ⟨9, 1⟩
def DRL_GRP_CFG_FORCE_RDI : BitField := ⟨8, 1⟩
def DRL_GRP_CFG_FORCE_AIS : BitField := ⟨7, 1⟩
def DRL_GRP_CFG_RATE : BitField := ⟨6, 1⟩
def DRL_GRP_CFG_ENABLE : BitField := ⟨0, 1⟩
/-! DRL_GRP_LANES -/
def DRL_GRP_LANES_MASK : BitField := ⟨0, 64⟩
/-! DRL_GRP_STATUS -/
def DRL_GRP_STATUS_GT_MAP : BitField := ⟨48, 8⟩
def DRL_GRP_STATUS_VER_MAJ : BitField := ⟨40, 8⟩
def DRL_GRP_STATUS_VER_MIN : BitField := ⟨32, 8⟩
def DRL_GRP_STATUS_QL : BitField := ⟨28, 4⟩
def DRL_GRP_STATUS_UNAVAIL : BitField := ⟨8, 1⟩
def DRL_GRP_STATUS_CHANGE : BitField := ⟨7, 1⟩
def DRL_GRP_STATUS_KEY_HELD : BitField := ⟨6, 1⟩
def DRL_GRP_STATUS_KEY_ON : BitField := ⟨5, 1⟩
def DRL_GRP_STATUS_DOWN : BitField := ⟨4, 1⟩
def DRL_GRP_STATUS_DEFECT : BitField := ⟨0, 3⟩
/-! DRL_GRP_PEER_UID -/
def DRL_GRP_PEER_UID_UID : BitField := ⟨0, 64⟩
/-! DRL_GRP_PEER -/
def DRL_GRP_PEER_VALID : BitField := ⟨13, 1⟩
def DRL_GRP_PEER_LINK : BitField := ⟨8, 5⟩
def DRL_GRP_PEER_LONE : BitField := ⟨6, 1⟩
def DRL_GRP_PEER_ADDR : BitField := ⟨0, 6⟩
/-! DRL_LANE_STATUS -/
def DRL_LANE_STATUS_SKEW : BitField := ⟨16, 14⟩
def DRL_LANE_STATUS_DEFECT : BitField := ⟨5, 3⟩
def DRL_LANE_STATUS_CHANGE : BitField := ⟨4, 1⟩
def DRL_LANE_STATUS_ALIGN : BitField := ⟨2, 2⟩
def DRL_LANE_STATUS_UNAVAIL : BitField := ⟨1, 1⟩
/-! DRL_PM -/
def DRL_PM_COUNT : BitField := ⟨0, 64⟩
/-! FAB_CTRL -/
def FAB_CTRL_VECTOR : BitField := ⟨8, 6⟩
def FAB_CTRL_MUSTER : BitField := ⟨2, 1⟩
def FAB_CTRL_EVT_EN : BitField := ⟨1, 1⟩
def FAB_CTRL_STAT_CLR : BitField := ⟨0, 1⟩
/-! FAB_CFG -/
def FAB_CFG_TIMEOUT : BitField := ⟨16, 10⟩
def FAB_CFG_BE_HOLD : BitField := ⟨0, 5⟩
/-! FAB_UID -/
def FAB_UID_UID : BitField := ⟨0, 64⟩
/-! FAB_ADDR -/
def FAB_ADDR_STAGED : BitField := ⟨25, 6⟩
def FAB_ADDR_STAGED_LONE : BitField := ⟨24, 1⟩
def FAB_ADDR_EXCLUDED : BitField := ⟨16, 1⟩
def FAB_ADDR_LONE : BitField := ⟨15, 1⟩
def FAB_ADDR_PRIOR_VALID : BitField := ⟨14, 1⟩
def FAB_ADDR_PRIOR : BitField := ⟨8, 6⟩
def FAB_ADDR_COORD : BitField := ⟨7, 1⟩
def FAB_ADDR_ADDR : BitField := ⟨0, 6⟩
/-! FAB_MUSTER -/
def FAB_MUSTER_NUMBER : BitField := ⟨32, 32⟩
def FAB_MUSTER_ABORTS : BitField := ⟨16, 8⟩
def FAB_MUSTER_STATE : BitField := ⟨0, 3⟩
/-! FAB_EPOCH -/
def FAB_EPOCH_TIME : BitField := ⟨0, 64⟩
/-! FAB_MSG_TX -/
def FAB_MSG_TX_GO : BitField := ⟨63, 1⟩
def FAB_MSG_TX_BUSY : BitField := ⟨62, 1⟩
def FAB_MSG_TX_ADDR : BitField := ⟨0, 48⟩
/-! FAB_RX_BASE -/
def FAB_RX_BASE_ADDR : BitField := ⟨0, 48⟩
/-! FAB_RX_CFG -/
def FAB_RX_CFG_ENABLE : BitField := ⟨28, 1⟩
def FAB_RX_CFG_VECTOR : BitField := ⟨22, 6⟩
def FAB_RX_CFG_LOG2_SIZE : BitField := ⟨0, 4⟩
/-! FAB_RX_DB -/
def FAB_RX_DB_INDEX : BitField := ⟨0, 16⟩
/-! FAB_RX_PI -/
def FAB_RX_PI_PHASE : BitField := ⟨16, 1⟩
def FAB_RX_PI_INDEX : BitField := ⟨0, 16⟩
/-! FAB_ERR_LAST -/
def FAB_ERR_LAST_CODE : BitField := ⟨56, 8⟩
def FAB_ERR_LAST_FTAG : BitField := ⟨48, 8⟩
def FAB_ERR_LAST_DEV : BitField := ⟨42, 6⟩
def FAB_ERR_LAST_SRC_NI : BitField := ⟨35, 7⟩
def FAB_ERR_LAST_GROUP : BitField := ⟨30, 5⟩
def FAB_ERR_LAST_VALID : BitField := ⟨29, 1⟩
/-! FAB_CNT -/
def FAB_CNT_COUNT : BitField := ⟨0, 64⟩
/-! FAB_GRP -/
def FAB_GRP_CREDITS : BitField := ⟨24, 8⟩
def FAB_GRP_RUN_MIN : BitField := ⟨16, 8⟩
def FAB_GRP_RUN_MAJ : BitField := ⟨8, 8⟩
def FAB_GRP_CHANGE : BitField := ⟨3, 1⟩
def FAB_GRP_MUSTERED : BitField := ⟨2, 1⟩
def FAB_GRP_REFUSED : BitField := ⟨1, 1⟩
def FAB_GRP_IN_SERVICE : BitField := ⟨0, 1⟩
/-! FAB_ROUTE -/
def FAB_ROUTE_VALID : BitField := ⟨63, 1⟩
def FAB_ROUTE_NHOPS : BitField := ⟨22, 2⟩
def FAB_ROUTE_ROUTE : BitField := ⟨0, 20⟩
/-! FAB_ROUTE_SH -/
def FAB_ROUTE_SH_VALID : BitField := ⟨63, 1⟩
def FAB_ROUTE_SH_NHOPS : BitField := ⟨22, 2⟩
def FAB_ROUTE_SH_ROUTE : BitField := ⟨0, 20⟩
/-! FAB_POOL -/
def FAB_POOL_UID : BitField := ⟨0, 64⟩
/-! SDS_CTRL -/
def SDS_CTRL_RCLK1_EN : BitField := ⟨29, 1⟩
def SDS_CTRL_RCLK1_LANE : BitField := ⟨23, 6⟩
def SDS_CTRL_RCLK0_EN : BitField := ⟨22, 1⟩
def SDS_CTRL_RCLK0_LANE : BitField := ⟨16, 6⟩
def SDS_CTRL_VECTOR : BitField := ⟨8, 6⟩
def SDS_CTRL_EVT_EN : BitField := ⟨1, 1⟩
def SDS_CTRL_STAT_CLR : BitField := ⟨0, 1⟩
/-! SDS_QUAD_CFG -/
def SDS_QUAD_CFG_RATE : BitField := ⟨0, 3⟩
/-! SDS_QUAD_STATUS -/
def SDS_QUAD_STATUS_CHANGE : BitField := ⟨3, 1⟩
def SDS_QUAD_STATUS_FAILED : BitField := ⟨2, 1⟩
def SDS_QUAD_STATUS_LOCK : BitField := ⟨1, 1⟩
def SDS_QUAD_STATUS_READY : BitField := ⟨0, 1⟩
/-! SDS_LANE_CFG -/
def SDS_LANE_CFG_FOM_MIN : BitField := ⟨32, 8⟩
def SDS_LANE_CFG_READAPT : BitField := ⟨9, 1⟩
def SDS_LANE_CFG_DFE_FREEZE : BitField := ⟨8, 1⟩
def SDS_LANE_CFG_CTLE_FIX : BitField := ⟨4, 4⟩
def SDS_LANE_CFG_CTLE_MAN : BitField := ⟨3, 1⟩
def SDS_LANE_CFG_LPBK : BitField := ⟨0, 2⟩
/-! SDS_LANE_FFE -/
def SDS_LANE_FFE_POST2 : BitField := ⟨24, 6⟩
def SDS_LANE_FFE_POST1 : BitField := ⟨18, 6⟩
def SDS_LANE_FFE_MAIN : BitField := ⟨12, 6⟩
def SDS_LANE_FFE_PRE1 : BitField := ⟨6, 6⟩
def SDS_LANE_FFE_PRE2 : BitField := ⟨0, 6⟩
/-! SDS_LANE_STATUS -/
def SDS_LANE_STATUS_USER : BitField := ⟨8, 2⟩
def SDS_LANE_STATUS_RATE_CONFLICT : BitField := ⟨7, 1⟩
def SDS_LANE_STATUS_FFE_REJECT : BitField := ⟨6, 1⟩
def SDS_LANE_STATUS_CHANGE : BitField := ⟨5, 1⟩
def SDS_LANE_STATUS_FOM_LOW : BitField := ⟨4, 1⟩
def SDS_LANE_STATUS_ADAPTED : BitField := ⟨3, 1⟩
def SDS_LANE_STATUS_LOCK : BitField := ⟨2, 1⟩
def SDS_LANE_STATUS_SIGNAL : BitField := ⟨1, 1⟩
def SDS_LANE_STATUS_SQUELCHED : BitField := ⟨0, 1⟩
/-! SDS_LANE_EQ -/
def SDS_LANE_EQ_FOM : BitField := ⟨56, 8⟩
def SDS_LANE_EQ_CTLE : BitField := ⟨52, 4⟩
def SDS_LANE_EQ_TAP1 : BitField := ⟨44, 7⟩
def SDS_LANE_EQ_TAP2 : BitField := ⟨0, 4⟩
def SDS_LANE_EQ_TAP3 : BitField := ⟨4, 4⟩
def SDS_LANE_EQ_TAP4 : BitField := ⟨8, 4⟩
def SDS_LANE_EQ_TAP5 : BitField := ⟨12, 4⟩
def SDS_LANE_EQ_TAP6 : BitField := ⟨16, 4⟩
def SDS_LANE_EQ_TAP7 : BitField := ⟨20, 4⟩
def SDS_LANE_EQ_TAP8 : BitField := ⟨24, 4⟩
def SDS_LANE_EQ_TAP9 : BitField := ⟨28, 4⟩
def SDS_LANE_EQ_TAP10 : BitField := ⟨32, 4⟩
def SDS_LANE_EQ_TAP11 : BitField := ⟨36, 4⟩
def SDS_LANE_EQ_TAP12 : BitField := ⟨40, 4⟩
/-! SDS_LANE_PRBS -/
def SDS_LANE_PRBS_CHK_LOCK : BitField := ⟨12, 1⟩
def SDS_LANE_PRBS_CHK_INV : BitField := ⟨11, 1⟩
def SDS_LANE_PRBS_CHK_PAT : BitField := ⟨9, 2⟩
def SDS_LANE_PRBS_CHK_EN : BitField := ⟨8, 1⟩
def SDS_LANE_PRBS_GEN_INV : BitField := ⟨4, 1⟩
def SDS_LANE_PRBS_GEN_PAT : BitField := ⟨2, 2⟩
def SDS_LANE_PRBS_GEN_EN : BitField := ⟨1, 1⟩
def SDS_LANE_PRBS_ERR_INJ : BitField := ⟨0, 1⟩
/-! SDS_LANE_PRBS_CNT -/
def SDS_LANE_PRBS_CNT_LOSSES : BitField := ⟨48, 16⟩
def SDS_LANE_PRBS_CNT_ERRORS : BitField := ⟨0, 48⟩
/-! TIM_CTRL -/
def TIM_CTRL_VECTOR : BitField := ⟨8, 6⟩
def TIM_CTRL_STAT_CLR : BitField := ⟨2, 1⟩
def TIM_CTRL_EVT_EN : BitField := ⟨1, 1⟩
/-! TIM_CFG -/
def TIM_CFG_FREQ_BW : BitField := ⟨60, 4⟩
def TIM_CFG_PHASE_BW : BitField := ⟨56, 4⟩
def TIM_CFG_PULL_LIM : BitField := ⟨48, 8⟩
def TIM_CFG_WTR : BitField := ⟨38, 10⟩
def TIM_CFG_HO_AVG : BitField := ⟨36, 2⟩
def TIM_CFG_LOCK_THR : BitField := ⟨25, 11⟩
def TIM_CFG_LOCK_TIME : BitField := ⟨13, 12⟩
def TIM_CFG_FREQ_LIM : BitField := ⟨6, 7⟩
def TIM_CFG_QL_HO : BitField := ⟨2, 4⟩
def TIM_CFG_REVERT : BitField := ⟨1, 1⟩
def TIM_CFG_XO_FREQ : BitField := ⟨0, 1⟩
/-! TIM_STATUS -/
def TIM_STATUS_OUT_QL : BitField := ⟨20, 4⟩
def TIM_STATUS_SEL_TIME : BitField := ⟨16, 4⟩
def TIM_STATUS_SEL_FREQ : BitField := ⟨12, 4⟩
def TIM_STATUS_CHANGE : BitField := ⟨7, 1⟩
def TIM_STATUS_HO_VALID : BitField := ⟨6, 1⟩
def TIM_STATUS_TIME_LOCKED : BitField := ⟨5, 1⟩
def TIM_STATUS_STEP_DONE : BitField := ⟨4, 1⟩
def TIM_STATUS_STATE : BitField := ⟨0, 3⟩
/-! TIM_DT -/
def TIM_DT_DT : BitField := ⟨0, 64⟩
/-! TIM_TOD_SEC -/
def TIM_TOD_SEC_SEC : BitField := ⟨0, 48⟩
/-! TIM_TOD_SUB -/
def TIM_TOD_SUB_NS : BitField := ⟨16, 30⟩
def TIM_TOD_SUB_FRAC : BitField := ⟨0, 16⟩
/-! TIM_POS -/
def TIM_POS_FRAME : BitField := ⟨44, 20⟩
def TIM_POS_TICK : BitField := ⟨0, 17⟩
/-! TIM_TOD_SET -/
def TIM_TOD_SET_VALID : BitField := ⟨63, 1⟩
def TIM_TOD_SET_SEC : BitField := ⟨0, 48⟩
/-! TIM_STEP_ARM -/
def TIM_STEP_ARM_DISARM : BitField := ⟨1, 1⟩
def TIM_STEP_ARM_ARM : BitField := ⟨0, 1⟩
/-! TIM_FREQ -/
def TIM_FREQ_HO_FREQ : BitField := ⟨32, 32⟩
def TIM_FREQ_FREQ : BitField := ⟨0, 32⟩
/-! TIM_VREF_SEC -/
def TIM_VREF_SEC_SEC : BitField := ⟨0, 48⟩
/-! TIM_VREF_AT -/
def TIM_VREF_AT_AT : BitField := ⟨0, 64⟩
/-! TIM_VREF_SUB -/
def TIM_VREF_SUB_SUB : BitField := ⟨0, 64⟩
/-! TIM_RX_BASE -/
def TIM_RX_BASE_ADDR : BitField := ⟨0, 48⟩
/-! TIM_RX_CFG -/
def TIM_RX_CFG_ENABLE : BitField := ⟨28, 1⟩
def TIM_RX_CFG_VECTOR : BitField := ⟨22, 6⟩
def TIM_RX_CFG_LOG2_SIZE : BitField := ⟨0, 4⟩
/-! TIM_RX_DB -/
def TIM_RX_DB_INDEX : BitField := ⟨0, 16⟩
/-! TIM_RX_PI -/
def TIM_RX_PI_PHASE : BitField := ⟨16, 1⟩
def TIM_RX_PI_INDEX : BitField := ⟨0, 16⟩
/-! TIM_TX_BASE -/
def TIM_TX_BASE_ADDR : BitField := ⟨0, 48⟩
/-! TIM_TX_CFG -/
def TIM_TX_CFG_ENABLE : BitField := ⟨28, 1⟩
def TIM_TX_CFG_VECTOR : BitField := ⟨22, 6⟩
def TIM_TX_CFG_LOG2_SIZE : BitField := ⟨0, 4⟩
/-! TIM_TX_DB -/
def TIM_TX_DB_INDEX : BitField := ⟨0, 16⟩
/-! TIM_TX_CI -/
def TIM_TX_CI_INDEX : BitField := ⟨0, 16⟩
/-! TIM_CNT -/
def TIM_CNT_COUNT : BitField := ⟨0, 64⟩
/-! TIM_REF_CFG -/
def TIM_REF_CFG_EN : BitField := ⟨63, 1⟩
def TIM_REF_CFG_PRIO : BitField := ⟨59, 4⟩
def TIM_REF_CFG_QL_OVR : BitField := ⟨58, 1⟩
def TIM_REF_CFG_QL : BitField := ⟨54, 4⟩
def TIM_REF_CFG_CLOCK_CLASS : BitField := ⟨46, 8⟩
def TIM_REF_CFG_FREQ : BitField := ⟨43, 3⟩
def TIM_REF_CFG_DELAY : BitField := ⟨0, 32⟩
/-! TIM_REF_STATUS -/
def TIM_REF_STATUS_FOFS : BitField := ⟨32, 32⟩
def TIM_REF_STATUS_QL : BitField := ⟨8, 4⟩
def TIM_REF_STATUS_CHANGE : BitField := ⟨4, 1⟩
def TIM_REF_STATUS_WTR : BitField := ⟨3, 1⟩
def TIM_REF_STATUS_SELECTED : BitField := ⟨2, 1⟩
def TIM_REF_STATUS_ACTIVE : BitField := ⟨1, 1⟩
def TIM_REF_STATUS_VALID : BitField := ⟨0, 1⟩
/-! TIM_OUT -/
def TIM_OUT_EN : BitField := ⟨63, 1⟩
def TIM_OUT_SQ_UNLOCK : BitField := ⟨62, 1⟩
def TIM_OUT_FREQ : BitField := ⟨59, 3⟩
def TIM_OUT_WIDTH : BitField := ⟨48, 11⟩
def TIM_OUT_REJECT : BitField := ⟨47, 1⟩
def TIM_OUT_OFFSET : BitField := ⟨0, 40⟩
/-! TIM_OUT_STEP -/
def TIM_OUT_STEP_STEP : BitField := ⟨0, 32⟩
/-! TIM_EVT_CMP -/
def TIM_EVT_CMP_CMP : BitField := ⟨0, 64⟩
/-! TIM_EVT_CTRL -/
def TIM_EVT_CTRL_ARM : BitField := ⟨63, 1⟩
def TIM_EVT_CTRL_LATE : BitField := ⟨62, 1⟩
def TIM_EVT_CTRL_STEPPED : BitField := ⟨61, 1⟩
def TIM_EVT_CTRL_PERIOD : BitField := ⟨32, 16⟩
def TIM_EVT_CTRL_ACTION : BitField := ⟨24, 8⟩
def TIM_EVT_CTRL_ARG : BitField := ⟨0, 24⟩
/-! TIM_PORT -/
def TIM_PORT_TX_ADJ : BitField := ⟨32, 32⟩
def TIM_PORT_RX_ADJ : BitField := ⟨0, 32⟩
/-! PWR_CTRL -/
def PWR_CTRL_VECTOR : BitField := ⟨8, 6⟩
def PWR_CTRL_EVT_EN : BitField := ⟨1, 1⟩
def PWR_CTRL_STAT_CLR : BitField := ⟨0, 1⟩
/-! PWR_MODE -/
def PWR_MODE_MODE : BitField := ⟨0, 2⟩
/-! PWR_STATS -/
def PWR_STATS_ENTRIES : BitField := ⟨48, 16⟩
def PWR_STATS_ABORTS : BitField := ⟨32, 16⟩
def PWR_STATS_REFUSALS : BitField := ⟨16, 16⟩
def PWR_STATS_DEMAND_WAKES : BitField := ⟨0, 16⟩
/-! PWR_REFUSE -/
def PWR_REFUSE_VALID : BitField := ⟨63, 1⟩
def PWR_REFUSE_DOMAIN : BitField := ⟨56, 7⟩
def PWR_REFUSE_BLOCK : BitField := ⟨51, 5⟩
def PWR_REFUSE_LIMIT : BitField := ⟨50, 1⟩
def PWR_REFUSE_INDEX : BitField := ⟨35, 15⟩
/-! PWR_FORCE_ON -/
def PWR_FORCE_ON_DOM : BitField := ⟨0, 64⟩
/-! PWR_AVS_CFG -/
def PWR_AVS_CFG_VMIN : BitField := ⟨38, 10⟩
def PWR_AVS_CFG_VMAX : BitField := ⟨28, 10⟩
def PWR_AVS_CFG_RAIL_SEL : BitField := ⟨24, 4⟩
def PWR_AVS_CFG_BOOT_MV : BitField := ⟨10, 10⟩
/-! PWR_AVS_STATUS -/
def PWR_AVS_STATUS_ACKED : BitField := ⟨54, 10⟩
def PWR_AVS_STATUS_TARGET : BitField := ⟨44, 10⟩
def PWR_AVS_STATUS_FAILS : BitField := ⟨32, 8⟩
def PWR_AVS_STATUS_FAIL : BitField := ⟨1, 1⟩
def PWR_AVS_STATUS_BUSY : BitField := ⟨0, 1⟩
/-! PWR_DOM -/
def PWR_DOM_FAILED : BitField := ⟨15, 1⟩
def PWR_DOM_EMULATED : BitField := ⟨14, 1⟩
def PWR_DOM_FORCED : BitField := ⟨13, 1⟩
def PWR_DOM_PLANNED : BitField := ⟨8, 2⟩
def PWR_DOM_CHANGE : BitField := ⟨5, 1⟩
def PWR_DOM_WAKING : BitField := ⟨4, 1⟩
def PWR_DOM_ENTERING : BitField := ⟨3, 1⟩
def PWR_DOM_STATE : BitField := ⟨0, 2⟩
/-! PWR_DOM_CFG -/
def PWR_DOM_CFG_CLEAR_FAIL : BitField := ⟨15, 1⟩
def PWR_DOM_CFG_FW_STATE : BitField := ⟨10, 2⟩
def PWR_DOM_CFG_DROOP : BitField := ⟨0, 5⟩
/-! SYS_ID -/
def SYS_ID_PART : BitField := ⟨48, 16⟩
def SYS_ID_REVISION : BitField := ⟨40, 8⟩
/-! SYS_READY -/
def SYS_READY_PCIE : BitField := ⟨0, 1⟩
def SYS_READY_SHEP : BitField := ⟨1, 1⟩
def SYS_READY_BOOTIMG : BitField := ⟨2, 1⟩
def SYS_READY_BELL : BitField := ⟨3, 1⟩
def SYS_READY_TOD : BitField := ⟨4, 1⟩
def SYS_READY_TICK : BitField := ⟨5, 1⟩
def SYS_READY_ALM : BitField := ⟨6, 1⟩
def SYS_READY_DRV : BitField := ⟨7, 1⟩
def SYS_READY_FOLD : BitField := ⟨8, 16⟩
def SYS_READY_GROUPS : BitField := ⟨24, 10⟩
def SYS_READY_DDR : BitField := ⟨34, 4⟩
def SYS_READY_PASTURE : BitField := ⟨38, 1⟩
def SYS_READY_FH : BitField := ⟨39, 1⟩
def SYS_READY_FAB : BitField := ⟨40, 1⟩
def SYS_READY_STATUS_PORT : BitField := ⟨41, 1⟩
def SYS_READY_UART : BitField := ⟨42, 1⟩
def SYS_READY_DBG : BitField := ⟨43, 1⟩
def SYS_READY_SDSQ : BitField := ⟨44, 16⟩
/-! SYS_CTRL -/
def SYS_CTRL_KEY : BitField := ⟨48, 16⟩
def SYS_CTRL_FW_BANK : BitField := ⟨3, 1⟩
def SYS_CTRL_FH_READY : BitField := ⟨2, 1⟩
def SYS_CTRL_RESET : BitField := ⟨1, 1⟩
def SYS_CTRL_BOOT_LOCK : BitField := ⟨0, 1⟩
/-! SYS_BOOT_STATUS -/
def SYS_BOOT_STATUS_CODE : BitField := ⟨56, 8⟩
def SYS_BOOT_STATUS_SECTION : BitField := ⟨51, 5⟩
def SYS_BOOT_STATUS_BARE : BitField := ⟨50, 1⟩
def SYS_BOOT_STATUS_SIGNED : BitField := ⟨49, 1⟩
def SYS_BOOT_STATUS_FROM_HOST : BitField := ⟨48, 1⟩
def SYS_BOOT_STATUS_FW_VERSION : BitField := ⟨0, 32⟩
/-! SYS_BOOT_SRC -/
def SYS_BOOT_SRC_ADDR : BitField := ⟨0, 48⟩
/-! SYS_BOOT_CTRL -/
def SYS_BOOT_CTRL_GO : BitField := ⟨0, 1⟩
/-! SYS_COLLIDE -/
def SYS_COLLIDE_VALID : BitField := ⟨63, 1⟩
def SYS_COLLIDE_PORTS : BitField := ⟨48, 5⟩
def SYS_COLLIDE_ADDR : BitField := ⟨0, 48⟩
/-! SYS_ALARM -/
def SYS_ALARM_MASK : BitField := ⟨8, 4⟩
def SYS_ALARM_SW : BitField := ⟨3, 1⟩
def SYS_ALARM_THERM : BitField := ⟨2, 1⟩
def SYS_ALARM_FAULT : BitField := ⟨1, 1⟩
def SYS_ALARM_BOOT : BitField := ⟨0, 1⟩
/-! SYS_THERM -/
def SYS_THERM_TEMP : BitField := ⟨48, 16⟩
def SYS_THERM_LIMIT : BitField := ⟨0, 8⟩
/-! HST_ID -/
def HST_ID_SSID : BitField := ⟨48, 16⟩
def HST_ID_SSVID : BitField := ⟨32, 16⟩
def HST_ID_DID : BitField := ⟨16, 16⟩
def HST_ID_VID : BitField := ⟨0, 16⟩
/-! HST_STATUS -/
def HST_STATUS_RESETS : BitField := ⟨32, 32⟩
def HST_STATUS_CHANGE : BitField := ⟨8, 1⟩
def HST_STATUS_WIDTH : BitField := ⟨4, 4⟩
def HST_STATUS_SPEED : BitField := ⟨1, 3⟩
def HST_STATUS_LINK_UP : BitField := ⟨0, 1⟩
/-! HST_EVT_CFG -/
def HST_EVT_CFG_SYS_EN : BitField := ⟨14, 1⟩
def HST_EVT_CFG_SYS_VECTOR : BitField := ⟨8, 6⟩
def HST_EVT_CFG_ALM_EN : BitField := ⟨6, 1⟩
def HST_EVT_CFG_ALM_VECTOR : BitField := ⟨0, 6⟩
/-! HST_STATS -/
def HST_STATS_WR_DROP : BitField := ⟨32, 32⟩
def HST_STATS_RD_FAIL : BitField := ⟨0, 32⟩
/-! FLT_CTRL -/
def FLT_CTRL_VECTOR : BitField := ⟨8, 6⟩
def FLT_CTRL_SHEP_EN : BitField := ⟨2, 1⟩
def FLT_CTRL_EVT_EN : BitField := ⟨1, 1⟩
def FLT_CTRL_STAT_CLR : BitField := ⟨0, 1⟩
/-! FLT_STATUS -/
def FLT_STATUS_SEQ : BitField := ⟨48, 16⟩
def FLT_STATUS_CONSUME : BitField := ⟨32, 8⟩
def FLT_STATUS_OVERFLOW : BitField := ⟨16, 1⟩
def FLT_STATUS_COUNT : BitField := ⟨8, 8⟩
def FLT_STATUS_WR_IDX : BitField := ⟨0, 6⟩
/-! FLT_UNIT_CTRL -/
def FLT_UNIT_CTRL_OP : BitField := ⟨13, 3⟩
def FLT_UNIT_CTRL_PHYS : BitField := ⟨8, 5⟩
def FLT_UNIT_CTRL_CLASS : BitField := ⟨0, 4⟩
/-! FLT_UNIT_STATUS -/
def FLT_UNIT_STATUS_RESULT : BitField := ⟨8, 3⟩
def FLT_UNIT_STATUS_BUSY : BitField := ⟨7, 1⟩
def FLT_UNIT_STATUS_STATE : BitField := ⟨0, 3⟩
/-! FLT_STATS -/
def FLT_STATS_VIOLATIONS : BitField := ⟨48, 16⟩
def FLT_STATS_FAULTS : BitField := ⟨32, 16⟩
def FLT_STATS_RETURNS : BitField := ⟨16, 16⟩
def FLT_STATS_UNBOUND_DISCARD : BitField := ⟨0, 16⟩
/-! FLT_UNIT_STATE -/
def FLT_UNIT_STATE_STATES : BitField := ⟨0, 64⟩
/-! FLT_REC -/
def FLT_REC_WORD : BitField := ⟨0, 64⟩
/-! DBG_CTRL -/
def DBG_CTRL_DETACH : BitField := ⟨2, 1⟩
def DBG_CTRL_RESUME : BitField := ⟨1, 1⟩
def DBG_CTRL_HALT : BitField := ⟨0, 1⟩
/-! DBG_ATTACH -/
def DBG_ATTACH_EMULATING : BitField := ⟨1, 1⟩
def DBG_ATTACH_ATTACHED : BitField := ⟨0, 1⟩
/-! DBG_STATUS -/
def DBG_STATUS_RESTART_FRAME : BitField := ⟨44, 20⟩
def DBG_STATUS_HALTS : BitField := ⟨16, 16⟩
def DBG_STATUS_RESTART_PENDING : BitField := ⟨1, 1⟩
def DBG_STATUS_HALTED : BitField := ⟨0, 1⟩
/-! DBG_AUTH_STAT -/
def DBG_AUTH_STAT_LOCK_REMAIN : BitField := ⟨32, 32⟩
def DBG_AUTH_STAT_FAILS : BitField := ⟨0, 8⟩
/-! DBG_CORE_SEL -/
def DBG_CORE_SEL_SHEP : BitField := ⟨8, 1⟩
def DBG_CORE_SEL_FOLD : BitField := ⟨4, 4⟩
def DBG_CORE_SEL_CORE : BitField := ⟨0, 3⟩
/-! UART_CFG -/
def UART_CFG_DIV : BitField := ⟨10, 16⟩
def UART_CFG_FRAC : BitField := ⟨2, 8⟩
def UART_CFG_PARITY : BitField := ⟨1, 1⟩
def UART_CFG_EN : BitField := ⟨0, 1⟩
/-! UART_STATUS -/
def UART_STATUS_RX_LEVEL : BitField := ⟨16, 8⟩
def UART_STATUS_TX_LEVEL : BitField := ⟨8, 8⟩
def UART_STATUS_TX_LOST : BitField := ⟨5, 1⟩
def UART_STATUS_OVERRUN : BitField := ⟨4, 1⟩
def UART_STATUS_BREAK : BitField := ⟨3, 1⟩
def UART_STATUS_TX_EMPTY : BitField := ⟨2, 1⟩
def UART_STATUS_TX_FULL : BitField := ⟨1, 1⟩
def UART_STATUS_RX_AVAIL : BitField := ⟨0, 1⟩
/-! UART_TX -/
def UART_TX_DATA : BitField := ⟨0, 8⟩
/-! UART_RX -/
def UART_RX_VALID : BitField := ⟨11, 1⟩
def UART_RX_BRK : BitField := ⟨10, 1⟩
def UART_RX_FE : BitField := ⟨9, 1⟩
def UART_RX_PE : BitField := ⟨8, 1⟩
def UART_RX_DATA : BitField := ⟨0, 8⟩
/-! UART_IRQ -/
def UART_IRQ_VECTOR : BitField := ⟨8, 6⟩
def UART_IRQ_TARGET : BitField := ⟨3, 1⟩
def UART_IRQ_TX_EN : BitField := ⟨2, 1⟩
def UART_IRQ_RX_EN : BitField := ⟨1, 1⟩
/-! STP_CTRL -/
def STP_CTRL_WR_EN : BitField := ⟨0, 1⟩
/-! STP_STATUS -/
def STP_STATUS_OVERRUN : BitField := ⟨32, 1⟩
def STP_STATUS_BAD_WR : BitField := ⟨0, 32⟩
/-! STP_DB_PEND -/
def STP_DB_PEND_PEND : BitField := ⟨0, 64⟩
/-! STP_DB -/
def STP_DB_DATA : BitField := ⟨0, 32⟩
/-! STP_FW -/
def STP_FW_DATA : BitField := ⟨0, 32⟩
/-! HST_MSIX_ADDR -/
def HST_MSIX_ADDR_ADDR : BitField := ⟨2, 62⟩
/-! HST_MSIX_CTRL -/
def HST_MSIX_CTRL_DATA : BitField := ⟨0, 32⟩
def HST_MSIX_CTRL_MASK : BitField := ⟨32, 1⟩
/-! HST_PBA -/
def HST_PBA_PENDING : BitField := ⟨0, 64⟩

end Fld

end Sys2Proof.Machine
end

