-- ==== Sys2Proof/Machine/Bits.lean ====
section
/-!
DEFINITION. Bit fields, byte strings and the sparse maps in which the block's memories and registers are kept.
-/
namespace Sys2Proof.Machine

/-! Fields of words. -/

/-- Bits [lo + w - 1 : lo] of a number. -/
def bitsOf (n lo w : Nat) : Nat := n / 2 ^ lo % 2 ^ w

/-- A number with bits [lo + w - 1 : lo] replaced. -/
def setBitsOf (n lo w v : Nat) : Nat := n - 2 ^ lo * bitsOf n lo w + 2 ^ lo * (v % 2 ^ w)

/-- The value of a field of a word. -/
def BitField.get (f : BitField) (v : Word) : Nat := bitsOf v.toNat f.lo f.w

/-- A word with one field replaced. -/
def BitField.set (f : BitField) (v : Word) (n : Nat) : Word :=
  (v &&& ~~~(BitVec.ofNat 64 ((2 ^ f.w - 1) * 2 ^ f.lo))) ||| BitVec.ofNat 64 (2 ^ f.lo * (n % 2 ^ f.w))

/-- The largest value of a field. -/
def BitField.max (f : BitField) : Nat := 2 ^ f.w - 1

/-- `n` read as a signed number of `w` bits. -/
def signedOf (w n : Nat) : Int := if n % 2 ^ w < 2 ^ (w - 1) then (n % 2 ^ w : Nat) else (n % 2 ^ w : Nat) - (2 ^ w : Nat)

/-- The two's-complement code of `i` in `w` bits. -/
def unsignedOf (w : Nat) (i : Int) : Nat := (i % (2 ^ w : Nat)).toNat

/-- An addition that stops at `top`. -/
def satAdd (top a b : Nat) : Nat := min top (a + b)

/-- Ceiling of a quotient; 0 for a zero divisor. -/
def ceilDiv (a b : Nat) : Nat := (a + b - 1) / b

/-! Byte strings, least significant byte first (R4). -/

/-- The number that a byte string stores. -/
def leNat : List Byte → Nat
  | [] => 0
  | b :: bs => b.toNat + 256 * leNat bs

/-- `n` bytes of a number. -/
def leBytes : Nat → Nat → List Byte
  | 0, _ => []
  | n + 1, v => BitVec.ofNat 8 v :: leBytes n (v / 256)

/-- The number that a big-endian byte string stores. -/
def beNat (bs : List Byte) : Nat := leNat bs.reverse

/-- `n` big-endian bytes of a number. -/
def beBytes (n v : Nat) : List Byte := (leBytes n v).reverse

/-- `n` bytes of a string from offset `o`; bytes past its end are 0. -/
def slice (bs : List Byte) (o n : Nat) : List Byte := (List.range n).map fun i => bs.getD (o + i) 0

/-- The little-endian number in the `n` bytes from offset `o`. -/
def leAt (bs : List Byte) (o n : Nat) : Nat := leNat (slice bs o n)

/-- Whether a byte string is all zeros. -/
def allZero (bs : List Byte) : Bool := bs.all (· == 0)

/-- The bits of a byte string, least significant bit of each byte first. -/
def bitsOfBytes (bs : List Byte) : List Bool := bs.flatMap fun b => (List.range 8).map fun i => b.toNat.testBit i

/-- The number whose bits are listed from the least significant. -/
def natOfBits : List Bool → Nat
  | [] => 0
  | b :: bs => (if b then 1 else 0) + 2 * natOfBits bs

/-- Bits packed into bytes, the first bit of each group of eight least significant. -/
def packBits : List Bool → List Byte
  | b0 :: b1 :: b2 :: b3 :: b4 :: b5 :: b6 :: b7 :: bs =>
    BitVec.ofNat 8 (natOfBits [b0, b1, b2, b3, b4, b5, b6, b7]) :: packBits bs
  | [] => []
  | bs => [BitVec.ofNat 8 (natOfBits bs)]

/-- The `w` bits of a number, most significant first. -/
def msbBits (w n : Nat) : List Bool := (List.range w).map fun i => n.testBit (w - 1 - i)

/-- The number whose bits are listed from the most significant. -/
def natOfMsbBits (bs : List Bool) : Nat := natOfBits bs.reverse

/-! Lists. -/

/-- A list with the element at index `i` changed. -/
def modifyAt {α : Type} (l : List α) (i : Nat) (f : α → α) : List α :=
  match l[i]? with
  | some x => l.set i (f x)
  | none => l

/-- A list in which every element that meets `p` is changed. -/
def updateIf {α : Type} (p : α → Bool) (f : α → α) (l : List α) : List α := l.map fun x => if p x then f x else x

/-! Sparse maps: pairs of a key and a value, the keys strictly rising, no value equal to what an unlisted key reads. -/

/-- A sparse map from numbers. -/
abbrev SMap (α : Type) := List (Nat × α)

/-- What a sparse map holds at a key; `d` gives what an unlisted key reads as. -/
def SMap.get {α : Type} (d : Nat → α) : SMap α → Nat → α
  | [], k => d k
  | (k', v) :: m, k => if k' = k then v else SMap.get d m k

/-- A pair put in front of the first larger key. -/
def SMap.insert {α : Type} (k : Nat) (v : α) : SMap α → SMap α
  | [] => [(k, v)]
  | (k', v') :: m => if k < k' then (k, v) :: (k', v') :: m else (k', v') :: SMap.insert k v m

/-- A sparse map without a key. -/
def SMap.erase {α : Type} (m : SMap α) (k : Nat) : SMap α := m.filter fun p => decide (p.1 ≠ k)

/-- A sparse map with the value at one key replaced. -/
def SMap.set {α : Type} [DecidableEq α] (d : Nat → α) (m : SMap α) (k : Nat) (v : α) : SMap α :=
  if v = d k then m.erase k else (m.erase k).insert k v

/-- The canonical form of a sparse map. -/
def SMap.wf {α : Type} [DecidableEq α] (d : Nat → α) : SMap α → Bool
  | [] => true
  | [(k, v)] => decide (v ≠ d k)
  | (k, v) :: (k', v') :: m => decide (v ≠ d k) && decide (k < k') && SMap.wf d ((k', v') :: m)

/-! Byte memories. -/

/-- A byte memory, keyed by address. -/
abbrev Memory := List Host.Cell

/-- What a byte that nothing has written reads as: 0, since R296 initialises every memory to zero. -/
def Memory.empty (_ : Nat) : Byte := 0

/-- One byte of a memory. -/
def Memory.read (m : Memory) (a : Nat) : Byte := SMap.get Memory.empty m a

/-- A memory with one byte written. -/
def Memory.write (m : Memory) (a : Nat) (b : Byte) : Memory := SMap.set Memory.empty m a b

/-- The canonical form of a memory. -/
def Memory.wf (m : Memory) : Bool := SMap.wf Memory.empty m

/-- `n` bytes from address `a`. -/
def Memory.readBytes (m : Memory) (a n : Nat) : List Byte := (List.range n).map fun i => m.read (a + i)

/-- A memory with a byte string written from address `a`. -/
def Memory.writeBytes (m : Memory) (a : Nat) : List Byte → Memory
  | [] => m
  | b :: bs => Memory.writeBytes (m.write a b) (a + 1) bs

/-- The little-endian number in the `n` bytes from address `a`. -/
def Memory.readLE (m : Memory) (a n : Nat) : Nat := leNat (m.readBytes a n)

/-- A memory with a number written in the `n` bytes from address `a`. -/
def Memory.writeLE (m : Memory) (a n v : Nat) : Memory := m.writeBytes a (leBytes n v)

/-! Registers. -/

/-- The registers of the block, keyed by BAR0 offset (R9). -/
abbrev Regs := SMap Word

/-- A register's contents. -/
def Regs.read (m : Regs) (r : Reg) : Word := SMap.get regReset m r.off

/-- A register's contents replaced. -/
def Regs.write (m : Regs) (r : Reg) (v : Word) : Regs := SMap.set regReset m r.off v

/-- The canonical form of the registers. -/
def Regs.wf (m : Regs) : Bool := SMap.wf regReset m

/-- What a write of `v` leaves in a register of access `acc` that holds `old`; `locked` is the boot lock (R5, R421). -/
def Access.apply (acc : Access) (locked : Bool) (old v : Word) : Word :=
  let w := if locked then acc.rw else acc.rw ||| acc.rwl
  (((old &&& ~~~w) ||| (v &&& w)) &&& ~~~(v &&& acc.w1c)) ||| (v &&& acc.w1s)

end Sys2Proof.Machine
end

