-- ==== Sys2Proof/Machine/State.lean ====
section
/-!
DEFINITION. The state of the block: every register, memory, queue, counter and mode that the spec gives it, as plain
data, and the queue of waiting commands. Registers have their one home in `regs`, keyed by BAR0 offset; memories that
have device addresses lie in `mem`, keyed by device address.
-/
namespace Sys2Proof.Machine

/-- Reasons to stop with a fault. -/
inductive Fault where
  /-- Raised by no command: every event of the spec is modelled as a next state. Kept so that the type is not empty; safe. -/
  | unreachable
  deriving DecidableEq, Repr

/-- Reasons to refuse a command. -/
inductive Refusal where
  /-- Raised by an arm of `exec` whose command has no meaning yet; the mnemonic says which. Safe: nothing is claimed. -/
  | notModelled (mnemonic : String)
  deriving DecidableEq, Repr

/-- What the block sends out of itself. Messages are appended in the order in which they leave. -/
inductive OutMsg where
  /-- An MSI-X vector posted to the host (R433). -/
  | msix (vector : Nat)
  /-- An interrupt to the Shepherd complex, with the source's number and its data. -/
  | shepIrq (source : Nat) (data : Nat)
  /-- A posted write to a PCI Express bus address (R485). -/
  | hostWrite (addr : Nat) (bytes : List Byte)
  /-- A read of a PCI Express bus address (R485). -/
  | hostRead (addr len : Nat)
  /-- A completion of a host read or configuration request: the data and whether it is a success (R433). -/
  | hostCompletion (ok : Bool) (bytes : List Byte)
  /-- A completion with Configuration Request Retry Status (R433). -/
  | hostRetry
  /-- An Ethernet frame that starts on fronthaul port `port` (R88). -/
  | frame (port : Nat) (bytes : List Byte)
  /-- An error code group that ends the frame in progress on fronthaul port `port` (R108). -/
  | frameCut (port : Nat)
  /-- The line bits of a Drove frame on a lane (R314). -/
  | drove (lane : Nat) (bits : List Bool)
  /-- A character on the UART line, with its parity bit where one is sent (R468). -/
  | uart (data : Nat) (parity : Option Bool)
  /-- A level on a GPIO (R399). -/
  | gpio (index : Nat) (level : Bool)
  /-- An AVSBus write: rail and millivolts (R416). -/
  | avs (rail mv : Nat)
  /-- The data that a status port read returns (R436). -/
  | statusPort (data : Nat)
  /-- The bits that the Crook port captures (R459). -/
  | tdo (bits : List Bool)
  /-- What a read of a register returns that falls in one core cycle with writes (R284). -/
  | registerRead (addr value : Nat)
  /-- A PRBS bit error injected on a lane (R369). -/
  | prbsError (lane : Nat)
  deriving DecidableEq, Repr

/-! ### Time, almanac, dispatch (chapters 1 to 3, 15) -/

/-- A load in progress: the four values latched at START (R43, R44). -/
structure Load where
  src : Nat
  len : Nat
  fwSrc : Nat
  fwLen : Nat
  deriving DecidableEq, Repr

/-- An armed swap (R48 to R54). -/
structure Swap where
  /-- F, latched from ALM_SWAP_FRAME at ARM. -/
  frame : Nat
  /-- Pool swap. -/
  pool : Bool
  /-- This device armed the pool swap and collects the answers. -/
  arming : Bool
  /-- The device that announced the swap; its own address on the arming device. -/
  from_ : Nat
  /-- Members named in ALM_SWAP_GROUP at ARM. -/
  members : Word
  /-- Members that sent SWAP_ACK, one bit each. -/
  acks : Word
  /-- A member sent SWAP_NAK. -/
  nak : Bool
  /-- The power override of tick S − 64 has run. -/
  override_ : Bool
  deriving DecidableEq, Repr

/-- The almanac memory and what goes with it. -/
structure Alm where
  /-- Image bytes of physical set 0; bytes past the end read 0. -/
  set0 : List Byte
  /-- Image bytes of physical set 1. -/
  set1 : List Byte
  /-- Engine map words of the shadow set with the substitutions of R46. -/
  shadowMap : List Nat
  load : Option Load
  swap : Option Swap
  /-- Version of the running firmware. -/
  fwVersion : Nat
  /-- Firmware version and code in the bank not in use, when a swap would start it (R44). -/
  stagedFw : Option Nat
  /-- Depth of the shed (R36), as ALM_SHED.DEPTH, and the cells it names, in drop order. -/
  shedCells : List Nat
  /-- Logical engines whose physical unit died with no replacement, and the class of each (R36). -/
  losses : List (Nat × Nat)
  /-- Physical units taken as donors since the swap: class and index (R36). -/
  donors : List (Nat × Nat)
  /-- Units marked dead whose logical engine is to be rebound at the next tick edge: class and index (R33). -/
  rebindDue : List (Nat × Nat)
  /-- Units frozen at the edge itself, rebound at the next one. -/
  rebindLate : List (Nat × Nat)
  /-- Substitutions of a dead unit's domain by its replacement's domain (R33): dead domain, new domain. -/
  domainAlias : List (Nat × Nat)
  deriving DecidableEq, Repr

/-- A place where planned work runs: a DSP core of a Fold, or a fixed-function engine (core 0). -/
structure Eng where
  cls : Nat
  phys : Nat
  core : Nat
  deriving DecidableEq, Repr

/-- Where a release stands (R58 to R63). -/
inductive RelStatus where
  | filled
  | held
  | queued
  | inService
  | complete
  | suppressed
  | discarded
  deriving DecidableEq, Repr

/-- A release of a template (R29), with what the Drover has filled into it. -/
structure Release where
  /-- Record index in its template. -/
  idx : Nat
  /-- The 128-bit record. -/
  word : Nat
  /-- Calendar index of its tick. -/
  calIdx : Nat
  /-- The request that it fills from, by its identity. -/
  req : Option Nat
  /-- Device address of the staged copy of the request entry; 0 for a static release (R62). -/
  staged : Nat
  status : RelStatus
  /-- The engine it was bound to at its tick edge. -/
  eng : Eng
  /-- Core cycle of its arrival in the queue. -/
  arrival : Nat
  /-- The operation of the release has had its effect, so that the release can complete. -/
  ran : Bool
  deriving DecidableEq, Repr

/-- The result of one request entry (R80). -/
structure EntryResult where
  status : Nat
  crcOk : Bool
  bytes_ : Nat
  /-- Kind-specific results, 64 bits. -/
  kind : Nat
  /-- Releases that filled from the entry and have completed. -/
  fills : Nat
  /-- All of them had completed when the request was discarded (R449). -/
  own : Bool
  deriving DecidableEq, Repr

/-- A slot request in the request store (R66). -/
structure Request where
  /-- Identity: the number of requests accepted before it. -/
  id : Nat
  queue : Nat
  ring : Nat
  tag : Nat
  cell : Nat
  dir : Nat
  replay : Bool
  frame : Nat
  slot : Nat
  /-- First tick of its slot, counted from frame 0: 1,120 frame + tick in frame. -/
  start : Nat
  /-- Absolute core cycle of its acceptance (R57). -/
  taken : Nat
  /-- TARUNO_BUILD of the almanac that assigned the staging space of its entries (R173). -/
  build : Word
  /-- A fresh swap has left it no planned release (R52). -/
  planOver : Bool
  /-- The entries, 64 bytes each. -/
  entries : List (List Byte)
  resultAddr : Nat
  results : List EntryResult
  /-- Touched by a discard: `some true` while the input can still be replayed (R448). -/
  discarded : Option Bool
  /-- Absolute tick of the last discard that touched it. -/
  discardedAt : Nat
  deriving DecidableEq, Repr

/-- A cell command that waits for its frame (R81 to R83). -/
structure CellCmd where
  cell : Nat
  /-- 1 STOP, 2 MIGRATE, 3 START. -/
  cmd : Nat
  frame : Nat
  /-- `none` for the local host, else the header of the fabric peer's CELL_START as received. -/
  peer : Option Nat
  queue : Nat
  ring : Nat
  tag : Nat
  dest : Nat
  /-- The number that a peer's START carries, returned in CELL_RESULT. -/
  token : Nat
  /-- Kept by R82. -/
  resolved : Bool
  /-- Superseded by R82; its record posts when its frame begins (R76). -/
  lost : Bool
  /-- MIGRATE: the STATUS that CELL_RESULT brought (R83). -/
  result : Option Nat
  deriving DecidableEq, Repr

/-- The Drover. -/
structure Drv where
  /-- Releases of the current tick. -/
  rels : List Release
  /-- Releases fetched for the next tick (R57). -/
  next : List Release
  /-- Calendar index for which `next` was fetched; `none` when none is. -/
  nextIdx : Option Nat
  store : List Request
  /-- Requests accepted so far. -/
  accepted : Nat
  cmds : List CellCmd
  /-- Position (1,120 frame + tick) from which a cell is STOPPED or SHED. -/
  cellSince : SMap Nat
  /-- Unsignalled records and the tick count of the first, per ring: 0–15 completion queues, 16–19 PRACH rings (R77). -/
  coal : SMap (Nat × Nat)
  /-- Requests that completed DISCARDED and may be replayed: cell, and first position of the slot (R74). -/
  lost : List (Nat × Nat)
  /-- Acceptances left in this tick (R66). -/
  accepts : Nat
  deriving DecidableEq, Repr

/-- Samples of a reference input: phase in 2^-16 ns (reference minus local) or frequency in 10^-12. -/
structure RefInput where
  /-- Evaluations (ms) since the last edge or sample. -/
  idle : Nat
  /-- Evaluations without break for which the conditions of R375 have held. -/
  good : Nat
  /-- Whether it has been valid since EN was set. -/
  wasValid : Bool
  /-- Evaluations since the last accepted ESMC frame (R378). -/
  esmcIdle : Nat
  /-- SSM code last received by ESMC or a Drove frame. -/
  rxQl : Nat
  /-- Samples of the last second: device time, and reference minus local in 2^-16 ns. -/
  samples : List (Word × Int)
  deriving DecidableEq, Repr

/-- A step of time that is fixed and waits for its edge (R389). -/
structure TimeStep where
  k : Int
  /-- Residual in 2^-16 ns. -/
  residual : Int
  fromPps : Bool
  deriving DecidableEq, Repr

/-- The Bellwether and the time counters (R385). -/
structure Tm where
  /-- TOD seconds. -/
  tod : Nat
  /-- Device time at the last whole second. -/
  secDT : Word
  /-- Tick in the second. -/
  tick : Nat
  /-- Core cycle in the tick, 0–13,999; 14,000 stands for the next edge. -/
  cycle : Nat
  /-- TIM_TOD_SUB, TIM_DT and TIM_POS as latched by a read of TIM_TOD_SEC, until each is read (R401). -/
  latchSub : Option Word
  latchDT : Option Word
  latchPos : Option Word
  /-- Reference inputs 0 to 7. -/
  refs : List RefInput
  /-- A time input is selected for the first time or a further step is allowed. -/
  step : Option TimeStep
  /-- Residual that PULL still removes, 2^-16 ns. -/
  pull : Int
  /-- Evaluations for which the filtered phase error has stayed within LOCK_THR. -/
  inThr : Nat
  /-- As `inThr` for the time input. -/
  timeInThr : Nat
  /-- Evaluations spent in LOCKED. -/
  lockedFor : Nat
  /-- DCO offsets in LOCKED, one per second, newest first, 10^-12. -/
  hoSamples : List Int
  /-- Pending output phase steps (R392). -/
  outStep : List Int
  /-- Levels of the GPIO balls, and the absolute core cycles at which running pulses end (R399). -/
  gpio : List Bool
  gpioPulse : SMap Nat
  /-- Per event timer, twice the absolute core cycle of its arming, plus 1 when its CMP had already passed (R398). -/
  armedAt : SMap Nat
  deriving DecidableEq, Repr

/-- Freezing, death and return of units (chapter 18). -/
structure Flt where
  /-- Units whose RETURN waits for the next tick edge, in order: class and index. -/
  returning : List (Nat × Nat)
  /-- Units in the order in which they last returned. -/
  returned : List (Nat × Nat)
  /-- Units to be barred at the next tick edge (R457). -/
  barDue : List (Nat × Nat)
  /-- Frozen control cores. -/
  shepFrozen : List Nat
  /-- Fault records written since reset, saturating, and the last code (R436). -/
  total : Nat
  lastCode : Nat
  deriving DecidableEq, Repr

/-! ### Fronthaul (chapter 4) -/

/-- An open window (R101, R104). -/
structure Win where
  /-- Index of its record in the almanac. -/
  idx : Nat
  dir : Nat
  cell : Nat
  port : Nat
  sym : Nat
  /-- First position of the slot that it governs. -/
  slot : Nat
  /-- First position of the occurrence that it governs (R101). -/
  occ : Nat
  /-- Device address of the symbol buffer of that occurrence (R115). -/
  buffer : Nat
  /-- Transmit windows: frames that have not started. -/
  frames : List (List Byte)
  deriving DecidableEq, Repr

/-- The fronthaul ports. -/
structure Fh where
  wins : List Win
  /-- Presence bits: one bit per PRB, keyed by posCount · eAxC + first position of the symbol occurrence (R106). -/
  presence : SMap Nat
  /-- The occurrence of the PRACH receive window closed last, per cell: first position of the symbol occurrence, plus 1 (R143). -/
  closed : SMap Nat
  /-- Next sequence id to send, keyed 2 · eAxC + plane (R92). -/
  txSeq : SMap Nat
  /-- One more than the sequence id last accepted per eAxC (R92). -/
  rxSeq : SMap Nat
  /-- Delay requests sent: port, measurement id, and TOD of departure in 2^-16 ns (R93). -/
  delays : List (Nat × Nat × Nat)
  /-- Downlink symbols whose precoding was discarded: cell, slot position, first symbol and count (R109). -/
  zero : List (Nat × Nat × Nat × Nat)
  /-- Downlink requests that fill PRBs: id, cell, slot position and entries (R100). -/
  fills : List (Nat × Nat × Nat × List (List Byte))
  /-- PRACH samples received: the 24 components of a PRB, keyed 1,024 · presence key + PRB (R143). -/
  prach : SMap (List Int)
  deriving DecidableEq, Repr

/-! ### Channel processing (chapter 5) -/

/-- The matrix combiner engines and the uplink kernels. -/
structure Mce where
  /-- Valid bits of the lines of weight memory, one number of 8,192 bits per MCE (R122). -/
  valid : SMap Nat
  /-- Hold counts of GAIN_SELECT, keyed 64 · cell + antenna (R129). -/
  hold : SMap Nat
  /-- FO tables, keyed 256 · cell + RNTI[7:0]: the tag and the frequency offset (R131). -/
  fo : SMap (Nat × Int)
  deriving DecidableEq, Repr

/-- A bank of a PRACH engine (R143, R144). -/
structure Bank where
  eng : Nat
  /-- PRA_CELL entry, FDM occasion and format select. -/
  entry : Nat
  fdm : Nat
  sel : Nat
  /-- Antennas whose profiles the bank holds, one bit each. -/
  ants : Nat
  /-- Some PRB of some antenna was missing. -/
  missing : Bool
  /-- First position of the occasion's symbol. -/
  occ : Nat
  /-- The power-delay profile: N_pdp words of 32 bits for each root (R144). -/
  profile : List Nat
  deriving DecidableEq, Repr

/-- A record of a DETECT that has not posted (R147): its engine, its ring and its bytes without PHASE and TIME. -/
structure PraRec where
  eng : Nat
  ring : Nat
  peak : Bool
  bytes : List Byte
  deriving DecidableEq, Repr

/-- The PRACH search engines. -/
structure Pra where
  banks : List Bank
  posts : List PraRec
  deriving DecidableEq, Repr

/-! ### Channel coding (chapter 6) -/

/-- How far the decoding of a request's entry has come. -/
structure DecProg where
  req : Nat
  entry : Nat
  /-- A code-block CRC has failed (R171). -/
  bad : Bool
  /-- The entry was cut short (R162). -/
  short : Bool
  deriving DecidableEq, Repr

/-- The decoders. -/
structure Dec where
  prog : List DecProg
  deriving DecidableEq, Repr

/-! ### DSP cores and accelerators (chapters 7 to 9) -/

/-- A register of a core that a result in flight will reach. -/
inductive Dst where
  | s (n : Nat)
  | p (n : Nat)
  | k (n : Nat)
  | q (n : Nat)
  | v (n : Nat)
  | va (n : Nat)
  | cr (n : Nat)
  /-- Of the set of S0–S15, P0–P7 and Q1–Q7 that STATUS.SH does not select (R212). -/
  | s2 (n : Nat)
  | p2 (n : Nat)
  | q2 (n : Nat)
  deriving DecidableEq, Repr

/-- A result in flight (R195): it lands when `left` more bundles have issued; only the bits of `mask` are written. -/
structure Pend where
  left : Nat
  dst : Dst
  val : Nat
  mask : Nat
  deriving DecidableEq, Repr

/-- A result in flight, with the bits of its register that a write issued later has written meanwhile (R197). -/
structure Flying where
  pend : Pend
  past : Nat
  deriving DecidableEq, Repr

/-- A tag that an ACQ has made PENDING, until a bundle's X1 comes after the commit (R247): bundles left, tag, and its state before. -/
structure AcqAge where
  left : Nat
  tag : Nat
  old : Nat
  deriving DecidableEq, Repr

/-- A store in a write buffer (R217), as the parts of it that are performed: data-memory offset on a Fold core, device address on a
control core, and bytes. -/
structure Store where
  parts : List (Nat × List Byte)
  deriving DecidableEq, Repr

/-- A line of a control core's data cache (R301). -/
structure CacheLine where
  dirty : Bool
  bytes : List Byte
  deriving DecidableEq, Repr

/-- A DSP core of a Fold or a control core (R186, R189, R217, R221). -/
structure Core where
  /-- S0–S31. -/
  s : SMap Nat
  /-- P0–P15. -/
  p : SMap Nat
  /-- K0–K7. -/
  k : SMap Nat
  /-- Q1–Q7. -/
  q : SMap Nat
  /-- V0–V31, 512 bits. -/
  v : SMap Nat
  /-- VA0–VA3, 32 lanes of 40 bits: the sum that the next MAC chains to. -/
  va : SMap Nat
  /-- VA0–VA3 as a read-out sees them (R196). -/
  vaSeen : SMap Nat
  /-- The set of S0–S15, P0–P7 and Q1–Q7 that STATUS.SH does not select (R212). -/
  s2 : SMap Nat
  p2 : SMap Nat
  q2 : SMap Nat
  /-- Control registers by number (R189, R223). -/
  cr : SMap Nat
  /-- Offset of the next bundle in the program half or firmware bank. -/
  pc : Nat
  /-- Offset of the last bundle that completed. -/
  lastPc : Nat
  /-- Syllables of the bundle being issued, in order. -/
  bundle : List Instr
  /-- Results in flight, the oldest first. -/
  flight : List Flying
  /-- The write buffer, the oldest first. -/
  wbuf : List Store
  /-- The bundle at LEA has completed and its LOOP_END is due (R206). -/
  loopDue : Bool
  /-- The re-issued bundle resumes by element after RFE (R214). -/
  resume : Bool
  /-- DONE has executed; the release completes when the core has drained (R193). -/
  doneDue : Bool
  /-- FENCE holds issue until the write buffer is empty (R218). -/
  fence : Bool
  /-- States of tags 0–15: 0 FREE, 1 PENDING, 2 DONE (R241). -/
  tags : SMap Nat
  /-- ACQs that the next bundles' ACPOLL does not show yet, the latest first (R247). -/
  acqs : List AcqAge
  /-- Data-cache lines by line number, and lines of the instruction cache: control cores only (R301). -/
  dcache : List (Nat × CacheLine)
  icache : List Nat
  deriving DecidableEq, Repr

/-- What an unlisted control register reads as: ROTP is 0x0003 at reset (R207), the others 0. -/
def crReset (n : Nat) : Nat := if n = 7 then 3 else 0

/-- What an unlisted register reads as. -/
def zeroNat (_ : Nat) : Nat := 0

/-- A core out of reset. -/
def Core.reset : Core :=
  { s := [], p := [], k := [], q := [], v := [], va := [], vaSeen := [], s2 := [], p2 := [], q2 := [], cr := [],
    pc := 0, lastPc := 0, bundle := [], flight := [], wbuf := [], loopDue := false, resume := false, doneDue := false, fence := false, tags := [], acqs := [], dcache := [], icache := [] }

/-- What an unlisted core reads as. -/
def coreReset (_ : Nat) : Core := Core.reset

/-- A committed accelerator command (R242): the copy of its 64 bytes. -/
structure AccCmd where
  fold : Nat
  core : Nat
  unit : Nat
  tag : Nat
  bytes : List Byte
  /-- Absolute core cycle of its commit. -/
  commit : Nat
  /-- Its output has been written. -/
  ran : Bool
  deriving DecidableEq, Repr

/-- What the cores of a Fold share. -/
structure Folds where
  /-- Fold cores 0–127 and control cores 128–135. -/
  cores : SMap Core
  /-- Active program half of each Fold (R185). -/
  half : SMap Nat
  /-- Accelerator enable word of each Fold (R248). -/
  enable : SMap Nat
  /-- Accelerator commands in commit order. -/
  cmds : List AccCmd
  deriving DecidableEq, Repr

/-! ### Network, memories, Move engines (chapters 10 and 11) -/

/-- A packet on its way through the network, flit by flit (R265, R269). -/
structure Worm where
  pkt : Packet
  /-- The links of its route, and the NI at which the route ejects it, if it does. -/
  links : List Nat
  eject : Option Nat
  /-- Place of the first link that it takes as best effort (R272, R273). -/
  be : Nat
  /-- Flits that have not left their source. -/
  left : Nat
  /-- For each link, the absolute core cycles at which the flits that wait behind it crossed it. -/
  bufs : List (List Nat)
  /-- For each link, the flits that have crossed it. -/
  crossed : List Nat
  /-- 1: it waits for a wake of its target's domain; 2: the wake has been demanded (R278). -/
  held : Nat
  /-- The router of an isolated target absorbs it (R280). -/
  sink : Bool
  deriving DecidableEq, Repr

/-- The on-chip network. -/
structure Noc where
  /-- Route tables, keyed 256 NI + entry; unlisted entries hold the built-in routes (R266). -/
  rt : SMap Word
  /-- Packets that NIs have injected and that have not yet left the network, in the order of their injection. -/
  flight : List Worm
  /-- Packets ejected whole at their targets, which have not yet taken them, in the order of their ejection. -/
  arrived : List Packet
  /-- One more than the input port last granted, keyed 3 · link + channel (R269). -/
  lastIn : SMap Nat
  /-- Accesses of units that wait for a wake: source NI and target NI (R278). -/
  waits : List (Nat × Nat)
  /-- While a command whose work can wait runs: the waits that it has met. The model's own field, none between commands (log 10). -/
  wait : Option (List (Nat × Nat))
  deriving DecidableEq, Repr

/-- An entry of a correction tracking table (R291). -/
structure Track where
  group : Nat
  word : Nat
  count : Nat
  age : Nat
  /-- When it was last allocated or updated. -/
  stamp : Nat
  deriving DecidableEq, Repr

/-- A spare word in use (R292). -/
structure Remap where
  group : Nat
  entry : Nat
  word : Nat
  retired : Bool
  deriving DecidableEq, Repr

/-- Error correction: what the arrays hold beside the data that were written. -/
structure Ecc where
  /-- Flipped codeword bits of SRAM words, keyed 2^21 group + word: bits 0–63 data, 64–71 check. -/
  flips : SMap Nat
  /-- Flipped bits of DDR lines, keyed 2^28 channel + line: bit 64 d + n is bit n of device d's 64 bits. -/
  ddrFlips : SMap Nat
  track : List Track
  remap : List Remap
  /-- Groups that have recorded REMAP_TABLE_FULL. -/
  full : List Nat
  stamp : Nat
  /-- Next word or line to scrub, and words scrubbed in this tick, per group; 60 + c for DDR. -/
  pos : SMap Nat
  done : SMap Nat
  /-- Scrub passes completed per group since reset or STAT_CLR. -/
  passes : SMap Nat
  /-- Groups, and 60 + c for DDR channels, whose self-test and initialisation run (R295, R296). -/
  initDue : List Nat
  deriving DecidableEq, Repr

/-- A transfer of a Move channel (R304). -/
structure Xfer where
  src : Nat
  dst : Nat
  len : Nat
  srcFix : Bool
  dstFix : Bool
  elem : Nat
  irqHalf : Bool
  irqFull : Bool
  deriving DecidableEq, Repr

/-- What a packet of a Move channel is for. -/
inductive MovUse where
  | read
  | write
  | fetch
  | writeBack
  deriving DecidableEq, Repr

/-- A packet request of a Move channel that has been issued and not answered. -/
structure MovReq where
  tag : Nat
  use : MovUse
  /-- Offset in the transfer, bytes, and the address in the format of R70. -/
  off : Nat
  len : Nat
  addr : Nat
  deriving DecidableEq, Repr

/-- A Move channel (R306 to R309). -/
structure MovCh where
  /-- The active set, kept while the channel is halted. -/
  active : Option Xfer
  /-- The first word of the descriptor that the active set came from, and whether it came from one. -/
  desc : Option Nat
  /-- Bytes whose reads have been issued, and bytes whose writes have been issued. -/
  nextRead : Nat
  nextWrite : Nat
  /-- Bytes read and not yet handed to a write, by offset. -/
  data : List (Nat × List Byte)
  /-- Bytes whose writes have been acknowledged, as intervals: offset and length. -/
  acked : List (Nat × Nat)
  reqs : List MovReq
  /-- IRQ_HALF of the active transfer has signalled. -/
  half : Bool
  deriving DecidableEq, Repr

/-- An idle channel. -/
def MovCh.idle : MovCh :=
  { active := none, desc := none, nextRead := 0, nextWrite := 0, data := [], acked := [], reqs := [], half := false }

/-- What an unlisted channel reads as. -/
def movIdle (_ : Nat) : MovCh := MovCh.idle

/-- The Move engines. -/
structure Mov where
  /-- Channels, keyed 16 engine + channel. -/
  ch : SMap MovCh
  /-- Channel last served by each engine (R306). -/
  last : SMap Nat
  /-- Next tag of each engine. -/
  tag : SMap Nat
  deriving DecidableEq, Repr

/-! ### Power (chapter 16) -/

/-- A lowering in progress (R409): the handshake, then clocks stopped, outputs clamped, and power switched off. -/
structure Entry where
  /-- State aimed at. -/
  goal : Nat
  /-- Blocks that have accepted. -/
  accepted : List Nat
  /-- DELAY answers per block (R410). -/
  delays : SMap Nat
  /-- Absolute core cycle at which every block had accepted: abort point A. -/
  at_ : Option Nat
  /-- A wake request arrived outside SERVICE: abandoned at the next abort point (R412). -/
  abort : Bool
  deriving DecidableEq, Repr

/-- A wake in progress (R413). -/
structure Wake where
  /-- State left: 1 IDLE, 2 SLEEP, 3 OFF. -/
  from_ : Nat
  /-- State aimed at: 0 ON or 1 IDLE. -/
  goal : Nat
  /-- Set point that VDD_CORE must have reached before power is switched on; 0 when none. -/
  need : Nat
  /-- Power has been switched on. -/
  switched : Bool
  /-- Power-good has come. -/
  good : Bool
  deriving DecidableEq, Repr

/-- A domain's transition. -/
structure DomSt where
  entry : Option Entry
  wake : Option Wake
  /-- Held ON by a demand until a later record changes its planned state (R407). -/
  demand : Bool
  /-- Aim of a lowering that was refused, not tried again until a later record or demand (R411). -/
  refused : Option Nat
  /-- The last change of the planned state was a write of FW_STATE (R407). -/
  fw : Bool
  deriving DecidableEq, Repr

/-- A steady domain. -/
def domIdle (_ : Nat) : DomSt := { entry := none, wake := none, demand := false, refused := none, fw := false }

/-- An AVSBus exchange asked for: rail and group of R416. -/
structure AvsReq where
  rail : Nat
  group : Nat
  deriving DecidableEq, Repr

/-- An AVSBus exchange in progress. -/
structure AvsExch where
  rail : Nat
  mv : Nat
  tries : Nat
  deriving DecidableEq, Repr

/-- The power controller. -/
structure Pwr where
  dom : SMap DomSt
  queue : List AvsReq
  exch : Option AvsExch
  /-- One more than the set point toward which a failed rail is not tried again until it changes (R417). -/
  gaveUp : SMap Nat
  /-- Entries held in IDLE by sleep emulation await their real entry (R467). -/
  emulEnd : Bool
  deriving DecidableEq, Repr

/-! ### Drove links (chapter 12) -/

/-- A second of a lane or group as it was counted, with the numbers of its 15-minute and 24-hour periods (R330). -/
structure PmSec where
  es : Bool
  p15 : Nat
  p24 : Nat
  deriving DecidableEq, Repr

/-- Performance monitoring of a lane or group. -/
structure PmSt where
  /-- A defect was present at a frame boundary of this second, and one higher than DEG. -/
  defect : Bool
  higher : Bool
  /-- BIP16 mismatches of this second. -/
  bip : Nat
  /-- Seconds, newest first, of the run of at most 9 that may change the availability. -/
  run : List PmSec
  deriving DecidableEq, Repr

/-- A second not yet begun. -/
def pmFresh (_ : Nat) : PmSt := { defect := false, higher := false, bip := 0, run := [] }

/-- The receiver of a lane. -/
structure LaneRx where
  /-- Successive correct words since HUNT, and successive errored words in SYNC (R321). -/
  good : Nat
  bad : Nat
  /-- FRAME_NUM of the last frame taken in SYNC (R322). -/
  fn : Option Nat
  los : Bool
  losOk : Nat
  lol : Bool
  lolOk : Nat
  rdi : Bool
  /-- Consecutive error-free frames that speak for a change of RDI. -/
  rdiRun : Nat
  deg : Bool
  degRun : Nat
  /-- Captured key, and the KEY of the last frame that can be compared (R320). -/
  key : Option Nat
  lastKey : Option Nat
  /-- BIP16 of the last frame as received (R316). -/
  bip : Option Nat
  deriving DecidableEq, Repr

/-- A receiver that has received nothing. -/
def laneIdle (_ : Nat) : LaneRx :=
  { good := 0, bad := 0, fn := none, los := false, losOk := 0, lol := false, lolOk := 0, rdi := false, rdiRun := 0,
    deg := false, degRun := 0, key := none, lastKey := none, bip := none }

/-- A lane's frame that waits for the frames of the other lanes of its group (R323). -/
structure LaneFrame where
  lane : Nat
  sync : Bool
  /-- Frame number, fields of R314 by their frame bits, and blocks. -/
  fn : Nat
  fields : Nat
  blocks : List Nat
  /-- Blocks that precede a stuff violation or key miss. -/
  valid : Nat
  errored : Bool
  errorFree : Bool
  skew : Nat
  deriving DecidableEq, Repr

/-- A Drove group. -/
structure GrpSt where
  log : Bool
  /-- Consecutive frames that speak for a change of LOG. -/
  logRun : Nat
  /-- Every lane was in SYNC at the last frame of the group. -/
  wasSync : Bool
  held : List LaneFrame
  /-- Own scrambler key (R320). -/
  key : Nat
  /-- FRAME_NUM of the last frame sent. -/
  sent : Option Nat
  deriving DecidableEq, Repr

/-- A group that is not enabled. -/
def grpIdle (_ : Nat) : GrpSt := { log := false, logRun := 0, wasSync := false, held := [], key := 0, sent := none }

/-- The Drove layer. -/
structure Drl where
  lanes : SMap LaneRx
  grps : SMap GrpSt
  /-- BIP16 of the last frame sent on each lane. -/
  bipTx : SMap Nat
  /-- Lanes 0–63 and groups 64–95. -/
  pm : SMap PmSt
  /-- A second, a 15-minute period and a 24-hour period have ended and are to be counted (R330, R331). -/
  secDue : Bool
  due15 : Bool
  due24 : Bool
  p15 : Nat
  p24 : Nat
  deriving DecidableEq, Repr

/-! ### Burlos fabric (chapter 13) -/

/-- A segment that waits for a position of a group: its header, its payload, whether it is in transit and from which group, and the
frames of the outgoing group that have passed since. -/
structure FabSeg where
  group : Nat
  hdr : Word
  payload : List Byte
  transit : Option Nat
  age : Nat
  deriving DecidableEq, Repr

/-- A remote request that waits for its response (R344). -/
structure FabReq where
  tag : Nat
  gen : Nat
  pkt : Packet
  group : Nat
  sent : Word
  deriving DecidableEq, Repr

/-- A transaction being reassembled (R342). -/
structure Partial where
  src : Nat
  flow : Nat
  group : Nat
  /-- Header of its FIRST segment as received with its hop fields. -/
  hdr : Word
  bytes : List Byte
  deriving DecidableEq, Repr

/-- A record of a link report (R348). -/
structure LinkRec where
  peer : Word
  own : Nat
  other : Nat
  /-- Lanes − 1 and RATE as the byte of R348 holds them. -/
  width : Nat
  minor : Nat
  deriving DecidableEq, Repr

/-- A link report of a device. -/
structure LinkReport where
  uid : Word
  /-- The byte of ADDR, PRIOR_VALID and LONE, and the byte of PRIOR. -/
  addr : Nat
  prior : Nat
  major : Nat
  minor : Nat
  links : List LinkRec
  deriving DecidableEq, Repr

/-- What a coordinator assigns to a device: its address, if one was free, and 64 route entries. -/
structure Assign where
  uid : Word
  addr : Option Nat
  routes : List Nat
  deriving DecidableEq, Repr

/-- The muster (R349 to R355). -/
structure Muster where
  /-- Highest muster number seen. -/
  seen : Nat
  /-- Flooded messages received: type, M and originating UID. -/
  copies : List (Nat × Nat × Nat)
  reports : List LinkReport
  /-- Groups listed in this device's LINKS. -/
  listed : List Nat
  /-- As coordinator: what it has assigned, the epoch, and the devices that have answered. -/
  assigns : List Assign
  epoch : Nat
  acked : List Nat
  /-- Device time of the muster's CALL, of the last completed muster, of the last probe, and the end of the back-off. -/
  started : Word
  lastDone : Word
  lastProbe : Word
  backoff : Word
  /-- EPOCH of the DONE that this device holds (R353). -/
  held : Nat
  /-- Groups in the topology of the staged routes. -/
  topology : List Nat
  /-- The DONE held changes an address of FAB_POOL. -/
  poolMoves : Bool
  /-- A group entered service during the muster (R354). -/
  again : Bool
  /-- Assignments of the last muster that this device coordinated. -/
  last : List Assign
  deriving DecidableEq, Repr

/-- The fabric NI. -/
structure Fab where
  txq : List FabSeg
  /-- Positions received and not yet taken: group and bytes. -/
  inbox : List (Nat × List Byte)
  partials : List Partial
  reqs : List FabReq
  /-- Requests that have reached NI 74 and have not been sent. -/
  waiting : List Packet
  /-- Generation bit of each tag, and tags in quarantine with its end (R345). -/
  gen : SMap Nat
  quarantine : List (Nat × Word)
  /-- Buffers freed per group since the last frame, and the source last served per group (R340, R341). -/
  freed : SMap Nat
  lastSrc : SMap Nat
  mus : Muster
  deriving DecidableEq, Repr

/-! ### Serial lanes (chapter 14) -/

/-- The serial lanes. -/
structure Sds where
  /-- Lanes whose receivers are adapting (R362). -/
  adapting : List Nat
  /-- Consecutive FOM measurements below FOM_MIN, and at or above it, per lane (R364). -/
  low : SMap Nat
  high : SMap Nat
  deriving DecidableEq, Repr

/-! ### Start-up and host interface (chapters 17, 20) -/

/-- Start-up, the PCI Express endpoint and the status port. -/
structure Sys where
  /-- CLAIMS records of the accepted image (R427). -/
  claims : List Nat
  /-- A boot image is being read; it comes from memory at SYS_BOOT_SRC (R422, R429). -/
  booting : Option Bool
  /-- The pin map of the accepted image has been applied (R427, R360). -/
  pinMap : Bool
  /-- Fuses have been sensed (R431). -/
  fuses : Bool
  /-- The status words copied at the last tick edge, by address (R436). -/
  spCopy : SMap Nat
  /-- The latched high half of SYS_READY (R436). -/
  spLatch : Option Nat
  /-- The endpoint is in reset (R419, R434). -/
  pcieInReset : Bool
  /-- PCI Express configuration space, by byte (R433). -/
  pcieCfg : SMap Byte
  /-- READ packets of masters whose data the host has not returned (R485). -/
  hostReads : List Packet
  /-- BAR0 writes that wait until earlier BAR2 writes are acknowledged: offset and bytes (R302). -/
  barHeld : List (Nat × List Byte)
  deriving DecidableEq, Repr

/-! ### Crook port and maintenance UART (chapter 19) -/

/-- An access of the Crook port in progress (R463). -/
structure CrookAcc where
  addr : Nat
  write : Bool
  data : Word
  deriving DecidableEq, Repr

/-- The Crook port. -/
structure Dbg where
  /-- The selected instruction (R459). -/
  ir : Nat
  /-- The unused nonce (R460). -/
  nonce : Option (List Byte)
  /-- Device time at which the lockout ends (R461). -/
  lockEnd : Option Word
  access : Option CrookAcc
  /-- What the next capture of ACCESS returns: data and STATUS (R463). -/
  result : Word × Nat
  /-- Boundary cells that EXTEST drives. -/
  cells : List Bool
  /-- The clocks restart at the next tick edge (R465). -/
  resume : Bool
  /-- The attachment ends with that restart (R462). -/
  detach : Bool
  /-- Position of tick R, at which the almanac runs again (R465). -/
  restart : Option Nat
  deriving DecidableEq, Repr

/-- The maintenance UART (R468, R469). -/
structure Uart where
  /-- Transmit FIFO, oldest first, and the character in the shifter. -/
  tx : List Nat
  shift : Option Nat
  /-- Receive FIFO, oldest first: entries as UART_RX shows them without VALID. -/
  rx : List Nat
  /-- The configuration that the busy transmitter still runs under after a write of UART_CFG (R468). -/
  cfg : Option Word
  deriving DecidableEq, Repr

/-! ### The whole -/

/-- The state of the block. -/
structure State where
  /-- Commands waiting, first in, first out. -/
  pending : List Instr
  /-- Values drawn so far from those that the spec leaves open; the model's own field. -/
  freeCtr : Nat
  /-- What the block has sent out. -/
  out : List OutMsg
  /-- Every register of the register space (R8), by BAR0 offset. -/
  regs : Regs
  /-- Every memory with device addresses (R286): Shepherd, Folds, Pasture, MCE weights, DDR. -/
  mem : Memory
  ecc : Ecc
  tm : Tm
  alm : Alm
  drv : Drv
  flt : Flt
  dsp : Folds
  noc : Noc
  mov : Mov
  pwr : Pwr
  sys : Sys
  fh : Fh
  mce : Mce
  pra : Pra
  dec : Dec
  sds : Sds
  drl : Drl
  fab : Fab
  dbg : Dbg
  uart : Uart
  deriving DecidableEq, Repr

/-- A reference input with nothing received. -/
def RefInput.idleInput : RefInput := { idle := 5001, good := 0, wasValid := false, esmcIdle := 5001, rxQl := 15, samples := [] }

/-- The block right after reset: registers at their reset values, memories initialised to zero, nothing in progress. -/
def State.reset : State where
  pending := []
  freeCtr := 0
  out := []
  regs := []
  mem := []
  ecc := { flips := [], ddrFlips := [], track := [], remap := [], full := [], stamp := 0, pos := [], done := [],
           passes := [], initDue := [] }
  tm := { tod := 315964819, secDT := 0, tick := 0, cycle := 0, latchSub := none, latchDT := none, latchPos := none,
          refs := List.replicate 8 RefInput.idleInput, step := none, pull := 0, inThr := 0, timeInThr := 0,
          lockedFor := 0, hoSamples := [], outStep := List.replicate 6 0, gpio := List.replicate 32 false,
          gpioPulse := [], armedAt := [] }
  alm := { set0 := [], set1 := [], shadowMap := [], load := none, swap := none, fwVersion := 0, stagedFw := none,
           shedCells := [], losses := [], donors := [], rebindDue := [], rebindLate := [], domainAlias := [] }
  drv := { rels := [], next := [], nextIdx := none, store := [], accepted := 0, cmds := [], cellSince := [], coal := [],
           lost := [], accepts := 64 }
  flt := { returning := [], returned := [], barDue := [], shepFrozen := [], total := 0,
           lastCode := 0 }
  dsp := { cores := [], half := [], enable := [], cmds := [] }
  noc := { rt := [], flight := [], arrived := [], lastIn := [], waits := [], wait := none }
  mov := { ch := [], last := [], tag := [] }
  pwr := { dom := [], queue := [], exch := none, gaveUp := [], emulEnd := false }
  sys := { claims := [], booting := none, pinMap := false, fuses := false, spCopy := [], spLatch := none, pcieInReset := true,
           pcieCfg := [], hostReads := [], barHeld := [] }
  fh := { wins := [], presence := [], closed := [], txSeq := [], rxSeq := [], delays := [], zero := [], fills := [], prach := [] }
  mce := { valid := [], hold := [], fo := [] }
  pra := { banks := [], posts := [] }
  dec := { prog := [] }
  sds := { adapting := [], low := [], high := [] }
  drl := { lanes := [], grps := [], bipTx := [], pm := [], secDue := false, due15 := false, due24 := false, p15 := 0, p24 := 0 }
  fab := { txq := [], inbox := [], partials := [], reqs := [], waiting := [], gen := [], quarantine := [], freed := [], lastSrc := [],
           mus := { seen := 0, copies := [], reports := [], listed := [], assigns := [], epoch := 0, acked := [], started := 0,
                    lastDone := 0, lastProbe := 0, backoff := 0, held := 0, topology := [], poolMoves := false, again := false,
                    last := [] } }
  dbg := { ir := 2, nonce := none, lockEnd := none, access := none, result := (0, 0), cells := [], resume := false, detach := false,
           restart := none }
  uart := { tx := [], shift := none, rx := [], cfg := none }

end Sys2Proof.Machine
end

