-- ==== Sys2Proof/Machine/Ops.lean ====
section
/-!
DEFINITION. The operations that every family shares: registers and their fields, time (R11, R13, R385 to R387), what
leaves the block (R433, R434, R485), fault records (R453, R454) and the free values.
-/
namespace Sys2Proof.Machine

/-- What a command answers. -/
abbrev Out := Host.Outcome State Fault Refusal

/-! ### Registers -/

/-- A register. -/
def State.rd (s : State) (r : Reg) : Word := s.regs.read r

/-- A register replaced. -/
def State.wr (s : State) (r : Reg) (v : Word) : State := { s with regs := s.regs.write r v }

/-- A field of a register. -/
def State.fld (s : State) (r : Reg) (f : BitField) : Nat := f.get (s.rd r)

/-- A field of a register replaced. -/
def State.setFld (s : State) (r : Reg) (f : BitField) (n : Nat) : State := s.wr r (f.set (s.rd r) n)

/-- A field that counts up and stops at its largest value. -/
def State.bump (s : State) (r : Reg) (f : BitField) (k : Nat := 1) : State := s.setFld r f (satAdd f.max (s.fld r f) k)

/-- A 64-bit count that does not saturate. -/
def State.tally (s : State) (r : Reg) (k : Nat := 1) : State := s.wr r (s.rd r + BitVec.ofNat 64 k)

/-- Bit `n` of a register. -/
def State.bit (s : State) (r : Reg) (n : Nat) : Bool := (s.rd r).toNat.testBit n

/-- Bit `n` of a register replaced. -/
def State.setBit (s : State) (r : Reg) (n : Nat) (b : Bool) : State := s.setFld r ⟨n, 1⟩ (if b then 1 else 0)

/-- The boot lock (R421). -/
def State.locked (s : State) : Bool := s.fld .SYS_CTRL Fld.SYS_CTRL_BOOT_LOCK == 1

/-- What the access codes let a write of `v` do to a register (R5, R6). -/
def State.wrAccess (s : State) (r : Reg) (v : Word) : State := s.wr r (r.access.apply s.locked (s.rd r) v)

/-- Whether the debugger has stopped fC and fA (R464). -/
def State.halted (s : State) : Bool := s.fld .DBG_STATUS Fld.DBG_STATUS_HALTED == 1

/-- A command acts on everything but the queue of the commands that wait. -/
def State.keepQueue (s t : State) : State := { t with pending := s.pending }

/-- What a command does that a halt does not stop. -/
def always (f : State → State) (s : State) : Out := .next (s.keepQueue (f s))

/-- What a command does whose clocks a halt stops (R464): nothing while halted. -/
def running (f : State → State) (s : State) : Out := .next (if s.halted then s else s.keepQueue (f s))

/-! ### Free values -/

/-- A value of `w` bits that the spec leaves open, and the state in which it has been drawn. -/
def State.draw (s : State) (w : Nat) : Nat × State :=
  ((Config.freeBits w s.freeCtr).toNat, { s with freeCtr := s.freeCtr + 1 })

/-- A boolean that the spec leaves open. -/
def State.drawBool (s : State) : Bool × State := (Config.freeBool s.freeCtr, { s with freeCtr := s.freeCtr + 1 })

/-- `n` bytes that the spec leaves open. -/
def State.drawBytes (s : State) (n : Nat) : List Byte × State :=
  (leBytes n (Config.freeBits (8 * n) s.freeCtr).toNat, { s with freeCtr := s.freeCtr + 1 })

/-! ### Time -/

/-- Ticks in a second (R11). -/
def ticksPerSecond : Nat := 112000

/-- Device time in one second, in 2^-16 ns (R385). -/
def unitsPerSecond : Nat := 65536000000000

/-- Device time from a whole second to the edge of tick `t` in it (R385). -/
def edgeUnits (t : Nat) : Nat := 4096000000 * t / 7

/-- Device time of core cycle `c` of the current tick (R385). -/
def State.timeAt (s : State) (c : Nat) : Word :=
  let e := edgeUnits s.tm.tick
  let n := edgeUnits (1 + s.tm.tick)
  s.tm.secDT + BitVec.ofNat 64 (e + c * (n - e) / 14000)

/-- Device time now. -/
def State.now (s : State) : Word := s.timeAt s.tm.cycle

/-- The signed difference of two device times (R386). -/
def dtDiff (a b : Word) : Int := (a - b).toInt

/-- Seconds since the GPS epoch (R387). -/
def gpsSec (tod : Nat) : Nat := (2 ^ 48 - 315964819 + tod) % 2 ^ 48

/-- The 20-bit frame count at a second and tick (R387). -/
def frameOf (tod tick : Nat) : Nat := (100 * gpsSec tod + tick / 1120) % 2 ^ 20

/-- The frame count now (R387). -/
def State.frame (s : State) : Nat := frameOf s.tm.tod s.tm.tick

/-- The number of positions in which a frame count and a tick in the frame can stand. -/
def posCount : Nat := 2 ^ 20 * 1120

/-- The position of a frame and a tick in it. -/
def posOf (frame tickInFrame : Nat) : Nat := (1120 * (frame % 2 ^ 20) + tickInFrame) % posCount

/-- The position of the current tick. -/
def State.pos (s : State) : Nat := posOf s.frame (s.tm.tick % 1120)

/-- How far position `a` lies ahead of `b`, from −posCount/2. -/
def posDiff (a b : Nat) : Int :=
  let d := (posCount - b % posCount + a) % posCount
  if d < posCount / 2 then (d : Int) else (d : Int) - (posCount : Int)

/-- Absolute tick: ticks since the epoch of the TOD counter. -/
def State.absTick (s : State) : Nat := ticksPerSecond * s.tm.tod + s.tm.tick

/-- The tick after a second and tick. -/
def nextTick (tod tick : Nat) : Nat × Nat :=
  if tick + 1 < ticksPerSecond then (tod, tick + 1) else ((tod + 1) % 2 ^ 48, 0)

/-- Whether the block stands at the edge of its current tick. -/
def State.atEdge (s : State) : Bool := s.tm.cycle == 0

/-- Second and tick of the edge that edge events act at: the edge of this tick at core cycle 0, else the next edge. -/
def State.edgeTick (s : State) : Nat × Nat :=
  if s.atEdge then (s.tm.tod, s.tm.tick) else nextTick s.tm.tod s.tm.tick

/-- The position of that edge. -/
def State.edgePos (s : State) : Nat := posOf (frameOf s.edgeTick.1 s.edgeTick.2) (s.edgeTick.2 % 1120)

/-- The position of the next tick. -/
def State.nextPos (s : State) : Nat :=
  let e := nextTick s.tm.tod s.tm.tick
  posOf (frameOf e.1 e.2) (e.2 % 1120)

/-- The calendar index of a position in an almanac of `k` frames (R27). -/
def indexOf (k pos : Nat) : Nat := if k = 0 then 0 else 1120 * (pos / 1120 % k) + pos % 1120

/-- CYCLE_K of the active almanac. -/
def State.activeK (s : State) : Nat := s.fld .ALM_ACTIVE_INFO Fld.ALM_ACTIVE_INFO_CYCLE_K

/-- CYCLE_K of the shadow almanac. -/
def State.shadowK (s : State) : Nat := s.fld .ALM_SHADOW_INFO Fld.ALM_SHADOW_INFO_CYCLE_K

/-- The calendar index of the current tick; at its end, that of the tick whose edge is at hand. -/
def State.calIndex (s : State) : Nat := indexOf s.activeK (if s.tm.cycle < 14000 then s.pos else s.edgePos)

/-- A core cycle reached: time never runs back within a tick. -/
def State.toCycle (s : State) (c : Nat) : State := { s with tm := { s.tm with cycle := max s.tm.cycle (min 14000 c) } }

/-! ### What leaves the block -/

/-- A message appended to what has left the block. -/
def State.emit (s : State) (o : OutMsg) : State := { s with out := s.out ++ [o] }

/-- Whether the PCI Express link carries traffic (R434). -/
def State.linkUp (s : State) : Bool := s.fld .HST_STATUS Fld.HST_STATUS_LINK_UP == 1

/-- A posted write to a PCI Express bus address: sent, or dropped and counted while the link is down (R434, R485). -/
def State.hostWrite (s : State) (addr : Nat) (bytes : List Byte) : State :=
  if s.linkUp then s.emit (.hostWrite addr bytes) else s.bump .HST_STATS Fld.HST_STATS_WR_DROP

/-- An MSI-X vector: posted, held pending while its table entry is masked, or lost with the link (R433, R434). -/
def State.msix (s : State) (v : Nat) : State :=
  if s.linkUp then
    if s.fld (.HST_MSIX_CTRL (v % 64)) Fld.HST_MSIX_CTRL_MASK = 1 then s.setBit .HST_PBA (v % 64) true
    else s.emit (.msix (v % 64))
  else s.bump .HST_STATS Fld.HST_STATS_WR_DROP

/-- A vector posted if its enable is 1. -/
def State.msixIf (s : State) (en : Bool) (v : Nat) : State := if en then s.msix v else s

/-- Sources of interrupts to the Shepherd complex, as the model numbers them. -/
def shepFlt : Nat := 0
def shepTimer : Nat := 1
def shepMov : Nat := 2
def shepUart : Nat := 3
def shepDoorbell : Nat := 4
def shepFab : Nat := 5
def shepPtp : Nat := 6

/-- An interrupt to the Shepherd complex. -/
def State.shepIrq (s : State) (src data : Nat) : State := s.emit (.shepIrq src data)

/-- The event of ALM_LOAD_STATUS.DONE and of ALM_SWAP_STATUS.SWAPPED or FAILED (R440). -/
def State.almEvent (s : State) : State :=
  s.msixIf (s.fld .HST_EVT_CFG Fld.HST_EVT_CFG_ALM_EN == 1) (s.fld .HST_EVT_CFG Fld.HST_EVT_CFG_ALM_VECTOR)

/-- SYS_READY bits changed; the change posts its vector when SYS_EN is 1 (R431). -/
def State.setReady (s : State) (f : BitField) (n : Nat) : State :=
  if s.fld .SYS_READY f = n then s else
    (s.setFld .SYS_READY f n).msixIf (s.fld .HST_EVT_CFG Fld.HST_EVT_CFG_SYS_EN == 1)
      (s.fld .HST_EVT_CFG Fld.HST_EVT_CFG_SYS_VECTOR)

/-- One bit of SYS_READY. -/
def State.setReadyBit (s : State) (n : Nat) (b : Bool) : State := s.setReady ⟨n, 1⟩ (if b then 1 else 0)

/-- Bits of SYS_READY that change at one instant, as one change. -/
def State.setReadyBits (s : State) (ns : List Nat) (b : Bool) : State :=
  let v := ns.foldl (fun w n => setBitsOf w n 1 (if b then 1 else 0)) (s.rd .SYS_READY).toNat
  if (s.rd .SYS_READY).toNat = v then s else
    (s.wr .SYS_READY (BitVec.ofNat 64 v)).msixIf (s.fld .HST_EVT_CFG Fld.HST_EVT_CFG_SYS_EN == 1)
      (s.fld .HST_EVT_CFG Fld.HST_EVT_CFG_SYS_VECTOR)

/-! ### Engine map -/

/-- The physical almanac set in use (R56 ALM_ACTIVE_INFO). -/
def State.activeSet (s : State) : Nat := s.fld .ALM_ACTIVE_INFO Fld.ALM_ACTIVE_INFO_STATE % 2

/-- The image of the active set. -/
def State.active (s : State) : List Byte := if s.activeSet = 0 then s.alm.set0 else s.alm.set1

/-- The image of the shadow set. -/
def State.shadow (s : State) : List Byte := if s.activeSet = 0 then s.alm.set1 else s.alm.set0

/-- The image of the shadow set replaced. -/
def State.setShadow (s : State) (img : List Byte) : State :=
  if s.activeSet = 0 then { s with alm := { s.alm with set1 := img } } else { s with alm := { s.alm with set0 := img } }

/-- The entries of the active engine map in use (R23 LOGICAL_ENGINES). -/
def State.mapLen (s : State) : Nat := min 80 (leAt s.active 0x2E 2)

/-- The class and physical unit to which logical engine `n` is bound (R56 ALM_EMAP). -/
def State.bound (s : State) (n : Nat) : Option (Nat × Nat) :=
  if n < s.mapLen ∧ s.fld (.ALM_EMAP n) Fld.ALM_EMAP_UNBOUND = 0 then
    some (s.fld (.ALM_EMAP n) Fld.ALM_EMAP_CLASS, s.fld (.ALM_EMAP n) Fld.ALM_EMAP_PHYS)
  else none

/-! ### Fault records -/

/-- Kind of a fault code (R441, R442). -/
def kindOf (code : Nat) : Nat :=
  if code ≤ 0x05 then 0 else if code = 0x11 then 2 else if code ≥ 0x90 then 3 else 1

/-- The logical engine bound to a source, 0xFFF if none (R453). -/
def State.logicalOf (s : State) (cls phys : Nat) : Nat :=
  match (List.range s.mapLen).find? fun n => s.bound n == some (cls, phys) with
  | some n => n
  | none => 0xFFF

/-- What a fault record names (R452, R453). -/
structure FaultArgs where
  code : Nat
  cls : Nat
  phys : Nat
  addr : Nat := 0
  detail : Nat := 0
  requests : Nat := 0
  releases : Nat := 0
  logical : Option Nat := none
  deriving DecidableEq, Repr

/-- Word 0 of a fault record (R453). -/
def State.recWord0 (s : State) (a : FaultArgs) : Nat :=
  let logical := match a.logical with
    | some n => n
    | none => if a.cls ≤ 5 then s.logicalOf a.cls a.phys else 0xFFF
  2 ^ 56 * (a.code % 2 ^ 8) + 2 ^ 54 * kindOf a.code + 2 ^ 50 * (a.cls % 16) + 2 ^ 42 * (a.phys % 2 ^ 8)
    + 2 ^ 30 * (logical % 2 ^ 12) + 2 ^ 15 * (s.calIndex % 2 ^ 15) + s.tm.cycle % 14000 * 2 + 1

/-- A fault record written to FLT_REC, counted and signalled (R453, R454). -/
def State.record (s : State) (a : FaultArgs) : State :=
  let i := s.fld .FLT_STATUS Fld.FLT_STATUS_WR_IDX
  let seq := s.fld .FLT_STATUS Fld.FLT_STATUS_SEQ
  let count := s.fld .FLT_STATUS Fld.FLT_STATUS_COUNT
  let s0 := s.wr (.FLT_REC i 0) (BitVec.ofNat 64 (s.recWord0 a))
  let s1 := s0.wr (.FLT_REC i 1) s.now
  let s2 := s1.wr (.FLT_REC i 2) (BitVec.ofNat 64 (2 ^ 48 * seq + a.addr % 2 ^ 48))
  let s3 := s2.wr (.FLT_REC i 3)
    (BitVec.ofNat 64 (2 ^ 32 * (a.detail % 2 ^ 32) + 2 ^ 16 * min 0xFFFF a.requests + min 0xFFFF a.releases))
  let s4 := s3.setFld .FLT_STATUS Fld.FLT_STATUS_WR_IDX ((i + 1) % 64)
  let s5 := s4.setFld .FLT_STATUS Fld.FLT_STATUS_SEQ ((seq + 1) % 2 ^ 16)
  let s6 := if count = 64 then s5.setFld .FLT_STATUS Fld.FLT_STATUS_OVERFLOW 1
    else s5.setFld .FLT_STATUS Fld.FLT_STATUS_COUNT (count + 1)
  let s7 := match kindOf a.code with
    | 0 => s6.bump .FLT_STATS Fld.FLT_STATS_VIOLATIONS
    | 1 => s6.bump .FLT_STATS Fld.FLT_STATS_FAULTS
    | _ => s6
  let s8 := if a.code = 0x93 then s7.bump .FLT_STATS Fld.FLT_STATS_RETURNS else s7
  let s9 := if kindOf a.code ≤ 1 then s8.setFld .SYS_ALARM Fld.SYS_ALARM_FAULT 1 else s8
  let s10 := { s9 with flt := { s9.flt with total := satAdd 255 s9.flt.total 1, lastCode := a.code } }
  let s11 := s10.msixIf (s.fld .FLT_CTRL Fld.FLT_CTRL_EVT_EN == 1) (s.fld .FLT_CTRL Fld.FLT_CTRL_VECTOR)
  if s.fld .FLT_CTRL Fld.FLT_CTRL_SHEP_EN = 1 then s11.shepIrq shepFlt a.code else s11

/-! ### Units -/

/-- Number of physical units of a class (R30). -/
def classSize : Nat → Nat
  | 0 => 16
  | 1 => 12
  | 2 => 32
  | 3 => 8
  | 4 => 4
  | 5 => 8
  | _ => 0

/-- Whether a class and index name a unit. -/
def unitOk (cls phys : Nat) : Bool := decide (phys < classSize cls)

/-- The network interface of a unit (R262). -/
def niOfUnit : Nat → Nat → Nat
  | 0, n => n
  | 1, m => 40 + m
  | 2, u => 52 + u / 8
  | 3, _ => 56
  | 4, _ => 57
  | 5, e => 58 + e
  | _, _ => 76

/-- The power domain of an NI (R402). -/
def domainOfNi (n : Nat) : Nat :=
  if n < 16 then n else if n < 40 then 45 + (n - 16) else if n < 52 then 16 + (n - 40) / 3
  else if n < 56 then 20 + (n - 52) else if n < 58 then 24 else if n < 66 then 69
  else if n < 70 then 41 + (n - 66) else 69

/-- The power domain of a unit (R402). -/
def domainOfUnit (cls phys : Nat) : Nat := domainOfNi (niOfUnit cls phys)

/-- The units of a domain, with class and index (R402). -/
def unitsOfDomain (d : Nat) : List (Nat × Nat) :=
  if d < 16 then [(0, d)]
  else if d < 20 then (List.range 3).map fun i => (1, 3 * (d - 16) + i)
  else if d < 24 then (List.range 8).map fun i => (2, 8 * (d - 20) + i)
  else if d = 24 then ((List.range 8).map fun i => (3, i)) ++ (List.range 4).map fun i => (4, i)
  else []

/-- The NIs of a domain (R402). -/
def nisOfDomain (d : Nat) : List Nat := (List.range 79).filter fun n => domainOfNi n == d && decide (d < 69)

/-- The transition of a domain. -/
def State.dom (s : State) (d : Nat) : DomSt := SMap.get domIdle s.pwr.dom d

/-- State of a domain as its clocks and power have it: IDLE under sleep emulation (R467). -/
def State.domState (s : State) (d : Nat) : Nat :=
  if d ≥ 69 then 0 else
    if s.fld (.PWR_DOM d) Fld.PWR_DOM_EMULATED = 1 then 1 else s.fld (.PWR_DOM d) Fld.PWR_DOM_STATE

/-- Whether a domain is marked FAILED (R414). -/
def State.domFailed (s : State) (d : Nat) : Bool := decide (d < 69) && s.fld (.PWR_DOM d) Fld.PWR_DOM_FAILED == 1

/-- Whether a domain is ON with no transition, so that its NIs take packets (R278). -/
def State.domOpen (s : State) (d : Nat) : Bool :=
  decide (d ≥ 69) || (s.domState d == 0 && (s.dom d).entry.isNone && (s.dom d).wake.isNone)

/-- The valid bits of an MCE's weight memory cleared, and their number with them (R122, R150). -/
def State.clearLines (s : State) (m : Nat) : State :=
  { s with mce := { s.mce with valid := s.mce.valid.erase m } }.setFld (.MCE_STATUS m) Fld.MCE_STATUS_WVALID 0

/-- State of a unit (R455). -/
def State.unitState (s : State) (cls phys : Nat) : Nat := s.fld (.FLT_UNIT_STATE cls (phys / 16)) ⟨4 * (phys % 16), 3⟩

/-- State of a unit replaced. -/
def State.setUnitState (s : State) (cls phys v : Nat) : State :=
  s.setFld (.FLT_UNIT_STATE cls (phys / 16)) ⟨4 * (phys % 16), 3⟩ v

/-- Dead for binding: frozen, dead, reset, restoring or barred (R442, R455). -/
def State.unitDead (s : State) (cls phys : Nat) : Bool :=
  let v := s.unitState cls phys
  v == 1 || v == 2 || v == 3 || v == 4 || v == 6

/-- Whether an NI is isolated (R280). -/
def State.isolated (s : State) (ni : Nat) : Bool := s.bit (.NOC_ISOLATE (ni / 64)) (ni % 64)

/-- An NI isolated, or its isolation ended, with its mirror in NOC_NI (R280, R282). -/
def State.setIsolated (s : State) (ni : Nat) (b : Bool) : State :=
  (s.setBit (.NOC_ISOLATE (ni / 64)) (ni % 64) b).setFld (.NOC_NI ni) Fld.NOC_NI_ISOLATED (if b then 1 else 0)

/-- Whether some unit of an NI is dead or frozen, or its domain is failed (R282, NOC_NI.DEAD). -/
def State.niDead (s : State) (ni : Nat) : Bool :=
  let units := ((List.range 6).flatMap fun c => (List.range (classSize c)).map fun p => (c, p)).filter
    fun u => niOfUnit u.1 u.2 == ni
  units.any (fun u => s.unitDead u.1 u.2)
    || (decide (domainOfNi ni < 69) && s.fld (.PWR_DOM (domainOfNi ni)) Fld.PWR_DOM_FAILED == 1)

/-- NOC_NI.DEAD of a unit's NI brought up to date. -/
def State.refreshDead (s : State) (ni : Nat) : State :=
  s.setFld (.NOC_NI ni) Fld.NOC_NI_DEAD (if s.niDead ni then 1 else 0)

/-- FROZEN flags of the engine registers of a unit (R150, R181, R311). -/
def State.setFrozenFlag (s : State) (cls phys : Nat) (b : Bool) : State :=
  let n := if b then 1 else 0
  match cls with
  | 1 => s.setFld (.MCE_STATUS phys) Fld.MCE_STATUS_FROZEN n
  | 2 => s.setFld (.DEC_UID_STATUS phys) Fld.DEC_UID_STATUS_FROZEN n
  | 3 => s.setFld (.DEC_ENC_STATUS phys) Fld.DEC_ENC_STATUS_FROZEN n
  | 5 => s.setFld (.MOV_ENG phys) Fld.MOV_ENG_FROZEN n
  | _ => s

end Sys2Proof.Machine
end

