-- ==== Sys2Proof/Machine/Lanes.lean ====
section
/-!
DEFINITION. The serial lanes as the other families see them (R357 to R360, R372): the flags of quads and lanes, and what a lane shows
its user.
-/
namespace Sys2Proof.Machine

/-- The event of R372. -/
def State.sdsEvent (s : State) : State :=
  s.msixIf (s.fld .SDS_CTRL Fld.SDS_CTRL_EVT_EN == 1) (s.fld .SDS_CTRL Fld.SDS_CTRL_VECTOR)

/-- A flag of a quad's status: a change sets CHANGE and posts (R372). -/
def State.setQuad (s : State) (q : Nat) (f : BitField) (b : Bool) : State :=
  let n := if b then 1 else 0
  if s.fld (.SDS_QUAD_STATUS q) f = n then s
  else ((s.setFld (.SDS_QUAD_STATUS q) f n).setFld (.SDS_QUAD_STATUS q) Fld.SDS_QUAD_STATUS_CHANGE 1).sdsEvent

/-- A flag of a lane's status: a change sets CHANGE and posts (R372). -/
def State.setLane (s : State) (l : Nat) (f : BitField) (b : Bool) : State :=
  let n := if b then 1 else 0
  if s.fld (.SDS_LANE_STATUS l) f = n then s
  else ((s.setFld (.SDS_LANE_STATUS l) f n).setFld (.SDS_LANE_STATUS l) Fld.SDS_LANE_STATUS_CHANGE 1).sdsEvent

/-- READY of a quad with its mirror in SYS_READY (R359). -/
def State.setQuadReady (s : State) (q : Nat) (b : Bool) : State :=
  (s.setQuad q Fld.SDS_QUAD_STATUS_READY b).setReadyBit (44 + q) b

/-- The four lanes of a quad. -/
def lanesOfQuad (q : Nat) : List Nat := (List.range 4).map fun i => 4 * q + i

/-- A lane without signal, lock and adaptation. -/
def State.dropLane (s : State) (l : Nat) : State :=
  let s1 := ((s.setLane l Fld.SDS_LANE_STATUS_SIGNAL false).setLane l Fld.SDS_LANE_STATUS_LOCK false).setLane l
    Fld.SDS_LANE_STATUS_ADAPTED false
  { s1 with sds := { s1.sds with adapting := s1.sds.adapting.filter fun x => x != l } }

/-- A quad whose logic power has gone (R404): its PLL and its receivers with it. -/
def State.quadDown (s : State) (q : Nat) : State :=
  (lanesOfQuad q).foldl (fun t l => t.dropLane l) ((s.setQuadReady q false).setQuad q Fld.SDS_QUAD_STATUS_LOCK false)

/-- RATE of a quad (R357). -/
def State.quadRate (s : State) (q : Nat) : Nat := s.fld (.SDS_QUAD_CFG q) Fld.SDS_QUAD_CFG_RATE

/-- Whether a flag of a quad's status is set. -/
def State.quadIs (s : State) (q : Nat) (f : BitField) : Bool := s.fld (.SDS_QUAD_STATUS q) f == 1

/-- Whether a flag of a lane's status is set. -/
def State.laneIs (s : State) (l : Nat) (f : BitField) : Bool := s.fld (.SDS_LANE_STATUS l) f == 1

/-- The user of a lane: 0 none, 1 fronthaul, 2 fabric. -/
def State.laneUser (s : State) (l : Nat) : Nat := s.fld (.SDS_LANE_STATUS l) Fld.SDS_LANE_STATUS_USER

/-- The loopback of a lane (R368). -/
def State.lpbk (s : State) (l : Nat) : Nat := s.fld (.SDS_LANE_CFG l) Fld.SDS_LANE_CFG_LPBK

/-- The fronthaul port that owns a lane (R88). -/
def State.portOfLane (s : State) (l : Nat) : Nat :=
  if s.fld (.FHL_PORT_CFG (l / 4 * 4)) Fld.FHL_PORT_CFG_MODE = 3 then l / 4 * 4 else l

/-- The Drove group that owns a lane (R312). -/
def State.groupOfLane (s : State) (l : Nat) : Option Nat :=
  (List.range 32).find? fun g => (s.rd (.DRL_GRP_LANES g)).toNat.testBit l

/-- The quad rate that a lane's user needs (R357, R358). -/
def State.rateNeeded (s : State) (l : Nat) : Option Nat :=
  match s.laneUser l with
  | 1 => match s.fld (.FHL_PORT_CFG (s.portOfLane l)) Fld.FHL_PORT_CFG_MODE with
    | 0 => none
    | 1 => some 1
    | _ => some 2
  | 2 => (s.groupOfLane l).map fun g => if s.fld (.DRL_GRP_CFG g) Fld.DRL_GRP_CFG_RATE = 1 then 3 else 4
  | _ => none

/-- Whether a lane is rate-conflicted (R358). -/
def State.rateConflict (s : State) (l : Nat) : Bool :=
  match s.rateNeeded l with
  | some r => r != s.quadRate (l / 4)
  | none => false

/-- Whether a lane's transmitter is squelched (R360); `domOn` says that the quad's domain is ON. -/
def State.laneSquelched (s : State) (l : Nat) (domOn : Bool) : Bool :=
  !s.sys.pinMap || !s.quadIs (l / 4) Fld.SDS_QUAD_STATUS_READY || !domOn || s.rateConflict l
    || (s.laneUser l == 0 && s.fld (.SDS_LANE_PRBS l) Fld.SDS_LANE_PRBS_GEN_EN == 0 && s.lpbk l != 3)
    || s.fld .DBG_STATUS Fld.DBG_STATUS_HALTED == 1 || s.lpbk l == 1 || s.lpbk l == 2

/-- SIGNAL as a lane's user sees it (R358, R361). -/
def State.userSignal (s : State) (l : Nat) : Bool := s.laneIs l Fld.SDS_LANE_STATUS_SIGNAL && !s.rateConflict l

/-- LOCK as a lane's user sees it (R358, R361). -/
def State.userLock (s : State) (l : Nat) : Bool := s.laneIs l Fld.SDS_LANE_STATUS_LOCK && !s.rateConflict l

/-- Whether a lane belongs to a fronthaul port whose MODE is not OFF, or to an enabled group (R358). -/
def State.laneInUse (s : State) (l : Nat) : Bool :=
  (s.laneUser l == 1 && s.fld (.FHL_PORT_CFG (s.portOfLane l)) Fld.FHL_PORT_CFG_MODE != 0)
  || match s.groupOfLane l with
    | some g => s.fld (.DRL_GRP_CFG g) Fld.DRL_GRP_CFG_ENABLE == 1
    | none => false

end Sys2Proof.Machine
end

