-- ==== Sys2Proof/Machine/Image.lean ====
section
/-!
DEFINITION. The almanac image as the block reads it (R23 to R42): header, sections, calendar, templates, release records,
engine map, fallow and shed lists, and the planned state of a power domain (R39, R33, R50, R403).
-/
namespace Sys2Proof.Machine

/-- Offset of section `i` (R23, R24). -/
def secOff (img : List Byte) (i : Nat) : Nat := leAt img (0x38 + 8 * i) 4

/-- Length of section `i`. -/
def secLen (img : List Byte) (i : Nat) : Nat := leAt img (0x3C + 8 * i) 4

/-- The records of `size` bytes in section `i`. -/
def secRecords (img : List Byte) (i size : Nat) : List Nat :=
  (List.range (secLen img i / size)).map fun n => leAt img (secOff img i + n * size) size

/-- CYCLE_K of an image. -/
def imgK (img : List Byte) : Nat := leAt img 0x0E 1

/-- LEAD_TICKS of an image. -/
def imgLead (img : List Byte) : Nat := leAt img 0x28 2

/-- TARUNO_BUILD of an image. -/
def imgBuild (img : List Byte) : Nat := leAt img 0x10 8

/-- PRED_BUILD of an image. -/
def imgPred (img : List Byte) : Nat := leAt img 0x18 8

/-- Calendar entry `i` (R26). -/
def calendarAt (img : List Byte) (i : Nat) : Nat := leAt img (secOff img 0 + 2 * i) 2 % 2048

/-- Offset of template `t` in the image (R28). -/
def templateOff (img : List Byte) (t : Nat) : Nat := secOff img 1 + leAt img (secOff img 1 + 4 * t) 4

/-- Number of releases of template `t`. -/
def templateCount (img : List Byte) (t : Nat) : Nat := leAt img (templateOff img t) 2 % 512

/-- WHEEL_PROFILE of template `t`. -/
def templateWheel (img : List Byte) (t : Nat) : Nat := leAt img (templateOff img t + 2) 1

/-- FABRIC_PROFILE of template `t`. -/
def templateFabric (img : List Byte) (t : Nat) : Nat := leAt img (templateOff img t + 3) 1

/-- Release record `j` of template `t`. -/
def releaseAt (img : List Byte) (t j : Nat) : Nat := leAt img (templateOff img t + 16 + 16 * j) 16

/-- The release records of template `t` with their indices. -/
def templateReleases (img : List Byte) (t : Nat) : List (Nat × Nat) :=
  (List.range (templateCount img t)).map fun j => (j, releaseAt img t j)

/-! Fields of a release record (R29). -/

/-- REQ_SLOT_OFS, signed. -/
def relSlotOfs (w : Nat) : Int := signedOf 8 (bitsOf w 120 8)
/-- FILL_INDEX. -/
def relFillIndex (w : Nat) : Nat := bitsOf w 112 8
/-- ARG. -/
def relArg (w : Nat) : Nat := bitsOf w 64 32
/-- OP_CODE. -/
def relOp (w : Nat) : Nat := bitsOf w 48 16
/-- LOGICAL_ENGINE. -/
def relLogical (w : Nat) : Nat := bitsOf w 36 12
/-- CORE. -/
def relCore (w : Nat) : Nat := bitsOf w 33 3
/-- PRIORITY. -/
def relPrio (w : Nat) : Nat := bitsOf w 30 3
/-- FLOW_EN. -/
def relFlowEn (w : Nat) : Bool := bitsOf w 29 1 == 1
/-- FLOW_ID. -/
def relFlow (w : Nat) : Nat := bitsOf w 17 12
/-- CELL. -/
def relCell (w : Nat) : Nat := bitsOf w 10 7
/-- FILL. -/
def relFill (w : Nat) : Bool := bitsOf w 9 1 == 1
/-- DEP_EN. -/
def relDepEn (w : Nat) : Bool := bitsOf w 8 1 == 1
/-- DEP_INDEX. -/
def relDep (w : Nat) : Nat := bitsOf w 0 8
/-- A replay release (R74). -/
def relReplay (w : Nat) : Bool := bitsOf w 63 1 == 1

/-- Engine map entry `n`: class and physical unit (R31). -/
def mapEntry (img : List Byte) (n : Nat) : Nat × Nat :=
  let w := leAt img (secOff img 2 + 4 * n) 4
  (bitsOf w 28 4, bitsOf w 0 8)

/-- LOGICAL_ENGINES. -/
def imgMapLen (img : List Byte) : Nat := leAt img 0x2E 2

/-- The engine map. -/
def imgMap (img : List Byte) : List (Nat × Nat) := (List.range (imgMapLen img)).map (mapEntry img)

/-- The fallow list: class and physical unit, in list order (R31). -/
def imgFallow (img : List Byte) : List (Nat × Nat) := (secRecords img 3 2).map fun w => (bitsOf w 8 4, bitsOf w 0 8)

/-- The cells of the shed list in drop order (R35). -/
def shedCells (img : List Byte) : List Nat :=
  if secLen img 4 = 0 then [] else
    (List.range (leAt img (secOff img 4) 1)).map fun i => leAt img (secOff img 4 + 8 + i) 1

/-- The shed records (R35). -/
def shedRecords (img : List Byte) : List Nat :=
  if secLen img 4 = 0 then [] else
    let cells := leAt img (secOff img 4) 1
    let base := secOff img 4 + 8 + ceilDiv cells 8 * 8
    (List.range (leAt img (secOff img 4 + 2) 1)).map fun i => leAt img (base + 8 * i) 8

/-- The shed record of a class and loss. -/
def shedRecord (img : List Byte) (cls loss : Nat) : Option Nat :=
  (shedRecords img).find? fun w => bitsOf w 59 4 == cls && bitsOf w 56 3 == loss

/-- The donors a shed record names, DONOR0 first (R35). -/
def shedDonors (w : Nat) : List Nat :=
  ([bitsOf w 0 12, bitsOf w 12 12, bitsOf w 24 12, bitsOf w 36 12]).filter fun d => d != 0xFFF

/-- The power plan records of an image (R39). -/
def powerRecords (img : List Byte) : List Nat := secRecords img 7 8

/-- The last record at or before index `idx`, counted cyclically, of records sorted by tick. -/
def lastCyclic (recs : List Nat) (tick : Nat → Nat) (idx : Nat) : Option Nat :=
  match (recs.filter fun w => decide (tick w ≤ idx)).getLast? with
  | some w => some w
  | none => recs.getLast?

/-- The state that an image plans for domain `d` at calendar index `idx`, if a STATE record names it (R39). -/
def imgPlanned (img : List Byte) (d idx : Nat) : Option Nat :=
  (lastCyclic ((powerRecords img).filter fun w => bitsOf w 47 2 == 0 && bitsOf w 39 8 == d) (fun w => bitsOf w 49 15) idx).map
    fun w => bitsOf w 37 2

/-- The MV of the last VOLT record of a rail at calendar index `idx` (R39). -/
def imgVolt (img : List Byte) (rail idx : Nat) : Option Nat :=
  (lastCyclic ((powerRecords img).filter fun w => bitsOf w 47 2 == 1 && bitsOf w 39 8 == rail) (fun w => bitsOf w 49 15) idx).map
    fun w => bitsOf w 27 10

/-! ### Cells and slots -/

/-- The configuration byte of a cell under the active almanac (R85). -/
def State.cellCfg (s : State) (cell : Nat) : Nat := bitsOf (s.rd (.DRV_CELLCFG (cell / 8))).toNat (8 * (cell % 8)) 8

/-- The configuration byte of a cell under the shadow almanac (R85). -/
def State.cellCfgSh (s : State) (cell : Nat) : Nat := bitsOf (s.rd (.DRV_CELLCFG_SH (cell / 8))).toNat (8 * (cell % 8)) 8

/-- SERVED of a configuration byte. -/
def cfgServed (c : Nat) : Bool := bitsOf c 3 1 == 1
/-- STANDBY of a configuration byte. -/
def cfgStandby (c : Nat) : Bool := bitsOf c 2 1 == 1
/-- GROUP of a configuration byte. -/
def cfgGroup (c : Nat) : Nat := bitsOf c 4 4
/-- Slot length in ticks of a configuration byte (R85 SLOT_LEN). -/
def cfgSlotLen (c : Nat) : Nat := 112 / 2 ^ (bitsOf c 0 2)

/-- State of a cell: 0 NOT_SERVED, 1 RUNNING, 2 STOPPED, 3 SHED (R86). -/
def State.cellState (s : State) (cell : Nat) : Nat := s.fld (.DRV_CELL_STATE (cell / 32)) ⟨2 * (cell % 32), 2⟩

/-- State of a cell replaced, in force from position `since`. -/
def State.setCellState (s : State) (cell v since : Nat) : State :=
  let s1 := s.setFld (.DRV_CELL_STATE (cell / 32)) ⟨2 * (cell % 32), 2⟩ v
  { s1 with drv := { s1.drv with cellSince := SMap.set zeroNat s1.drv.cellSince cell since } }

/-- The first position of the slot that a release at position `pos` names, for slots of `len` ticks (R57). -/
def slotNamed (len pos : Nat) (ofs : Int) : Nat :=
  let base : Int := (pos : Int) - ((pos % 1120 % len : Nat) : Int) + ofs * (len : Int)
  (base % (posCount : Int)).toNat

/-- How many ticks after the first tick of the slot it names a release at calendar index `idx` runs. -/
def slotLag (len idx : Nat) (ofs : Int) : Int := ((idx % 1120 % len : Nat) : Int) - ofs * (len : Int)

/-- Every release of an image with the calendar index at which it runs. -/
def calendarReleases (img : List Byte) : List (Nat × Nat) :=
  (List.range (1120 * imgK img)).flatMap fun i => (templateReleases img (calendarAt img i)).map fun r => (i, r.2)

/-- Whether a release at calendar index `idx` names the slot that starts at position `start` (R57, R76). -/
def namesSlot (k len start idx w : Nat) : Bool :=
  if k = 0 then false else
    let lag := slotLag len idx (relSlotOfs w)
    decide (((idx : Int) - lag - (start % (1120 * k) : Nat)) % ((1120 * k : Nat) : Int) = 0)

/-- The lags of the releases of a cell that meet `p` and name a slot. -/
def slotLags (img : List Byte) (len start cell : Nat) (p : Nat → Bool) : List Int :=
  (calendarReleases img).filterMap fun r =>
    if relCell r.2 == cell && p r.2 && namesSlot (imgK img) len start r.1 r.2 then
      some (slotLag len r.1 (relSlotOfs r.2)) else none

/-- Class of the engine that a release of an image names. -/
def relClass (img : List Byte) (w : Nat) : Nat := (mapEntry img (relLogical w)).1

/-- The direction whose requests fill the releases of a class, where the class settles it: 1 uplink, 0 downlink (R57). -/
def fillDir : Nat → Option Nat
  | 1 => some 1
  | 2 => some 1
  | 3 => some 0
  | 4 => some 1
  | _ => none

/-- The lag of the last release that fills from a request of a direction for a slot (R76). -/
def lastFillLag (img : List Byte) (len start cell dir : Nat) (replay : Bool) : Option Int :=
  (slotLags img len start cell fun w =>
    relFill w && relReplay w == replay && (fillDir (relClass img w)).getD dir == dir).max?

/-- The lag of the last COMBINE release of a cell for a slot (R448). -/
def lastCombineLag (img : List Byte) (len start cell : Nat) : Option Int :=
  (slotLags img len start cell fun w => relClass img w == 1 && relOp w == 2).max?

/-- Whether an image holds replay releases for a cell (R74, R448). -/
def hasReplay (img : List Byte) (cell : Nat) : Bool :=
  (calendarReleases img).any fun r => relCell r.2 == cell && relFill r.2 && relReplay r.2

/-- The lags of the replay releases that fill from a slot (R74). -/
def replayLags (img : List Byte) (len start cell : Nat) : List Int :=
  slotLags img len start cell fun w => relFill w && relReplay w

/-! ### Planned power states -/

/-- Whether some unit of a domain is bound or fallow (R403). -/
def State.domainUsed (s : State) (d : Nat) : Bool :=
  (unitsOfDomain d).any fun u =>
    ((List.range s.mapLen).any fun n => s.bound n == some u)
      || (List.range 16).any fun m => s.fld (.ALM_FALLOW m) Fld.ALM_FALLOW_VALID == 1
          && s.fld (.ALM_FALLOW m) Fld.ALM_FALLOW_CLASS == u.1 && s.fld (.ALM_FALLOW m) Fld.ALM_FALLOW_PHYS == u.2

/-- The state planned for domain `d` at calendar index `idx` of the active almanac, R33 and R403 included. DESIGN CHOICE (log 14): a dead
unit's domain without a STATE record passes nothing on, and a second replacement takes nothing of the first unit's domain. -/
def State.plannedAt (s : State) (d idx : Nat) : Nat :=
  let own := match imgPlanned s.active d idx with
    | some v => v
    | none => if s.domainUsed d || decide (d ≥ 69) then 0 else s.fld (.PWR_DOM_CFG d) Fld.PWR_DOM_CFG_FW_STATE
  (s.alm.domainAlias.filterMap fun p => if p.2 = d then imgPlanned s.active p.1 idx else none).foldl min own

/-- The state planned for domain `d` at the edge that edge events act at; the override of R50 makes it ON. -/
def State.plannedNow (s : State) (d : Nat) : Nat :=
  if (s.alm.swap.map (·.override_)).getD false then 0 else s.plannedAt d (indexOf s.activeK s.edgePos)

end Sys2Proof.Machine
end

