-- ==== Sys2Proof/Machine/MemEcc.lean ====
section
/-!
DEFINITION. The memories with their codes: where an address lies (R183, R286, R287), the SRAM code (R288), the DDR code
(R289, R290), correction tracking and remapping (R291, R292), and reads and writes of memory bytes through the codes
(R294, MEM_INJECT). What an uncorrectable error does to a unit is in Units.lean.
-/
namespace Sys2Proof.Machine

/-! ### Where an address lies -/

/-- Base of Pasture memory. -/
def pastureBase : Nat := 0x40000000
/-- Bytes of Pasture memory. -/
def pastureSize : Nat := 24 * 0x400000
/-- Base of the DDR addresses. -/
def ddrBase : Nat := 0x1000000000
/-- Base of the Fold windows (R183). -/
def foldBase : Nat := 0x10000000
/-- Base of the MCE windows. -/
def mceBase : Nat := 0x60000000
/-- Base of the register space. -/
def regBase : Nat := 0x70000000

/-- Device address of an offset in the window of Fold `n`. -/
def foldAddr (n off : Nat) : Nat := foldBase + 0x1000000 * n + off

/-- The places that a device address can name (R263, R286). -/
inductive Place where
  /-- A word of an SRAM group. -/
  | sram (group word : Nat)
  /-- A line of a DDR channel. -/
  | ddr (channel line : Nat)
  /-- The register space. -/
  | reg
  /-- A Fold or MCE window offset that holds nothing: reads 0, ignores writes. -/
  | hole
  /-- The remote fabric window. -/
  | remote
  /-- No row names it. -/
  | none
  deriving DecidableEq, Repr

/-- Bytes of one populated DDR channel (R287). -/
def State.ddrSize (s : State) (c : Nat) : Nat := 2 ^ (32 + s.fld (.MEM_DDR_CFG c) Fld.MEM_DDR_CFG_SIZE)

/-- Channel of a DDR offset (R287). -/
def ddrChannel (a : Nat) : Nat := (a / 256 ^^^ a / 4096) % 4

/-- Offset within the channel of a DDR offset (R287). -/
def ddrChanOffset (a : Nat) : Nat := a / 1024 * 256 + a % 256

/-- Where a 48-bit device address lies (R286). -/
def State.place (s : State) (a : Nat) : Place :=
  if a < 0x200000 then .sram 0 (a / 8)
  else if foldBase ≤ a ∧ a < foldBase + 16 * 0x1000000 then
    let n := (a - foldBase) / 0x1000000
    let o := a % 0x1000000
    if o < 0x400000 then .sram (1 + n) (o / 8)
    else if 0x800000 ≤ o ∧ o < 0x900000 then .sram (1 + n) (0x80000 + (o - 0x800000) / 8) else .hole
  else if pastureBase ≤ a ∧ a < pastureBase + pastureSize then
    .sram (17 + (a - pastureBase) / 0x400000) ((a - pastureBase) % 0x400000 / 8)
  else if mceBase ≤ a ∧ a < mceBase + 12 * 0x100000 then
    let o := a % 0x100000
    if o < 0x80000 then .sram (41 + (a - mceBase) / 0x100000) (o / 8) else .hole
  else if regBase ≤ a ∧ a < regBase + 20 * 0x10000 then .reg
  else if ddrBase ≤ a ∧ a < ddrBase + 4 * s.ddrSize 0 then
    .ddr (ddrChannel (a - ddrBase)) (ddrChanOffset (a - ddrBase) / 64)
  else if a / 2 ^ 47 % 2 = 1 then .remote
  else .none

/-- The target NI of a device address (R263), or none. -/
def State.targetNi (s : State) (a : Nat) : Option Nat :=
  match s.place a with
  | .sram g _ => if g = 0 then some 76 else if g < 17 then some (g - 1) else if g < 41 then some (16 + (g - 17))
      else some (40 + (g - 41))
  | .ddr c _ => some (66 + c)
  | .reg => some 78
  | .hole => if a < pastureBase then some ((a - foldBase) / 0x1000000) else some (40 + (a - mceBase) / 0x100000)
  | .remote => some 74
  | .none => none

/-- The unit that owns a memory group (R457, R442): class and index. -/
def unitOfGroup (g : Nat) : Option (Nat × Nat) :=
  if 1 ≤ g ∧ g ≤ 16 then some (0, g - 1) else if 41 ≤ g ∧ g ≤ 52 then some (1, g - 41)
  else if 55 ≤ g ∧ g ≤ 58 then some (4, g - 55) else none

/-- Words of a group (R298). -/
def groupWords (g : Nat) : Nat :=
  if g = 0 then 262144 else if g ≤ 16 then 655360 else if g ≤ 40 then 524288 else if g ≤ 52 then 65536
  else if g ≤ 54 then 1048576 else 262144

/-- The address that registers and records give for a word of a group (R286): a device address, or the byte offset. -/
def wordAddr (g w : Nat) : Nat :=
  if g = 0 then 8 * w
  else if g ≤ 16 then foldAddr (g - 1) (if w < 0x80000 then 8 * w else 0x800000 + 8 * (w - 0x80000))
  else if g ≤ 40 then pastureBase + 0x400000 * (g - 17) + 8 * w
  else if g ≤ 52 then mceBase + 0x100000 * (g - 41) + 8 * w
  else if g ≤ 58 then 8 * w else 0

/-- Spare words of a group (R286). -/
def spareCount (g : Nat) : Nat := if 1 ≤ g ∧ g ≤ 16 then 4 else 8

/-! ### The SRAM code -/

/-- Number of ones in the low eight bits. -/
def weight8 (n : Nat) : Nat := ((List.range 8).filter fun i => n.testBit i).length

/-- The columns h_0 to h_63 of the data bits (R288). -/
def eccCols : List Nat := ((List.range 256).filter fun n => weight8 n == 3) ++ [0x1F, 0x2F, 0x37, 0x3B, 0x3D, 0x3E, 0x4F, 0x57]

/-- The check byte of 64 data bits (R288). -/
def checkByte (data : Nat) : Nat := (List.range 64).foldl (fun c i => if data.testBit i then c ^^^ eccCols.getD i 0 else c) 0

/-- The syndrome of a pattern of flipped codeword bits: data bits 0–63, check bits 64–71. -/
def syndrome (flips : Nat) : Nat := checkByte (flips % 2 ^ 64) ^^^ (flips / 2 ^ 64)

/-- What the checker makes of a word. -/
inductive Checked where
  /-- Data bits that still differ from the data written. -/
  | clean (wrong : Nat)
  | corrected (wrong syn : Nat)
  | uncorrectable (syn : Nat)
  deriving DecidableEq, Repr

/-- The checker's action on a pattern of flipped bits (R288). -/
def checkWord (flips : Nat) : Checked :=
  let s := syndrome flips
  let d := flips % 2 ^ 64
  if s = 0 then .clean d
  else if weight8 s = 1 then .corrected d s
  else match (List.range 64).find? fun i => eccCols.getD i 0 == s with
    | some i => .corrected (d ^^^ 2 ^ i) s
    | none => .uncorrectable s

/-! ### The DDR code -/

/-- Multiplication by α in GF(2^8) with x^8 + x^4 + x^3 + x^2 + 1 (R289). -/
def gfTimesAlpha (x : Nat) : Nat := if x < 128 then 2 * x else (2 * x) % 256 ^^^ 0x1D

/-- Multiplication by α^j. -/
def gfAlphaPow : Nat → Nat → Nat
  | 0, x => x
  | j + 1, x => gfAlphaPow j (gfTimesAlpha x)

/-- The error symbol of device `d` in codeword `w` (R289). -/
def ddrSymbol (flips d w : Nat) : Nat := bitsOf flips (64 * d + 8 * w) 8

/-- Decoding of codeword `w`: `none` is uncorrectable, else the device corrected, if any, and its correction (R290). -/
def ddrCodeword (flips w : Nat) : Option (Option (Nat × Nat)) :=
  let s0 := (List.range 10).foldl (fun a d => a ^^^ ddrSymbol flips d w) 0
  let s1 := (List.range 10).foldl (fun a d => a ^^^ gfAlphaPow (9 - d) (ddrSymbol flips d w)) 0
  if s0 = 0 ∧ s1 = 0 then some none
  else if s0 = 0 ∨ s1 = 0 then none
  else ((List.range 10).find? fun j => gfAlphaPow j s0 == s1).map fun j => some (9 - j, s0)

/-- The DDR checker's action on a line (R290): the remaining flips and the device corrected. -/
def checkLine (flips : Nat) : Option (Nat × Option Nat) :=
  let rs := (List.range 8).map fun w => (w, ddrCodeword flips w)
  if rs.any fun r => r.2.isNone then none else
    let fixes := rs.filterMap fun r => match r.2 with
      | some (some (d, e)) => some (r.1, d, e)
      | _ => none
    match fixes with
    | [] => some (flips, none)
    | (_, d0, _) :: _ =>
      if fixes.all fun f => f.2.1 == d0 then
        some (fixes.foldl (fun m f => m ^^^ f.2.2 * 2 ^ (64 * f.2.1 + 8 * f.1)) flips, some d0)
      else none

/-- The flipped bits of line byte `i` (R289). -/
def ddrByteFlips (flips i : Nat) : Nat :=
  let b := i / 4
  let lo := bitsOf flips (64 * (2 * (i % 4)) + 4 * b) 4
  let hi := bitsOf flips (64 * (2 * (i % 4) + 1) + 4 * b) 4
  lo + 16 * hi

/-! ### Tracking and remapping -/

/-- Key of a word in the table of flipped bits. -/
def flipKey (g w : Nat) : Nat := 2 ^ 21 * g + w

/-- Flipped bits of a word. -/
def State.flips (s : State) (g w : Nat) : Nat := SMap.get zeroNat s.ecc.flips (flipKey g w)

/-- Flipped bits of a word replaced. -/
def State.setFlips (s : State) (g w v : Nat) : State :=
  { s with ecc := { s.ecc with flips := SMap.set zeroNat s.ecc.flips (flipKey g w) v } }

/-- MEM_ECC_LAST after an error (R310). -/
def State.eccLast (s : State) (uncorr : Bool) (group syn addr : Nat) : State :=
  s.wr .MEM_ECC_LAST (BitVec.ofNat 64
    (2 ^ 63 + (if uncorr then 2 ^ 62 else 0) + 2 ^ 56 * (group % 64) + 2 ^ 48 * (syn % 256) + addr % 2 ^ 48))

/-- The tracking entry that makes room when the table is full: the oldest with COUNT 1, else the oldest (R291). -/
def victim (ts : List Track) : Option Track :=
  let oldest (l : List Track) : Option Track :=
    l.foldl (fun m t => match m with
      | some u => if t.stamp < u.stamp then some t else some u
      | none => some t) none
  match oldest (ts.filter fun t => t.count == 1) with
  | some t => some t
  | none => oldest ts

/-- A hard fault of a word (R292): copied to a spare word, or REMAP_TABLE_FULL, once for the group. -/
def State.hardFault (s : State) (g w : Nat) : State :=
  let used := (s.ecc.remap.filter fun r => r.group == g).map (·.entry)
  match (List.range (spareCount g)).find? fun e => !used.contains e with
  | some e =>
    let remap := s.ecc.remap.map fun (r : Remap) => if r.group = g ∧ r.word = w then { r with retired := true } else r
    let s1 := { s with ecc := { s.ecc with
      remap := remap ++ [(⟨g, e, w, false⟩ : Remap)]
      track := s.ecc.track.filter fun t => !(t.group == g && t.word == w) } }
    ((s1.setFlips g w 0).setFld (.MEM_GRP g) Fld.MEM_GRP_REMAP_USED (used.length + 1)).record
      { code := 0x11, cls := 8, phys := g, addr := wordAddr g w }
  | none =>
    let s1 := { s with ecc := { s.ecc with
      stamp := s.ecc.stamp + 1
      track := s.ecc.track.map fun (t : Track) =>
        if t.group = g ∧ t.word = w then { t with age := 0, stamp := s.ecc.stamp } else t } }
    if s.ecc.full.contains g then s1 else
      let s2 := { s1 with ecc := { s1.ecc with full := s1.ecc.full ++ [g] } }
      let s3 := match unitOfGroup g with
        | some u => { s2 with flt := { s2.flt with barDue := s2.flt.barDue ++ [u] } }
        | none => s2
      s3.record { code := 0x12, cls := 8, phys := g, addr := wordAddr g w, detail := g }

/-- A corrected read of a word is tracked (R291). -/
def State.trackCorrection (s : State) (g w : Nat) : State :=
  let mine := s.ecc.track.filter fun t => t.group == g
  match mine.find? fun t => t.word == w with
  | some t =>
    if t.count ≥ 2 then s.hardFault g w else
      { s with ecc := { s.ecc with
        stamp := s.ecc.stamp + 1
        track := s.ecc.track.map fun (u : Track) =>
          if u.group = g ∧ u.word = w then { u with count := u.count + 1, age := 0, stamp := s.ecc.stamp } else u } }
  | none =>
    let kept := if mine.length < 16 then s.ecc.track else
      match victim mine with
      | some v => s.ecc.track.filter fun u => !(u.group == v.group && u.word == v.word)
      | none => s.ecc.track
    { s with ecc := { s.ecc with
      stamp := s.ecc.stamp + 1
      track := kept ++ [(⟨g, w, 1, 0, s.ecc.stamp⟩ : Track)] } }

/-- What follows a corrected read of an SRAM word: counted, latched and tracked (R288, R291, R310). -/
def State.noteCorrected (s : State) (g w syn : Nat) : State :=
  (((s.bump (.MEM_GRP g) Fld.MEM_GRP_CORR).eccLast false g syn (wordAddr g w)).trackCorrection g w)

/-- What follows an uncorrectable SRAM word: counted and latched (R294, R310). -/
def State.noteUncorrectable (s : State) (g w syn : Nat) : State :=
  ((s.bump (.MEM_GRP g) Fld.MEM_GRP_UNCORR).eccLast true g syn (wordAddr g w))

/-! ### Reads and writes through the codes -/

/-- An error that a read or write of memory met: the SRAM group, or 60 + channel, and the address. -/
structure MemErr where
  group : Nat
  addr : Nat
  /-- A partial write that was dropped. -/
  partial_ : Bool
  deriving DecidableEq, Repr

/-- Key of a DDR line. -/
def lineKey (c l : Nat) : Nat := 2 ^ 28 * c + l

/-- A corrected line counted and shown (R290); `dev` is the device in error, if any. -/
def State.noteDevice (s : State) (c : Nat) (dev : Option Nat) (a : Nat) : State :=
  match dev with
  | some d => (s.setFld (.MEM_DDR_DEV c) ⟨6 * d, 6⟩ (satAdd 63 (s.fld (.MEM_DDR_DEV c) ⟨6 * d, 6⟩) 1)).eccLast false (60 + c) d (a / 64 * 64)
  | none => s

/-- One byte read through its word's or line's code. -/
def State.readByte (s : State) (a : Nat) : Option Byte × State × List MemErr :=
  match s.place a with
  | .sram g w =>
    match checkWord (s.flips g w) with
    | .clean wrong => (some (s.mem.read a ^^^ BitVec.ofNat 8 (bitsOf wrong (8 * (a % 8)) 8)), s, [])
    | .corrected wrong syn =>
      (some (s.mem.read a ^^^ BitVec.ofNat 8 (bitsOf wrong (8 * (a % 8)) 8)), s.noteCorrected g w syn, [])
    | .uncorrectable syn => (none, s.noteUncorrectable g w syn, [⟨g, wordAddr g w, false⟩])
  | .ddr c l =>
    let f := SMap.get zeroNat s.ecc.ddrFlips (lineKey c l)
    match checkLine f with
    | some (left, dev) =>
      (some (s.mem.read a ^^^ BitVec.ofNat 8 (ddrByteFlips left (a % 64))), s.noteDevice c dev a, [])
    | none => (none, s.eccLast true (60 + c) 0 (a / 64 * 64), [⟨60 + c, a / 64 * 64, false⟩])
  | _ => (some 0, s, [])

/-- Bytes that share an SRAM word or a DDR line with the byte at `a`, from `a` on. -/
def State.granule (s : State) (a : Nat) : Nat :=
  match s.place a with
  | .ddr _ _ => 64 - a % 64
  | _ => 8 - a % 8

/-- A byte of memory as its array holds it when its word's error is already known to be correctable: the pure part of
`readByte`. -/
def State.peek (s : State) (a : Nat) : Option Byte := (s.readByte a).1

/-- `n` bytes read from device address `a`: the bytes, or `none` after an uncorrectable error, and each word or line is
checked and tracked once (R288, R290, R294). -/
def State.readMem (s : State) (a : Nat) : Nat → Nat → Option (List Byte) × State × List MemErr
  | 0, _ => (some [], s, [])
  | _, 0 => (some [], s, [])
  | fuel + 1, n =>
    let g := min n (s.granule a)
    let r := s.readByte a
    let bytes := (List.range g).map fun i => s.peek (a + i)
    let rest := State.readMem r.2.1 (a + g) fuel (n - g)
    let here := if r.1.isSome then some (bytes.map fun b => b.getD 0) else none
    (match here, rest.1 with
      | some x, some y => some (x ++ y)
      | _, _ => none, rest.2.1, r.2.2 ++ rest.2.2)

/-- The flips that a whole write of a word stores: none, or those that MEM_INJECT has armed for it (R310). -/
def State.injected (s : State) (g w : Nat) : Option Nat :=
  if s.fld .MEM_INJECT Fld.MEM_INJECT_ARM = 1 ∧ s.fld .MEM_INJECT Fld.MEM_INJECT_GROUP = g
      ∧ s.fld .MEM_INJECT Fld.MEM_INJECT_WORD = w then
    let fa := 2 ^ s.fld .MEM_INJECT Fld.MEM_INJECT_BIT_A % 2 ^ 72
    let fb := if s.fld .MEM_INJECT Fld.MEM_INJECT_DOUBLE = 1 then 2 ^ s.fld .MEM_INJECT Fld.MEM_INJECT_BIT_B % 2 ^ 72 else 0
    some (fa ^^^ fb)
  else none

/-- A word rewritten with a fresh codeword: its flips end, or are those injected (R294, R310). -/
def State.freshWord (s : State) (g w : Nat) : State :=
  match s.injected g w with
  | some f => (s.setFlips g w f).setFld .MEM_INJECT Fld.MEM_INJECT_ARM 0
  | none => s.setFlips g w 0

/-- Bytes written within one word or line at `a` (R294): a narrower write needs the old data and is dropped when they are
uncorrectable. -/
def State.writeGranule (s : State) (a : Nat) (bs : List Byte) : State × List MemErr :=
  match s.place a with
  | .sram g w =>
    if bs.length = 8 then ({ s with mem := s.mem.writeBytes a bs }.freshWord g w, [])
    else match checkWord (s.flips g w) with
      | .clean _ => ({ s with mem := s.mem.writeBytes a bs }.freshWord g w, [])
      | .corrected _ syn => (({ s with mem := s.mem.writeBytes a bs }.noteCorrected g w syn).freshWord g w, [])
      | .uncorrectable syn =>
        (((s.noteUncorrectable g w syn).bump (.MEM_GRP g) Fld.MEM_GRP_PARTIAL_DROP), [⟨g, wordAddr g w, true⟩])
  | .ddr c l =>
    let done := { s with
      mem := s.mem.writeBytes a bs
      ecc := { s.ecc with ddrFlips := SMap.set zeroNat s.ecc.ddrFlips (lineKey c l) 0 } }
    if bs.length = 64 then (done, [])
    else match checkLine (SMap.get zeroNat s.ecc.ddrFlips (lineKey c l)) with
      | some (_, dev) => (done.noteDevice c dev a, [])
      | none => (s.eccLast true (60 + c) 0 (a / 64 * 64), [⟨60 + c, a / 64 * 64, true⟩])
  | _ => (s, [])

/-- A byte string written at device address `a`, word by word and line by line. -/
def State.writeMem (s : State) (a : Nat) : Nat → List Byte → State × List MemErr
  | 0, _ => (s, [])
  | _, [] => (s, [])
  | fuel + 1, bs =>
    let g := min bs.length (s.granule a)
    let r := s.writeGranule a (bs.take g)
    let rest := State.writeMem r.1 (a + g) fuel (bs.drop g)
    (rest.1, r.2 ++ rest.2)

/-- Bytes as software placed them, without checks: what a unit's own model reads where no error can be reported. -/
def State.raw (s : State) (a n : Nat) : List Byte := s.mem.readBytes a n

end Sys2Proof.Machine
end

