-- ==== Sys2Proof/Machine/NetOps.lean ====
section
/-!
DEFINITION. The on-chip network as data: topology and links (R260, R261, R262), route tables and routes (R265 to R268), wheel
profiles (R271, R272, R276), responses, and the absorption of packets for an isolated interface (R280).
-/
namespace Sys2Proof.Machine

/-! ### Packet types and status codes (R264) -/

def pktRead : Nat := 0
def pktWrite : Nat := 1
def pktWriteAck : Nat := 2
def pktReadResp : Nat := 3
def pktWriteResp : Nat := 4

def stOk : Nat := 0
def stIsolated : Nat := 1
def stDecode : Nat := 2
def stEcc : Nat := 3
def stRefused : Nat := 4

/-! ### Topology -/

/-- A router: a Fold router F(n) or a hub H(h). -/
inductive Router where
  | fold (n : Nat)
  | hub (h : Nat)
  deriving DecidableEq, Repr

/-- The router and port to which an NI is attached (R262). -/
def niPort (n : Nat) : Router × Nat :=
  if n < 16 then (.fold n, 0)
  else if n < 40 then (.hub ((n - 16) / 3), 5 + (n - 16) % 3)
  else if n < 52 then (.hub ((n - 40) / 2), 8 + (n - 40) % 2)
  else if n < 56 then (.hub (n - 52), 10)
  else if n = 56 then (.hub 4, 12)
  else if n = 57 then (.hub 5, 12)
  else if n < 66 then (.hub ((n - 58) / 2), 11 + (n - 58) % 2)
  else if n < 70 then (.hub (4 + (n - 66) / 2), 10 + (n - 66) % 2)
  else if n < 74 then (.hub (6 + (n - 70) / 2), 8 + (n - 70) % 2)
  else if n = 74 then (.hub 6, 10)
  else if n = 75 then (.hub 6, 11)
  else if n = 76 then (.hub 7, 10)
  else if n = 77 then (.hub 7, 11)
  else (.hub 7, 12)

/-- The NI at a router's port, if one is attached. -/
def portNi (r : Router) (p : Nat) : Option Nat := (List.range 79).find? fun n => niPort n == (r, p)

/-- The neighbour that a router's port leads to, and the link's index (R260, R261). -/
def neighbour : Router → Nat → Option (Router × Nat)
  | .fold n, p =>
    if p = 1 ∧ n % 8 ≠ 0 then some (.fold (n - 1), 2 * (if n < 8 then n - 1 else n - 2) + 1)
    else if p = 2 ∧ n % 8 ≠ 7 ∧ n < 16 then some (.fold (n + 1), 2 * (if n < 8 then n else n - 1))
    else if p = 3 ∧ n < 8 then some (.hub n, 2 * (25 + n))
    else if p = 3 ∧ n < 16 then some (.hub (n - 8), 2 * (33 + (n - 8)))
    else none
  | .hub h, p =>
    if p = 0 ∧ 0 < h then some (.hub (h - 1), 2 * (14 + h - 1) + 1)
    else if p = 1 ∧ h < 7 then some (.hub (h + 1), 2 * (14 + h))
    else if p = 2 ∧ h ≤ 3 then some (.hub (h + 4), 2 * (21 + h))
    else if p = 2 ∧ h < 8 then some (.hub (h - 4), 2 * (21 + h - 4) + 1)
    else if p = 3 ∧ h < 8 then some (.fold h, 2 * (25 + h) + 1)
    else if p = 4 ∧ h < 8 then some (.fold (8 + h), 2 * (33 + h) + 1)
    else none

/-- Injection link of an NI (R261). -/
def injectLink (n : Nat) : Nat := 82 + 2 * n
/-- Ejection link of an NI (R261). -/
def ejectLink (n : Nat) : Nat := 83 + 2 * n

/-! ### Route tables -/

/-- Ports from hub `a` to hub `b`: the express link first when they are four or more apart, then the chain (R266). -/
def hubPorts (a b : Nat) : List Nat :=
  let far := decide (a + 4 ≤ b) || decide (b + 4 ≤ a)
  let a1 := if far then (if a ≤ 3 then a + 4 else a - 4) else a
  (if far then [2] else []) ++ (if a1 ≤ b then List.replicate (b - a1) 1 else List.replicate (a1 - b) 0)

/-- Ports of the built-in route from NI `n` to NI `d` (R266). -/
def builtinPorts (n d : Nat) : List Nat :=
  let hubOf (r : Router) : Nat := match r with
    | .fold f => f % 8
    | .hub h => h
  let src := niPort n
  let dst := niPort d
  (match src.1 with
    | .fold _ => [3]
    | .hub _ => [])
  ++ hubPorts (hubOf src.1) (hubOf dst.1)
  ++ (match dst.1 with
    | .fold f => [if f < 8 then 3 else 4]
    | .hub _ => [])
  ++ [dst.2]

/-- A route word: nibble i is the port taken at the i-th router (R265). -/
def routeWord : List Nat → Nat
  | [] => 0
  | p :: ps => p % 16 + 16 * routeWord ps

/-- Entry `e` of the route table of NI `n` at reset (R266). -/
def builtinEntry (n e : Nat) : Word :=
  if e < 79 ∧ e ≠ n then
    let ps := builtinPorts n e
    BitVec.ofNat 64 (2 ^ 63 + 2 ^ 48 * e + 2 ^ 32 * (ps.length - 1) + routeWord ps)
  else 0

/-- What an unlisted route table word reads as; the key is 256 NI + entry. -/
def rtDefault (k : Nat) : Word := builtinEntry (k / 256) (k % 256)

/-- An entry of an NI's route table. -/
def State.rtEntry (s : State) (ni e : Nat) : Word := SMap.get rtDefault s.noc.rt (256 * ni + e % 256)

/-- An entry of an NI's route table replaced. -/
def State.setRtEntry (s : State) (ni e : Nat) (v : Word) : State :=
  { s with noc := { s.noc with rt := SMap.set rtDefault s.noc.rt (256 * ni + e % 256) v } }

/-! ### Wheel profiles -/

/-- The template of the current tick. -/
def State.template (s : State) : Nat := calendarAt s.active s.calIndex

/-- Whether the active almanac runs: it has started (R431), and no restart after a halt is pending (R465). -/
def State.almRuns (s : State) : Bool := s.bit .SYS_READY 6 && s.dbg.restart.isNone

/-- The wheel records in force in core cycle `c`: those of the tick's profile, outside the guard (R271). -/
def State.wheelAt (s : State) (c : Nat) : List Nat :=
  if !s.almRuns || decide (13300 ≤ c) then [] else
    let p := templateWheel s.active s.template
    if p = 0xFF then [] else (secRecords s.active 5 8).filter fun w => bitsOf w 56 8 == p

/-- Whether a wheel record is one of a flow. -/
def wheelFlow (w srcNi ridx : Nat) : Bool := bitsOf w 25 8 == srcNi && bitsOf w 17 8 == ridx

/-- Whether the records of an NI carry anything: not those of a dead unit or of an isolated NI (R276, R281). -/
def State.wheelLives (s : State) (srcNi : Nat) : Bool := !s.isolated srcNi && !s.niDead srcNi

/-- Whether a flow has a record of the profile in force (R272). -/
def State.isGtFlow (s : State) (srcNi ridx : Nat) : Bool :=
  let mine := (s.wheelAt s.tm.cycle).filter fun w => wheelFlow w srcNi ridx
  !mine.isEmpty && s.wheelLives srcNi

/-- Whether link `l` has a slot for a flow in the profile in force (R272). -/
def State.linkSlot (s : State) (c l srcNi ridx : Nat) : Bool :=
  let mine := (s.wheelAt c).filter fun w => bitsOf w 48 8 == l && wheelFlow w srcNi ridx
  !mine.isEmpty && s.wheelLives srcNi

/-- Whether a flow owns the slot of link `l` in core cycle `c` of the tick (R271, R272). -/
def State.ownsSlot (s : State) (c l srcNi ridx : Nat) : Bool :=
  let mine := (s.wheelAt c).filter fun w => bitsOf w 48 8 == l && wheelFlow w srcNi ridx
    && decide (bitsOf w 41 7 ≤ c % 128) && decide (c % 128 < bitsOf w 41 7 + bitsOf w 33 8)
  !mine.isEmpty && s.wheelLives srcNi

/-- The entry that source NI `ni` chooses for a request to target `d` (R267). -/
def State.chooseEntry (s : State) (ni d : Nat) : Nat :=
  ((List.range 177).map (79 + ·)).find? (fun e =>
    let w := (s.rtEntry ni e).toNat
    w.testBit 63 && bitsOf w 48 8 == d && s.isGtFlow ni e) |>.getD d

/-! ### Routes of packets -/

/-- The links that a route word takes from a router, and the NI that it ejects at; the nibble at index `last` must name an NI
port (R265, R268). -/
def walk : Nat → Router → Nat → Nat → Nat → List Nat × Option Nat
  | 0, _, _, _, _ => ([], none)
  | fuel + 1, r, route, hop, last =>
    let p := bitsOf route (4 * hop) 4
    match neighbour r p, portNi r p with
    | some (r', l), _ =>
      if hop = last then ([], none) else
        let rest := walk fuel r' route (hop + 1) last
        (l :: rest.1, rest.2)
    | none, some n => ([ejectLink n], some n)
    | none, none => ([], none)

/-- The links that a packet crosses and the NI at which it is ejected. -/
def State.pathOf (s : State) (p : Packet) : List Nat × Option Nat :=
  let src := p.src.toNat
  let last := bitsOf (s.rtEntry src p.ridx.toNat).toNat 32 3
  let w := walk 9 (niPort src).1 p.route.toNat p.hop.toNat last
  (injectLink src :: w.1, w.2)

/-- The header flit (R264). -/
def packetHeader (p : Packet) : BitVec 256 :=
  p.route ++ p.hop ++ p.ch ++ p.type ++ p.src ++ p.dst ++ p.ridx ++ p.tag ++ p.len ++ p.status ++ BitVec.ofBool p.space ++ p.rsvd ++ p.addr

/-- The flits of a packet: its header, and its data, 32 bytes to a flit. -/
def packetWords (p : Packet) : List (BitVec 256) :=
  packetHeader p :: (List.range (if p.type.toNat = pktRead then 0 else ceilDiv p.data.length 32)).map fun i =>
    BitVec.ofNat 256 (leNat (slice p.data (32 * i) 32))

/-- Flits of a packet: a header, and data flits of 32 bytes (R264). -/
def packetFlits (p : Packet) : Nat :=
  if p.type.toNat = pktRead then 1 else 1 + ceilDiv p.data.length 32

/-! ### Counters and responses -/

/-- NOC_CNT counters (R285). -/
def cntWrDropped : Nat := 0
def cntErrResp : Nat := 1
def cntWakes : Nat := 2
def cntGtMiss : Nat := 3
def cntRouteErr : Nat := 4
def cntRespAbsorbed : Nat := 5

/-- A counter of NOC_CNT. -/
def State.nocCount (s : State) (k : Nat) : State := s.tally (.NOC_CNT k)

/-- NOC_ERR_LAST after a packet dropped or answered in error (R285). -/
def State.lastErr (s : State) (src dst type status : Nat) : State :=
  s.wr .NOC_ERR_LAST (BitVec.ofNat 64
    (2 ^ 56 * (src % 2 ^ 8) + 2 ^ 48 * (dst % 2 ^ 8) + 2 ^ 44 * (type % 16) + 2 ^ 41 * (status % 8) + 2 ^ 40))

/-- The same of a packet. -/
def State.nocErr (s : State) (p : Packet) (status : Nat) : State := s.lastErr p.src.toNat p.dst.toNat p.type.toNat status

/-- Whether a packet is a request that its target answers. -/
def packetAnswered (p : Packet) : Bool := p.type.toNat == pktRead || p.type.toNat == pktWriteAck

/-- The response to a request: sent back by way of the entry of the requester's NI number (R267). -/
def State.responseTo (s : State) (p : Packet) (status : Nat) (data : List Byte) : Packet :=
  let e := s.rtEntry p.dst.toNat p.src.toNat
  { route := e.extractLsb' 0 32
    hop := 0
    ch := if s.isGtFlow p.dst.toNat p.src.toNat then 0 else 2
    type := if p.type.toNat = pktRead then 3 else 4
    src := p.dst
    dst := p.src
    ridx := p.src
    tag := p.tag
    len := if data = [] then 0 else BitVec.ofNat 8 (data.length - 1)
    status := BitVec.ofNat 3 status
    space := p.space
    rsvd := 0
    addr := p.addr
    data := data }

/-- Whether a packet is a response. -/
def isResponse (p : Packet) : Bool := p.type.toNat == pktReadResp || p.type.toNat == pktWriteResp

/-! ### Packets in the network, flit by flit (R265, R269, R272) -/

/-- A packet as it enters the network at its source NI, or at the router there. -/
def State.wormOf (s : State) (p : Packet) (gt fromRouter : Bool) : Worm :=
  let path := s.pathOf p
  let links := if fromRouter then path.1.drop 1 else path.1
  { pkt := p, links := links, eject := path.2, be := if gt then links.length else 0, left := packetFlits p
    bufs := links.map fun _ => [], crossed := links.map fun _ => 0, held := 0, sink := false }

/-- Flits in the GT queue of an NI (R274). -/
def State.gtQueued (s : State) (ni : Nat) : Nat :=
  ((s.noc.flight.filter fun w => w.pkt.src.toNat == ni && decide (0 < w.be)).map (·.left)).sum

/-- A packet put into the network; a guaranteed one that does not fit in the queue of its NI goes as best effort (R274). An isolated NI
injects nothing (R281). -/
def State.sendPacket (s : State) (p : Packet) (fromRouter : Bool := false) : State :=
  if s.isolated p.src.toNat ∧ !fromRouter then s else
    let gt := p.ch == 0 && decide (s.gtQueued p.src.toNat + packetFlits p ≤ 32)
    { s with noc := { s.noc with flight := s.noc.flight ++ [s.wormOf p gt fromRouter] } }

/-- The channel on which a packet takes the link at place `i` of its route: 0 GT, 1 BE request, 2 BE response. -/
def Worm.channel (w : Worm) (i : Nat) : Nat := if i < w.be then 0 else if isResponse w.pkt then 2 else 1

/-- Cycle at which the first flit that waits for the link at place `i` came there; 0 at the source. -/
def Worm.front (w : Worm) (i : Nat) : Option Nat :=
  if i = 0 then (if w.left = 0 then none else some 0) else (w.bufs.getD (i - 1) []).head?

/-- Whether a flit may take the link at place `i` in absolute core cycle `t`: a guaranteed one no earlier than 3 cycles after it came
(R272). -/
def Worm.ready (w : Worm) (i t : Nat) : Bool :=
  match w.front i with
  | none => false
  | some a => i == 0 || (if i < w.be then decide (a + 3 ≤ t) else decide (a < t))

/-- Whether the packet has crossed all its links. -/
def Worm.done (w : Worm) : Bool := w.crossed.getLastD (packetFlits w.pkt) == packetFlits w.pkt

/-- Whether a packet stands in front of `w` in the buffer, or the queue, from which place `i` is fed: one of its channel, and for a
guaranteed packet of its flow. -/
def Worm.behind (w : Worm) (i : Nat) (earlier later : List Worm) : Bool :=
  let alike (v : Worm) (k : Nat) : Bool := v.channel k == w.channel i
    && (w.channel i != 0 || (v.pkt.src == w.pkt.src && v.pkt.ridx == w.pkt.ridx))
  if i = 0 then earlier.any fun v => v.links.head? == w.links.head? && alike v 0 && decide (0 < v.left)
  else (earlier ++ later).any fun v => (List.range v.links.length).any fun k =>
    decide (0 < k) && v.links[k - 1]? == w.links[i - 1]? && alike v k && (match v.front k, w.front i with
      | some a, some b => decide (a < b)
      | _, _ => false)

/-- Flits of a channel in the buffer behind link `l`. -/
def bufferFill (ws : List Worm) (l ch : Nat) : Nat :=
  (ws.map fun w => ((List.range w.links.length).map fun k =>
    if w.links.getD k 0 = l ∧ w.channel k = ch then (w.bufs.getD k []).length else 0).sum).sum

/-- Whether place `i` of a packet's route is its last, where it leaves the network. -/
def Worm.ends (w : Worm) (i : Nat) : Bool := i + 1 == w.links.length

/-- Whether there is room behind the link at place `i`: 8 flits of GT, 16 of a BE channel (R269). What leaves the network needs none. -/
def Worm.room (w : Worm) (i : Nat) (ws : List Worm) : Bool :=
  w.ends i || decide (bufferFill ws (w.links.getD i 0) (w.channel i) < if w.channel i = 0 then 8 else 16)

/-- Whether the link at place `i` lets the packet pass: an ejection link only to a target whose domain is ON, or into the router of an
isolated one (R278, R280). -/
def State.passes (s : State) (w : Worm) (i : Nat) : Bool :=
  !w.ends i || (match w.eject with
    | some n => w.sink || decide (0 < w.crossed.getD i 0) || s.isolated n || s.domOpen (domainOfNi n)
    | none => true)

/-- The port of its router at which link `l` arrives. -/
def inPort (l : Nat) : Nat :=
  if 82 ≤ l then (niPort ((l - 82) / 2)).2 else
    let routers := (List.range 16).map Router.fold ++ (List.range 8).map Router.hub
    ((routers.flatMap fun r => (List.range 5).filterMap fun p => match neighbour r p with
      | some (r', k) => if k = l then (List.range 5).find? fun q => (neighbour r' q).map (·.1) == some r else none
      | none => none).head?).getD 0

/-- Input port from which place `i` of a packet's route is fed. -/
def Worm.inPort (w : Worm) (i : Nat) : Nat :=
  if i = 0 then (niPort w.pkt.src.toNat).2 else Sys2Proof.Machine.inPort (w.links.getD (i - 1) 0)

/-- Packets that could send a flit over link `l` in a channel: index in the list and place in the route. -/
def State.wanting (s : State) (ws : List Worm) (l ch t : Nat) : List (Nat × Nat) :=
  ws.zipIdx.flatMap fun w => (List.range w.1.links.length).filterMap fun i =>
    if w.1.links.getD i 0 = l ∧ w.1.channel i = ch ∧ w.1.ready i t ∧ !w.1.behind i (ws.take w.2) (ws.drop (w.2 + 1)) ∧ w.1.room i ws
        ∧ s.passes w.1 i then some (w.2, i) else none

/-- The flit that a best-effort channel of link `l` would send: of the packet that holds the channel until its last flit, else of the
next packet, round robin over the input ports (R269). -/
def State.bestEffort (s : State) (ws : List Worm) (l ch t : Nat) : Option (Nat × Nat) :=
  let holds (w : Worm) : Bool := (List.range w.links.length).any fun i =>
    w.links.getD i 0 == l && w.channel i == ch && decide (0 < w.crossed.getD i 0) && decide (w.crossed.getD i 0 < packetFlits w.pkt)
  let all := s.wanting ws l ch t
  let port (x : Nat × Nat) : Option Nat := ws[x.1]?.map fun w => w.inPort x.2
  match ws.findIdx? holds with
  | some j => all.find? fun x => x.1 == j
  | none =>
    let last := SMap.get zeroNat s.noc.lastIn (3 * l + ch)
    (List.range 16).findSome? fun k => all.find? fun x => port x == some ((last + k) % 16)

/-- The flit that link `l` carries in a cycle, core cycle `c` of the tick and `t` in all: a guaranteed one of the flow that owns the
slot, else a BE response, else a BE request (R269). -/
def State.linkChoice (s : State) (ws : List Worm) (l c t : Nat) : Option (Nat × Nat) :=
  ((s.wanting ws l 0 t).find? fun x => match ws[x.1]? with
    | some w => s.ownsSlot c l w.pkt.src.toNat w.pkt.ridx.toNat
    | none => false).orElse fun _ => (s.bestEffort ws l 2 t).orElse fun _ => s.bestEffort ws l 1 t

/-- A packet with one more flit over the link at place `i`. -/
def Worm.step (w : Worm) (i t : Nat) (sink : Bool) : Worm :=
  let bufs := if i = 0 then w.bufs else w.bufs.set (i - 1) ((w.bufs.getD (i - 1) []).drop 1)
  { w with
    left := if i = 0 then w.left - 1 else w.left
    bufs := if w.ends i then bufs else bufs.set i (bufs.getD i [] ++ [t])
    crossed := w.crossed.set i (w.crossed.getD i 0 + 1)
    sink := w.sink || sink }

/-- Link `l` in one core cycle. -/
def State.linkCycle (s : State) (c t l : Nat) : State :=
  match s.linkChoice s.noc.flight l c t with
  | none => s
  | some (j, i) => match s.noc.flight[j]? with
    | none => s
    | some w =>
      let gone := w.ends i && (match w.eject with
        | some n => w.sink || (s.isolated n && w.crossed.getD i 0 == 0)
        | none => false)
      let s1 := { s with noc := { s.noc with
        flight := s.noc.flight.set j (w.step i t gone)
        lastIn := if w.channel i = 0 ∨ w.crossed.getD i 0 ≠ 0 then s.noc.lastIn
          else SMap.set zeroNat s.noc.lastIn (3 * l + w.channel i) (w.inPort i + 1) } }
      if gone then s1
      else s1.bump (.NOC_LINK l) (if w.channel i = 0 then Fld.NOC_LINK_GT_FLITS else Fld.NOC_LINK_BE_FLITS)

/-- Guaranteed flits that reach a link without a slot for their flow, or that are still in the network in the guard, go on as best
effort and are counted (R273). -/
def State.demote (s : State) (c : Nat) : State :=
  s.noc.flight.zipIdx.foldl (fun t w =>
    let n := packetFlits w.1.pkt
    let at_ := if 13300 ≤ c then some 0 else
      (List.range w.1.be).find? fun i => (w.1.front i).isSome
        && !s.linkSlot c (w.1.links.getD i 0) w.1.pkt.src.toNat w.1.pkt.ridx.toNat
    match at_ with
    | some i => if w.1.be ≤ i then t else
        let left := n - (if 13300 ≤ c then w.1.crossed.getLastD n else w.1.crossed.getD i 0)
        { t with noc := { t.noc with flight := t.noc.flight.set w.2 { w.1 with be := i } } }.tally (.NOC_CNT cntGtMiss) left
    | none => t) s

/-- Packets that have come to the ejection link of a target whose domain is not ON: they wait for a wake, which is counted (R278). -/
def State.markHeld (s : State) (t : Nat) : State :=
  s.noc.flight.zipIdx.foldl (fun u w =>
    let i := w.1.links.length - 1
    let waits := w.1.held == 0 && w.1.ready i t && !s.passes w.1 i
    if waits then
      { u with noc := { u.noc with flight := u.noc.flight.set w.2 { w.1 with held := 1 } } }.nocCount cntWakes
    else u) s

/-- A request answered, or a posted write left without an answer; NOC_ERR_LAST tells of one dropped or answered in error (R285). A
response whose entry is not VALID is never sent (R267). `fromRouter`: a router answers in the target's place. -/
def State.respond (s : State) (p : Packet) (status : Nat) (data : List Byte) (fromRouter : Bool := false) : State :=
  let s1 := if status = stOk then s else s.nocErr p (if packetAnswered p then status else 0)
  if packetAnswered p ∧ (s1.rtEntry p.dst.toNat p.src.toNat).toNat.testBit 63 then s1.sendPacket (s1.responseTo p status data) fromRouter
  else s1

/-- A packet for an isolated NI absorbed by its router (R280). -/
def State.absorb (s : State) (p : Packet) : State :=
  let t := p.type.toNat
  if t = pktRead then (s.nocCount cntErrResp).respond p stIsolated [] true
  else if t = pktWriteAck ∨ t = pktWrite then (s.nocCount cntWrDropped).respond p stIsolated [] true
  else (s.nocCount cntRespAbsorbed).nocErr p 0

/-- A packet that no NI takes (R268). -/
def State.misrouted (s : State) (p : Packet) : State := (s.nocCount cntRouteErr).respond p stDecode [] true

/-- Packets that have crossed all their links leave the network: absorbed, misrouted, or ejected at their target. -/
def State.leaveNet (s : State) : State :=
  let out := s.noc.flight.filter Worm.done
  out.foldl (fun t w =>
    if w.sink then t.absorb w.pkt
    else if w.eject ≠ some w.pkt.dst.toNat then t.misrouted w.pkt
    else { t with noc := { t.noc with arrived := t.noc.arrived ++ [w.pkt] } })
    { s with noc := { s.noc with flight := s.noc.flight.filter fun w => !w.done } }

/-- The network in core cycle `c` of the tick. -/
def State.netCycle (s : State) (c : Nat) : State :=
  let t := 14000 * s.absTick + c
  let s1 := s.demote c
  let links := (s1.noc.flight.flatMap (·.links)).eraseDups
  ((links.foldl (fun u l => u.linkCycle c t l) s1).leaveNet).markHeld (t + 1)

/-- The network from core cycle `c` on, for some cycles. -/
def State.netRun : Nat → Nat → State → State
  | _, 0, s => s
  | c, n + 1, s => if s.noc.flight = [] then s else State.netRun (c + 1) n (s.netCycle c)

end Sys2Proof.Machine
end

