-- ==== Sys2Proof/Machine/Units.lean ====
section
/-!
DEFINITION. Engines and their work: queues, service order and dispatch (R59 to R63, R118, R192), what is discarded
(R446 to R448), freezing, death and job faults (R442 to R445, R450), and what an uncorrectable error does (R294).
-/
namespace Sys2Proof.Machine

/-! ### Releases -/

/-- A release that has neither run nor been dropped. -/
def Release.live (r : Release) : Bool := r.status == .held || r.status == .queued || r.status == .inService

/-- A release that is over as far as its dependants are concerned: complete or suppressed (R60). -/
def Release.over (r : Release) : Bool := r.status == .complete || r.status == .suppressed

/-- The pipeline of a release within its unit: an MCE is two engines that share a queue (R118). -/
def Release.lane (r : Release) : Nat := if r.eng.cls = 1 ∧ relOp r.word % 2 ^ 15 = 4 then 1 else 0

/-- Whether two releases need the same engine (R61, R118). -/
def Release.sameEngine (a b : Release) : Bool := a.eng == b.eng && a.lane == b.lane

/-- Whether a release is in service on an engine. -/
def State.busy (s : State) (r : Release) : Bool := s.drv.rels.any fun o => o.status == .inService && o.sameEngine r

/-- Whether the atomic flow of a release lets it be served now (R61). -/
def flowClear (rels : List Release) (r : Release) : Bool :=
  !relFlowEn r.word || rels.all fun o =>
    !(relFlowEn o.word && relFlow o.word == relFlow r.word && o.idx != r.idx
      && (o.status == .inService || (decide (o.idx < r.idx) && o.live)))

/-- Whether a queued release is eligible on a unit that can work (R61). -/
def State.eligible (s : State) (r : Release) : Bool :=
  r.status == .queued && flowClear s.drv.rels r && !s.unitDead r.eng.cls r.eng.phys

/-- Whether release `a` goes before `b` in the service order (R61). -/
def goesBefore (a b : Release) : Bool :=
  decide (relPrio a.word < relPrio b.word)
    || (relPrio a.word == relPrio b.word && (decide (a.arrival < b.arrival)
      || (a.arrival == b.arrival && decide (a.idx < b.idx))))

/-- The release that an engine would take at core cycle `t`, if any: of those that are eligible on a free engine, the first in the
service order of its engine. -/
def State.nextToServe (s : State) (t : Nat) : Option Release :=
  let ready := s.drv.rels.filter fun r => decide (r.arrival ≤ t) && s.eligible r && !s.busy r
  ready.find? fun r => ready.all fun o => !(o.sameEngine r && o.idx != r.idx && goesBefore o r)

/-- A release with its status replaced. -/
def State.setRel (s : State) (idx : Nat) (st : RelStatus) : State :=
  { s with drv := { s.drv with rels := s.drv.rels.map fun (r : Release) => if r.idx = idx then { r with status := st } else r } }

/-! ### Requests -/

/-- A held request by its identity. -/
def State.request (s : State) (id : Nat) : Option Request := s.drv.store.find? fun q => q.id == id

/-- Held requests changed. -/
def State.mapStore (s : State) (f : Request → Request) : State :=
  { s with drv := { s.drv with store := s.drv.store.map f } }

/-- Slot length of a cell in ticks. -/
def State.slotLen (s : State) (cell : Nat) : Nat := cfgSlotLen (s.cellCfg cell)

/-- The request entry that a filled release draws on. -/
def State.entryOf (s : State) (r : Release) : Option (List Byte) :=
  match r.req.bind s.request with
  | some q => q.entries[relFillIndex r.word]?
  | none => none

/-- The result of one entry of a held request changed. -/
def State.setResult (s : State) (id entry : Nat) (f : EntryResult → EntryResult) : State :=
  s.mapStore fun q => if q.id = id then { q with results := modifyAt q.results entry f } else q

/-- The requests that a release of the current tick touches (R447). -/
def State.touched (s : State) (r : Release) : List Nat :=
  match r.req with
  | some id => if (s.request id).isSome then [id] else []
  | none =>
    if r.eng.cls = 4 ∨ relFill r.word then [] else
      let start := slotNamed (s.slotLen (relCell r.word)) s.pos (relSlotOfs r.word)
      (s.drv.store.filter fun q => q.cell == relCell r.word && q.start == start).map (·.id)

/-- Whether a discarded release leaves the request's input replayable (R448). -/
def State.keepsInput (s : State) (q : Request) (r : Release) (pastureError : Bool) : Bool :=
  let len := s.slotLen q.cell
  q.dir == 1 && hasReplay s.active q.cell && !pastureError && !(r.eng.cls == 1 && relOp r.word == 2)
    && (match lastCombineLag s.active len q.start q.cell with
      | some l => decide (slotLag len r.calIdx (relSlotOfs r.word) > l)
      | none => false)

/-! ### Discarding -/

/-- The releases that fall with those that meet `bad`, in record order: dependants, and later releases of the same atomic
flow (R60, R446). -/
def spread (bad : Release → Bool) : List Release → List Release → List Release
  | acc, [] => acc
  | acc, r :: rs =>
    let falls := r.live && (bad r
      || (relDepEn r.word && acc.any fun o => o.idx == relDep r.word && o.status == .discarded)
      || (relFlowEn r.word && acc.any fun o =>
          relFlowEn o.word && relFlow o.word == relFlow r.word && o.status == .discarded))
    spread bad (acc ++ [if falls then { r with status := .discarded } else r]) rs

/-- The releases that are discarded in one list and live in the other. -/
def newlyDiscarded (before after : List Release) : List Release :=
  (before.zip after).filterMap fun p => if p.1.live && p.2.status == .discarded then some p.1 else none

/-- Repeats `spread` until the releases that fill from a discarded request have fallen too: the releases that remain and
the identities of the requests touched. -/
def State.discardLoop (s : State) : Nat → (Release → Bool) → List Nat → List Release → List Release × List Nat
  | 0, _, ids, rels => (rels, ids)
  | fuel + 1, bad, ids, rels =>
    let after := spread bad [] rels
    let fresh := ((newlyDiscarded rels after).flatMap s.touched).filter fun i => !ids.contains i
    if fresh = [] then (after, ids) else
      let ids' := ids ++ fresh.eraseDups
      State.discardLoop s fuel (fun r => bad r || (match r.req with | some i => ids'.contains i | none => false)) ids' after

/-- The downlink symbols whose precoding a discarded release would have done (R109): cell, slot position, first symbol, count. -/
def State.zeroSymbols (s : State) (r : Release) : List (Nat × Nat × Nat × Nat) :=
  if r.eng.cls = 1 ∧ relOp r.word = 3 then
    let d := s.raw (pastureBase + relArg r.word) 64
    [(relCell r.word, slotNamed (s.slotLen (relCell r.word)) s.pos (relSlotOfs r.word), leAt d 8 1, leAt d 9 1)]
  else []

/-- The bank that a release of the PRA class names (R143): engine, entry, FDM occasion and format select. -/
def bankKey (r : Release) : Nat × Nat × Nat × Nat :=
  (r.eng.phys, bitsOf (relArg r.word) 0 6, bitsOf (relArg r.word) 6 3, bitsOf (relArg r.word) 9 1)

/-- What names a bank. -/
def Bank.key (b : Bank) : Nat × Nat × Nat × Nat := (b.eng, b.entry, b.fdm, b.sel)

/-- Status flags of the unit when a release is taken. -/
def State.markBusy (s : State) (r : Release) (b : Bool) : State :=
  let n := if b then 1 else 0
  match r.eng.cls with
  | 1 => s.setFld (.MCE_STATUS r.eng.phys)
      (if r.lane = 1 then Fld.MCE_STATUS_DEMAP_BUSY else Fld.MCE_STATUS_ARRAY_BUSY) n
  | 2 => s.setFld (.DEC_UID_STATUS r.eng.phys) Fld.DEC_UID_STATUS_BUSY n
  | 3 => s.setFld (.DEC_ENC_STATUS r.eng.phys) Fld.DEC_ENC_STATUS_BUSY n
  | 5 => s.setFld (.MOV_ENG r.eng.phys) Fld.MOV_ENG_BUSY n
  | _ => s

/-- The results of a request as a discard finds them: an entry all of whose releases have completed carries its own (R449). -/
def State.ownResults (s : State) (q : Request) : List EntryResult :=
  q.results.zipIdx.map fun p =>
    let planned := (slotLags s.active (s.slotLen q.cell) q.start q.cell fun w =>
      relFill w && relReplay w == q.replay && relFillIndex w == p.2).length
    { p.1 with own := decide (0 < planned) && decide (planned ≤ p.1.fills) }

/-- Work discarded (R446): the releases that meet `bad` with all that falls with them, and the requests that they touch.
Answers the numbers of requests and releases. -/
def State.discard (s : State) (bad : Release → Bool) (pastureError : Bool) : State × Nat × Nat :=
  let r := s.discardLoop (s.drv.rels.length + 1) bad [] s.drv.rels
  let gone := newlyDiscarded s.drv.rels r.1
  let store := s.drv.store.map fun (q : Request) =>
    if r.2.contains q.id then
      let mine := gone.filter fun o => (s.touched o).contains q.id
      let ok := mine.all fun o => s.keepsInput q o pastureError
      { q with discarded := some (ok && q.discarded.getD true), discardedAt := s.absTick, results := s.ownResults q }
    else q
  let s1 := (gone.filter fun o => o.status == .inService).foldl (fun t o => t.markBusy o false) s
  ({ s1 with
     drv := { s.drv with rels := r.1, store := store }
     pra := { s.pra with banks := s.pra.banks.filter fun b => !gone.any fun o => o.eng.cls == 4 && b.key == bankKey o }
     fh := { s.fh with zero := s.fh.zero ++ gone.flatMap s.zeroSymbols } }, r.2.length, gone.length)

/-! ### Dispatch to a DSP core (R192) -/

/-- Number of a DSP core: core `c` of Fold `f`. -/
def coreNo (f c : Nat) : Nat := 8 * f + c

/-- A core. -/
def State.core (s : State) (n : Nat) : Core := SMap.get coreReset s.dsp.cores n

/-- A core replaced. -/
def State.setCore (s : State) (n : Nat) (c : Core) : State :=
  { s with dsp := { s.dsp with cores := SMap.set coreReset s.dsp.cores n c } }

/-- A core changed. -/
def State.mapCore (s : State) (n : Nat) (f : Core → Core) : State := s.setCore n (f (s.core n))

/-- Data-memory offset of the release mailbox of core `c` (R183). -/
def mailboxOff (c : Nat) : Nat := 0x3FFE00 + 64 * c

/-- Base of the own-Fold alias window (R184). -/
def aliasBase : Nat := 0x0F000000

/-- The registers that the Drover sets before a core starts (R192). -/
def Core.dispatch (c : Core) (r : Release) (mailbox : Nat) : Core :=
  let set (m : SMap Nat) (n v : Nat) : SMap Nat := SMap.set zeroNat m n v
  let s1 := set c.s 1 (relOp r.word)
  let s2 := set s1 2 (relArg r.word)
  let s3 := set s2 3 (relCell r.word + 2 ^ 16 * (r.calIdx % 2 ^ 15))
  let s4 := set s3 4 mailbox
  let status := SMap.get crReset c.cr 0
  let cr1 := SMap.set crReset c.cr 0 (setBitsOf (setBitsOf (setBitsOf status 0 3 0) 8 2 0) 3 1 (bitsOf status 3 1))
  let cr2 := SMap.set crReset cr1 7 3
  let cr3 := SMap.set crReset cr2 0x14 (setBitsOf (SMap.get crReset cr2 0x14) 15 1 0)
  { c with
    s := s4, cr := cr3, pc := 0, bundle := [], loopDue := false, resume := false, doneDue := false, fence := false, tags := [] }

/-- A release in service on a Fold core: the mailbox is written and the core started. -/
def State.dispatchCore (s : State) (r : Release) : State :=
  let box := foldAddr r.eng.phys (mailboxOff r.eng.core)
  let s1 := match s.entryOf r with
    | some e => (s.writeMem box 16 (slice e 0 64)).1
    | none => s
  let aliasAddr := if relFill r.word then aliasBase + mailboxOff r.eng.core else 0
  s1.mapCore (coreNo r.eng.phys r.eng.core) fun c => c.dispatch r aliasAddr

/-- An engine takes a release (R61). -/
def State.take (s : State) (r : Release) : State :=
  let s1 := (s.setRel r.idx .inService).markBusy r true
  if r.eng.cls = 0 then s1.dispatchCore r else s1

/-- Every free engine takes its next release of those that have arrived by core cycle `t` (R61). -/
def State.serve (t : Nat) : Nat → State → State
  | 0, s => s
  | fuel + 1, s =>
    match s.nextToServe t with
    | some r => State.serve t fuel (s.take r)
    | none => s

/-- Whether the guard before an armed swap lets no further release of the old almanac arrive (R50). -/
def State.swapGuard (s : State) : Bool :=
  match s.alm.swap with
  | some w => s.nextPos == posOf w.frame 0 && decide (13300 ≤ s.tm.cycle + 1)
  | none => false

/-- Held releases whose predecessor is complete or suppressed arrive, in the core cycle after it (R60). -/
def State.arrivals (s : State) : State :=
  if s.swapGuard then s else
    let rels := s.drv.rels
    { s with drv := { s.drv with rels := rels.map fun (r : Release) =>
        if r.status = .held ∧ (rels.any fun o => o.idx == relDep r.word && o.over) then
          { r with status := .queued, arrival := s.tm.cycle + 1 } else r } }

/-! ### Freezing, death, job faults -/

/-- A release on a unit. -/
def onUnit (cls phys : Nat) (r : Release) : Bool := r.eng.cls == cls && r.eng.phys == phys

/-- The accelerator commands of a Fold dropped, and its cores back at the dispatch entry (R445). -/
def State.restartFold (s : State) (n : Nat) : State :=
  let s1 := { s with dsp := { s.dsp with cmds := s.dsp.cmds.filter fun c => c.fold != n } }
  (List.range 8).foldl (fun t c => t.mapCore (coreNo n c) fun k =>
    { k with pc := 0, bundle := [], flight := [], wbuf := [], loopDue := false, resume := false, doneDue := false, fence := false, tags := []
             acqs := [] }) s1

/-- The flags that stand for a unit out of service, and its logical engine to be rebound (R33, R443, R444). -/
def State.outOfService (s : State) (cls phys st : Nat) : State :=
  let s1 := (s.setUnitState cls phys st).setFrozenFlag cls phys (st == 1)
  let s2 := s1.setIsolated (niOfUnit cls phys) true
  let s3 := s2.refreshDead (niOfUnit cls phys)
  let s4 := if cls = 4 then { s3 with pra := { s3.pra with banks := s3.pra.banks.filter fun b => b.eng != phys } } else s3
  if s.tm.cycle = 14000 then { s4 with alm := { s4.alm with rebindLate := (s4.alm.rebindLate ++ [(cls, phys)]).eraseDups } }
  else { s4 with alm := { s4.alm with rebindDue := (s4.alm.rebindDue ++ [(cls, phys)]).eraseDups } }

/-- A unit freezes with a violation (R442, R443, R446). A unit already frozen has its clock stopped. -/
def State.freeze (s : State) (cls phys code addr detail : Nat) : State :=
  if s.unitState cls phys = 1 then s else
    let d := s.discard (onUnit cls phys) false
    let s1 := d.1.record
      { code := code, cls := cls, phys := phys, addr := addr, detail := detail, requests := d.2.1, releases := d.2.2 }
    let s2 := s1.outOfService cls phys 1
    if code = 1 then s2.bump .ALM_STATS Fld.ALM_STATS_OVERRUN else s2

/-- A unit is marked dead with a fault (R442, R444, R446). A frozen unit stays frozen (R450), a barred one barred (R457). -/
def State.markDead (s : State) (cls phys code addr detail srcCls srcPhys : Nat) (pastureError : Bool) : State :=
  let d := s.discard (onUnit cls phys) pastureError
  let s1 := d.1.record
    { code := code, cls := srcCls, phys := srcPhys, addr := addr, detail := detail, requests := d.2.1, releases := d.2.2 }
  if s.unitState cls phys = 1 ∨ s.unitState cls phys = 2 ∨ s.unitState cls phys = 6 then s1 else s1.outOfService cls phys 2

/-- The releases that a job fault ends: those in service on the Fold, or the job in service on the pipeline (R445). -/
def jobOf (e : Eng) (lane : Nat) (r : Release) : Bool :=
  r.status == .inService && onUnit e.cls e.phys r && (e.cls == 0 || r.lane == lane)

/-- A release in service with an OP_CODE that its class does not have (R143, R154, R174, R305). -/
def badOp (r : Release) : Bool :=
  let op := relOp r.word
  match r.eng.cls with
  | 2 => !(op % 2 ^ 15 == 1 || op % 2 ^ 15 == 2 || op % 2 ^ 15 == 3)
  | 3 => decide (op < 1) || decide (5 < op)
  | 4 => !(op == 1 || op == 2)
  | 5 => op != 1
  | _ => false

/-- An MCE release whose OP_CODE is none of R119 violates on arrival. -/
def badMceOp (r : Release) : Bool :=
  r.eng.cls == 1 && !(relOp r.word == 1 || relOp r.word == 2 || relOp r.word == 3 || relOp r.word == 4
    || relOp r.word == 0x8004)

/-- MCEs that a release queued by core cycle `t` with an undefined OP_CODE freezes (R119, R121). -/
def State.arrivalChecks (s : State) (t : Nat) : State :=
  (s.drv.rels.filter fun r => r.status == .queued && decide (r.arrival ≤ t) && badMceOp r).foldl
    (fun t r => t.freeze 1 r.eng.phys 4 0 0) s

/-- Free engines take their next releases at core cycle `t`; a release with an undefined OP_CODE freezes its engine. -/
def State.takeAt (s : State) (t : Nat) : State :=
  let s0 := s.arrivalChecks t
  let s1 := State.serve t (s0.drv.rels.length + 1) s0
  (s1.drv.rels.filter fun r => r.status == .inService && badOp r).foldl (fun t r => t.freeze r.eng.cls r.eng.phys 4 0 0) s1

/-- Free engines take releases that have arrived (R61), and dependants are on their way into their queues (R60). -/
def State.settle (s : State) : State := s.arrivals.takeAt s.tm.cycle

/-- Core cycles pass, up to core cycle `c` of the tick: in each, releases enter their queues and free engines take them (R59 to R61), and flits move in the network (R269).
No release is more than 32 cycles from its queue. -/
def State.passTo (s : State) (c : Nat) : State :=
  ((List.range (min 33 (min c 13999 - s.tm.cycle))).foldl (fun t i =>
    let u := t.toCycle (s.tm.cycle + 1 + i)
    u.takeAt u.tm.cycle) s).toCycle c |>.netRun s.tm.cycle (min c 14000 - s.tm.cycle)

/-- Core cycles pass until an engine has a release in service, while one is on its way into the engine's queue. -/
def State.awaitRelease (e : Eng) (lane : Nat) : Nat → State → State
  | 0, s => s
  | fuel + 1, s =>
    let mine (r : Release) : Bool := r.eng == e && r.lane == lane
    if (s.drv.rels.any fun r => r.status == .inService && mine r)
        || !(s.drv.rels.any fun r => r.status == .queued && mine r && decide (s.tm.cycle < r.arrival) && decide (r.arrival < 14000)) then s
    else State.awaitRelease e lane fuel (s.passTo (s.tm.cycle + 1))

/-- A job fault (R445): the work is discarded, recorded, and the unit goes on with its queue. -/
def State.jobFault (s : State) (e : Eng) (lane code addr detail : Nat) (pastureError : Bool) : State :=
  let d := s.discard (jobOf e lane) pastureError
  let s1 := d.1.record
    { code := code, cls := e.cls, phys := e.phys, addr := addr, detail := detail, requests := d.2.1, releases := d.2.2 }
  let s2 := if e.cls = 0 then s1.restartFold e.phys else s1
  s2.settle

/-- What an uncorrectable word or line does besides being counted (R294, R442): a unit that owns the memory dies; otherwise
the job of the engine that met it, if any, is lost. -/
def State.uncorrectable (s : State) (e : MemErr) (job : Option (Eng × Nat)) : State :=
  let pasture := decide (17 ≤ e.group ∧ e.group ≤ 40)
  match unitOfGroup e.group, job with
  | some u, _ => s.markDead u.1 u.2 0x10 e.addr e.group u.1 u.2 pasture
  | none, some j => s.jobFault j.1 j.2 0x10 e.addr e.group pasture
  | none, none => s.record
      { code := 0x10, cls := if e.group ≥ 60 then 9 else 8, phys := if e.group ≥ 60 then e.group - 60 else e.group
        addr := e.addr, detail := e.group }

/-- A list of uncorrectable errors acted on in turn. -/
def State.uncorrectables (s : State) (es : List MemErr) (job : Option (Eng × Nat)) : State :=
  es.foldl (fun t e => t.uncorrectable e job) s

/-- Accelerator enable word of a Fold read from its active program half (R248). A word that is uncorrectable gives no data: the Fold dies,
and keeps the word it had. -/
def State.loadEnable (s : State) (n : Nat) : State :=
  let half := SMap.get zeroNat s.dsp.half n
  let r := s.readMem (foldAddr n (0x800000 + 0x80000 * half + 0x100)) 9 8
  match r.1 with
  | some bs => { r.2.1 with dsp := { r.2.1.dsp with enable := SMap.set zeroNat r.2.1.dsp.enable n (leNat bs) } }
  | none => r.2.1.uncorrectables r.2.2 none

/-! ### Completion -/

/-- Counts that a completed release adds to its unit's register. -/
def State.countJob (s : State) (r : Release) : State :=
  match r.eng.cls with
  | 1 => s.tally (.MCE_JOBS r.eng.phys)
  | 2 => s.bump (.DEC_UID_STATUS r.eng.phys) Fld.DEC_UID_STATUS_JOBS
  | 3 => s.bump (.DEC_ENC_STATUS r.eng.phys) Fld.DEC_ENC_STATUS_JOBS
  | 5 => s.bump (.MOV_ENG r.eng.phys) Fld.MOV_ENG_TRANSFERS
  | _ => s

/-- A completed release that filled from a request entry counts there (R449). -/
def State.countFill (s : State) (r : Release) : State :=
  match r.req with
  | some id => s.setResult id (relFillIndex r.word) fun x => { x with fills := x.fills + 1 }
  | none => s

/-- A release completes: the engine is free, dependants arrive, and engines take their next releases (R60, R61). -/
def State.finish (s : State) (r : Release) : State :=
  ((((s.setRel r.idx .complete).markBusy r false).countJob r).countFill r).settle

/-- The release in service on an engine, if any: class, unit, core, and the pipeline of an MCE. -/
def State.serving (s : State) (cls phys core lane : Nat) : Option Release :=
  s.drv.rels.find? fun r => r.status == .inService && r.eng == ⟨cls, phys, core⟩ && r.lane == lane

/-- What a command of an engine's job acts on: the state once a release that is on its way is in service. -/
def State.whenServed (s : State) (cls phys core lane : Nat) : State := State.awaitRelease ⟨cls, phys, core⟩ lane 33 s

/-! ### The tick edge -/

/-- The units that an overrun freezes: those with a release in service, in order of their first one (R16, R63). -/
def overrunUnits (rels : List Release) : List (Nat × Nat) :=
  ((rels.filter fun r => r.status == .inService).map fun r => (r.eng.cls, r.eng.phys)).eraseDups

/-- The end of a tick (R16, R63): a release still in service freezes its engine; releases still queued or held are
discarded with the requests that they fill from. Nothing is left to do when it is repeated. -/
def State.closeTick (s : State) : State :=
  let s0 := s.passTo 14000
  let waiting := (s0.drv.rels.filter fun r => r.status == .queued || r.status == .held).length
  let s1 := (overrunUnits s0.drv.rels).foldl (fun t u => t.freeze u.1 u.2 1 0 0) s0
  let s2 := (s1.discard (fun r => r.status == .queued || r.status == .held) false).1
  if waiting = 0 then s2 else s2.bump .DRV_STATS_B Fld.DRV_STATS_B_UNSTARTED waiting

/-- The block brought to the edge that edge events act at. -/
def State.toEdge (s : State) : State := if s.atEdge then s else s.closeTick

/-- An event of the tick edge that acts at the next edge if it is due there. -/
def State.edgeIf (s : State) (due : Bool) (f : State → State) : State := if due then f s.toEdge else s

end Sys2Proof.Machine
end

