-- ==== Sys2Proof/Machine/Power.lean ====
section
/-!
DEFINITION. Power domains (R402 to R418): set points and AVSBus exchanges (R415 to R417), entries with their handshake
(R409 to R412), wakes and their failures (R413, R414), and demands (R407).
-/
namespace Sys2Proof.Machine

/-! ### Domains -/

/-- The transition of a domain replaced. -/
def State.setDom (s : State) (d : Nat) (x : DomSt) : State :=
  { s with pwr := { s.pwr with dom := SMap.set domIdle s.pwr.dom d x } }

/-- The transition of a domain changed. -/
def State.mapDom (s : State) (d : Nat) (f : DomSt → DomSt) : State := s.setDom d (f (s.dom d))

/-- Whether a domain can be lowered at all (R402). -/
def domainOk (d : Nat) : Bool := decide (d < 69)

/-- Whether the plan may name a state for a domain (R402). -/
def stateAllowed (d v : Nat) : Bool :=
  if d < 20 ∨ (41 ≤ d ∧ d ≤ 44) then decide (v ≤ 2) else decide (v ≤ 3)

/-- Whether a domain is held ON by its bit of PWR_FORCE_ON (R407). -/
def State.forcedOn (s : State) (d : Nat) : Bool := s.bit (.PWR_FORCE_ON (d / 64)) (d % 64)

/-- STATE or FAILED of a domain changed (R418). -/
def State.domChange (s : State) (d : Nat) : State :=
  (s.setFld (.PWR_DOM d) Fld.PWR_DOM_CHANGE 1).msixIf (s.fld .PWR_CTRL Fld.PWR_CTRL_EVT_EN == 1)
    (s.fld .PWR_CTRL Fld.PWR_CTRL_VECTOR)

/-- Absolute core cycle. -/
def State.absCycle (s : State) : Nat := 14000 * s.absTick + s.tm.cycle

/-- Whether a debugger is attached (R417, R467). -/
def State.attached (s : State) : Bool := s.fld .DBG_ATTACH Fld.DBG_ATTACH_ATTACHED == 1

/-! ### Ready bits of a domain's functions -/

/-- Memory groups of a domain; 60 + c stands for DDR channel c. -/
def groupsOfDomain (d : Nat) : List Nat :=
  if d < 16 then [1 + d]
  else if d < 20 then (List.range 3).map fun i => 41 + 3 * (d - 16) + i
  else if d = 24 then [55, 56, 57, 58]
  else if 41 ≤ d ∧ d ≤ 44 then [60 + (d - 41)]
  else if 45 ≤ d ∧ d ≤ 68 then [17 + (d - 45)]
  else []

/-- Domain of a memory group. -/
def domainOfGroup (g : Nat) : Nat :=
  if 1 ≤ g ∧ g ≤ 16 then g - 1 else if 17 ≤ g ∧ g ≤ 40 then 45 + (g - 17)
  else if 41 ≤ g ∧ g ≤ 52 then 16 + (g - 41) / 3 else if 55 ≤ g ∧ g ≤ 58 then 24
  else if 60 ≤ g ∧ g ≤ 63 then 41 + (g - 60) else 69

/-- Whether a domain is neither OFF nor failed (R405). -/
def State.domUsable (s : State) (d : Nat) : Bool :=
  !s.domFailed d && s.domState d != 3

/-- The SYS_READY bits that follow from OFF, failure and initialisation of a domain cleared when they no longer hold (R405).
The PASTURE bit stands for all 24 slices. -/
def State.dropReady (s : State) (d : Nat) : State :=
  if d < 16 then s.setReadyBit (8 + d) false
  else if d < 20 then s.setReadyBit (24 + (d - 16)) false
  else if d < 24 then s.setReadyBit (28 + (d - 20)) false
  else if d = 24 then s.setReadyBits [32, 33] false
  else if 41 ≤ d ∧ d ≤ 44 then s.setReadyBit (34 + (d - 41)) false
  else if 45 ≤ d ∧ d ≤ 68 then s.setReadyBit 38 false
  else s

/-- The SYS_READY bits of a domain set when every memory of theirs is initialised and usable (R431, R405). A Fold's bit also
needs its program half 0 written, which the boot image has done once it is accepted; after OFF the end of initialisation sets it. -/
def State.raiseReady (s : State) (d : Nat) : State :=
  let inited := (groupsOfDomain d).all fun g => !s.ecc.initDue.contains g
    && s.fld (.MEM_GRP g) Fld.MEM_GRP_FAILED == 0
  if !s.domUsable d then s
  else if d < 16 then if inited && s.bit .SYS_READY 2 then s.setReadyBit (8 + d) true else s
  else if d < 20 then if inited then s.setReadyBit (24 + (d - 16)) true else s
  else if d < 24 then if s.ecc.initDue.contains 59 then s else s.setReadyBit (28 + (d - 20)) true
  else if d = 24 then
    let s1 := if s.ecc.initDue.contains 59 then s else s.setReadyBit 32 true
    if inited then s1.setReadyBit 33 true else s1
  else if 41 ≤ d ∧ d ≤ 44 then if s.ecc.initDue.contains (60 + (d - 41)) ∨ s.fld (.MEM_DDR_CFG (d - 41)) Fld.MEM_DDR_CFG_INIT_DONE = 0 then s
    else s.setReadyBit (34 + (d - 41)) true
  else if 45 ≤ d ∧ d ≤ 68 then
    if (List.range 24).all fun i => s.domUsable (45 + i) && !s.ecc.initDue.contains (17 + i)
        && s.fld (.MEM_GRP (17 + i)) Fld.MEM_GRP_FAILED == 0
    then s.setReadyBit 38 true else s
  else s

/-! ### Set points (R415) -/

/-- Highest MV of a rail's VOLT records in an image, or BOOT_MV (R50). -/
def State.highestVolt (s : State) (img : List Byte) (rail : Nat) : Nat :=
  match ((powerRecords img).filter fun w => bitsOf w 47 2 == 1 && bitsOf w 39 8 == rail).map (fun w => bitsOf w 27 10) |>.max? with
  | some v => v
  | none => s.fld (.PWR_AVS_CFG rail) Fld.PWR_AVS_CFG_BOOT_MV

/-- Whether the override of R50 is in force. -/
def State.powerOverride (s : State) : Bool := (s.alm.swap.map (·.override_)).getD false

/-- The base of a rail: the MV of its last VOLT record in force, BOOT_MV when there is none (R415), or the highest of either
almanac under the override of R50. -/
def State.railBase (s : State) (rail : Nat) : Nat :=
  if s.powerOverride then max (s.highestVolt s.active rail) (s.highestVolt s.shadow rail)
  else match (if s.almRuns then imgVolt s.active rail s.calIndex else none) with
    | some v => v
    | none => s.fld (.PWR_AVS_CFG rail) Fld.PWR_AVS_CFG_BOOT_MV

/-- The VDD_CORE additions of the domains that are ON, IDLE or waking, in 5 mV steps (R415). -/
def State.droopSum (s : State) : Nat :=
  ((List.range 69).map fun d =>
    if !s.domFailed d && (decide (s.domState d ≤ 1) || (s.dom d).wake.isSome) then
      s.fld (.PWR_DOM_CFG d) Fld.PWR_DOM_CFG_DROOP else 0).sum

/-- Set point of VDD_CORE (R415). -/
def State.coreSp (s : State) : Nat :=
  min 850 (max (s.railBase 0) (s.fld (.PWR_AVS_CFG 0) Fld.PWR_AVS_CFG_VMIN) + 5 * s.droopSum)

/-- Set point of VDD_SRAM (R415). -/
def State.sramSp (s : State) : Nat :=
  min 900 (max (max (s.railBase 1) (s.fld (.PWR_AVS_CFG 1) Fld.PWR_AVS_CFG_VMIN)) s.coreSp)

/-- Set point of a rail. -/
def State.setPoint (s : State) (rail : Nat) : Nat := if rail = 0 then s.coreSp else s.sramSp

/-- The last acknowledged set point of a rail. -/
def State.acked (s : State) (rail : Nat) : Nat := s.fld (.PWR_AVS_STATUS rail) Fld.PWR_AVS_STATUS_ACKED

/-- Whether a rail waits for its set point to change after a failure (R417). -/
def State.gaveUpOn (s : State) (rail : Nat) : Bool := SMap.get zeroNat s.pwr.gaveUp rail == s.setPoint rail + 1

/-- An exchange asked for, unless one of the rail waits in the same or an earlier group (R416). -/
def State.askRail (s : State) (rail group : Nat) : State :=
  if s.pwr.queue.any fun q => q.rail == rail && decide (q.group ≤ group) then s else
    let q := s.pwr.queue.filter fun q => q.rail != rail
    { s with pwr := { s.pwr with queue := q ++ [(⟨rail, group⟩ : AvsReq)] } }

/-- TARGET of a rail brought up to date and, where it differs from the acknowledged value, an exchange asked for. A change of the set
point lets a rail be tried again (R417). -/
def State.refreshRail (s : State) (rail group : Nat) : State :=
  let sp := s.setPoint rail
  let changed := s.fld (.PWR_AVS_STATUS rail) Fld.PWR_AVS_STATUS_TARGET != sp
  let s0 : State := if changed then { s with pwr := { s.pwr with gaveUp := SMap.set zeroNat s.pwr.gaveUp rail 0 } } else s
  let s1 := s0.setFld (.PWR_AVS_STATUS rail) Fld.PWR_AVS_STATUS_TARGET sp
  if sp = s.acked rail then
    { s1 with pwr := { s1.pwr with queue := s1.pwr.queue.filter fun q => q.rail != rail } }
  else if changed then s1.askRail rail group else s1

/-- Both rails brought up to date. -/
def State.refreshRails (s : State) (group : Nat) : State := (s.refreshRail 0 group).refreshRail 1 group

/-! ### Entries (R409 to R412) -/

/-- What a block answers when its domain is asked (R410). -/
inductive Answer where
  | accept
  | delay
  | refuse
  deriving DecidableEq, Repr

/-- The blocks of a domain, as PWR_REFUSE numbers them (R418). -/
def blocksOfDomain (d : Nat) : List Nat :=
  if d < 16 then List.range 8 ++ [20, 21]
  else if d < 20 then List.range 3 ++ [20, 21]
  else if d < 24 then List.range 8 ++ [20]
  else if d = 24 then List.range 12 ++ [20, 21]
  else if d < 41 then [0]
  else [20, 21, 22]

/-- The unit that a block of a domain is, for the classes with jobs. -/
def unitOfBlock (d b : Nat) : Option (Nat × Nat) :=
  if b ≥ 16 then none
  else if 16 ≤ d ∧ d < 20 then some (1, 3 * (d - 16) + b)
  else if 20 ≤ d ∧ d < 24 then some (2, 8 * (d - 20) + b)
  else if d = 24 then if b < 8 then some (3, b) else some (4, b - 8)
  else none

/-- The answer of a block (R410). Whether an NI, a scrubber or a memory controller has something unfinished in the cycle of the
ask is below the grain of the commands: a free choice between ACCEPT and DELAY. -/
def State.blockAnswer (s : State) (d b : Nat) : Answer × State :=
  if b ≥ 20 then
    let r := s.drawBool
    (if r.1 then .delay else .accept, r.2)
  else if d < 16 then
    if s.drv.rels.any (fun r => r.live && r.eng == ⟨0, d, b⟩) || s.fld .DBG_STATUS Fld.DBG_STATUS_HALTED == 1 then (.refuse, s)
    else if (s.core (coreNo d b)).wbuf != [] || s.dsp.cmds.any (fun c => c.fold == d && c.core == b) then (.delay, s)
    else (.accept, s)
  else match unitOfBlock d b with
    | some u =>
      if s.drv.rels.any fun r => onUnit u.1 u.2 r && (r.status == .queued || r.status == .inService) then (.refuse, s)
      else (.accept, s)
    | none => (.accept, s)

/-- The answers of the blocks that have not yet accepted, in ascending block number. -/
def askBlocks (d : Nat) : List Nat → State → List (Nat × Answer) × State
  | [], s => ([], s)
  | b :: bs, s =>
    let r := s.blockAnswer d b
    let rest := askBlocks d bs r.2
    ((b, r.1) :: rest.1, rest.2)

/-- An entry dropped: the domain as though the entry had never begun. -/
def State.dropEntry (s : State) (d : Nat) : State :=
  (s.mapDom d fun x => { x with entry := none }).setFld (.PWR_DOM d) Fld.PWR_DOM_ENTERING 0

/-- An entry refused (R411). -/
def State.refuseEntry (s : State) (d goal block : Nat) (limit : Bool) : State :=
  let s1 := (s.dropEntry d).mapDom d fun x => { x with refused := some goal }
  let s2 := s1.wr .PWR_REFUSE (BitVec.ofNat 64
    (2 ^ 63 + 2 ^ 56 * (d % 128) + 2 ^ 51 * (block % 32) + (if limit then 2 ^ 50 else 0) + 2 ^ 35 * (s.calIndex % 2 ^ 15)))
  (s2.bump .PWR_STATS Fld.PWR_STATS_REFUSALS).bump .ALM_STATS Fld.ALM_STATS_PWR_MISS

/-- An entry abandoned at an abort point (R412). -/
def State.abortEntry (s : State) (d : Nat) : State :=
  ((s.dropEntry d).bump .PWR_STATS Fld.PWR_STATS_ABORTS).bump .ALM_STATS Fld.ALM_STATS_PWR_MISS

/-- An ask of the handshake (R410): every block that has not yet accepted answers. -/
def State.askDomain (s : State) (d : Nat) : State :=
  match (s.dom d).entry with
  | none => s
  | some e =>
    if e.at_.isSome then s else
      let r := askBlocks d ((blocksOfDomain d).filter fun b => !e.accepted.contains b) s
      let delayed := r.1.filterMap fun p => if p.2 = .delay then some p.1 else none
      let delays := delayed.foldl (fun m b => SMap.set zeroNat m b (SMap.get zeroNat m b + 1)) e.delays
      let limit (b : Nat) : Bool := delayed.contains b && decide (SMap.get zeroNat delays b ≥ 17)
      match r.1.find? fun p => p.2 == .refuse || limit p.1 with
      | some p => r.2.refuseEntry d e.goal p.1 (limit p.1)
      | none =>
        let e1 := { e with
          accepted := e.accepted ++ r.1.filterMap fun p => if p.2 = .accept then some p.1 else none
          delays := delays
          at_ := if delayed = [] then some s.absCycle else none }
        let s1 := r.2.mapDom d fun x => { x with entry := some e1 }
        if delayed = [] ∧ e.abort ∧ s1.fld .PWR_MODE Fld.PWR_MODE_MODE ≠ 1 then s1.abortEntry d else s1

/-- A lowering starts (R406, R409). -/
def State.startEntry (s : State) (d goal : Nat) : State :=
  ((s.mapDom d fun x => { x with entry := some ⟨goal, [], [], none, false⟩ }).setFld (.PWR_DOM d)
    Fld.PWR_DOM_ENTERING 1).askDomain d

/-! ### Wakes (R413) -/

/-- A wake starts: the set point is raised where the domain has a DROOP, and power is switched on when it needs none. -/
def State.startWake (s : State) (d goal group : Nat) : State :=
  let from_ := s.domState d
  if from_ ≤ 1 then
    (s.mapDom d fun x => { x with wake := some ⟨1, goal, 0, true, true⟩ }).setFld (.PWR_DOM d) Fld.PWR_DOM_WAKING 1
  else
    let s1 := ((s.mapDom d fun x => { x with wake := some ⟨from_, goal, 0, true, false⟩ }).setFld (.PWR_DOM d)
      Fld.PWR_DOM_WAKING 1).refreshRails group
    let need := if s.fld (.PWR_DOM_CFG d) Fld.PWR_DOM_CFG_DROOP = 0 then 0 else s1.coreSp
    s1.mapDom d fun x => { x with wake := some ⟨from_, goal, need, decide (need ≤ s1.acked 0), false⟩ }

/-- The state that a domain is to have now (R406, R407). -/
def State.desired (s : State) (d : Nat) : Nat :=
  if s.forcedOn d || (s.dom d).demand then 0 else s.fld (.PWR_DOM d) Fld.PWR_DOM_PLANNED

/-- A steady domain set on its way to the state that it is to have; while Yalis is halted none starts (R464). -/
def State.aimSteady (s : State) (d : Nat) : State :=
  let t := s.desired d
  let now := s.fld (.PWR_DOM d) Fld.PWR_DOM_STATE
  let x := s.dom d
  if x.entry.isSome ∨ x.wake.isSome ∨ s.domFailed d ∨ s.halted then s
  else if t < now then
    let byDemand := s.forcedOn d || x.demand || x.fw
    let s1 := s.mapDom d fun y => { y with fw := false }
    let s2 := if byDemand then s1.bump .PWR_STATS Fld.PWR_STATS_DEMAND_WAKES else s1
    s2.startWake d t (if byDemand then 2 else 1)
  else if now < t ∧ x.refused ≠ some t then s.startEntry d t
  else s

/-- A domain set on its way to the state that it is to have, with R412 for one that is entering a lower state. -/
def State.aim (s : State) (d : Nat) : State :=
  if !domainOk d then s else
    let s0 := s.setFld (.PWR_DOM d) Fld.PWR_DOM_FORCED (if s.forcedOn d || (s.dom d).demand then 1 else 0)
    match (s0.dom d).entry with
    | none => s0.aimSteady d
    | some e =>
      if s0.desired d < e.goal ∧ s0.fld .PWR_MODE Fld.PWR_MODE_MODE ≠ 1 then
        match e.at_ with
        | none => s0.mapDom d fun x => { x with entry := some { e with abort := true } }
        | some a => if s0.absCycle ≤ a + 12 then (s0.abortEntry d).aimSteady d else s0
      else s0

/-- A demand for a domain (R407). -/
def State.demandWake (s : State) (d : Nat) : State :=
  if !domainOk d || s.domFailed d || s.domOpen d then s
  else (s.mapDom d fun x => { x with demand := true, refused := none }).aim d

/-- The planned state of a domain changed: a transition starts, and a demand that held the domain ON ends (R406, R407). -/
def State.setPlanned (s : State) (d v : Nat) (fw : Bool) : State :=
  if s.fld (.PWR_DOM d) Fld.PWR_DOM_PLANNED = v then s else
    ((s.setFld (.PWR_DOM d) Fld.PWR_DOM_PLANNED v).mapDom d fun x =>
      { x with demand := false, refused := none, fw := fw }).aim d

/-! ### Contents -/

/-- Device addresses of a memory group as base and length; DDR channels are interleaved and have none of their own. -/
def groupSpan (g : Nat) : Nat × Nat :=
  if 1 ≤ g ∧ g ≤ 16 then (foldAddr (g - 1) 0, 0x1000000)
  else if 17 ≤ g ∧ g ≤ 40 then (pastureBase + 0x400000 * (g - 17), 0x400000)
  else if 41 ≤ g ∧ g ≤ 52 then (mceBase + 0x100000 * (g - 41), 0x100000)
  else if g = 0 then (0, 0x200000) else (0, 0)

/-- The words of a group written with all-zero codewords (R296). -/
def State.zeroGroup (s : State) (g : Nat) : State :=
  if g ≥ 60 then
    { s with
      mem := s.mem.filter fun c => !(decide (ddrBase ≤ c.1) && ddrChannel (c.1 - ddrBase) == g - 60)
      ecc := { s.ecc with ddrFlips := s.ecc.ddrFlips.filter fun p => p.1 / 2 ^ 28 != g - 60 } }
  else
    let sp := groupSpan g
    { s with
      mem := s.mem.filter fun c => !(decide (sp.1 ≤ c.1) && decide (c.1 < sp.1 + sp.2))
      ecc := { s.ecc with flips := s.ecc.flips.filter fun p => p.1 / 2 ^ 21 != g }
      pra := { s.pra with banks := s.pra.banks.filter fun b => 55 + b.eng != g } }

/-- `n` register values that nothing preserves, as a register file. -/
def State.drawFile (s : State) (w : Nat) : List Nat → SMap Nat × State
  | [] => ([], s)
  | n :: ns =>
    let v := s.draw w
    let rest := State.drawFile v.2 w ns
    (SMap.set zeroNat rest.1 n v.1, rest.2)

/-- A core whose logic has lost its state: registers hold values that the spec leaves open, and nothing is in progress
(R404 SLEEP). -/
def State.loseCore (s : State) (n : Nat) : State :=
  let a := s.drawFile 64 (List.range 32)
  let b := a.2.drawFile 64 (List.range 16)
  let c := b.2.drawFile 64 (List.range 8)
  let d := c.2.drawFile 32 ((List.range 7).map (1 + ·))
  let e := d.2.drawFile 512 (List.range 32)
  let f := e.2.drawFile 1280 (List.range 4)
  let g := f.2.drawFile 64 (List.range 16)
  let h := g.2.drawFile 64 (List.range 8)
  let i := h.2.drawFile 32 ((List.range 7).map (1 + ·))
  i.2.setCore n { Core.reset with
    s := a.1, p := b.1, k := c.1, q := d.1, v := e.1, va := f.1, vaSeen := f.1, s2 := g.1, p2 := h.1, q2 := i.1 }

/-- What a domain loses when its logic power goes (R404, R293). -/
def State.loseLogic (s : State) (d goal : Nat) : State :=
  let s1 := if d < 16 then (List.range 8).foldl (fun t c => t.loseCore (coreNo d c)) s
    else if 25 ≤ d ∧ d ≤ 40 then s.quadDown (d - 25) else s
  if goal < 3 then s1 else
    let gs := groupsOfDomain d
    let s2 := { s1 with ecc := { s1.ecc with track := s1.ecc.track.filter fun t => !gs.contains t.group } }
    gs.foldl (fun t g => (if 41 ≤ g ∧ g ≤ 52 then t.clearLines (g - 41) else t).zeroGroup g) s2

/-! ### Failure of a wake (R414) -/

/-- A wake that fails: the domain is FAILED and OFF, so that its memories lose their contents and its tracking tables are cleared (R293);
its units are dead, and its NIs isolated, so that held packets are absorbed (R279). -/
def State.failDomain (s : State) (d code : Nat) (src : Nat × Nat := (7, d)) : State :=
  let units := unitsOfDomain d
  let x := s.discard (fun r => units.contains (r.eng.cls, r.eng.phys)) false
  let s1 := x.1.record { code := code, cls := src.1, phys := src.2, requests := x.2.1, releases := x.2.2 }
  let s2 := (s1.mapDom d fun y => { y with wake := none, entry := none }).wr (.PWR_DOM d)
    (Fld.PWR_DOM_STATE.set (Fld.PWR_DOM_FAILED.set (Fld.PWR_DOM_WAKING.set (Fld.PWR_DOM_ENTERING.set
      (Fld.PWR_DOM_EMULATED.set (s1.rd (.PWR_DOM d)) 0) 0) 0) 1) 3)
  let s3 := (s2.loseLogic d 3).domChange d
  let s4 := units.foldl (fun t u => if t.unitState u.1 u.2 = 1 ∨ t.unitState u.1 u.2 = 2 then t else t.outOfService u.1 u.2 2) s3
  let s5 := (nisOfDomain d).foldl (fun t n => (t.setIsolated n true).refreshDead n) s4
  (s5.dropReady d).refreshRails 3

/-- The wakes that wait for a set point not yet acknowledged. -/
def State.railWaiters (s : State) : List Nat :=
  (List.range 69).filter fun d => match (s.dom d).wake with
    | some w => !w.switched && decide (s.acked 0 < min w.need s.coreSp)
    | none => false

/-- Wakes proceed at the first acknowledgement at or above the value that they need (R416). -/
def State.wakesProceed (s : State) : State :=
  (List.range 69).foldl (fun t d => match (t.dom d).wake with
    | some w => if !w.switched ∧ min w.need s.coreSp ≤ s.acked 0 then
        t.mapDom d fun x => { x with wake := some { w with switched := true } } else t
    | none => t) s

/-! ### Exchanges (R416, R417) -/

/-- The rail that the next exchange writes for a request: VDD_SRAM goes first on a rise of VDD_CORE above it, and falls only
after VDD_CORE (R416). -/
def State.railFor (s : State) (rail : Nat) : Nat :=
  if rail = 0 then if s.acked 0 < s.coreSp ∧ s.acked 1 < s.coreSp then 1 else 0
  else if s.sramSp < s.acked 1 ∧ s.coreSp < s.acked 0 then 0 else 1

/-- The first request, in the order of R416, whose rail can be tried. -/
def State.nextAvs (s : State) : Option Nat :=
  let ready := s.pwr.queue.filter fun q =>
    s.setPoint (s.railFor q.rail) != s.acked (s.railFor q.rail) && !s.gaveUpOn (s.railFor q.rail)
  (ready.find? fun q => ready.all fun o => decide (q.group ≤ o.group)).map fun q => s.railFor q.rail

/-- The set point that an exchange carries: at most 50 mV from the acknowledged value (R416). -/
def avsStep (acked target : Nat) : Nat := if acked ≤ target then min target (acked + 50) else max target (acked - 50)

/-- An exchange written. -/
def State.sendAvs (s : State) (rail mv tries : Nat) : State :=
  ({ s with pwr := { s.pwr with exch := some ⟨rail, mv, tries⟩ } }.setFld (.PWR_AVS_STATUS rail)
    Fld.PWR_AVS_STATUS_BUSY 1).emit (.avs rail mv)

/-- The next exchange starts, when none is in progress. -/
def State.startAvs (s : State) : State :=
  if s.pwr.exch.isSome then s else
    match s.nextAvs with
    | some r => s.sendAvs r (avsStep (s.acked r) (s.setPoint r)) 1
    | none => s

/-- An exchange acknowledged. -/
def State.ackAvs (s : State) : State :=
  match s.pwr.exch with
  | none => s
  | some e =>
    let s1 := { s with pwr := { s.pwr with exch := none } }
    let s2 := (s1.setFld (.PWR_AVS_STATUS e.rail) Fld.PWR_AVS_STATUS_ACKED e.mv).setFld (.PWR_AVS_STATUS e.rail)
      Fld.PWR_AVS_STATUS_BUSY 0
    let s3 := if s2.setPoint e.rail = e.mv then
        { s2 with pwr := { s2.pwr with queue := s2.pwr.queue.filter fun q => q.rail != e.rail } }
      else s2
    s3.wakesProceed

/-- A try that got no acknowledgement: tried again, or failed after the third (R417, R414). -/
def State.noAckAvs (s : State) : State :=
  match s.pwr.exch with
  | none => s
  | some e =>
    if e.tries < 3 then s.sendAvs e.rail e.mv (e.tries + 1) else
      let s1 := { s with pwr := { s.pwr with
        exch := none
        queue := s.pwr.queue.filter fun q => q.rail != e.rail
        gaveUp := SMap.set zeroNat s.pwr.gaveUp e.rail (s.setPoint e.rail + 1) } }
      let s2 := ((s1.setFld (.PWR_AVS_STATUS e.rail) Fld.PWR_AVS_STATUS_BUSY 0).bump (.PWR_AVS_STATUS e.rail)
        Fld.PWR_AVS_STATUS_FAILS).setFld (.PWR_AVS_STATUS e.rail) Fld.PWR_AVS_STATUS_FAIL 1
      let s3 := s2.msixIf (s.fld .PWR_CTRL Fld.PWR_CTRL_EVT_EN == 1) (s.fld .PWR_CTRL Fld.PWR_CTRL_VECTOR)
      let waiting := s3.railWaiters
      if waiting = [] then s3.record { code := 0x31, cls := 7, phys := 69 }
      else waiting.foldl (fun t d => t.failDomain d 0x31) s3

/-! ### Ends of entries and wakes -/

/-- The lower state is reached (R409), or IDLE under sleep emulation (R467). -/
def State.endEntry (s : State) (d : Nat) : State :=
  match (s.dom d).entry with
  | none => s
  | some e =>
    if e.at_.isNone then s else
      let emul := s.attached && decide (e.goal ≥ 2)
      let s1 := (s.dropEntry d).bump .PWR_STATS Fld.PWR_STATS_ENTRIES
      let s2 := (s1.setFld (.PWR_DOM d) Fld.PWR_DOM_STATE e.goal).setFld (.PWR_DOM d) Fld.PWR_DOM_EMULATED (if emul then 1 else 0)
      let s3 := if emul ∨ e.goal < 2 then s2 else s2.loseLogic d e.goal
      let s4 := if e.goal = 3 ∧ !emul then s3.dropReady d else s3
      ((s4.domChange d).refreshRails 3).aim d

/-- A memory whose self-test and initialisation begin (R295, R296); a DDR channel's contents are to be written with zeros. -/
def State.beginInit (s : State) (g : Nat) : State :=
  let s1 := { s with ecc := { s.ecc with initDue := (s.ecc.initDue ++ [g]).eraseDups } }
  if g < 60 then s1 else s1.setFld (.MEM_DDR_CFG (g - 60)) Fld.MEM_DDR_CFG_INIT_DONE 0

/-- Power-good (R413): retention is released, or the memories that come out of OFF are to be tested and initialised. -/
def State.powerGood (s : State) (d : Nat) : State :=
  match (s.dom d).wake with
  | none => s
  | some w =>
    if !w.switched ∨ w.good then s else
      let s1 := s.mapDom d fun x => { x with wake := some { w with good := true } }
      if w.from_ < 3 then s1 else (groupsOfDomain d).foldl State.beginInit s1

/-- Whether a wake has done what R413 asks before the NIs take packets: a quad that has a rate has locked its PLL. -/
def State.wakeReady (s : State) (d : Nat) : Bool :=
  match (s.dom d).wake with
  | none => false
  | some w => w.good
      && (decide (41 ≤ d ∧ d ≤ 44) || (groupsOfDomain d).all fun g => !s.ecc.initDue.contains g)
      && (!(decide (25 ≤ d ∧ d ≤ 40)) || w.from_ == 1
        || s.quadRate (d - 25) == 0 || s.quadIs (d - 25) Fld.SDS_QUAD_STATUS_LOCK)

/-- The domain is ON, or IDLE where that was the aim. -/
def State.endWake (s : State) (d : Nat) : State :=
  match (s.dom d).wake with
  | none => s
  | some w =>
    let emulated := s.fld (.PWR_DOM d) Fld.PWR_DOM_EMULATED
    let keep := w.goal = 1 ∧ s.attached ∧ w.from_ ≥ 2
    let s1 := (s.mapDom d fun x => { x with wake := none }).setFld (.PWR_DOM d) Fld.PWR_DOM_WAKING 0
    let s2 := if keep then s1.setFld (.PWR_DOM d) Fld.PWR_DOM_EMULATED 1
      else ((s1.setFld (.PWR_DOM d) Fld.PWR_DOM_STATE w.goal).setFld (.PWR_DOM d) Fld.PWR_DOM_EMULATED 0).domChange d
    let s3 := if w.from_ = 3 ∧ emulated = 0 then s2.raiseReady d else s2
    (((s3.refreshRails 3)).aim d)

/-- A fresh wake from OFF of a FAILED domain (R414, R456). -/
def State.clearFailed (s : State) (d : Nat) : State :=
  if !s.domFailed d then s else
    let s1 := (s.setFld (.PWR_DOM d) Fld.PWR_DOM_FAILED 0).domChange d
    ((nisOfDomain d).foldl (fun t n => t.refreshDead n) s1).startWake d 0 2

/-- A write of PWR_DOM_CFG (R403, R414, R418). -/
def State.writeDomCfg (s : State) (d : Nat) (v : Word) : State :=
  let was := s.fld (.PWR_DOM_CFG d) Fld.PWR_DOM_CFG_FW_STATE
  let fw := Fld.PWR_DOM_CFG_FW_STATE.get v
  let v1 := if stateAllowed d fw then v else Fld.PWR_DOM_CFG_FW_STATE.set v was
  let s1 := s.wrAccess (.PWR_DOM_CFG d) v1
  let s2 := if Fld.PWR_DOM_CFG_CLEAR_FAIL.get v = 1 then s1.clearFailed d else s1
  let unplanned := !(s.almRuns && (imgPlanned s.active d 0).isSome) && !s.domainUsed d
  let s3 := if unplanned ∧ stateAllowed d fw ∧ !s.powerOverride then
      (s2.mapDom d fun x => { x with demand := false, refused := none }).setPlanned d fw true |>.aim d
    else s2
  s3.refreshRails 3

/-- A write of PWR_FORCE_ON (R407). -/
def State.writeForceOn (s : State) (i : Nat) (v : Word) : State :=
  let s1 := s.wrAccess (.PWR_FORCE_ON i) v
  ((List.range 64).filter fun b => domainOk (64 * i + b)).foldl (fun t b =>
    let d := 64 * i + b
    let was := s.bit (.PWR_FORCE_ON i) b
    let on := s1.bit (.PWR_FORCE_ON i) b
    if was = on then t
    else if on then t.demandWake d |>.aim d
    else (t.mapDom d fun x => { x with demand := false }).aim d) s1

/-- The planned state of a domain at the edge brought into force (R406). -/
def State.planDomain (s : State) (d : Nat) : State :=
  let running := s.almRuns || s.powerOverride
  let v := if running then s.plannedNow d
    else if s.domainUsed d then 0 else s.fld (.PWR_DOM_CFG d) Fld.PWR_DOM_CFG_FW_STATE
  s.setPlanned d v false

end Sys2Proof.Machine
end

