-- ==== Sys2Proof/Machine/Reads.lean ====
section
/-!
DEFINITION. What a read of each register answers and what it changes (R5 to R9), whoever reads it.
-/
namespace Sys2Proof.Machine

/-- Whether the domain of a quad is ON. -/
def State.quadOn (s : State) (q : Nat) : Bool := s.domState (25 + q) == 0

/-- SDS_LANE_STATUS as it reads: SQUELCHED and RATE_CONFLICT follow from the rest (R358, R360). -/
def State.laneStatus (s : State) (l : Nat) : Word :=
  Fld.SDS_LANE_STATUS_RATE_CONFLICT.set
    (Fld.SDS_LANE_STATUS_SQUELCHED.set (s.rd (.SDS_LANE_STATUS l)) (if s.laneSquelched l (s.quadOn (l / 4)) then 1 else 0))
    (if s.rateConflict l then 1 else 0)

/-- NI and entry that NOC_RT_DATA reaches. -/
def State.rtAddr (s : State) : Nat × Nat := (s.fld .NOC_RT_ADDR Fld.NOC_RT_ADDR_NI, s.fld .NOC_RT_ADDR Fld.NOC_RT_ADDR_ENTRY)

/-- NOC_RT_ADDR after an access of NOC_RT_DATA (R285). -/
def State.rtAdvance (s : State) : State :=
  let a := s.rtAddr
  let next := (256 * a.1 + a.2 + 1) % 2 ^ 16
  (s.setFld .NOC_RT_ADDR Fld.NOC_RT_ADDR_NI (next / 256)).setFld .NOC_RT_ADDR Fld.NOC_RT_ADDR_ENTRY (next % 256)

/-- The route table word at NOC_RT_ADDR; an NI that does not exist has none. -/
def State.rtWord (s : State) : Word := if s.rtAddr.1 < 79 then s.rtEntry s.rtAddr.1 s.rtAddr.2 else 0

/-- Packets that wait for a wake of an NI's domain: in the network, and of accesses of units (R278). -/
def State.heldAt (s : State) (n : Nat) : Nat :=
  (s.noc.flight.filter fun w => w.pkt.dst.toNat == n && w.held != 0).length
    + (s.noc.waits.filter fun w => w.2 == n && !s.domOpen (domainOfNi n) && !s.isolated n).length

/-- NOC_NI as it reads: HELD, and WAKING while a packet waits for the wake (R285). -/
def State.niWord (s : State) (n : Nat) : Word :=
  Fld.NOC_NI_WAKING.set (Fld.NOC_NI_HELD.set (s.rd (.NOC_NI n)) (min 65535 (s.heldAt n)))
    (if s.heldAt n ≠ 0 ∧ !s.isolated n then 1 else 0)

/-- FLT_UNIT_STATUS as it reads: STATE of the unit named in FLT_UNIT_CTRL. -/
def State.unitStatus (s : State) : Word :=
  let cls := s.fld .FLT_UNIT_CTRL Fld.FLT_UNIT_CTRL_CLASS
  let phys := s.fld .FLT_UNIT_CTRL Fld.FLT_UNIT_CTRL_PHYS
  let st := if cls = 6 then (if s.flt.shepFrozen.contains phys then 1 else 0)
    else if unitOk cls phys then s.unitState cls phys else 0
  Fld.FLT_UNIT_STATUS_STATE.set (s.rd .FLT_UNIT_STATUS) st

/-- TOD at a device time: seconds, nanoseconds and fraction (R385). -/
def State.todAt (s : State) (t : Word) : Nat × Nat × Nat :=
  let d := dtDiff t s.tm.secDT
  let sec := ((s.tm.tod : Int) + d / (unitsPerSecond : Int)) % ((2 ^ 48 : Nat) : Int)
  let sub := (d % (unitsPerSecond : Int)).toNat
  (sec.toNat, sub / 65536, sub % 65536)

/-- The TOD nanoseconds and fraction now, as TIM_TOD_SUB shows them. -/
def State.todSub (s : State) : Word :=
  let t := s.todAt s.now
  BitVec.ofNat 64 (65536 * t.2.1 + t.2.2)

/-- TIM_POS now (R387, R401). -/
def State.timPos (s : State) : Word := BitVec.ofNat 64 (2 ^ 44 * s.frame + s.tm.tick)

/-- A read of TIM_TOD_SEC (R401). -/
def State.readTodSec (s : State) : Word × State :=
  (BitVec.ofNat 64 s.tm.tod,
    { s with tm := { s.tm with latchSub := some s.todSub, latchDT := some s.now, latchPos := some s.timPos } })

/-- A read of TIM_TOD_SUB: the latched value once, else the live one (R401). -/
def State.readTodSub (s : State) : Word × State :=
  (s.tm.latchSub.getD s.todSub, { s with tm := { s.tm with latchSub := none } })

/-- A read of TIM_DT: the latched value once, else the live one (R401). -/
def State.readDT (s : State) : Word × State :=
  (s.tm.latchDT.getD s.now, { s with tm := { s.tm with latchDT := none } })

/-- A read of TIM_POS: the latched value once, else the live one (R401). -/
def State.readTimPos (s : State) : Word × State :=
  (s.tm.latchPos.getD s.timPos, { s with tm := { s.tm with latchPos := none } })

/-- Whether the transmitter is idle. -/
def State.uartIdle (s : State) : Bool := s.uart.shift.isNone && s.uart.tx.isEmpty

/-- UART_STATUS as it reads. -/
def State.uartStatus (s : State) : Word :=
  let f (v : Word) (b : BitField) (n : Nat) : Word := b.set v n
  let n (b : Bool) : Nat := if b then 1 else 0
  let v1 := f (s.rd .UART_STATUS) Fld.UART_STATUS_RX_LEVEL s.uart.rx.length
  let v2 := f v1 Fld.UART_STATUS_TX_LEVEL s.uart.tx.length
  let v3 := f v2 Fld.UART_STATUS_TX_EMPTY (n s.uartIdle)
  let v4 := f v3 Fld.UART_STATUS_TX_FULL (n (decide (64 ≤ s.uart.tx.length)))
  f v4 Fld.UART_STATUS_RX_AVAIL (n (!s.uart.rx.isEmpty))

/-- A read of UART_RX: the oldest entry, which it removes. -/
def State.uartRead (s : State) : Word × State :=
  match s.uart.rx with
  | [] => (0, s)
  | e :: es => (BitVec.ofNat 64 (2 ^ 11 + e), { s with uart := { s.uart with rx := es } })

/-- Milliseconds that remain of a lockout (DBG_AUTH_STAT.LOCK_REMAIN). -/
def State.lockRemain (s : State) : Nat :=
  match s.dbg.lockEnd with
  | none => 0
  | some e => 1000 * (dtDiff e s.now).toNat / unitsPerSecond

/-- Whether an engine is free: neither bound nor fallow (R303). -/
def State.movFree (s : State) (e : Nat) : Bool :=
  !((List.range s.mapLen).any fun n => s.bound n == some (5, e))
    && !(List.range 16).any fun m => s.fld (.ALM_FALLOW m) Fld.ALM_FALLOW_VALID == 1
      && s.fld (.ALM_FALLOW m) Fld.ALM_FALLOW_CLASS == 5 && s.fld (.ALM_FALLOW m) Fld.ALM_FALLOW_PHYS == e

/-- MOV_ENG.STATE: 0 FREE, 1 BOUND, 2 FALLOW (R303). -/
def State.movState (s : State) (e : Nat) : Nat :=
  if s.movFree e then 0 else if (List.range s.mapLen).any fun n => s.bound n == some (5, e) then 1 else 2

/-- MEM_REMAP_DATA of the entry that MEM_REMAP_SEL names (R292). -/
def State.remapData (s : State) : Word :=
  let g := s.fld .MEM_REMAP_SEL Fld.MEM_REMAP_SEL_GROUP
  let e := s.fld .MEM_REMAP_SEL Fld.MEM_REMAP_SEL_ENTRY
  match s.ecc.remap.find? fun m => m.group == g && m.entry == e with
  | some m => BitVec.ofNat 64 (2 ^ 63 + wordAddr g m.word % 2 ^ 48)
  | none => 0

/-- Whether a domain is held in IDLE by sleep emulation (DBG_ATTACH.EMULATING). -/
def State.emulating (s : State) : Bool := (List.range 69).any fun d => s.fld (.PWR_DOM d) Fld.PWR_DOM_EMULATED == 1

/-- A read of a register: the value, and the state after it, which differs for the registers whose reads act. -/
def State.regRead (s : State) (r : Reg) : Word × State :=
  match r with
  | .NOC_RT_DATA => (s.rtWord, s.rtAdvance)
  | .NOC_NI n => (s.niWord n, s)
  | .TIM_TOD_SEC => s.readTodSec
  | .TIM_TOD_SUB => s.readTodSub
  | .TIM_DT => s.readDT
  | .TIM_POS => s.readTimPos
  | .UART_RX => s.uartRead
  | .UART_STATUS => (s.uartStatus, s)
  | .MEM_REMAP_DATA => (s.remapData, s)
  | .MOV_ENG e => (Fld.MOV_ENG_STATE.set (s.rd (.MOV_ENG e)) (s.movState e), s)
  | .SDS_LANE_STATUS l => (s.laneStatus l, s)
  | .FLT_UNIT_STATUS => (s.unitStatus, s)
  | .DBG_ATTACH => (Fld.DBG_ATTACH_EMULATING.set (s.rd .DBG_ATTACH) (if s.emulating then 1 else 0), s)
  | .DBG_AUTH_STAT => (Fld.DBG_AUTH_STAT_LOCK_REMAIN.set (s.rd .DBG_AUTH_STAT) s.lockRemain, s)
  | r => (s.rd r, s)

/-! ### Reads by units -/

/-- Whether a BAR0 offset lies in the MSI-X table or PBA, laid out in fields of 32 bits as PCI Express defines them (R433, R440). -/
def msixArea (off : Nat) : Bool := decide (0x128000 ≤ off ∧ off < 0x128400) || decide (0x129000 ≤ off ∧ off < 0x129008)

/-- Bytes that a unit of the chip reads from the register space: an access of another width or alignment reads 0, as does an offset that
names no register (R7, R9). Units read while the chip runs, when the core window shows nothing (R470). -/
def State.unitRegRead (s : State) (off n : Nat) : List Byte × State :=
  let r8 := if n = 8 ∧ off % 8 = 0 then regAt off else none
  let r4 := if n = 4 ∧ off % 4 = 0 ∧ msixArea off then regAt (off / 8 * 8) else none
  match r8, r4 with
  | some r, _ => let q := s.regRead r; (leBytes 8 q.1.toNat, q.2)
  | none, some r => (leBytes 4 (bitsOf (s.rd r).toNat (off % 8 * 8) 32), s)
  | none, none => (List.replicate n 0, s)

end Sys2Proof.Machine
end

