-- ==== Sys2Proof/Machine/Access.lean ====
section
/-!
DEFINITION. Accesses that a unit makes within one command: packet by packet through the network to a local memory, to a register or to a
remote device (R263 to R268, R278 to R281), and to addresses in the format of R70. Such a packet crosses the network within its command;
the packets of the commands of Bus.lean move flit by flit.
-/
namespace Sys2Proof.Machine

/-- What an access answers: a STATUS of R264, the bytes read, and the errors of the memories it met. -/
structure Reply where
  status : Nat
  data : List Byte
  errs : List MemErr
  deriving DecidableEq, Repr

/-! ### Packets -/

/-- A request packet that a master behind NI `srcNi` hands to its interface: `none` where the interface answers DECODE at once
(R263, R267). What lies behind the same interface needs no route (log 10). -/
def State.requestPacket (s : State) (srcNi type tag a len : Nat) (host : Bool) (bytes : List Byte) : Option Packet :=
  match (if host then some 77 else s.targetNi a) with
  | none => none
  | some d =>
    let e := s.chooseEntry srcNi d
    let w := s.rtEntry srcNi e
    if d ≠ srcNi ∧ !w.toNat.testBit 63 then none else
      some { route := w.extractLsb' 0 32, hop := 0, ch := if s.isGtFlow srcNi e then 0 else 1, type := BitVec.ofNat 4 type
             src := BitVec.ofNat 8 srcNi, dst := BitVec.ofNat 8 d, ridx := BitVec.ofNat 8 e, tag := BitVec.ofNat 12 tag
             len := BitVec.ofNat 8 (len - 1), status := 0, space := host, rsvd := 0
             addr := BitVec.ofNat 64 a, data := bytes }

/-- The unit behind an NI that has one alone (R262). -/
def unitOfNi (n : Nat) : Option (Nat × Nat) :=
  if n < 16 then some (0, n) else if 40 ≤ n ∧ n < 52 then some (1, n - 40) else if 58 ≤ n ∧ n < 66 then some (5, n - 58) else none

/-- A request packet put into the network by a master, which freezes when a guaranteed packet does not fit into the queue of its
interface; the packet then goes as best effort (R274). Where several units share an interface, which of them offered the packet is not
in the packet: none freezes (log 10). -/
def State.inject (s : State) (p : Packet) : State :=
  let full := p.ch == 0 && decide (32 < s.gtQueued p.src.toNat + packetFlits p)
  let s1 := s.sendPacket p
  match unitOfNi p.src.toNat with
  | some u => if full && !s.isolated p.src.toNat then s1.freeze u.1 u.2 3 p.addr.toNat 0 else s1
  | none => s1

/-- Flits counted on the links of a path (R272, R273, R285): guaranteed until a link has no slot for the flow. -/
def State.countLinks (s : State) (p : Packet) (gt : Bool) : List Nat → State
  | [] => s
  | l :: ls =>
    let n := packetFlits p
    if gt && s.linkSlot s.tm.cycle l p.src.toNat p.ridx.toNat then
      State.countLinks (s.bump (.NOC_LINK l) Fld.NOC_LINK_GT_FLITS n) p true ls
    else
      let s1 := if gt then s.tally (.NOC_CNT cntGtMiss) n else s
      State.countLinks (s1.bump (.NOC_LINK l) Fld.NOC_LINK_BE_FLITS n) p false ls

/-- How a packet of a unit's access fares in the network. -/
inductive Crossing where
  | reached
  | misrouted
  | absorbed
  /-- The target's domain is not ON (R278). -/
  | asleep
  /-- It cannot go: its NI is isolated (R281), or an earlier packet of its flow is still in the network (R283). -/
  | stuck
  deriving DecidableEq, Repr

/-- A packet taken across the network at once, with what its links and counters show. What lies behind the same interface is reached
without the network. -/
def State.cross (s : State) (p : Packet) : Crossing × State :=
  let d := p.dst.toNat
  let path := s.pathOf p
  let ahead := (s.noc.flight.map (·.pkt) ++ s.noc.arrived).any fun q => q.src == p.src && q.ridx == p.ridx && q.ch == p.ch
  if p.src = p.dst then (.reached, s)
  else if s.isolated p.src.toNat || ahead then (.stuck, s)
  else if path.2 ≠ some d then (.misrouted, (s.countLinks p (p.ch == 0) path.1).nocCount cntRouteErr)
  else if s.isolated d then (.absorbed, s.countLinks p (p.ch == 0) path.1.dropLast)
  else if !s.domOpen (domainOfNi d) then (.asleep, s)
  else (.reached, s.countLinks p (p.ch == 0) path.1)

/-- A demand to wake the domain of an NI for an access of a unit, counted once while it waits (R278, R407). -/
def State.wakeFor (s : State) (srcNi ni : Nat) : State :=
  if s.domOpen (domainOfNi ni) || s.noc.waits.contains (srcNi, ni) then s else
    ({ s with noc := { s.noc with
      waits := (s.noc.waits.filter fun (w : Nat × Nat) => !s.domOpen (domainOfNi w.2)) ++ [(srcNi, ni)] } }.nocCount cntWakes).demandWake (domainOfNi ni)

/-- An access that cannot go on: the command's work waits where it can, and is done when the command is given again; where it cannot, the
access is served all the same (log 10). -/
def State.mustWait (s : State) (srcNi ni : Nat) : Bool × State :=
  match s.noc.wait with
  | some l => (true, { s with noc := { s.noc with wait := some (l ++ [(srcNi, ni)]) } })
  | none => (false, s.wakeFor srcNi ni)

/-- The work of a command that can wait: done, or left for the command's next time with the wakes that it needs demanded. -/
def State.attempt (s : State) (f : State → State) : State :=
  let t := f { s with noc := { s.noc with wait := some [] } }
  match t.noc.wait with
  | some (w :: ws) => (w :: ws).foldl (fun u x => if x.1 = x.2 then u else u.wakeFor x.1 x.2) s
  | _ => { t with noc := { t.noc with wait := s.noc.wait } }

/-- What a command of an engine's work does: nothing while the clocks are halted (R464). -/
def working (f : State → State) (s : State) : Out := .next (if s.halted then s else s.keepQueue (s.attempt f))

/-- NI of the Drover (R262). -/
def niDrover : Nat := 75

/-! ### Responses -/

/-- The response of an access crosses back: whether it arrives (R267, R268, R280). A router's answer does not cross the links of the
target. -/
def State.answered (s : State) (p : Packet) (status : Nat) (data : List Byte) (byTarget : Bool) : Bool × State :=
  if p.src = p.dst ∨ !packetAnswered p then (true, s)
  else if !(s.rtEntry p.dst.toNat p.src.toNat).toNat.testBit 63 then (false, s)
  else
    let r := s.responseTo p status data
    let path := s.pathOf r
    let s1 := s.countLinks r (r.ch == 0) (if byTarget then path.1 else path.1.drop 1)
    if path.2 = some p.src.toNat then (true, s1) else (false, (s1.nocCount cntRouteErr).nocErr r 0)

/-- An access answered with an error, by its target or by a router. -/
def State.failed (s : State) (p : Packet) (status : Nat) (errs : List MemErr) (byTarget : Bool) : Reply × State :=
  let s1 := if p.src = p.dst then s else s.nocErr p (if packetAnswered p then status else 0)
  let a := s1.answered p status [] byTarget
  if a.1 then (⟨status, [], errs⟩, a.2)
  else
    let w := a.2.mustWait p.src.toNat p.src.toNat
    (⟨status, [], errs⟩, w.2)

/-- An access served: its answer crosses back, or the master waits for it without end. -/
def State.succeeded (s : State) (p : Packet) (data : List Byte) : Reply × State :=
  let a := s.answered p stOk data true
  if a.1 then (⟨stOk, data, []⟩, a.2) else (⟨stIsolated, [], []⟩, (a.2.mustWait p.src.toNat p.src.toNat).2)

/-! ### Accesses of device addresses -/

/-- The packets of an access (R264, R287): ranges that end at each multiple of 256 bytes. -/
def pieces256 (a : Nat) : Nat → Nat → List (Nat × Nat)
  | 0, _ => []
  | _, 0 => []
  | fuel + 1, n =>
    let k := min n (256 - a % 256)
    (a, k) :: pieces256 (a + k) fuel (n - k)

/-- One packet of a unit's read, at its target. A read of a remote device within a job is answered with data that the model leaves
open. -/
def State.serveRead (s : State) (p : Packet) (a n : Nat) : Reply × State :=
  match s.place a with
  | .reg => let d := s.unitRegRead (a - regBase) n; d.2.succeeded p d.1
  | .remote =>
    let ok := s.drawBool
    let d := ok.2.drawBytes n
    if ok.1 then d.2.succeeded p d.1 else d.2.failed p stIsolated [] true
  | _ =>
    let r := s.readMem a (n + 1) n
    match r.1 with
    | some bytes => r.2.1.succeeded p bytes
    | none => r.2.1.failed p stEcc r.2.2 true

/-- One packet of a read by a unit behind NI `srcNi`. -/
def State.readPiece (s : State) (srcNi a n : Nat) : Reply × State :=
  match s.requestPacket srcNi pktRead 0 a n false [] with
  | none => (⟨stDecode, [], []⟩, s)
  | some p =>
    let x := s.cross p
    match x.1 with
    | .reached => x.2.serveRead p a n
    | .misrouted => x.2.failed p stDecode [] false
    | .absorbed => (x.2.nocCount cntErrResp).failed p stIsolated [] false
    | .asleep => let w := x.2.mustWait srcNi p.dst.toNat; if w.1 then (⟨stIsolated, [], []⟩, w.2) else w.2.serveRead p a n
    | .stuck => let w := x.2.mustWait srcNi srcNi; if w.1 then (⟨stIsolated, [], []⟩, w.2) else w.2.serveRead p a n

/-- The packets of a read in turn: the first error stands for the whole. -/
def State.readPieces (s : State) (srcNi : Nat) : List (Nat × Nat) → Reply × State
  | [] => (⟨stOk, [], []⟩, s)
  | (a, n) :: rest =>
    let r := s.readPiece srcNi a n
    let t := State.readPieces r.2 srcNi rest
    if r.1.status ≠ stOk then (⟨r.1.status, [], r.1.errs ++ t.1.errs⟩, t.2)
    else if t.1.status ≠ stOk then (t.1, t.2) else (⟨stOk, r.1.data ++ t.1.data, []⟩, t.2)

/-- `n` bytes read by a unit behind NI `srcNi` at a device address. -/
def State.agentRead (s : State) (srcNi a n : Nat) : Reply × State := s.readPieces srcNi (pieces256 a n n)

/-! ### What a target makes of a write -/

/-- Whether a range of a Fold's window touches what no other master may write: mailboxes, and the active program half of a Fold that is
not RESTORED (R183, R456). -/
def State.refuses (s : State) (a n : Nat) : Bool :=
  let f := (a - foldBase) / 0x1000000
  let o := a % 0x1000000
  let half := 0x800000 + 0x80000 * SMap.get zeroNat s.dsp.half f
  decide (foldBase ≤ a) && decide (a < foldBase + 16 * 0x1000000)
    && ((decide (o < 0x400000) && decide (0x3FFE00 < o + n))
      || (s.unitState 0 f != 5 && decide (o < half + 0x80000) && decide (half < o + n)))

/-- Device address of an offset in weight memory. -/
def mceAddr (m off : Nat) : Nat := mceBase + 0x100000 * m + off

/-- Whether a line of weight memory is valid. -/
def State.lineValid (s : State) (m line : Nat) : Bool := (SMap.get zeroNat s.mce.valid m).testBit line

/-- A line of weight memory becomes valid. -/
def State.setLine (s : State) (m line : Nat) : State :=
  if s.lineValid m line then s else
    { s with mce := { s.mce with valid := SMap.set zeroNat s.mce.valid m (SMap.get zeroNat s.mce.valid m + 2 ^ line) } }.setFld
      (.MCE_STATUS m) Fld.MCE_STATUS_WVALID (s.fld (.MCE_STATUS m) Fld.MCE_STATUS_WVALID + 1)

/-- The lines of weight memory that a write through an MCE window covers whole become valid (R122). -/
def State.windowLines (s : State) (a n : Nat) : State :=
  if a < mceBase ∨ mceBase + 12 * 0x100000 ≤ a then s else
    let m := (a - mceBase) / 0x100000
    let o := a % 0x100000
    let lo := ceilDiv o 64
    let hi := min 8192 ((o + n) / 64)
    ((List.range (hi - lo)).map (lo + ·)).foldl (fun t l => t.setLine m l) s

/-- Bytes written to a memory at its target: refused, written, or dropped for an uncorrectable word (R183, R294). -/
def State.targetWrite (s : State) (a : Nat) (bytes : List Byte) : Reply × State :=
  if s.refuses a bytes.length then (⟨stRefused, [], []⟩, s) else
    let r := s.writeMem a (bytes.length + 1) bytes
    (⟨if r.2 = [] then stOk else stEcc, [], r.2⟩, r.1.windowLines a bytes.length)

/-- One packet of a unit's write, at its target; a register or a remote device takes it as a packet of the network. -/
def State.serveWrite (s : State) (p : Packet) (a : Nat) (bytes : List Byte) : Reply × State :=
  let r := s.targetWrite a bytes
  if r.1.status = stOk then r.2.succeeded p [] else r.2.failed p r.1.status r.1.errs true

/-- One packet of a write by a unit behind NI `srcNi`: answered, or posted (`type`). A posted packet that cannot go on at once stays in
the network. -/
def State.writePiece (s : State) (srcNi type a : Nat) (bytes : List Byte) : Reply × State :=
  match s.requestPacket srcNi type 0 a bytes.length false bytes with
  | none => (⟨stDecode, [], []⟩, s)
  | some p =>
    if s.place a = .reg ∨ s.place a = .remote then (⟨stOk, [], []⟩, s.inject { p with type := BitVec.ofNat 4 pktWrite }) else
    let x := s.cross p
    let later (ni : Nat) : Reply × State :=
      if type = pktWrite then (⟨stOk, [], []⟩, s.inject p)
      else
        let w := x.2.mustWait srcNi ni
        if w.1 then (⟨stIsolated, [], []⟩, w.2) else w.2.serveWrite p a bytes
    match x.1 with
    | .reached => x.2.serveWrite p a bytes
    | .misrouted => x.2.failed p stDecode [] false
    | .absorbed => (x.2.nocCount cntWrDropped).failed p stIsolated [] false
    | .asleep => later p.dst.toNat
    | .stuck => later srcNi

/-- The packets of a write in turn: the first error stands for the whole. -/
def State.writePieces (s : State) (srcNi type : Nat) : List (Nat × Nat) → List Byte → Reply × State
  | [], _ => (⟨stOk, [], []⟩, s)
  | (a, n) :: rest, bs =>
    let r := s.writePiece srcNi type a (bs.take n)
    let t := State.writePieces r.2 srcNi type rest (bs.drop n)
    (⟨if r.1.status = stOk then t.1.status else r.1.status, [], r.1.errs ++ t.1.errs⟩, t.2)

/-- Bytes written by a unit at a device address, each packet answered. -/
def State.agentWrite (s : State) (srcNi a : Nat) (bytes : List Byte) : Reply × State :=
  s.writePieces srcNi pktWriteAck (pieces256 a bytes.length bytes.length) bytes

/-- Bytes written by a unit at a device address as posted writes. -/
def State.agentPost (s : State) (srcNi a : Nat) (bytes : List Byte) : Reply × State :=
  s.writePieces srcNi pktWrite (pieces256 a bytes.length bytes.length) bytes

/-- The errors of a reply that belong to memories act as R294 sets out. -/
def State.replyErrors (s : State) (r : Reply) (job : Option (Eng × Nat)) : State := s.uncorrectables r.errs job

/-- Whether an error touches Pasture memory. -/
def pastureErr (es : List MemErr) : Bool := es.any fun m => decide (17 ≤ m.group) && decide (m.group ≤ 40)

/-- An error response that an engine other than a Move engine took at address `a`: a job fault with the code of its cause, and the
responder's own failure recorded apart (R442). -/
def State.engineFault (s : State) (e : Eng) (lane a : Nat) (r : Reply) : State :=
  let s1 := s.uncorrectables (r.errs.filter fun m => (unitOfGroup m.group).isSome) none
  if r.status = stEcc then s1.jobFault e lane 0x10 ((r.errs.head?.map (·.addr)).getD a) ((r.errs.head?.map (·.group)).getD 0) (pastureErr r.errs)
  else if r.status = stIsolated ∧ s1.place a = .remote then
    let b := s1.drawBool
    let f := b.2.draw 14
    f.2.jobFault e lane (if b.1 then 0x40 else 0x41) a f.1 false
  else s1.jobFault e lane 0x22 a (r.status % 8 + ((s1.targetNi a).getD 0) * 256) false

/-- Whether an address in the format of R70 selects the device. -/
def isDeviceAddr (a : Nat) : Bool := bitsOf a 63 1 == 1

/-- Whether an address in the format of R70 has an RSVD bit set. -/
def badAddr70 (a : Nat) : Bool := a % 64 != 0 || (isDeviceAddr a && bitsOf a 48 15 != 0)

/-- The STATUS that a failed completion gives (R485). -/
def hostStatus : HostData → Nat
  | .data _ => stOk
  | .unsupported => stDecode
  | .aborted => stRefused
  | .poisoned => stEcc
  | .timedOut => stIsolated

/-- A packet of a unit to the PCI Express endpoint, NI 77: `some` where it does not come there (R263, R267, R268, R280, R281). -/
def State.toHost (s : State) (p : Packet) : Option Reply × State :=
  let x := s.cross p
  match x.1 with
  | .reached => (none, x.2)
  | .misrouted => let r := x.2.failed p stDecode [] false; (some r.1, r.2)
  | .absorbed =>
    let r := (x.2.nocCount (if p.type.toNat = pktRead then cntErrResp else cntWrDropped)).failed p stIsolated [] false
    (some r.1, r.2)
  | .asleep => (none, x.2)
  | .stuck =>
    let w := x.2.mustWait p.src.toNat p.src.toNat
    (if w.1 then some ⟨stIsolated, [], []⟩ else none, w.2)

/-- `n` bytes read at a PCI Express bus address: those at offset `o` of what the host answered. While the link is down the answer is
ISOLATED; a read that fails counts in RD_FAIL (R434, R485). -/
def State.hostRead (s : State) (srcNi a n o : Nat) (host : HostData) : Reply × State :=
  match s.requestPacket srcNi pktRead 0 a n true [] with
  | none => (⟨stDecode, [], []⟩, s)
  | some p => match s.toHost p with
    | (some r, s0) => (r, s0)
    | (none, s0) =>
      let s1 := if s0.linkUp then s0.emit (.hostRead a n) else s0
      match (if s0.linkUp then host else .timedOut) with
      | .data b => s1.succeeded p (slice b o n)
      | e => (s1.bump .HST_STATS Fld.HST_STATS_RD_FAIL).failed p (hostStatus e) [] true

/-- Bytes written by a unit at a PCI Express bus address, answered or posted. -/
def State.hostPost (s : State) (srcNi type a : Nat) (bytes : List Byte) : Reply × State :=
  match s.requestPacket srcNi type 0 a bytes.length true bytes with
  | none => (⟨stDecode, [], []⟩, s)
  | some p => match s.toHost p with
    | (some r, s0) => (r, s0)
    | (none, s0) =>
      if s0.linkUp ∨ type = pktWrite then (s0.hostWrite a bytes).succeeded p []
      else (s0.hostWrite a bytes).failed p stIsolated [] true

/-- Bytes read by a unit at an address in the format of R70: from the device, or what the host's memory answered. -/
def State.read70 (s : State) (srcNi a n : Nat) (host : HostData) : Option (List Byte) × State :=
  if isDeviceAddr a then
    let r := s.agentRead srcNi (bitsOf a 0 48) n
    (if r.1.status = stOk then some r.1.data else none, r.2.replyErrors r.1 none)
  else
    let r := s.hostRead srcNi a n 0 host
    (if r.1.status = stOk then some r.1.data else none, r.2)

/-- A completion record or result written at an address in the format of R70: a write that fails is lost, with no record of a fault
(R77). -/
def State.post70 (s : State) (srcNi a : Nat) (bytes : List Byte) : State :=
  if isDeviceAddr a then (s.agentPost srcNi (bitsOf a 0 48) bytes).2 else (s.hostPost srcNi pktWrite a bytes).2

/-- Bytes written at an address in the format of R70 as posted writes. -/
def State.write70 (s : State) (srcNi a : Nat) (bytes : List Byte) : State :=
  if isDeviceAddr a then
    let r := s.agentPost srcNi (bitsOf a 0 48) bytes
    r.2.replyErrors r.1 none
  else (s.hostPost srcNi pktWrite a bytes).2

end Sys2Proof.Machine
end

