-- ==== Sys2Proof/Machine/Tables.lean ====
section
/-!
DEFINITION. Tables of the 3GPP specifications that the spec refers to and does not reprint: modulation orders and target code
rates (TS 38.214 clauses 5.1.3.1 and 6.1.4.1, TS 36.213 table 8.6.1-1 and 8.6.1-3), base graphs and code block counts (TS 38.212
clauses 5.2.2 and 7.2.2, TS 36.212 clause 5.1.2). PRESUMED: taken from those specifications; safe where a statement does not
rest on them. Log entry 31.
-/
namespace Sys2Proof.Machine

/-- Modulation order of an MCS: tables 1 to 3 of TS 38.214 are MCS_TABLE 0 to 2, the transform-precoding table is 3; `pi2` selects
pi/2-BPSK for the two lowest entries of that table. -/
def nrQm (table mcs : Nat) (pi2 : Bool) : Nat :=
  match table with
  | 0 => if mcs ≤ 9 then 2 else if mcs ≤ 16 then 4 else if mcs ≤ 28 then 6 else 2 * (mcs - 28)
  | 1 => if mcs ≤ 4 then 2 else if mcs ≤ 10 then 4 else if mcs ≤ 19 then 6 else if mcs ≤ 27 then 8 else 2 * (mcs - 27)
  | 2 => if mcs ≤ 14 then 2 else if mcs ≤ 20 then 4 else if mcs ≤ 28 then 6 else 2 * (mcs - 28)
  | _ =>
    let q := if pi2 then 1 else 2
    if mcs ≤ 1 then q else if mcs ≤ 9 then 2 else if mcs ≤ 16 then 4 else if mcs ≤ 27 then 6
    else if mcs = 28 then q else 2 * (mcs - 28)

/-- Modulation order of an LTE PUSCH MCS: TS 36.213 table 8.6.1-1 (0) or 8.6.1-3 (1). -/
def lteQm (table mcs : Nat) : Nat :=
  if table = 0 then if mcs ≤ 10 then 2 else if mcs ≤ 20 then 4 else 6
  else if mcs ≤ 5 then 2 else if mcs ≤ 13 then 4 else if mcs ≤ 22 then 6 else 8

/-- Twice the target code rate × 1,024 of MCS_TABLE 0. -/
def rates0 : List Nat := [120, 157, 193, 251, 308, 379, 449, 526, 602, 679, 340, 378, 434, 490, 553, 616, 658, 438, 466, 517,
  567, 616, 666, 719, 772, 822, 873, 910, 948].map (2 * ·)

/-- As `rates0` for MCS_TABLE 1. -/
def rates1 : List Nat := [240, 386, 616, 898, 1204, 756, 868, 980, 1106, 1232, 1316, 932, 1034, 1134, 1232, 1332, 1438, 1544,
  1644, 1746, 1365, 1422, 1508, 1594, 1682, 1770, 1833, 1896]

/-- As `rates0` for MCS_TABLE 2. -/
def rates2 : List Nat := [30, 40, 50, 64, 78, 99, 120, 157, 193, 251, 308, 379, 449, 526, 602, 340, 378, 434, 490, 553, 616, 438,
  466, 517, 567, 616, 666, 719, 772].map (2 * ·)

/-- As `rates0` for the transform-precoding table; the two lowest entries are per modulation order `q`. -/
def rates3 (q : Nat) : List Nat := [480 / q, 628 / q] ++ ([193, 251, 308, 379, 449, 526, 602, 679, 340, 378, 434, 490, 553, 616,
  658, 466, 517, 567, 616, 666, 719, 772, 822, 873, 910, 948].map (2 * ·))

/-- Target code rate × 2,048 of an MCS; none for a reserved one. -/
def nrRate (table mcs : Nat) (pi2 : Bool) : Option Nat :=
  match table with
  | 0 => rates0[mcs]?
  | 1 => rates1[mcs]?
  | 2 => rates2[mcs]?
  | _ => (rates3 (if pi2 then 1 else 2))[mcs]?

/-- Whether base graph 2 serves a block of `a` bits at a code rate × 2,048. -/
def usesGraph2 (a rate : Nat) : Bool :=
  decide (a ≤ 292) || (decide (a ≤ 3824) && decide (100 * rate ≤ 67 * 2048)) || decide (rate ≤ 512)

/-- Code blocks of an NR transport block of `a` bits. -/
def nrBlocks (a : Nat) (graph2 : Bool) : Nat :=
  let b := a + (if a > 3824 then 24 else 16)
  let k := if graph2 then 3840 else 8448
  if b ≤ k then 1 else ceilDiv b (k - 24)

/-- Code blocks of an LTE transport block of `a` bits. -/
def lteBlocks (a : Nat) : Nat := if a + 24 ≤ 6144 then 1 else ceilDiv (a + 24) (6144 - 24)

end Sys2Proof.Machine
end

