-- ==== Sys2Proof/Machine/Entries.lean ====
section
/-!
DEFINITION. Slot request descriptors and their entries (R69 to R72), with the checks of R132, R138, R140, R170, R173 and R179.
-/
namespace Sys2Proof.Machine

/-! ### Header fields (R69, R81) -/

def reqType (d : List Byte) : Nat := leAt d 0 1
def reqFlags (d : List Byte) : Nat := leAt d 1 1
def reqReplay (d : List Byte) : Bool := reqFlags d % 2 == 1
def reqReplace (d : List Byte) : Bool := reqFlags d / 2 % 2 == 1
def reqCell (d : List Byte) : Nat := leAt d 2 1 % 128
def reqDir (d : List Byte) : Nat := leAt d 3 1
def reqTag (d : List Byte) : Nat := leAt d 4 4
def reqFrame (d : List Byte) : Nat := leAt d 8 4 % 2 ^ 20
def reqSlot (d : List Byte) : Nat := bitsOf (leAt d 8 4) 20 8
def reqCount (d : List Byte) : Nat := leAt d 0x0C 2
def reqExt (d : List Byte) : Nat := leAt d 0x10 8
def reqResult (d : List Byte) : Nat := leAt d 0x18 8
def cmdCode (d : List Byte) : Nat := leAt d 0x20 1
def cmdDest (d : List Byte) : Nat := leAt d 0x21 1
def cmdEff (d : List Byte) : Nat := leAt d 0x24 4

/-! ### Entry fields (R71) -/

def entKind (e : List Byte) : Nat := leAt e 0x00 1
def entFlags (e : List Byte) : Nat := leAt e 0x01 1
def entNdi (e : List Byte) : Bool := entFlags e % 2 == 1
def entTp (e : List Byte) : Bool := entFlags e / 2 % 2 == 1
def entRnti (e : List Byte) : Nat := leAt e 0x02 2
def entPrbStart (e : List Byte) : Nat := leAt e 0x04 2
def entPrbCount (e : List Byte) : Nat := leAt e 0x06 2
def entSymStart (e : List Byte) : Nat := leAt e 0x08 1
def entSymCount (e : List Byte) : Nat := leAt e 0x09 1
def entLayers (e : List Byte) : Nat := leAt e 0x0A 1
def entMcs (e : List Byte) : Nat := leAt e 0x0B 1
def entMcsTable (e : List Byte) : Nat := leAt e 0x0C 1
def entHarq (e : List Byte) : Nat := leAt e 0x0D 1
def entRv (e : List Byte) : Nat := leAt e 0x0E 1
def entPortBase (e : List Byte) : Nat := leAt e 0x0F 1
def entTbs (e : List Byte) : Nat := leAt e 0x10 4
def entDmrsMap (e : List Byte) : Nat := leAt e 0x14 2
def entScrId (e : List Byte) : Nat := leAt e 0x16 2
def entDataAddr (e : List Byte) : Nat := leAt e 0x18 8
def entDataLen (e : List Byte) : Nat := leAt e 0x20 4
def entWeightSet (e : List Byte) : Nat := leAt e 0x24 2

/-- The 24 kind-specific bytes as a number (R138, R179). -/
def entParams (e : List Byte) : Nat := leAt e 0x28 24

/-- A kind-specific field: bits from the start of the parameters. -/
def entParam (e : List Byte) (lo w : Nat) : Nat := bitsOf (entParams e) lo w

/-- PI2BPSK of a PUSCH entry. -/
def entPi2 (e : List Byte) : Bool := entParam e 22 1 == 1

/-! ### RSVD fields -/

/-- The kind-specific fields of a kind, as first bit and width (R138, R179); all other bits are RSVD. -/
def paramFields : Nat → List (Nat × Nat)
  | 1 => [(0, 16), (16, 8), (24, 2), (32, 32), (64, 16)]
  | 2 => [(0, 16), (16, 7), (24, 2), (32, 16), (48, 16), (64, 16), (80, 14)]
  | 3 => [(0, 8), (8, 5), (16, 16), (32, 16), (48, 4), (56, 8), (64, 16), (80, 8), (96, 16), (112, 16), (128, 16)]
  | 4 => [(0, 5), (8, 8), (16, 8), (24, 4), (32, 16)]
  | 5 => [(0, 8), (8, 2), (16, 12), (32, 16), (48, 2)]
  | 6 => [(0, 2), (8, 3), (16, 16), (32, 16), (48, 4), (64, 16), (80, 16)]
  | 7 => [(0, 1), (32, 32), (64, 16)]
  | 8 => [(0, 5), (8, 3), (16, 16), (32, 8), (48, 16), (64, 12)]
  | _ => []

/-- A number without some of its fields. -/
def clearFields (n : Nat) (fs : List (Nat × Nat)) : Nat := fs.foldl (fun m f => setBitsOf m f.1 f.2 0) n

/-- Whether an RSVD field of an entry is not 0, its DATA_ADDR included (R70, R71). -/
def entryRsvd (e : List Byte) : Bool :=
  entFlags e / 4 != 0 || entPrbStart e / 512 != 0 || entPrbCount e / 1024 != 0 || entDmrsMap e / 2 ^ 14 != 0
    || entScrId e / 1024 != 0 || leAt e 0x26 2 != 0 || clearFields (entParams e) (paramFields (entKind e)) != 0
    || (entDataAddr e != 0 && badAddr70 (entDataAddr e))

/-! ### Field ranges -/

/-- Whether a number is of the form 2^a 3^b 5^c, for numbers up to 273 (R132). -/
def smooth (n : Nat) : Bool := decide (0 < n) && decide ((2 ^ 8 * 3 ^ 5 * 5 ^ 3) % n = 0)

/-- Whether a field common to all kinds is out of range (R71, R133); kinds without a transport block have TBS 0, and those that neither read
nor write data DATA_ADDR 0. -/
def commonBad (e : List Byte) (uplink : Bool) : Bool :=
  decide (entPrbStart e > 272) || decide (entPrbCount e < 1) || decide (273 < entPrbStart e + entPrbCount e)
    || decide (entSymStart e > 13) || decide (entSymCount e < 1) || decide (14 < entSymStart e + entSymCount e)
    || decide (entLayers e < 1) || decide ((if uplink then 8 else 16) < entLayers e) || decide (entMcs e > 31)
    || decide (entMcsTable e > 3) || decide (entHarq e > 31) || decide (entRv e > 3) || decide (entPortBase e > 15)
    || (entTp e && !uplink) || decide (entDataLen e < ceilDiv (entTbs e) 8) || decide (entWeightSet e > 1023)
    || ([3, 4, 5, 6].contains (entKind e) && entTbs e != 0) || ([4, 5].contains (entKind e) && entDataAddr e != 0)

/-- Whether a kind-specific field is out of range (R132, R138, R179). -/
def kindBad (e : List Byte) : Bool :=
  let p := entParam e
  match entKind e with
  | 1 => p 19 2 == 3
  | 2 => (entTp e && decide (p 0 16 > 1007)) || p 19 2 == 3 || decide (p 32 16 > 1023) || decide (p 48 16 > 1023)
      || decide (p 64 16 > 1023) || decide (entLayers e > 4) || decide (8 < entPortBase e + entLayers e)
      || (entTp e && (entLayers e != 1 || !smooth (entPrbCount e))) || (entMcsTable e == 3 && !entTp e)
  | 3 => decide (p 0 8 > 4) || p 11 2 == 3 || decide (p 16 16 > 272) || decide (p 32 16 > 1023) || decide (p 48 4 > 11)
      || decide (p 64 16 > 1023) || decide (p 80 8 > 4) || decide (entPrbCount e > 16)
  | 4 => p 0 2 == 3 || decide ([2, 4, 8].getD (p 0 2) 0 ≤ p 2 3) || decide (p 8 8 > 11)
      || !([1, 2, 4].contains (p 16 8)) || p 24 2 == 3 || p 26 2 == 3 || decide (p 32 16 > 1023)
      || entPrbStart e % 4 != 0 || entPrbCount e % 4 != 0
  | 5 => decide (p 0 8 < 1) || decide (18 < p 0 8) || decide (p 32 8 > 13) || decide (p 40 8 < 2) || decide (12 < p 40 8)
  | 6 =>
    let pay := p 32 16
    p 48 2 == 3 || decide (p 64 16 > 274)
      || (match p 0 2 with
        | 0 => decide (p 8 3 > 4) || decide (pay < 12) || decide (140 < pay) || entPrbStart e % 6 != 0
            || entPrbCount e % 6 != 0 || decide (entSymCount e > 3)
        | 1 => decide (p 8 3 > 3) || decide (pay < 8) || decide (70 < pay)
        | 2 => decide (p 8 3 > 3) || decide (pay > 1)
        | _ => decide (p 8 3 > 3) || decide (pay > 3))
  | 8 => decide (p 16 16 > 63) || decide (p 32 8 > 15) || decide (p 48 16 > 1023)
  | _ => false

/-- UCI bytes of an entry at DATA_ADDR, with where they start (R140, R180). -/
def uciBytes (e : List Byte) : Nat × Nat :=
  let p := entParam e
  let b (n : Nat) : Nat := ceilDiv n 8
  match entKind e with
  | 2 => (ceilDiv (ceilDiv (entTbs e) 8) 8 * 8, b (p 32 16) + b (p 48 16) + b (p 64 16))
  | 8 => (ceilDiv (ceilDiv (entTbs e) 8) 8 * 8, b (p 16 16) + b (p 32 8) + b (p 48 16))
  | 3 => (0, b (p 64 16) + b (p 96 16) + b (p 112 16))
  | _ => (0, 0)

/-- Whether DATA_ADDR and DATA_LEN cannot hold what the entry writes (R140). -/
def uciBad (e : List Byte) : Bool :=
  let u := uciBytes e
  if entKind e = 2 ∨ entKind e = 3 ∨ entKind e = 8 then
    if entDataAddr e = 0 then
      if entKind e = 3 then decide (entParam e 64 16 > 16) || entParam e 96 16 != 0 || entParam e 112 16 != 0 else u.2 != 0
    else u.2 != 0 && decide (entDataLen e < u.1 + u.2)
  else false

/-- Whether base graph 2 serves an entry (R153). -/
def entGraph2 (e : List Byte) : Bool :=
  match nrRate (entMcsTable e) (entMcs e) (entPi2 e) with
  | some r => usesGraph2 (entTbs e) r
  | none => Config.reservedGraph2 (entMcsTable e) (entMcs e) (entTbs e)

/-- Code blocks of a data entry (R153, R170). -/
def entBlocks (e : List Byte) : Nat :=
  if entKind e = 8 ∨ entKind e = 7 then lteBlocks (entTbs e) else nrBlocks (entTbs e) (entGraph2 e)

/-- Bytes of a downlink entry that acceptance copies to staging (R173). -/
def stagedLen (e : List Byte) : Nat :=
  match entKind e with
  | 1 => ceilDiv (entTbs e) 8
  | 7 => ceilDiv (entTbs e) 8
  | 6 => if entParam e 0 2 ≤ 1 then ceilDiv (entParam e 32 16) 8 else 0
  | _ => 0

/-- Whether an uplink data entry fails R170. -/
def State.dataBad (s : State) (e : List Byte) (cell : Nat) (replay : Bool) (replaced : Option Nat) : Bool :=
  let tbs := entTbs e
  tbs == 0 || tbs % 8 != 0 || decide (tbs < (if entKind e = 8 then 16 else 24))
    || decide (s.fld (.DEC_CELL_B cell) Fld.DEC_CELL_B_NPROC ≤ entHarq e)
    || decide (s.fld (.DEC_CELL_B cell) Fld.DEC_CELL_B_CB_SLOTS < entBlocks e)
    || s.fld (.DEC_CELL_A cell) Fld.DEC_CELL_A_VALID == 0
    || s.drv.store.any fun q => q.cell == cell && q.dir == 1 && q.replay == replay && replaced != some q.id
        && q.entries.any fun o => (entKind o == 2 || entKind o == 8) && entRnti o == entRnti e && entHarq o == entHarq e

/-- Whether an entry fails with ENTRY_FIELD (R72 check 7); `build` is that of the almanac in force for its slot (R173). -/
def State.entryBad (s : State) (build : Word) (e : List Byte) (cell slot index : Nat) (uplink replay : Bool)
    (replaced : Option Nat) : Bool :=
  entKind e != 0 && (commonBad e uplink || kindBad e || uciBad e
    || ((entKind e == 2 || entKind e == 8) && s.dataBad e cell replay replaced)
    || (!uplink && decide ((Config.stagingBytes build cell slot index).toNat < stagedLen e)))

/-! ### CSI-RS (TS 38.211 clause 7.4.1.5) -/

/-- The places of a row of table 7.4.1.5.3-1: each CDM group's index in the k list, an offset added to it, whether its symbol counts
from L1, and an offset from that symbol. -/
def csirsGroups (row : Nat) : List (Nat × Nat × Bool × Nat) :=
  let ks (n : Nat) (l1 : Bool) (d : Nat) : List (Nat × Nat × Bool × Nat) := (List.range n).map fun i => (i, 0, l1, d)
  match row with
  | 1 => [(0, 0, false, 0), (0, 4, false, 0), (0, 8, false, 0)]
  | 4 => [(0, 0, false, 0), (0, 2, false, 0)]
  | 5 => ks 1 false 0 ++ ks 1 false 1
  | 6 => ks 4 false 0
  | 7 => ks 2 false 0 ++ ks 2 false 1
  | 8 => ks 2 false 0
  | 9 => ks 6 false 0
  | 10 => ks 3 false 0
  | 11 => ks 4 false 0 ++ ks 4 false 1
  | 12 => ks 4 false 0
  | 13 => ks 3 false 0 ++ ks 3 false 1 ++ ks 3 true 0 ++ ks 3 true 1
  | 14 => ks 3 false 0 ++ ks 3 true 0
  | 15 => ks 3 false 0
  | 16 => ks 4 false 0 ++ ks 4 false 1 ++ ks 4 true 0 ++ ks 4 true 1
  | 17 => ks 4 false 0 ++ ks 4 true 0
  | 18 => ks 4 false 0
  | _ => ks 1 false 0

/-- Subcarriers and symbols that the CDM of a row spans: 1 and 1 without CDM. -/
def csirsCdm (row : Nat) : Nat × Nat :=
  if row ≤ 2 then (1, 1) else if [8, 10, 12, 14, 17].contains row then (2, 2) else if row = 15 ∨ row = 18 then (2, 4) else (2, 1)

/-- Ports of a CSI-RS entry. -/
def csirsPorts (e : List Byte) : Nat :=
  let row := entParam e 0 8
  if row ≤ 2 then 1 else (csirsGroups row).length * (csirsCdm row).1 * (csirsCdm row).2

/-- The subcarrier k that the i-th set bit of the allocation names. -/
def csirsK (e : List Byte) (i : Nat) : Nat :=
  let row := entParam e 0 8
  let width := if row = 1 then 4 else if row = 2 then 12 else if row = 4 then 3 else 6
  let f := (((List.range width).filter (entParam e 16 12).testBit).getD i 0)
  if row ≤ 2 then f else if row = 4 then 4 * f else 2 * f

/-- Whether a CSI-RS entry has signals in a PRB (DENSITY). -/
def csirsPrb (e : List Byte) (prb : Nat) : Bool :=
  decide (entPrbStart e ≤ prb) && decide (prb < entPrbStart e + entPrbCount e)
    && (match entParam e 8 2 with | 0 => prb % 2 == 0 | 1 => prb % 2 == 1 | _ => true)

/-- The CDM groups of an entry as first subcarrier in the PRB and first symbol. -/
def csirsPlaces (e : List Byte) : List (Nat × Nat) :=
  (csirsGroups (entParam e 0 8)).map fun g => (csirsK e g.1 + g.2.1, entParam e (if g.2.2.1 then 40 else 32) 8 + g.2.2.2)

/-- Whether a CSI-RS entry occupies subcarrier `k` of the cell in a symbol (R175). -/
def csirsRe (e : List Byte) (sym k : Nat) : Bool :=
  let cdm := csirsCdm (entParam e 0 8)
  csirsPrb e (k / 12) && (csirsPlaces e).any fun g =>
    decide (g.1 ≤ k % 12) && decide (k % 12 < g.1 + cdm.1) && decide (g.2 ≤ sym) && decide (sym < g.2 + cdm.2)

/-! ### Where downlink signals lie -/

/-- The REGs of CCE `j` of a CORESET (TS 38.211 clause 7.3.2.2). -/
def cceRegs (e : List Byte) (j : Nat) : List Nat :=
  let nreg := entPrbCount e * entSymCount e
  let il := [0, 2, 3, 6].getD (entParam e 50 2) 0
  let l := if il = 0 then 6 else [2, 3, 6].getD (entParam e 48 2) 6
  let n := nreg / l
  let c := n / max 1 il
  let f (x : Nat) : Nat := if il = 0 then x else (x % il * c + x / il + entParam e 64 16) % max 1 n
  (List.range (6 / l)).flatMap fun i => (List.range l).map fun k => f (6 * j / l + i) * l + k

/-- Whether a cell-specific reference signal lies on subcarrier `k` of a symbol (TS 36.211 clause 6.10.1.2). -/
def isCrs (ports pci slot sym k : Nat) : Bool :=
  let l := sym % 7
  let ns := 2 * slot + sym / 7
  let at_ (v : Nat) : Bool := k % 6 == (v + pci) % 6
  (l == 0 && (at_ 0 || (decide (1 ≤ ports) && at_ 3))) || (l == 4 && (at_ 3 || (decide (1 ≤ ports) && at_ 0)))
    || (decide (2 ≤ ports) && l == 1 && (at_ (3 * (ns % 2)) || at_ (3 + 3 * (ns % 2))))

/-- Whether a downlink entry fills a PRB of a symbol (R100): the PRBs of its data, DMRS, CSI-RS or CORESET REGs; in an LTE cell a control
entry has its part of the whole control region. -/
def entFills (lte : Bool) (e : List Byte) (sym prb : Nat) : Bool :=
  let inPrbs := decide (entPrbStart e ≤ prb) && decide (prb < entPrbStart e + entPrbCount e)
  let inSyms := decide (entSymStart e ≤ sym) && decide (sym < entSymStart e + entSymCount e)
  match entKind e with
  | 1 => inPrbs && (inSyms || (entDmrsMap e).testBit sym)
  | 7 => inPrbs && inSyms
  | 5 => csirsPrb e prb && (csirsPlaces e).any fun g => decide (g.2 ≤ sym) && decide (sym < g.2 + (csirsCdm (entParam e 0 8)).2)
  | 6 =>
    if lte then decide (sym < 4) else
      inPrbs && inSyms && ((List.range (2 ^ entParam e 8 3)).any fun i =>
        (cceRegs e (entParam e 16 16 + i)).contains ((prb - entPrbStart e) * entSymCount e + (sym - entSymStart e)))
  | _ => false

end Sys2Proof.Machine
end

