-- ==== Sys2Proof/Machine/Crypto.lean ====
section
/-!
DEFINITION. Digests and signatures: SHA-256 and SHA-384 (FIPS 180-4), HMAC-SHA-256 (R460) and ECDSA over P-384 (R425, R44). The
algorithms and their constants are those of the standards that the spec names (PRESUMED, log 31).
-/
namespace Sys2Proof.Machine

/-! ### SHA-2 -/

/-- The primes below 410: the first 80. -/
def smallPrimes : List Nat :=
  (List.range 410).filter fun n => decide (2 ≤ n) && (List.range n).all fun d => decide (d < 2) || n % d != 0

/-- The integer part of the k-th root of `n`, found bit by bit from bit `b` − 1 down. -/
def intRoot (k n : Nat) : Nat → Nat → Nat
  | 0, r => r
  | b + 1, r => intRoot k n b (if (r + 2 ^ b) ^ k ≤ n then r + 2 ^ b else r)

/-- The first `w` bits of the fractional part of the k-th root of a prime. -/
def rootFraction (k w p : Nat) : Nat := intRoot k (p * 2 ^ (k * w)) (w + 5) 0 % 2 ^ w

/-- A member of the SHA-2 family: word width, rounds, the rotations of Σ0, Σ1, σ0 and σ1 (the last of a σ a shift), the first prime of
its initial value, and its output in bytes. -/
structure Sha where
  w : Nat
  rounds : Nat
  big0 : Nat × Nat × Nat
  big1 : Nat × Nat × Nat
  small0 : Nat × Nat × Nat
  small1 : Nat × Nat × Nat
  iv : Nat
  out : Nat
  deriving DecidableEq, Repr

/-- SHA-256. -/
def sha256Kind : Sha := ⟨32, 64, (2, 13, 22), (6, 11, 25), (7, 18, 3), (17, 19, 10), 0, 32⟩
/-- SHA-384. -/
def sha384Kind : Sha := ⟨64, 80, (28, 34, 39), (14, 18, 41), (1, 8, 7), (19, 61, 6), 8, 48⟩

/-- A word rotated right. -/
def rotr (w x n : Nat) : Nat := x / 2 ^ n + x % 2 ^ n * 2 ^ (w - n)

/-- Σ: three rotations. -/
def Sha.big (k : Sha) (r : Nat × Nat × Nat) (x : Nat) : Nat := rotr k.w x r.1 ^^^ rotr k.w x r.2.1 ^^^ rotr k.w x r.2.2

/-- σ: two rotations and a shift. -/
def Sha.small (k : Sha) (r : Nat × Nat × Nat) (x : Nat) : Nat := rotr k.w x r.1 ^^^ rotr k.w x r.2.1 ^^^ x / 2 ^ r.2.2

/-- The message schedule of a block, its words in order. -/
def Sha.schedule (k : Sha) : Nat → List Nat → List Nat
  | 0, ws => ws
  | n + 1, ws =>
    let at_ (i : Nat) : Nat := ws.getD (ws.length - i) 0
    k.schedule n (ws ++ [(k.small k.small1 (at_ 2) + at_ 7 + k.small k.small0 (at_ 15) + at_ 16) % 2 ^ k.w])

/-- A round on the eight working variables. -/
def Sha.round (k : Sha) (v : List Nat) (kw : Nat) : List Nat :=
  let x (i : Nat) : Nat := v.getD i 0
  let ones := 2 ^ k.w - 1
  let ch := (x 4 &&& x 5) ^^^ ((ones - x 4) &&& x 6)
  let maj := (x 0 &&& x 1) ^^^ (x 0 &&& x 2) ^^^ (x 1 &&& x 2)
  let t1 := x 7 + k.big k.big1 (x 4) + ch + kw
  let t2 := k.big k.big0 (x 0) + maj
  [(t1 + t2) % 2 ^ k.w, x 0, x 1, x 2, (x 3 + t1) % 2 ^ k.w, x 4, x 5, x 6]

/-- The digest state after a block. -/
def Sha.block (k : Sha) (h : List Nat) (bytes : List Byte) : List Nat :=
  let ws := (List.range 16).map fun i => beNat ((bytes.drop (k.w / 8 * i)).take (k.w / 8))
  let v := ((k.schedule (k.rounds - 16) ws).zip smallPrimes).foldl (fun v p => k.round v (p.1 + rootFraction 3 k.w p.2)) h
  (h.zip v).map fun p => (p.1 + p.2) % 2 ^ k.w

/-- A message padded to whole blocks. -/
def Sha.pad (k : Sha) (m : List Byte) : List Byte :=
  let size := 2 * k.w
  let used := m.length + 1 + k.w / 4
  m ++ [0x80] ++ List.replicate ((size - used % size) % size) 0 ++ beBytes (k.w / 4) (8 * m.length)

/-- The digest of a message. -/
def Sha.digest (k : Sha) (m : List Byte) : List Byte :=
  let p := k.pad m
  let h0 := ((smallPrimes.drop k.iv).take 8).map (rootFraction 2 k.w)
  let h := (List.range (p.length / (2 * k.w))).foldl (fun h i => k.block h ((p.drop (2 * k.w * i)).take (2 * k.w))) h0
  (h.flatMap fun w => beBytes (k.w / 8) w).take k.out

/-- HMAC-SHA-256 under a key of at most 64 bytes. -/
def hmacSha256 (key m : List Byte) : List Byte :=
  let k := key ++ List.replicate (64 - key.length) 0
  let pad (c : Byte) : List Byte := k.map fun b => b ^^^ c
  sha256Kind.digest (pad 0x5C ++ sha256Kind.digest (pad 0x36 ++ m))

/-! ### ECDSA over P-384 -/

/-- The prime of the field. -/
def p384P : Nat := 2 ^ 384 - 2 ^ 128 - 2 ^ 96 + 2 ^ 32 - 1
/-- The order of the base point. -/
def p384N : Nat := 0xFFFFFFFFFFFFFFFFFFFFFFFFFFFFFFFFFFFFFFFFFFFFFFFFC7634D81F4372DDF581A0DB248B0A77AECEC196ACCC52973
/-- The coefficient b of the curve y² = x³ − 3x + b. -/
def p384B : Nat := 0xB3312FA7E23EE7E4988E056BE3F82D19181D9C6EFE8141120314088F5013875AC656398D8A2ED19D2A85C8EDD3EC2AEF
/-- The base point. -/
def p384G : Nat × Nat :=
  (0xAA87CA22BE8B05378EB1C71EF320AD746E1D3B628BA79B9859F741E082542A385502F25DBF55296C3A545E3872760AB7,
   0x3617DE4A96262C6F5D9E98BF9292DC29F8F41DBD289A147CE9DA3113B5F0B8C00A60B1CE1D7E819D7A431D7C90EA0E5F)

/-- `b` to the power of the low `n` bits of `e`, modulo `m`. -/
def powMod (m b e : Nat) : Nat → Nat
  | 0 => 1
  | n + 1 =>
    let h := powMod m (b * b % m) (e / 2) n
    if e % 2 = 1 then b * h % m else h

/-- The inverse modulo a prime of 384 bits. -/
def invMod (m a : Nat) : Nat := powMod m (a % m) (m - 2) 384

/-- The sum of two points, `none` being the point at infinity. -/
def p384Add (a b : Option (Nat × Nat)) : Option (Nat × Nat) :=
  let p := p384P
  match a, b with
  | none, q => q
  | q, none => q
  | some (x1, y1), some (x2, y2) =>
    if x1 = x2 ∧ (y1 + y2) % p = 0 then none else
      let l := if x1 = x2 then (3 * x1 * x1 + (p - 3)) % p * invMod p (2 * y1) % p
        else (y2 + (p - y1)) % p * invMod p (x2 + (p - x1)) % p
      let x3 := (l * l + (p - x1) + (p - x2)) % p
      some (x3, (l * (x1 + (p - x3)) + (p - y1)) % p)

/-- The multiple of a point by the low `n` bits of `e`. -/
def p384Mul (q : Option (Nat × Nat)) (e : Nat) : Nat → Option (Nat × Nat)
  | 0 => none
  | n + 1 =>
    let h := p384Mul (p384Add q q) (e / 2) n
    if e % 2 = 1 then p384Add q h else h

/-- ECDSA P-384 verification of a digest under a public key: r and s lie in 1 to n − 1, the key is on the curve, and the x coordinate
of u1·G + u2·Q is r. -/
def ecdsaGood (x y r s : Nat) (digest : List Byte) : Bool :=
  let n := p384N
  let w := invMod n s
  let onCurve := (y * y + 3 * x) % p384P == (x * x % p384P * x + p384B) % p384P
  decide (0 < r) && decide (r < n) && decide (0 < s) && decide (s < n) && decide (x < p384P) && decide (y < p384P) && onCurve
    && match p384Add (p384Mul (some p384G) (beNat digest * w % n) 384) (p384Mul (some (x, y)) (r * w % n) 384) with
      | some q => q.1 % n == r
      | none => false

/-! ### The checks of the spec -/

/-- Whether a signature block is good for the bytes that it covers: its key is an uncompressed point that hashes to the KEY_HASH fuses,
and the signature verifies (R425, R44). -/
def signatureGood (covered block : List Byte) : Bool :=
  let part (o n : Nat) : List Byte := (block.drop o).take n
  let num (o : Nat) : Nat := beNat (part o 48)
  block.length == 196 && part 0 1 == [0x04] && sha384Kind.digest (part 0 97) == beBytes 48 Config.fuseKeyHash.toNat
    && ecdsaGood (num 1) (num 49) (num 100) (num 148) (sha384Kind.digest covered)

/-- Whether a response is HMAC-SHA-256 of the nonce under the debug key in the fuses (R460). -/
def hmacGood (nonce mac : List Byte) : Bool := hmacSha256 (leBytes 32 Config.fuseDebugKey.toNat) nonce == mac

end Sys2Proof.Machine
end

