-- ==== Sys2Proof/Machine/Validate.lean ====
section
/-!
DEFINITION. The checks of an almanac image and of a firmware image (R23 to R46), in the order of R45. Each check answers the
first error that it finds, as code, section and offset.
-/
namespace Sys2Proof.Machine

/-- An error that a check reports: code, SECTION and OFFSET of ALM_LOAD_STATUS (R45). -/
structure LoadErr where
  code : Nat
  section_ : Nat
  offset : Nat
  deriving DecidableEq, Repr

/-- SECTION of an error in the header. -/
def secHeader : Nat := 0xF
/-- SECTION of an error in the firmware image. -/
def secFirmware : Nat := 0xE

/-- An error where a condition fails. -/
def failIf (bad : Bool) (code sec off : Nat) : Option LoadErr := if bad then some ⟨code, sec, off⟩ else none

/-- The first error of a list of checks. -/
def firstErr (cs : List (Option LoadErr)) : Option LoadErr := cs.findSome? id

/-- The records of a section with their byte offsets in the image. -/
def secItems (img : List Byte) (i size : Nat) : List (Nat × Nat) :=
  (List.range (secLen img i / size)).map fun n => (secOff img i + n * size, leAt img (secOff img i + n * size) size)

/-- One step of the reflected CRC-32 (R25). -/
def crcShift (c : Nat) : Nat := if c % 2 = 1 then (c / 2) ^^^ 0xEDB88320 else c / 2

/-- A byte taken into the reflected CRC-32. -/
def crcByte (c : Nat) (b : Byte) : Nat :=
  crcShift (crcShift (crcShift (crcShift (crcShift (crcShift (crcShift (crcShift (c ^^^ b.toNat))))))))

/-- CRC-32 of IEEE 802.3 over a byte string (R25). -/
def crc32 (bs : List Byte) : Nat := bs.foldl crcByte 0xFFFFFFFF ^^^ 0xFFFFFFFF

/-- CRC-32 of an almanac image, the CRC32 field taken as 0 (R25). -/
def imageCrc (img : List Byte) : Nat :=
  crc32 (img.take 0x24 ++ [0, 0, 0, 0] ++ img.drop 0x28)

/-! ### Header and sections -/

/-- BAD_MAGIC. -/
def checkMagic (img : List Byte) : Option LoadErr :=
  firstErr [failIf (leAt img 0 4 != 0x594C4D41) 0x01 secHeader 0, failIf (leAt img 6 2 != 256) 0x01 secHeader 6]

/-- BAD_FORMAT. -/
def checkFormat (img : List Byte) : Option LoadErr :=
  firstErr [failIf (leAt img 4 2 != 1) 0x02 secHeader 4,
    failIf (leAt img 0x0F 1 / 4 != 0) 0x02 secHeader 0x0F,
    failIf (leAt img 0x34 4 != 0) 0x02 secHeader 0x34,
    failIf (!allZero (slice img 0x90 112)) 0x02 secHeader 0x90]

/-- Record size of a section of fixed-size records (R24). -/
def recordSize : Nat → Nat
  | 2 => 4
  | 3 => 2
  | 5 => 8
  | 6 => 8
  | 7 => 8
  | 8 => 16
  | 9 => 8
  | _ => 1

/-- Whether two sections that are present overlap (R24). -/
def sectionsOverlap (img : List Byte) (i j : Nat) : Bool :=
  secLen img i != 0 && secLen img j != 0
    && decide (secOff img i < secOff img j + secLen img j) && decide (secOff img j < secOff img i + secLen img i)

/-- Whether a section breaks R23 or R24. DESIGN CHOICE (log 14): a section that overlaps the header breaks R24, as does an IMAGE_LEN below 256. -/
def badSection (img : List Byte) (n i : Nat) : Bool :=
  if secLen img i = 0 then decide (i ≤ 2) else
    secOff img i % 8 != 0 || decide (n < secOff img i + secLen img i) || secLen img i % recordSize i != 0
      || (i == 2 && secLen img 2 != 4 * imgMapLen img)
      || (i == 4 && secLen img 4 != 8 + ceilDiv (leAt img (secOff img 4) 1) 8 * 8 + 8 * leAt img (secOff img 4 + 2) 1)
      || decide (secOff img i < 256) || (List.range i).any (sectionsOverlap img i)

/-- TEMPLATE_COUNT. -/
def imgTemplates (img : List Byte) : Nat := leAt img 0x2A 2

/-- Templates that extend beyond the end of their section (R28). -/
def checkTemplateBounds (img : List Byte) : Option LoadErr :=
  let stop := secOff img 1 + secLen img 1
  (List.range (imgTemplates img)).findSome? fun t =>
    let at_ := secOff img 1 + 4 * t
    if stop < at_ + 4 then some ⟨0x03, 1, at_⟩
    else if stop ≤ templateOff img t then some ⟨0x03, 1, at_⟩
    else if stop < templateOff img t + 16 then some ⟨0x03, 1, templateOff img t⟩
    else
      let room := (stop - templateOff img t - 16) / 16
      if room < min 256 (templateCount img t) then some ⟨0x03, 1, templateOff img t + 16 + 16 * room⟩ else none

/-- BAD_LENGTH. -/
def checkLength (img : List Byte) (loadLen : Nat) : Option LoadErr :=
  let n := leAt img 0x20 4
  firstErr [failIf (n != loadLen || decide (n > 8388608) || decide (n < 256)) 0x03 secHeader 0x20,
    (List.range 11).findSome? fun i => failIf (badSection img n i) 0x03 i (0x38 + 8 * i),
    checkTemplateBounds img]

/-- BAD_CRC. -/
def checkCrc (img : List Byte) : Option LoadErr := failIf (imageCrc img != leAt img 0x24 4) 0x04 secHeader 0x24

/-- BAD_CYCLE. -/
def checkCycle (img : List Byte) : Option LoadErr :=
  let k := imgK img
  firstErr [failIf (!([1, 2, 4, 8, 16].contains k)) 0x05 secHeader 0x0E,
    failIf (secLen img 0 != 2240 * k) 0x05 0 0x38,
    failIf (decide (imgLead img < 14) || decide (1120 < imgLead img)) 0x05 secHeader 0x28,
    failIf (decide (imgTemplates img < 1) || decide (2048 < imgTemplates img)) 0x05 secHeader 0x2A]

/-- BAD_TEMPLATE_INDEX. -/
def checkCalendar (img : List Byte) : Option LoadErr :=
  (secItems img 0 2).findSome? fun e =>
    failIf (bitsOf e.2 11 5 != 0 || decide (imgTemplates img ≤ bitsOf e.2 0 11)) 0x06 0 e.1

/-- Whether release record `j` of a template is out of range (R29). -/
def badRelease (img : List Byte) (j w : Nat) : Bool :=
  bitsOf w 96 16 != 0 || decide (imgMapLen img ≤ relLogical w) || (relDepEn w && decide (j ≤ relDep w))
    || (relCore w != 0 && relClass img w != 0)

/-- BAD_RELEASE. -/
def checkReleases (img : List Byte) : Option LoadErr :=
  (List.range (imgTemplates img)).findSome? fun t =>
    let h := leAt img (templateOff img t) 16
    firstErr [failIf (decide (templateCount img t > 256) || bitsOf h 9 7 != 0 || bitsOf h 32 96 != 0) 0x07 1 (templateOff img t),
      (templateReleases img t).findSome? fun r =>
        failIf (badRelease img r.1 r.2) 0x07 1 (templateOff img t + 16 + 16 * r.1)]

/-! ### Engine map, fallow list, shed list -/

/-- BAD_ENGINE_MAP. DESIGN CHOICE (log 14): LOGICAL_ENGINES outside 1 to 80 is reported with this code too, at offset 0x2E. -/
def checkMap (img : List Byte) : Option LoadErr :=
  firstErr [failIf (decide (imgMapLen img < 1) || decide (80 < imgMapLen img)) 0x08 secHeader 0x2E,
    (List.range (imgMapLen img)).findSome? fun n =>
      let u := mapEntry img n
      failIf (!unitOk u.1 u.2 || bitsOf (leAt img (secOff img 2 + 4 * n) 4) 8 20 != 0
        || (List.range n).any fun m => mapEntry img m == u) 0x08 2 (secOff img 2 + 4 * n)]

/-- BAD_FALLOW. DESIGN CHOICE (log 14): a list of more than 16 entries is reported at its directory entry, 0x050, with SECTION 3. -/
def checkFallow (img : List Byte) : Option LoadErr :=
  let fs := imgFallow img
  firstErr [failIf (decide (fs.length > 16)) 0x09 3 (0x38 + 8 * 3),
    (List.range fs.length).findSome? fun i =>
      let u := fs.getD i (15, 0)
      failIf (!unitOk u.1 u.2 || leAt img (secOff img 3 + 2 * i) 2 / 4096 != 0 || (imgMap img).contains u
        || (fs.take i).contains u) 0x09 3 (secOff img 3 + 2 * i)]

/-- Whether a shed record is out of range (R35). -/
def badShedRecord (img : List Byte) (cells w : Nat) : Bool :=
  decide (5 < bitsOf w 59 4) || decide (bitsOf w 56 3 < 1) || decide (4 < bitsOf w 56 3) || w.testBit 63
    || decide (cells < bitsOf w 48 8)
    || (shedDonors w).any fun d => decide (imgMapLen img ≤ d) || (mapEntry img d).1 != bitsOf w 59 4

/-- BAD_SHED. -/
def checkShed (img : List Byte) : Option LoadErr :=
  if secLen img 4 = 0 then none else
    let o := secOff img 4
    let h := leAt img o 8
    let cells := bitsOf h 0 8
    let pad := ceilDiv cells 8 * 8
    firstErr [failIf (bitsOf h 8 8 != 0 || bitsOf h 24 40 != 0) 0x0A 4 o,
      (List.range cells).findSome? fun i => failIf (decide (leAt img (o + 8 + i) 1 > 127)) 0x0A 4 (o + 8 + i),
      failIf (!allZero (slice img (o + 8 + cells) (pad - cells))) 0x0A 4 (o + 8 + cells),
      (List.range (bitsOf h 16 8)).findSome? fun i =>
        failIf (badShedRecord img cells (leAt img (o + 8 + pad + 8 * i) 8)) 0x0A 4 (o + 8 + pad + 8 * i)]

/-! ### Tables -/

/-- The first item that is bad by itself or against the items before it. -/
def scanItems (code sec : Nat) (bad : List Nat → Nat → Bool) : List Nat → List (Nat × Nat) → Option LoadErr
  | _, [] => none
  | seen, e :: es => if bad seen e.2 then some ⟨code, sec, e.1⟩ else scanItems code sec bad (seen ++ [e.2]) es

/-- Whether a wheel record is out of range or claims a slot of an earlier one (R37). -/
def badWheel (seen : List Nat) (w : Nat) : Bool :=
  let first := bitsOf w 41 7
  let count := bitsOf w 33 8
  bitsOf w 56 8 == 255 || decide (bitsOf w 48 8 > 239) || decide (count < 1) || decide (128 < first + count)
    || decide (bitsOf w 25 8 > 78) || bitsOf w 0 17 != 0
    || seen.any fun v => bitsOf v 56 8 == bitsOf w 56 8 && bitsOf v 48 8 == bitsOf w 48 8
        && decide (bitsOf v 41 7 < first + count) && decide (first < bitsOf v 41 7 + bitsOf v 33 8)

/-- The blocks that a fabric record claims (R38). -/
def fabricBlocks (w : Nat) : List Nat := (List.range (bitsOf w 33 8)).map fun j => bitsOf w 41 8 + j * bitsOf w 28 5

/-- Whether a fabric record is out of range or claims a block of an earlier one (R38). -/
def badFabric (seen : List Nat) (w : Nat) : Bool :=
  let count := bitsOf w 33 8
  let period := bitsOf w 28 5
  bitsOf w 56 8 == 255 || decide (bitsOf w 41 8 > 241) || decide (count < 1) || decide (242 < count)
    || decide (period < 1) || decide (16 < period) || decide (241 < bitsOf w 41 8 + (count - 1) * period) || bitsOf w 0 10 != 0
    || seen.any fun v => bitsOf v 49 15 == bitsOf w 49 15 && (fabricBlocks v).any fun b => (fabricBlocks w).contains b

/-- Whether a power record is out of range, unsorted or one too many for its tick (R39, R402). -/
def badPower (k : Nat) (seen : List Nat) (w : Nat) : Bool :=
  let tick := bitsOf w 49 15
  let kind := bitsOf w 47 2
  let target := bitsOf w 39 8
  let mv := bitsOf w 27 10
  decide (1120 * k ≤ tick) || decide (kind > 1) || bitsOf w 0 27 != 0
    || (kind == 0 && (decide (target > 68) || !stateAllowed target (bitsOf w 37 2)))
    || (kind == 1 && (decide (target > 1) || mv % 5 != 0
        || decide (mv < (if target = 0 then 650 else 750)) || decide ((if target = 0 then 850 else 900) < mv)))
    || seen.any (fun v => decide (tick < bitsOf v 49 15))
    || decide ((seen.filter fun v => bitsOf v 49 15 == tick).length ≥ 64)

/-- Whether a fronthaul window record is out of range (R41). -/
def badWindow (k : Nat) (_ : List Nat) (w : Nat) : Bool :=
  let opens := 14000 * bitsOf w 49 15 + bitsOf w 35 14
  let closes := 14000 * bitsOf w 20 15 + bitsOf w 6 14
  let span := (closes + 14000 * (1120 * k) - opens) % (14000 * (1120 * k))
  bitsOf w 64 51 != 0 || decide (1120 * k ≤ bitsOf w 49 15) || decide (1120 * k ≤ bitsOf w 20 15)
    || decide (14000 ≤ bitsOf w 35 14) || decide (14000 ≤ bitsOf w 6 14) || bitsOf w 4 2 == 3 || decide (bitsOf w 0 4 > 13)
    || decide (span < 1) || decide (112 * 14000 < span)

/-- Whether an event timer record is out of range (R42). -/
def badTimer (k : Nat) (_ : List Nat) (w : Nat) : Bool :=
  decide (1120 * k ≤ bitsOf w 49 15) || decide (14000 ≤ bitsOf w 35 14) || decide (bitsOf w 32 3 > 5)
    || (bitsOf w 24 8 == 2 && bitsOf w 8 16 == 0)

/-! ### The leads of R40 -/

/-- What the rules of R40 take from the device at load. -/
structure LoadCtx where
  /-- DROOP per domain. -/
  droop : List Nat
  /-- FW_STATE per domain. -/
  fwState : List Nat
  /-- VMIN and BOOT_MV of the two rails. -/
  vmin : Nat × Nat
  bootMv : Nat × Nat
  deriving DecidableEq, Repr

/-- The state that an image plans for a domain, R403 included. -/
def imgDomain (img : List Byte) (c : LoadCtx) (d idx : Nat) : Nat :=
  match imgPlanned img d idx with
  | some v => v
  | none => if (imgMap img ++ imgFallow img).any fun u => domainOfUnit u.1 u.2 == d then 0 else c.fwState.getD d 0

/-- The set points of R415 that an image plans at a calendar index. -/
def imgSetPoints (img : List Byte) (c : LoadCtx) (idx : Nat) : Nat × Nat :=
  let base (rail boot : Nat) : Nat := match imgVolt img rail idx with
    | some v => v
    | none => boot
  let droop := ((List.range 69).map fun d => if imgDomain img c d idx ≤ 1 then c.droop.getD d 0 else 0).sum
  let core := min 850 (max (base 0 c.bootMv.1) c.vmin.1 + 5 * droop)
  (core, min 900 (max (max (base 1 c.bootMv.2) c.vmin.2) core))

/-- Lead of a raise from SLEEP at a tick, in ticks (R40). DESIGN CHOICE (log 14): what the same tick lowers counts against what it raises. -/
def sleepLead (img : List Byte) (c : LoadCtx) (tick : Nat) : Nat :=
  let before := imgSetPoints img c ((tick + 1120 * imgK img - 1) % (1120 * imgK img))
  let after := imgSetPoints img c tick
  let n := ceilDiv (after.1 - before.1) 50 + ceilDiv (after.2 - before.2) 50
  max 3 (ceilDiv ((10 + 8 * (n + 1)) * 112) 1000)

/-- Calendar indices that release work to a domain. -/
def domainUses (img : List Byte) (d : Nat) : List Nat :=
  (List.range (1120 * imgK img)).filter fun i =>
    (templateReleases img (calendarAt img i)).any fun r =>
      let u := mapEntry img (relLogical r.2)
      domainOfUnit u.1 u.2 == d

/-- Ticks from a calendar index to the next one of a list, counted cyclically; 2^32 when the list is empty. -/
def distanceTo (len idx : Nat) (uses : List Nat) : Nat :=
  (uses.map fun u => (u + len - idx) % len).foldl min (2 ^ 32)

/-- Whether a STATE record breaks R40: a release while it keeps its domain in SLEEP or OFF, or a raise too late. Of records of
one domain in one tick the last stands. -/
def badLead (img : List Byte) (c : LoadCtx) (w : Nat) : Bool :=
  let len := 1120 * imgK img
  let d := bitsOf w 39 8
  let tick := bitsOf w 49 15
  let mine := (powerRecords img).filter fun v => bitsOf v 47 2 == 0 && bitsOf v 39 8 == d
  let stands := (mine.filter fun v => bitsOf v 49 15 == tick).getLast? == some w
  let uses := domainUses img d
  let toUse := distanceTo len tick uses
  let others := (mine.filter fun v => bitsOf v 49 15 != tick).map fun v => bitsOf v 49 15
  let toNext := if others = [] then len else distanceTo len tick others
  let before := (imgPlanned img d ((tick + len - 1) % len)).getD 0
  let st := bitsOf w 37 2
  bitsOf w 47 2 == 0 && stands && uses != []
    && ((decide (st ≥ 2) && decide (toUse < toNext))
      || (before == 3 && st != 3 && decide (toUse < 64))
      || (before == 2 && decide (st ≤ 1) && decide (toUse < sleepLead img c tick)))

/-- BAD_POWER. -/
def checkPower (img : List Byte) (c : LoadCtx) : Option LoadErr :=
  firstErr [scanItems 0x0D 7 (badPower (imgK img)) [] (secItems img 7 8),
    (secItems img 7 8).findSome? fun e => failIf (badLead img c e.2) 0x0D 7 e.1]

/-! ### Firmware image (R44) -/

/-- FW_BAD_IMAGE and FW_AUTH_FAIL, in the order of R45. -/
def checkFirmware (fw : List Byte) (len : Nat) : Option LoadErr :=
  let rsvd := [0x06, 0x07] ++ (List.range 36).map (0x18 + ·)
  let codeLen := leAt fw 0x0C 4
  let sig := leAt fw 0x14 4
  let lenOk := if sig = 0 then decide (len = 64 + codeLen)
    else decide (len = sig + 196) && decide (sig % 8 = 0) && decide (64 + codeLen ≤ sig)
  let e (bad : Bool) (off : Nat) : Option LoadErr := failIf bad 0x16 secFirmware off
  firstErr [e (leAt fw 0 4 != 0x594C4657) 0x00, e (leAt fw 4 2 != 1) 0x04,
    rsvd.findSome? fun o => e (fw.getD o 0 != 0) o,
    e (crc32 (slice fw 0 0x3C) != leAt fw 0x3C 4) 0x3C,
    e (decide (codeLen < 1) || decide (786432 < codeLen)) 0x0C, e (!lenOk) 0x14,
    e (crc32 (slice fw 0x40 codeLen) != leAt fw 0x10 4) 0x10,
    failIf (Config.fuseAuthReq && sig == 0) 0x17 secFirmware 0x14,
    failIf (Config.fuseAuthReq && sig != 0 && !signatureGood (slice fw 0 sig) (slice fw sig 196)) 0x17 secFirmware sig]

/-! ### Substitution of dead units (R33, R46, R51) -/

/-- The first fallow unit of a class that is not dead and whose domain is planned ON or IDLE. -/
def eligibleFallow (dead : Nat × Nat → Bool) (planned : Nat → Nat) (cls : Nat) (fallow : List (Nat × Nat)) : Option (Nat × Nat) :=
  fallow.find? fun f => f.1 == cls && !dead f && decide (planned (domainOfUnit f.1 f.2) ≤ 1)

/-- The engine map with dead units replaced in ascending order of logical engine: units or none, and the fallow list left. -/
def substitute (dead : Nat × Nat → Bool) (planned : Nat → Nat) :
    List (Nat × Nat) → List (Nat × Nat) → List (Option (Nat × Nat)) × List (Nat × Nat)
  | [], fallow => ([], fallow)
  | u :: us, fallow =>
    if dead u then
      match eligibleFallow dead planned u.1 fallow with
      | some f =>
        let rest := substitute dead planned us (fallow.filter fun x => x != f)
        (some f :: rest.1, rest.2)
      | none =>
        let rest := substitute dead planned us fallow
        (none :: rest.1, rest.2)
    else
      let rest := substitute dead planned us fallow
      (some u :: rest.1, rest.2)

/-- Planned state of a domain under an image for the eligibility of fallow units: ON where no record names it. -/
def fallowPlanned (img : List Byte) (idx d : Nat) : Nat := (imgPlanned img d idx).getD 0

/-- The map of an image with the substitutions of R46 at calendar index 0. -/
def State.loadMap (s : State) (img : List Byte) : List (Option (Nat × Nat)) :=
  (substitute (fun u => s.unitDead u.1 u.2) (fallowPlanned img 0) (imgMap img) (imgFallow img)).1

/-- NO_SPARE_FOR_DEAD. -/
def State.checkSpare (s : State) (img : List Byte) : Option LoadErr :=
  let m := s.loadMap img
  (List.range m.length).findSome? fun n => failIf ((m.getD n none).isNone) 0x12 2 (secOff img 2 + 4 * n)

/-! ### All checks -/

/-- What R40 takes from the device. -/
def State.loadCtx (s : State) : LoadCtx where
  droop := (List.range 69).map fun d => s.fld (.PWR_DOM_CFG d) Fld.PWR_DOM_CFG_DROOP
  fwState := (List.range 69).map fun d => s.fld (.PWR_DOM_CFG d) Fld.PWR_DOM_CFG_FW_STATE
  vmin := (s.fld (.PWR_AVS_CFG 0) Fld.PWR_AVS_CFG_VMIN, s.fld (.PWR_AVS_CFG 1) Fld.PWR_AVS_CFG_VMIN)
  bootMv := (s.fld (.PWR_AVS_CFG 0) Fld.PWR_AVS_CFG_BOOT_MV, s.fld (.PWR_AVS_CFG 1) Fld.PWR_AVS_CFG_BOOT_MV)

/-- The almanac image checks before the firmware image: codes 0x01 to 0x10 (R45). -/
def State.checkImage (s : State) (img : List Byte) (loadLen : Nat) : Option LoadErr :=
  firstErr [checkMagic img, checkFormat img, checkLength img loadLen, checkCrc img, checkCycle img, checkCalendar img,
    checkReleases img, checkMap img, checkFallow img, checkShed img,
    scanItems 0x0B 5 badWheel [] (secItems img 5 8), scanItems 0x0C 6 badFabric [] (secItems img 6 8),
    checkPower img s.loadCtx, scanItems 0x0E 8 (badWindow (imgK img)) [] (secItems img 8 16),
    scanItems 0x0F 9 (badTimer (imgK img)) [] (secItems img 9 8),
    failIf (leAt img 0x0C 1 != s.fld .ALM_ID Fld.ALM_ID_BURLOS_MAJ) 0x10 secHeader 0x0C,
    failIf (decide (s.fld .ALM_ID Fld.ALM_ID_BURLOS_MIN < leAt img 0x0D 1)) 0x10 secHeader 0x0D]

/-- The checks after the firmware image: codes 0x11 and 0x12 (R45). -/
def State.checkLate (s : State) (img : List Byte) (fwVersion : Nat) : Option LoadErr :=
  firstErr [failIf (decide (fwVersion < leAt img 0x30 4)) 0x11 secHeader 0x30, s.checkSpare img]

/-- Every check of an almanac image and, where its length is not 0, of a firmware image (R45). -/
def State.checkLoad (s : State) (img : List Byte) (loadLen : Nat) (fw : List Byte) (fwLen : Nat) : Option LoadErr :=
  firstErr [s.checkImage img loadLen, if fwLen = 0 then none else checkFirmware fw fwLen,
    s.checkLate img (if fwLen = 0 then s.alm.fwVersion else leAt fw 0x08 4)]

end Sys2Proof.Machine
end

