-- ==== Sys2Proof/Machine/FabOps.lean ====
section
/-!
DEFINITION. Segments, transactions and control messages of the Burlos fabric (R334 to R340, R347, R348): what every family that
sends through the fabric shares.
-/
namespace Sys2Proof.Machine

/-! ### Headers (R336, R337) -/

/-- KIND values. -/
def segGt : Nat := 1
def segBe : Nat := 2
def segMsg : Nat := 3

/-- TYPE of a control message. -/
def pktMsg : Nat := 5

/-- FLOW of a control message. -/
def msgFlow : Nat := 0xFFF

/-- Bits of a segment header above FIRST, LAST and LEN. -/
def segHead (kind src dst flow hop nhops route : Nat) : Nat :=
  2 ^ 60 * (kind % 16) + 2 ^ 54 * (src % 64) + 2 ^ 48 * (dst % 64) + 2 ^ 36 * (flow % 4096) + 2 ^ 33 * (hop % 8) + 2 ^ 31 * (nhops % 4)
    + 2 ^ 11 * (route % 2 ^ 20)

/-- Fields of a segment header. -/
def segKind (h : Word) : Nat := bitsOf h.toNat 60 4
def segSrc (h : Word) : Nat := bitsOf h.toNat 54 6
def segDst (h : Word) : Nat := bitsOf h.toNat 48 6
def segFlow (h : Word) : Nat := bitsOf h.toNat 36 12
def segHop (h : Word) : Nat := bitsOf h.toNat 33 3
def segNhops (h : Word) : Nat := bitsOf h.toNat 31 2
def segRoute (h : Word) : Nat := bitsOf h.toNat 11 20
def segFirst (h : Word) : Bool := bitsOf h.toNat 10 1 == 1
def segLast (h : Word) : Bool := bitsOf h.toNat 9 1 == 1
def segLen (h : Word) : Nat := bitsOf h.toNat 0 9

/-- The group of a hop of a route. -/
def hopOf (route i : Nat) : Nat := bitsOf route (5 * i) 5

/-- A route of hops. -/
def routeOf : List Nat → Nat
  | [] => 0
  | h :: hs => h % 32 + 32 * routeOf hs

/-- The reverse of the route that a received header has recorded, as NHOPS and ROUTE (R339). -/
def reverseRoute (h : Word) : Nat × Nat :=
  (segNhops h, routeOf (((List.range (segNhops h + 1)).map (hopOf (segRoute h))).reverse))

/-- The group on which a segment arrived: the last hop field of its header. -/
def arrivalGroup (h : Word) : Nat := hopOf (segRoute h) (segNhops h)

/-- A transaction header. -/
def transHead (offset type status gen ftag len msgType ld : Nat) : Nat :=
  2 ^ 64 * (offset % 2 ^ 41) + 2 ^ 60 * (type % 16) + 2 ^ 57 * (status % 8) + 2 ^ 56 * (gen % 2) + 2 ^ 48 * (ftag % 256)
    + 2 ^ 36 * (len % 4096) + 2 ^ 28 * (msgType % 256) + 2 ^ 27 * (ld % 2)

/-- Fields of a transaction header. -/
def trOffset (n : Nat) : Nat := bitsOf n 64 41
def trType (n : Nat) : Nat := bitsOf n 60 4
def trStatus (n : Nat) : Nat := bitsOf n 57 3
def trGen (n : Nat) : Nat := bitsOf n 56 1
def trFtag (n : Nat) : Nat := bitsOf n 48 8
def trLen (n : Nat) : Nat := bitsOf n 36 12
def trMsg (n : Nat) : Nat := bitsOf n 28 8
def trLd (n : Nat) : Bool := bitsOf n 27 1 == 1

/-! ### Groups -/

/-- Lanes of a group, by lane index (R312). -/
def State.lanesOfGroup (s : State) (g : Nat) : List Nat :=
  (List.range 64).filter fun l => (s.rd (.DRL_GRP_LANES g)).toNat.testBit l

/-- Payload bytes of a segment on a group (R336). -/
def State.segCap (s : State) (g : Nat) : Nat := 32 * (s.lanesOfGroup g).length - 12

/-- Whether a group is in service (R346). -/
def State.inService (s : State) (g : Nat) : Bool := s.fld (.FAB_GRP g) Fld.FAB_GRP_IN_SERVICE == 1

/-- The groups in service. -/
def State.groupsInService (s : State) : List Nat := (List.range 32).filter fun g => s.inService g

/-- FAB_CNT counters (R356). -/
def State.fabCount (s : State) (k : Nat) (n : Nat := 1) : State := s.tally (.FAB_CNT k) n

def cntRxSeg : Nat := 0
def cntTxSeg : Nat := 1
def cntSegCrc : Nat := 2
def cntMisdeliver : Nat := 3
def cntFabGtMiss : Nat := 4
def cntBeDrop : Nat := 5
def cntAisDrop : Nat := 6
def cntLateResp : Nat := 7
def cntTimeouts : Nat := 8
def cntLinkDown : Nat := 9
def cntMsgUnknown : Nat := 10
def cntMapMismatch : Nat := 11
def cntReasmDrop : Nat := 12
def cntRxMsgDrop : Nat := 13

/-- This device's fabric address (R356). -/
def State.fabAddr (s : State) : Nat := s.fld .FAB_ADDR Fld.FAB_ADDR_ADDR

/-- This device's unique id (R356). -/
def State.uid (s : State) : Word := s.rd .FAB_UID

/-- The fabric profile in force: FABRIC_PROFILE of the tick's template, 0xFF for none (R28, R340). -/
def State.fabricProfile (s : State) : Nat := if s.almRuns then templateFabric s.active s.template else 0xFF

/-- The fabric records of the profile in force on a group (R38). -/
def State.fabRecords (s : State) (g : Nat) : List Nat :=
  if s.fabricProfile = 0xFF then [] else
    (secRecords s.active 6 8).filter fun w => bitsOf w 56 8 == s.fabricProfile && bitsOf w 51 5 == g

/-- Whether a flow to a device has a record on a group (R340). -/
def State.hasRecord (s : State) (g dest flow : Nat) : Bool :=
  (s.fabRecords g).any fun w => bitsOf w 22 6 == dest && bitsOf w 10 12 == flow

/-! ### Sending -/

/-- A transaction cut into payloads of at most `cap` bytes. -/
def cutInto (cap : Nat) : Nat → List Byte → List (List Byte)
  | 0, _ => []
  | fuel + 1, bs => if bs.length ≤ cap then [bs] else bs.take cap :: cutInto cap fuel (bs.drop cap)

/-- The segments of a transaction with their FIRST, LAST and LEN (R336, R337). -/
def segmentsOf (head cap : Nat) (bytes : List Byte) : List (Word × List Byte) :=
  let parts := cutInto (max 1 cap) (bytes.length + 1) bytes
  parts.zipIdx.map fun p =>
    (BitVec.ofNat 64 (head + (if p.2 = 0 then 2 ^ 10 else 0) + (if p.2 + 1 = parts.length then 2 ^ 9 else 0) + p.1.length), p.1)

/-- A transaction handed to the first group of its route; one for a group that is not in service is lost and counted (R345). -/
def State.sendTransaction (s : State) (kind dst flow nhops route : Nat) (bytes : List Byte) : State :=
  let g := hopOf route 0
  if !s.inService g ∨ s.segCap g = 0 then s.fabCount cntLinkDown else
    let segs := segmentsOf (segHead kind s.fabAddr dst flow 0 nhops route) (s.segCap g) bytes
    { s with fab := { s.fab with txq := s.fab.txq ++ segs.map fun p => (⟨g, p.1, p.2, none, 0⟩ : FabSeg) } }

/-! ### Control messages (R347, R348) -/

/-- The message types of Burlos version 1.0. -/
def msgTypes : List Nat := [1, 2, 3, 4, 5, 6, 0x10, 0x11, 0x12, 0x13, 0x14, 0x20, 0x21]

/-- Where a control message goes. -/
inductive MsgTo where
  /-- To a device by its entry of FAB_ROUTE. -/
  | device (a : Nat)
  /-- Along the reverse of the route by which a header came. -/
  | reverse (h : Word)
  /-- Over one group, to whatever device is there. -/
  | group (g : Nat)
  /-- To a device by a route of the sender's own: address, NHOPS and ROUTE. -/
  | routed (a nhops route : Nat)
  deriving DecidableEq, Repr

/-- The transaction of a control message: its header, the 32-bit muster number and the payload. -/
def controlMsg (type muster : Nat) (payload : List Byte) : List Byte :=
  leBytes 16 (transHead 0 pktMsg 0 0 0 (payload.length + 3) type 0) ++ leBytes 4 muster ++ payload

/-- A control message sent. -/
def State.sendMsg (s : State) (dest : MsgTo) (type muster : Nat) (payload : List Byte) : State :=
  let m := controlMsg type muster payload
  match dest with
  | .device a =>
    let r := s.rd (.FAB_ROUTE a)
    if Fld.FAB_ROUTE_VALID.get r = 1 then
      s.sendTransaction segMsg a msgFlow (Fld.FAB_ROUTE_NHOPS.get r) (Fld.FAB_ROUTE_ROUTE.get r) m
    else s
  | .reverse h => s.sendTransaction segMsg (segSrc h) msgFlow (reverseRoute h).1 (reverseRoute h).2 m
  | .group g => s.sendTransaction segMsg (s.fld (.DRL_GRP_PEER g) Fld.DRL_GRP_PEER_ADDR) msgFlow 0 g m
  | .routed a nhops route => s.sendTransaction segMsg a msgFlow nhops route m

/-- A control message flooded over some groups (R348). -/
def State.flood (s : State) (groups : List Nat) (type muster : Nat) (payload : List Byte) : State :=
  groups.foldl (fun t g => t.sendMsg (.group g) type muster payload) s

end Sys2Proof.Machine
end

