-- ==== Sys2Proof/Machine/Drover.lean ====
section
/-!
DEFINITION. The Drover's queues: doorbells (R65), acceptance (R66 to R74), completion (R76 to R80), coalescing (R77) and cell
commands (R81 to R83).
-/
namespace Sys2Proof.Machine

/-! ### Times -/

/-- Whether now is at or before core cycle 0 of a position. -/
def State.byEdgeOf (s : State) (pos : Nat) : Bool :=
  decide (posDiff pos s.pos > 0) || (posDiff pos s.pos == 0 && s.tm.cycle == 0)

/-- A position moved by a number of ticks. -/
def posAdd (pos : Nat) (d : Int) : Nat := (((pos : Int) + d) % (posCount : Int)).toNat

/-- Whether a position lies at or after the tick of an armed swap. -/
def State.afterSwap (s : State) (pos : Nat) : Bool :=
  match s.alm.swap with
  | some w => decide (posDiff pos (posOf w.frame 0) ≥ 0)
  | none => false

/-- The almanac in force at a position: the shadow's from an armed swap on (R67, R85). -/
def State.almanacFor (s : State) (pos : Nat) : List Byte := if s.afterSwap pos then s.shadow else s.active

/-- The cell's configuration in force at a position (R85). -/
def State.cfgFor (s : State) (cell pos : Nat) : Nat := if s.afterSwap pos then s.cellCfgSh cell else s.cellCfg cell

/-! ### The request store -/

/-- DRV_STORE brought up to date (R86). -/
def State.showStore (s : State) : State :=
  (s.setFld .DRV_STORE Fld.DRV_STORE_REQUESTS s.drv.store.length).setFld .DRV_STORE Fld.DRV_STORE_ENTRIES
    ((s.drv.store.map fun q => q.entries.length).sum)

/-- A held request leaves the store. -/
def State.dropRequest (s : State) (id : Nat) : State :=
  { s with drv := { s.drv with store := s.drv.store.filter fun q => q.id != id } }.showStore

/-! ### Signals of rings (R77) -/

/-- A record written to a ring counted towards its signal: `ring` is 0 to 15 for a completion queue, 16 to 19 for a PRACH ring. -/
def State.countRecord (s : State) (ring vector ticks count : Nat) : State :=
  let held := SMap.get (fun _ => (0, 0)) s.drv.coal ring
  let n := held.1 + 1
  if ticks = 0 ∨ max 1 count ≤ n then
    { s with drv := { s.drv with coal := SMap.set (fun _ => (0, 0)) s.drv.coal ring (0, 0) } }.msix vector
  else
    { s with drv := { s.drv with
      coal := SMap.set (fun _ => (0, 0)) s.drv.coal ring (n, if held.1 = 0 then s.absTick else held.2) } }

/-- COAL_TICKS ticks have passed since the first unsignalled record of a ring. -/
def State.coalExpired (s : State) (ring vector ticks : Nat) : State :=
  let held := SMap.get (fun _ => (0, 0)) s.drv.coal ring
  if held.1 = 0 ∨ s.absTick < held.2 + ticks then s else
    { s with drv := { s.drv with coal := SMap.set (fun _ => (0, 0)) s.drv.coal ring (0, 0) } }.msix vector

/-! ### Completion (R76 to R80) -/

/-- What a completion record says (R78). -/
structure Done where
  queue : Nat
  ring : Nat
  tag : Nat
  cell : Nat
  dir : Nat
  frame : Nat
  slot : Nat
  cmd : Bool
  status : Nat
  detail : Nat
  firstBad : Nat
  ok : Nat
  deriving DecidableEq, Repr

/-- The bytes of a completion record (R78). -/
def State.recordBytes (s : State) (d : Done) (phase : Nat) : List Byte :=
  leBytes 1 d.status ++ leBytes 1 d.detail ++ leBytes 2 (phase + (if d.cmd then 2 else 0) + d.dir % 4 * 4)
    ++ leBytes 4 d.tag ++ leBytes 4 (d.frame % 2 ^ 20 + 2 ^ 20 * (d.slot % 2 ^ 8)) ++ leBytes 2 (d.cell % 128)
    ++ leBytes 2 d.ring ++ leBytes 8 s.now.toNat ++ leBytes 2 d.firstBad ++ leBytes 2 d.ok ++ leBytes 4 0

/-- Counters that a completion adds to (R86, R449). -/
def State.countDone (s : State) (d : Done) : State :=
  if d.status = 1 then s.bump .DRV_STATS_A Fld.DRV_STATS_A_LATE
  else if d.status = 2 then
    (s.bump .DRV_STATS_A Fld.DRV_STATS_A_REJECTED).wr .DRV_REJ_LAST (BitVec.ofNat 64
      (2 ^ 56 * (d.detail % 256) + 2 ^ 52 * (d.queue % 16) + 2 ^ 36 * (d.ring % 2 ^ 16) + 2 ^ 20 * (d.firstBad % 2 ^ 16)))
  else if d.status = 6 then s.bump .DRV_STATS_A Fld.DRV_STATS_A_SUPERSEDED
  else if d.status = 7 then s.bump .DRV_STATS_A Fld.DRV_STATS_A_SHED
  else if d.status = 3 ∨ d.status = 4 then s.bump .DRV_STATS_B Fld.DRV_STATS_B_DISCARDED
  else s

/-- A completion record posted to its queue; with the queue disabled it is lost (R77, R86). -/
def State.postRecord (s : State) (d : Done) : State :=
  let q := d.queue
  let s1 := s.countDone d
  if s.fld (.DRV_CQ_CFG q) Fld.DRV_CQ_CFG_ENABLE = 0 then s1 else
    let size := 2 ^ s.fld (.DRV_CQ_CFG q) Fld.DRV_CQ_CFG_LOG2_SIZE
    let pi := s.fld (.DRV_CQ_PI q) Fld.DRV_CQ_PI_INDEX
    let phase := s.fld (.DRV_CQ_PI q) Fld.DRV_CQ_PI_PHASE
    let next := (pi + 1) % 2 ^ 16
    let s2 := s1.post70 niDrover ((s.rd (.DRV_CQ_BASE q)).toNat + pi % size * 32) (s.recordBytes d phase)
    let s3 := s2.setFld (.DRV_CQ_PI q) Fld.DRV_CQ_PI_INDEX next
    let s4 := if next % size = 0 then s3.setFld (.DRV_CQ_PI q) Fld.DRV_CQ_PI_PHASE (1 - phase) else s3
    s4.countRecord q (s.fld (.DRV_CQ_CFG q) Fld.DRV_CQ_CFG_VECTOR) (s.fld (.DRV_CQ_CFG q) Fld.DRV_CQ_CFG_COAL_TICKS)
      (s.fld (.DRV_CQ_CFG q) Fld.DRV_CQ_CFG_COAL_COUNT)

/-- The bytes of an entry's result (R80). -/
def EntryResult.bytes (r : EntryResult) : List Byte :=
  leBytes 1 r.status ++ leBytes 3 (if r.crcOk then 1 else 0) ++ leBytes 4 r.bytes_ ++ leBytes 8 r.kind

/-- The result of an entry when its request completes with a status: its own when its work had ended, else the request's
(R80, R449). -/
def finalResult (status : Nat) (r : EntryResult) : EntryResult :=
  if r.own ∨ status = 0 ∨ status = 5 then r else { r with status := status, crcOk := false, bytes_ := 0, kind := 0 }

/-- The index of the first result that is not OK, 0xFFFF if none. -/
def firstBadOf (rs : List EntryResult) : Nat :=
  match rs.findIdx? fun r => r.status != 0 with
  | some i => i
  | none => 0xFFFF

/-- A held request completes: its result table, then its record, and it leaves the store (R76, R80). -/
def State.completeRequest (s : State) (q : Request) (status detail : Nat) : State :=
  let rs := q.results.map (finalResult status)
  let s1 := if q.resultAddr = 0 then s else
    (rs.zipIdx).foldl (fun t r => t.post70 niDrover (q.resultAddr + 16 * r.2) r.1.bytes) s
  let s2 := s1.dropRequest q.id
  let s2 := if status = 0 then s2 else { s2 with fh := { s2.fh with fills := s2.fh.fills.filter fun (x : Nat × Nat × Nat × List (List Byte)) => x.1 != q.id } }
  let s3 := s2.postRecord
    { queue := q.queue, ring := q.ring, tag := q.tag, cell := q.cell, dir := q.dir, frame := q.frame, slot := q.slot, cmd := false
      status := status, detail := detail, firstBad := firstBadOf rs, ok := (rs.filter fun r => r.status == 0).length }
  if status = 3 then { s3 with drv := { s3.drv with lost := (s3.drv.lost ++ [(q.cell, q.start)]).eraseDups } } else s3

/-- Held requests that meet a condition complete. -/
def State.completeWhere (s : State) (p : Request → Bool) (status detail : Nat) : State :=
  (s.drv.store.filter p).foldl (fun t q => t.completeRequest q status detail) s

/-- Whether the work of a held request has ended (R76): the last release that fills from it is over, completed or suppressed; for a
request without a used entry the index of that release has passed, and a slot from which no release fills has ended when its first
tick has. -/
def State.workEnded (s : State) (q : Request) : Bool :=
  let fill := lastFillLag s.active (s.slotLen q.cell) q.start q.cell q.dir q.replay
  let last := posAdd q.start (fill.getD 0)
  let used := fill.isSome && q.entries.any fun e => entKind e != 0
  !(s.drv.rels.any fun r => r.req == some q.id && r.live)
    && (q.planOver || (if used then decide (posDiff s.pos last ≥ 0) else decide (posDiff s.pos last > 0)))

/-! ### Doorbells and queue configuration (R65, R86) -/

/-- A write of DRV_RQ_DB (R65). -/
def State.writeRqDb (s : State) (q : Nat) (v : Word) : State :=
  let n := (Fld.DRV_RQ_DB_INDEX.get v + 2 ^ 16 - s.fld (.DRV_RQ_CI q) Fld.DRV_RQ_CI_INDEX) % 2 ^ 16
  if n > 2 ^ s.fld (.DRV_RQ_CFG q) Fld.DRV_RQ_CFG_LOG2_SIZE then
    (s.setFld (.DRV_RQ_CFG q) Fld.DRV_RQ_CFG_DB_ERR 1).msix (s.fld (.DRV_CQ_CFG q) Fld.DRV_CQ_CFG_VECTOR)
  else s.wrAccess (.DRV_RQ_DB q) v

/-- A write of DRV_RQ_CFG (R65, R86). -/
def State.writeRqCfg (s : State) (q : Nat) (v : Word) : State :=
  let size := Fld.DRV_RQ_CFG_LOG2_SIZE.get v
  if size < 4 ∨ 12 < size then s else
    let s1 := s.wrAccess (.DRV_RQ_CFG q) v
    if s.fld (.DRV_RQ_CFG q) Fld.DRV_RQ_CFG_ENABLE = 0 ∧ Fld.DRV_RQ_CFG_ENABLE.get v = 1 then
      ((s1.setFld (.DRV_RQ_CFG q) Fld.DRV_RQ_CFG_DB_ERR 0).setFld (.DRV_RQ_DB q) Fld.DRV_RQ_DB_INDEX 0).setFld
        (.DRV_RQ_CI q) Fld.DRV_RQ_CI_INDEX 0
    else s1

/-- A write of DRV_CQ_CFG (R86). -/
def State.writeCqCfg (s : State) (q : Nat) (v : Word) : State :=
  let size := Fld.DRV_CQ_CFG_LOG2_SIZE.get v
  if size < 4 ∨ 12 < size then s else
    let s1 := s.wrAccess (.DRV_CQ_CFG q) v
    if s.fld (.DRV_CQ_CFG q) Fld.DRV_CQ_CFG_ENABLE = 0 ∧ Fld.DRV_CQ_CFG_ENABLE.get v = 1 then
      let s2 := ((s1.setFld (.DRV_CQ_DB q) Fld.DRV_CQ_DB_INDEX 0).setFld (.DRV_CQ_PI q) Fld.DRV_CQ_PI_INDEX 0).setFld
        (.DRV_CQ_PI q) Fld.DRV_CQ_PI_PHASE 1
      { s2 with drv := { s2.drv with coal := SMap.set (fun _ => (0, 0)) s2.drv.coal q (0, 0) } }
    else s1

/-! ### Cell commands (R81 to R83) -/

/-- Whether a swap to the shadow would be a continuing one. -/
def State.continuing (s : State) : Bool := imgPred s.shadow == imgBuild s.active

/-- Whether a cell will be STOPPED at a position, given the commands already resolved (R81) and, from an armed fresh swap on, the state
in which that swap starts it (R84). -/
def State.willBeStopped (s : State) (cell pos : Nat) : Bool :=
  let fresh := s.afterSwap pos && !s.continuing
  let due := s.drv.cmds.filter fun c => c.cell == cell && c.resolved && decide (posDiff pos (posOf c.frame 0) ≥ 0)
    && (!fresh || s.afterSwap (posOf c.frame 0))
  let last := due.foldl (fun (m : Option CellCmd) c => match m with
    | some o => if posDiff (posOf c.frame 0) (posOf o.frame 0) > 0 then some c else m
    | none => some c) none
  match last with
  | some c => c.cmd != 3
  | none => if fresh then cfgStandby (s.cellCfgSh cell) else s.cellState cell == 2

/-- What a cell command is checked to be (R81, R82, R83): its status and detail, 0 when it is accepted. -/
def State.judgeCmd (s : State) (cell frame : Nat) (queue : Option Nat) : Nat × Nat :=
  let start := posOf frame 0
  let cfg := s.cfgFor cell start
  let d := (frame + 2 ^ 20 - s.frame) % 2 ^ 20
  if !cfgServed cfg ∨ s.cellState cell = 3 then (2, 0x03)
  else if (match queue with | some q => cfgGroup cfg != q | none => false) then (2, 0x04)
  else if 1024 < d ∧ d < 2 ^ 19 then (2, 0x0C)
  else if !s.byEdgeOf (posAdd start (-2240)) then (1, 0)
  else (0, 0)

/-- The record of a cell command (R78). -/
def State.postCmd (s : State) (c : CellCmd) (status detail : Nat) : State :=
  s.postRecord { queue := c.queue, ring := c.ring, tag := c.tag, cell := c.cell, dir := 0, frame := 0, slot := 0, cmd := true
                 status := status, detail := detail, firstBad := 0xFFFF, ok := 0 }

/-- The result of a peer's START sent back along the reverse of its route; `peer` is the header of its CELL_START as received (R83). -/
def State.sendCellResult (s : State) (peer token status : Nat) : State :=
  s.sendMsg (.reverse (BitVec.ofNat 64 peer)) 0x21 0 (leBytes 4 token ++ leBytes 1 status)

/-- A cell command from the local host accepted or completed at once (R81 to R83). -/
def State.acceptCmd (s : State) (c : CellCmd) : State :=
  let j := s.judgeCmd c.cell c.frame (some c.queue)
  if j.1 ≠ 0 then s.postCmd c j.1 j.2 else
    let s1 := { s with drv := { s.drv with cmds := s.drv.cmds ++ [c], accepted := s.drv.accepted + 1 } }
    if c.cmd = 2 then
      s1.sendMsg (.device c.dest) 0x20 0 (leBytes 4 (c.cell % 256) ++ leBytes 4 c.frame ++ leBytes 4 c.token)
    else s1

/-- A START that a fabric peer sent (R83). -/
def State.acceptPeer (s : State) (peer cell frame token : Nat) : State :=
  let j := s.judgeCmd cell frame none
  if j.1 ≠ 0 then s.sendCellResult peer token j.1 else
    { s with drv := { s.drv with cmds := s.drv.cmds ++
      [(⟨cell, 3, frame, some peer, 0, 0, 0, 0, token, false, false, none⟩ : CellCmd)] } }

/-- CELL_RESULT for the START of a MIGRATE of this device (R83). -/
def State.cellResult (s : State) (token status : Nat) : State :=
  { s with drv := { s.drv with cmds := s.drv.cmds.map fun c =>
    if c.cmd = 2 ∧ c.peer = none ∧ c.token = token then { c with result := some status } else c } }

/-- Rank of a command in R82: STOP over MIGRATE over START, the local host over a peer. -/
def cmdRank (c : CellCmd) : Nat := 2 * c.cmd + (if c.peer.isSome then 1 else 0)

/-- The commands for frames up to `frame` resolved: of those of one cell and frame the first of the lowest rank is kept (R82). -/
def resolveCmds (frame : Nat) (cs : List CellCmd) : List CellCmd :=
  let open_ (c : CellCmd) : Bool := !c.resolved && !c.lost && decide (posDiff (posOf frame 0) (posOf c.frame 0) ≥ 0)
  cs.zipIdx.map fun p =>
    let c := p.1
    if !open_ c then c else
      let better := cs.zipIdx.any fun o => o.1.cell == c.cell && o.1.frame == c.frame
        && (o.1.resolved || (open_ o.1 && (decide (cmdRank o.1 < cmdRank c) || (cmdRank o.1 == cmdRank c && decide (o.2 < p.2)))))
      if better then { c with lost := true } else { c with resolved := true }

/-- The answers to peers whose commands have just been resolved (R83). -/
def State.answerPeers (s : State) (before after : List CellCmd) : State :=
  (before.zip after).foldl (fun t p =>
    match p.2.peer with
    | some d =>
      if !p.1.resolved ∧ p.2.resolved then t.sendCellResult d p.2.token 0
      else if !p.1.lost ∧ p.2.lost then t.sendCellResult d p.2.token 6
      else t
    | none => t) s

/-- COMMAND_RESOLVE at an edge (R82): the commands for the frame after the one that begins there. -/
def State.resolveAt (s : State) : State :=
  let f := (frameOf s.edgeTick.1 s.edgeTick.2 + 1) % 2 ^ 20
  let after := resolveCmds f s.drv.cmds
  { s with drv := { s.drv with cmds := after.filter fun c => !(c.lost && c.peer.isSome) } }.answerPeers s.drv.cmds after

/-- The effect of one resolved command on its cell (R81). -/
def State.applyCmd (s : State) (c : CellCmd) (pos : Nat) : State :=
  let s1 := s.bump .DRV_STATS_B Fld.DRV_STATS_B_CMD_APPLIED
  if c.cmd = 3 then if s.cellState c.cell = 2 then s1.setCellState c.cell 1 pos else s1
  else
    let s2 := if s.cellState c.cell = 1 then s1.setCellState c.cell 2 pos else s1
    s2.completeWhere (fun q => q.cell == c.cell && decide (posDiff q.start pos ≥ 0)) 6 0x11

/-- The record that a local command posts when its frame begins (R81, R82, R83). -/
def State.finishCmd (s : State) (c : CellCmd) : State :=
  if c.peer.isSome then s
  else if c.lost then s.postCmd c 6 0x12
  else if c.cmd = 2 then match c.result with
    | some st => s.postCmd c st (if st = 6 then 0x12 else 0)
    | none => s.postCmd c 3 0
  else s.postCmd c 0 0

/-- COMMAND_EFFECT at an edge (R81): the commands whose frame has begun, in frame order. -/
def State.effectAt (s : State) : State :=
  let pos := s.edgePos
  let due := s.drv.cmds.filter fun c => (c.resolved || c.lost) && decide (posDiff pos (posOf c.frame 0) ≥ 0)
  let sorted := due.mergeSort fun a b => decide (posDiff (posOf b.frame 0) (posOf a.frame 0) ≥ 0)
  let s1 := { s with drv := { s.drv with cmds := s.drv.cmds.filter fun c => !due.contains c } }
  sorted.foldl (fun t c => (if c.resolved then t.applyCmd c pos else t).finishCmd c) s1

/-! ### Acceptance (R66 to R74) -/

/-- A request's own descriptor and where it stands. -/
structure Posted where
  queue : Nat
  ring : Nat
  desc : List Byte
  deriving DecidableEq, Repr

/-- A record of a request that completes at acceptance (R80). -/
def State.rejectAt (s : State) (p : Posted) (status detail firstBad : Nat) : State :=
  s.postRecord { queue := p.queue, ring := p.ring, tag := reqTag p.desc, cell := reqCell p.desc, dir := reqDir p.desc
                 frame := reqFrame p.desc, slot := reqSlot p.desc, cmd := reqType p.desc == 2
                 status := status, detail := detail, firstBad := firstBad, ok := 0 }

/-- Whether queue `q` can accept a descriptor with `count` entries now (R65, R66, R86). -/
def State.canAccept (s : State) (q count : Nat) : Bool :=
  let held := (s.drv.store.filter fun r => r.queue == q).length
    + (s.drv.cmds.filter fun c => c.peer.isNone && c.queue == q).length
  let unread := (s.fld (.DRV_CQ_PI q) Fld.DRV_CQ_PI_INDEX + 2 ^ 16 - s.fld (.DRV_CQ_DB q) Fld.DRV_CQ_DB_INDEX) % 2 ^ 16
  s.bit .SYS_READY 6 && s.fld (.DRV_RQ_CFG q) Fld.DRV_RQ_CFG_ENABLE == 1 && s.fld (.DRV_RQ_CFG q) Fld.DRV_RQ_CFG_DB_ERR == 0
    && s.fld (.DRV_CQ_CFG q) Fld.DRV_CQ_CFG_ENABLE == 1
    && s.fld (.DRV_RQ_DB q) Fld.DRV_RQ_DB_INDEX != s.fld (.DRV_RQ_CI q) Fld.DRV_RQ_CI_INDEX
    && (decide (count > 255) || (decide (s.drv.store.length < 1024)
      && decide ((s.drv.store.map fun r => r.entries.length).sum + count ≤ 32768)))
    && decide (held + unread < 2 ^ s.fld (.DRV_CQ_CFG q) Fld.DRV_CQ_CFG_LOG2_SIZE)
    && decide (0 < s.drv.accepts)

/-- The entries of a descriptor with its extension table (R69). -/
def entriesOf (desc ext : List Byte) (count : Nat) : List (List Byte) :=
  (List.range count).map fun i => if i < 3 then slice desc (0x40 + 64 * i) 64 else slice ext (64 * (i - 3)) 64

/-- The index of the first entry that meets a condition. -/
def badEntry (es : List (List Byte)) (p : Nat → List Byte → Bool) : Option Nat :=
  (es.zipIdx.find? fun e => p e.2 e.1).map (·.2)

/-- Whether an RSVD field of a header is not 0 (R69, R70). -/
def headerRsvd (d : List Byte) (count : Nat) : Bool :=
  reqFlags d / 4 != 0 || leAt d 2 1 / 128 != 0 || leAt d 0x0B 1 / 16 != 0 || leAt d 0x0E 2 != 0
    || !allZero (slice d 0x20 32) || !allZero (slice d (0x40 + 64 * min 3 count) (64 * (3 - min 3 count)))
    || (decide (count > 3) && badAddr70 (reqExt d)) || (reqResult d != 0 && badAddr70 (reqResult d))

/-- The position of the first tick of a request's slot. -/
def slotStart (frame slot len : Nat) : Nat := posOf frame (slot * len)

/-- The lag of the first replay release that fills from a slot: of the active almanac before an armed swap, of the shadow's from it on
(R74). -/
def State.firstReplay (s : State) (len start cell : Nat) : Option Int :=
  (((replayLags s.active len start cell).filter fun l => !s.afterSwap (posAdd start l))
    ++ (replayLags s.shadow len start cell).filter fun l => s.afterSwap (posAdd start l)).min?

/-- The position by which a request must be accepted (R67, R74). -/
def State.deadline (s : State) (d : List Byte) (start len : Nat) : Nat :=
  if reqReplay d then
    let tr := posAdd start ((s.firstReplay len start (reqCell d)).getD 0)
    posAdd tr (-(imgLead (s.almanacFor tr) : Int))
  else posAdd start (-(imgLead (s.almanacFor start) : Int))

/-- Whether a request is late (R67, R68, R74). -/
def State.isLate (s : State) (d : List Byte) (start len : Nat) : Bool :=
  decide ((2 ^ 20 - s.frame + reqFrame d) % 2 ^ 20 ≥ 2 ^ 19) || !s.byEdgeOf (s.deadline d start len)

/-- TARUNO_BUILD of the almanac in force at a position. -/
def State.buildFor (s : State) (pos : Nat) : Word := BitVec.ofNat 64 (imgBuild (s.almanacFor pos))

/-- The first check of R72 that a slot request fails: detail, and entry at fault. DESIGN CHOICE (log 10): an entry whose KIND does not belong
to the request's DIR is not refused for that (R71). -/
def State.judgeRequest (s : State) (p : Posted) (es : List (List Byte)) : Option (Nat × Nat) :=
  let d := p.desc
  let cell := reqCell d
  let frameStart := posOf (reqFrame d) 0
  let cfg := s.cfgFor cell frameStart
  let len := cfgSlotLen cfg
  let start := slotStart (reqFrame d) (reqSlot d) len
  let up := reqDir d == 1
  let same := s.drv.store.find? fun q =>
    q.cell == cell && q.start == start && q.dir == reqDir d && q.replay == reqReplay d
  let replaced := if reqReplace d then same.map (·.id) else none
  let entry (code : Nat) (o : Option Nat) : Option (Nat × Nat) := o.map fun i => (code, i)
  let fail (bad : Bool) (code : Nat) : Option (Nat × Nat) := if bad then some (code, 0xFFFF) else none
  List.findSome? id [
    fail (decide (reqDir d > 1) || (reqReplay d && !up)) 0x01, entry 0x01 (badEntry es fun _ e => decide (entKind e > 8)),
    fail (headerRsvd d (reqCount d)) 0x02, entry 0x02 (badEntry es fun _ e => entKind e != 0 && entryRsvd e),
    fail (!cfgServed cfg) 0x03, fail (cfgGroup cfg != p.queue) 0x04,
    fail (decide (1120 / len ≤ reqSlot d) || decide (posDiff start s.pos > 2240)) 0x05,
    fail (decide (reqCount d > 255)) 0x06,
    entry 0x07 (badEntry es fun i e => s.entryBad (s.buildFor start) e cell (reqSlot d) i up (reqReplay d) replaced),
    fail (!reqReplace d && same.isSome) 0x08,
    fail (reqReplay d && !(s.drv.lost.contains (cell, start))) 0x0A,
    fail (reqReplay d && (s.firstReplay len start cell).isNone) 0x0B]

/-- The data of the downlink entries read from their sources (R173): entry index and bytes, or none where a source cannot be read. -/
def State.readEntries (s : State) (data : List HostData) : List (List Byte × Nat) → Option (List (Nat × List Byte)) × State
  | [] => (some [], s)
  | (e, i) :: es =>
    if stagedLen e = 0 ∨ entDataAddr e = 0 then State.readEntries s data es else
      let r := s.read70 niDrover (entDataAddr e) (stagedLen e) (data.getD i .timedOut)
      match r.1 with
      | none => (none, r.2)
      | some bytes =>
        let rest := State.readEntries r.2 data es
        (rest.1.map fun l => (i, bytes) :: l, rest.2)

/-- The data of downlink entries put into their staging space (R173). -/
def State.stageEntries (s : State) (build : Word) (cell slot : Nat) (parts : List (Nat × List Byte)) : State :=
  parts.foldl (fun t p =>
    let w := t.agentPost niDrover (pastureBase + (Config.stagingAddr build cell slot p.1).toNat % pastureSize) p.2
    w.2.replyErrors w.1 none) s

/-- A fresh entry result. -/
def EntryResult.fresh : EntryResult := { status := 0, crcOk := false, bytes_ := 0, kind := 0, fills := 0, own := false }

/-- A slot request that passed its checks (R67, R73, R76, R81); of the outcomes that then apply the highest of R79 prevails. -/
def State.holdRequest (s : State) (p : Posted) (es : List (List Byte)) (data : List HostData) : State :=
  let d := p.desc
  let cell := reqCell d
  let len := cfgSlotLen (s.cfgFor cell (posOf (reqFrame d) 0))
  let start := slotStart (reqFrame d) (reqSlot d) len
  let same := s.drv.store.find? fun q =>
    q.cell == cell && q.start == start && q.dir == reqDir d && q.replay == reqReplay d
  match (if reqDir d = 0 then s.readEntries data es.zipIdx else (some [], s)) with
  | (none, s1) => s1.rejectAt p 2 0x09 0xFFFF
  | (some parts, s1) =>
    if s.isLate d start len then s1.rejectAt p 1 0 0xFFFF
    else if s.cellState cell = 3 ∧ !s.afterSwap start then s1.rejectAt p 7 0 0xFFFF
    else if s.willBeStopped cell start then s1.rejectAt p 6 0x11 0xFFFF
    else
      let build := s.buildFor start
      let staged := s1.stageEntries build cell (reqSlot d) parts
      let s2 := match same with
        | some q => staged.completeRequest q 6 0x10
        | none => staged
      { s2 with
        fh := if reqDir d = 0 then { s2.fh with fills := s2.fh.fills ++ [(s2.drv.accepted, cell, start, es)] } else s2.fh
        drv := { s2.drv with
        accepted := s2.drv.accepted + 1
        store := s2.drv.store ++ [({ id := s2.drv.accepted, queue := p.queue, ring := p.ring, tag := reqTag d, cell := cell
                                     dir := reqDir d, replay := reqReplay d, frame := reqFrame d, slot := reqSlot d, start := start
                                     taken := s2.absCycle, build := build, planOver := false
                                     entries := es, resultAddr := reqResult d, results := es.map fun _ => EntryResult.fresh
                                     discarded := none, discardedAt := 0 } : Request)] } }.showStore

/-- Whether an RSVD field of a cell command is not 0 (R81). -/
def cmdRsvd (d : List Byte) : Bool :=
  leAt d 1 1 != 0 || leAt d 2 1 / 128 != 0 || leAt d 3 1 != 0 || !allZero (slice d 8 24) || cmdDest d / 64 != 0
    || leAt d 0x22 2 != 0 || cmdEff d / 2 ^ 20 != 0 || !allZero (slice d 0x28 216)

/-- A cell command read from a descriptor (R81). -/
def State.acceptCmdDesc (s : State) (p : Posted) : State :=
  let d := p.desc
  if cmdRsvd d then s.rejectAt p 2 0x02 0xFFFF
  else if cmdCode d = 0 ∨ 3 < cmdCode d then
    let j := s.judgeCmd (reqCell d) (cmdEff d) (some p.queue)
    s.rejectAt p 2 (if j.1 = 2 ∧ j.2 < 0x0C then j.2 else 0x0C) 0xFFFF
  else s.acceptCmd { cell := reqCell d, cmd := cmdCode d, frame := cmdEff d, peer := none, queue := p.queue, ring := p.ring
                     tag := reqTag d, dest := cmdDest d, token := s.drv.accepted % 2 ^ 32, resolved := false, lost := false
                     result := none }

/-- REQUEST_ACCEPT: the descriptor at the head of queue `q` is copied and checked (R66, R72). -/
def State.acceptRequest (s : State) (q : Nat) (desc ext : HostData) (data : List HostData) : State :=
  let size := 2 ^ s.fld (.DRV_RQ_CFG q) Fld.DRV_RQ_CFG_LOG2_SIZE
  let ci := s.fld (.DRV_RQ_CI q) Fld.DRV_RQ_CI_INDEX
  let r := s.read70 niDrover ((s.rd (.DRV_RQ_BASE q)).toNat + ci % size * 256) 256 desc
  let d := r.1.getD []
  if !s.canAccept q (reqCount d) then s else
    let s1 := (r.2.setFld (.DRV_RQ_CI q) Fld.DRV_RQ_CI_INDEX ((ci + 1) % 2 ^ 16))
    let s2 := { s1 with drv := { s1.drv with accepts := s1.drv.accepts - 1 } }
    let p : Posted := ⟨q, ci, d⟩
    if r.1.isNone then s2.rejectAt p 2 0x09 0xFFFF
    else
      let needExt := decide (3 < reqCount d) && decide (reqCount d ≤ 255) && !badAddr70 (reqExt d)
      let x := if needExt then s2.read70 niDrover (reqExt d) (64 * (reqCount d - 3)) ext else (some [], s2)
      match x.1 with
      | none => x.2.rejectAt p 2 0x09 0xFFFF
      | some extBytes =>
        if reqType d = 2 then x.2.acceptCmdDesc p
        else if reqType d ≠ 1 then x.2.rejectAt p 2 0x01 0xFFFF
        else
          let es := entriesOf d extBytes (if needExt then reqCount d else min 3 (reqCount d))
          match x.2.judgeRequest p es with
          | some f => x.2.rejectAt p 2 f.1 f.2
          | none => x.2.holdRequest p es data

/-! ### Commands -/

/-- A cell command at the head of queue `q`, at producer index `ring`, which the Drover accepts under the conditions of any descriptor
(R66, R81). -/
def State.cellCmd (s : State) (cmd q ring tag cell frame dest : Nat) : State :=
  if !s.canAccept q 0 || ring != s.fld (.DRV_RQ_CI q) Fld.DRV_RQ_CI_INDEX then s else
    let s1 := s.setFld (.DRV_RQ_CI q) Fld.DRV_RQ_CI_INDEX ((ring + 1) % 2 ^ 16)
    let s2 := { s1 with drv := { s1.drv with accepts := s1.drv.accepts - 1 } }
    s2.acceptCmd { cell := cell, cmd := cmd, frame := frame, peer := none, queue := q, ring := ring, tag := tag, dest := dest,
                   token := s.drv.accepted % 2 ^ 32, resolved := false, lost := false, result := none }

/-- Whether a command is to be resolved at the edge at hand (R82). -/
def State.resolveDue (s : State) : Bool :=
  s.edgePos % 1120 == 0 && s.drv.cmds.any fun c =>
    !c.resolved && !c.lost && decide (posDiff (posOf (frameOf s.edgeTick.1 s.edgeTick.2 + 1) 0) (posOf c.frame 0) ≥ 0)

/-- Whether a command takes effect at the edge at hand (R81); none does between a halt and the restart (R465). -/
def State.effectDue (s : State) : Bool :=
  s.dbg.restart.isNone && s.drv.cmds.any fun c => (c.resolved || c.lost) && decide (posDiff s.edgePos (posOf c.frame 0) ≥ 0)

/-- Vector and COAL_TICKS of a ring: 0 to 15 a completion queue, 16 to 19 a PRACH report ring (R77, R148). -/
def State.coalOf (s : State) (ring : Nat) : Nat × Nat :=
  if ring < 16 then (s.fld (.DRV_CQ_CFG ring) Fld.DRV_CQ_CFG_VECTOR, s.fld (.DRV_CQ_CFG ring) Fld.DRV_CQ_CFG_COAL_TICKS)
  else (s.fld (.PRA_RING_CFG (ring - 16)) Fld.PRA_RING_CFG_VECTOR, s.fld (.PRA_RING_CFG (ring - 16)) Fld.PRA_RING_CFG_COAL_TICKS)

/-- DRV_CTRL.STAT_CLR (R86). -/
def State.clearDrv (s : State) : State := (s.wr .DRV_STATS_A 0).wr .DRV_STATS_B 0

/-- DRV_RQ_DB. -/
def execDrvRqDb (q : Fin 16) (v : BitVec 64) (s : State) : Out := running (fun t => t.writeRqDb q v) s
/-- REQUEST_ACCEPT. -/
def execRequestAccept (q : Fin 16) (desc ext : HostData) (data : List HostData) (s : State) : Out := working (fun t => t.acceptRequest q desc ext data) s
/-- STOP. -/
def execStop (q : Fin 16) (ring : BitVec 16) (tag : BitVec 32) (cell : Fin 128) (frame : BitVec 20) (s : State) : Out := running (fun t => t.cellCmd 1 q ring.toNat tag.toNat cell frame.toNat 0) s
/-- MIGRATE. -/
def execMigrate (q : Fin 16) (ring : BitVec 16) (tag : BitVec 32) (cell : Fin 128) (frame : BitVec 20) (dest : Fin 64) (s : State) : Out := running (fun t => t.cellCmd 2 q ring.toNat tag.toNat cell frame.toNat dest) s
/-- START. -/
def execStart (q : Fin 16) (ring : BitVec 16) (tag : BitVec 32) (cell : Fin 128) (frame : BitVec 20) (s : State) : Out := running (fun t => t.cellCmd 3 q ring.toNat tag.toNat cell frame.toNat 0) s
/-- COMMAND_RESOLVE. -/
def execCommandResolve (s : State) : Out := running (fun t => t.edgeIf t.resolveDue State.resolveAt) s
/-- COMMAND_EFFECT. -/
def execCommandEffect (s : State) : Out := running (fun t => t.edgeIf t.effectDue State.effectAt) s
/-- COAL_TICKS_EXPIRY. -/
def execCoalTicksExpiry (ring : Fin 20) (s : State) : Out := running (fun t => t.coalExpired ring (t.coalOf ring).1 (t.coalOf ring).2) s
/-- DRV_CQ_DB: completions up to the index written are consumed, which frees credit (R66, R77). -/
def execDrvCqDb (q : Fin 16) (v : BitVec 64) (s : State) : Out := running (fun t => t.wrAccess (.DRV_CQ_DB q) v) s
/-- DRV_RQ_CFG. -/
def execDrvRqCfg (q : Fin 16) (v : BitVec 64) (s : State) : Out := running (fun t => t.writeRqCfg q v) s
/-- DRV_CQ_CFG. -/
def execDrvCqCfg (q : Fin 16) (v : BitVec 64) (s : State) : Out := running (fun t => t.writeCqCfg q v) s
/-- DRV_STAT_CLR. -/
def execDrvStatClr (s : State) : Out := running (State.clearDrv) s

end Sys2Proof.Machine
end

