-- ==== Sys2Proof/Machine/Frames.lean ====
section
/-!
DEFINITION. Ethernet frames as the block reads them (R89 to R93, R378, R393), rings in memory (R77, R395, R401), and the time-stamps
of frames (R394).
-/
namespace Sys2Proof.Machine

/-! ### Frames: bytes from the destination address on, without FCS -/

/-- The big-endian number in the `n` bytes from offset `o`. -/
def beAt (f : List Byte) (o n : Nat) : Nat := beNat (slice f o n)

/-- Whether a frame carries a tag with TPID 0x8100. -/
def ethTagged (f : List Byte) : Bool := beAt f 12 2 == 0x8100

/-- VID of a tagged frame. -/
def ethVid (f : List Byte) : Nat := beAt f 14 2 % 4096

/-- Offset of a frame's payload. -/
def ethBody (f : List Byte) : Nat := if ethTagged f then 18 else 14

/-- EtherType of a frame after its tag. -/
def ethType (f : List Byte) : Nat := beAt f (ethBody f - 2) 2

/-- Ones'-complement sum of 16-bit big-endian words; an odd last byte stands in the high half. -/
def onesSum : List Byte → Nat
  | a :: b :: bs =>
    let n := a.toNat * 256 + b.toNat + onesSum bs
    n % 65536 + n / 65536
  | [a] => a.toNat * 256
  | [] => 0

/-- Whether an IPv4 frame is one that R394 accepts: IHL 5, not fragmented, a good header checksum and UDP. -/
def ipv4Ok (f : List Byte) : Bool :=
  let o := ethBody f
  beAt f o 1 == 0x45 && beAt f (o + 6) 2 % 0x4000 == 0 && onesSum (slice f o 20) == 0xFFFF && beAt f (o + 9) 1 == 17

/-- Whether a UDP frame over IPv4 is PTP: to port 319 or 320. -/
def isPtpIpv4 (f : List Byte) : Bool :=
  let o := ethBody f
  ipv4Ok f && (beAt f (o + 22) 2 == 319 || beAt f (o + 22) 2 == 320)

/-- The SSM code of an ESMC frame that is accepted (R378). -/
def esmcCode (f : List Byte) : Option Nat :=
  let o := ethBody f
  if ethType f = 0x8809 ∧ beAt f o 1 = 0x0A ∧ beAt f (o + 1) 3 = 0x0019A7 ∧ beAt f (o + 4) 2 = 1
      ∧ beAt f (o + 10) 1 = 1 ∧ beAt f (o + 11) 2 = 4 then some (beAt f (o + 13) 1 % 16) else none

/-! ### Rings of firmware -/

/-- An entry written at the producer index of a ring that follows the PHASE rules of R77; `none` when it is disabled or full. -/
def State.pushRing (s : State) (srcNi : Nat) (base cfg db pi : Reg) (size : Nat) (entry : Nat → List Byte) : Option State :=
  let n := 2 ^ s.fld cfg Fld.TIM_RX_CFG_LOG2_SIZE
  let head := s.fld pi Fld.TIM_RX_PI_INDEX
  let used := (head + 2 ^ 16 - s.fld db Fld.TIM_RX_DB_INDEX) % 2 ^ 16
  if s.fld cfg Fld.TIM_RX_CFG_ENABLE = 0 ∨ n ≤ used then none else
    let phase := s.fld pi Fld.TIM_RX_PI_PHASE
    let w := s.agentPost srcNi ((s.rd base).toNat + head % n * size) (entry phase)
    let s1 := (w.2.replyErrors w.1 none).setFld pi Fld.TIM_RX_PI_INDEX ((head + 1) % 2 ^ 16)
    let s2 := if (head + 1) % n = 0 then s1.setFld pi Fld.TIM_RX_PI_PHASE (1 - phase) else s1
    some (s2.msix (s.fld cfg Fld.TIM_RX_CFG_VECTOR))

/-- A write of a ring's configuration: sizes outside 2 to 6 are ignored whole (R356, R401). -/
def State.writeRingCfg (s : State) (cfg : Reg) (v : Word) : State :=
  let size := Fld.TIM_RX_CFG_LOG2_SIZE.get v
  if size < 2 ∨ 6 < size then s else s.wrAccess cfg v

/-! ### Time-stamps (R394) -/

/-- Fixed receive and transmit latencies of a port in tenths of a nanosecond, by MODE and FEC. -/
def portLatency (mode fec : Nat) : Nat × Nat :=
  match mode, fec with
  | 1, _ => (384, 261)
  | 2, 1 => (2163, 582)
  | 2, _ => (217, 149)
  | 3, 1 => (1219, 476)
  | _, _ => (335, 228)

/-- Tenths of a nanosecond in 2^-16 ns, rounded down or up: the spec gives no rounding. -/
def State.latencyUnits (s : State) (tenths : Nat) : Int × State :=
  let up := s.drawBool
  (((65536 * tenths / 10 + if up.1 then 1 else 0 : Nat) : Int), up.2)

/-- Device time of a received frame at the balls, from that of its SFD at the MAC. -/
def State.rxTime (s : State) (port : Nat) (sfd : Word) : Word × State :=
  let l := s.latencyUnits (portLatency (s.fld (.FHL_PORT_CFG port) Fld.FHL_PORT_CFG_MODE) (s.fld (.FHL_PORT_CFG port) Fld.FHL_PORT_CFG_FEC)).1
  (sfd - BitVec.ofInt 64 (l.1 + signedOf 32 (s.fld (.TIM_PORT port) Fld.TIM_PORT_RX_ADJ)), l.2)

/-- Device time of a transmitted frame at the balls. -/
def State.txTime (s : State) (port : Nat) (sfd : Word) : Word × State :=
  let l := s.latencyUnits (portLatency (s.fld (.FHL_PORT_CFG port) Fld.FHL_PORT_CFG_MODE) (s.fld (.FHL_PORT_CFG port) Fld.FHL_PORT_CFG_FEC)).2
  (sfd + BitVec.ofInt 64 (l.1 + signedOf 32 (s.fld (.TIM_PORT port) Fld.TIM_PORT_TX_ADJ)), l.2)

end Sys2Proof.Machine
end

