-- ==== Sys2Proof/Machine/Timers.lean ====
section
/-!
DEFINITION. The Bellwether: reference inputs, selection and loop states (R374 to R383), steps of time (R389, R390), output steps
(R392), event timers (R398 to R400) and latched reads (R401).
-/
namespace Sys2Proof.Machine

/-! ### Events -/

/-- TIM_STATUS.CHANGE set, with its MSI-X event (R401). -/
def State.timChange (s : State) : State :=
  (s.setFld .TIM_STATUS Fld.TIM_STATUS_CHANGE 1).msixIf (s.fld .TIM_CTRL Fld.TIM_CTRL_EVT_EN == 1)
    (s.fld .TIM_CTRL Fld.TIM_CTRL_VECTOR)

/-! ### Quality levels (R376, R377) -/

/-- An SSM code as the block takes it. -/
def takenQl (code : Nat) : Nat := if code = 2 ∨ code = 4 ∨ code = 8 ∨ code = 0xB then code else 0xF

/-- Rank of an SSM code; a lower one is better. -/
def qlRank (code : Nat) : Nat :=
  if code = 2 then 1 else if code = 4 then 2 else if code = 8 then 3 else if code = 0xB then 4 else 5

/-- The quality level of a PTP clockClass. -/
def classQl (c : Nat) : Nat :=
  if c = 6 ∨ c = 7 then 2 else if c = 135 then 4 else if c = 140 ∨ c = 150 ∨ c = 160 then 8
  else if c = 165 ∨ c = 248 then 0xB else 0xF

/-- The lane of SyncE input 5 or 6 and whether its clock is enabled (R367). -/
def State.rclk (s : State) (i : Nat) : Nat × Bool :=
  if i = 5 then (s.fld .SDS_CTRL Fld.SDS_CTRL_RCLK0_LANE, s.fld .SDS_CTRL Fld.SDS_CTRL_RCLK0_EN == 1)
  else (s.fld .SDS_CTRL Fld.SDS_CTRL_RCLK1_LANE, s.fld .SDS_CTRL Fld.SDS_CTRL_RCLK1_EN == 1)

/-- The quality level of an input (R374, R376 to R378). -/
def State.inputQl (s : State) (i : Nat) (r : RefInput) : Nat :=
  let cfg (f : BitField) : Nat := s.fld (.TIM_REF_CFG i) f
  takenQl <|
    if cfg Fld.TIM_REF_CFG_QL_OVR = 1 ∨ i ≤ 4 then cfg Fld.TIM_REF_CFG_QL
    else if i = 7 then classQl (cfg Fld.TIM_REF_CFG_CLOCK_CLASS)
    else
      let lane := (s.rclk i).1
      match s.fld (.SDS_LANE_STATUS lane) Fld.SDS_LANE_STATUS_USER with
      | 1 => if r.esmcIdle ≥ 5000 then 0xF else r.rxQl
      | 2 => match s.groupOfLane lane with
        | some g => s.fld (.DRL_GRP_STATUS g) Fld.DRL_GRP_STATUS_QL
        | none => 0xF
      | _ => 0xF

/-! ### Evaluation of the inputs (R375) -/

/-- The phase of an input with its DELAY subtracted (R374). -/
def State.refPhase (s : State) (i : Nat) (o : RefObs) : Int :=
  o.phase.toInt - signedOf 32 (s.fld (.TIM_REF_CFG i) Fld.TIM_REF_CFG_DELAY)

/-- Whether an input is active. -/
def State.refActive (s : State) (i : Nat) (r : RefInput) (o : RefObs) : Bool :=
  s.fld (.TIM_REF_CFG i) Fld.TIM_REF_CFG_EN == 1 &&
    if i < 4 then o.edge
    else if i = 4 then
      o.edge && (s.fld .TIM_STATUS Fld.TIM_STATUS_STEP_DONE == 0 || decide ((s.refPhase i o).natAbs ≤ 65536000))
    else if i < 7 then
      let l := s.rclk i
      l.2 && s.fld (.SDS_LANE_STATUS l.1) Fld.SDS_LANE_STATUS_SIGNAL == 1
        && s.fld (.SDS_LANE_STATUS l.1) Fld.SDS_LANE_STATUS_LOCK == 1
        && s.fld (.SDS_LANE_STATUS l.1) Fld.SDS_LANE_STATUS_ADAPTED == 1
    else decide (r.idle < 2000)

/-- The samples of the last second. -/
def State.freshSamples (s : State) (l : List (Word × Int)) : List (Word × Int) :=
  l.filter fun x => decide (dtDiff s.now x.1 < (unitsPerSecond : Int))

/-- One input evaluated: its record, and its status register. -/
def State.evaluateInput (s : State) (i : Nat) (o : RefObs) : State :=
  let r := s.tm.refs.getD i RefInput.idleInput
  let ql := s.inputQl i r
  let active := s.refActive i r o
  let freqOk := i == 7 || decide (o.fofs.toInt.natAbs ≤ 1000000 * s.fld .TIM_CFG Fld.TIM_CFG_FREQ_LIM)
  let ok := active && freqOk && ql != 0xF
  let good := if ok then r.good + 1 else 0
  let wtr := 1000 * s.fld .TIM_CFG Fld.TIM_CFG_WTR
  let valid := ok && decide (2000 ≤ good) && (!r.wasValid || decide (wtr ≤ good) ||
    s.fld (.TIM_REF_STATUS i) Fld.TIM_REF_STATUS_VALID == 1)
  let samples := if i = 4 ∧ o.edge then r.samples ++ [(s.now, s.refPhase i o)] else r.samples
  let r' : RefInput :=
    { r with
      idle := satAdd 5001 r.idle 1, good := min good 1000000, wasValid := r.wasValid || valid
      esmcIdle := satAdd 5001 r.esmcIdle 1, samples := s.freshSamples samples }
  let reg : Reg := .TIM_REF_STATUS i
  let b (x : Bool) : Nat := if x then 1 else 0
  let changed := s.fld reg Fld.TIM_REF_STATUS_VALID != b valid || s.fld reg Fld.TIM_REF_STATUS_QL != ql
  let s1 := { s with tm := { s.tm with refs := s.tm.refs.set i r' } }
  let s2 := (((s1.setFld reg Fld.TIM_REF_STATUS_VALID (b valid)).setFld reg Fld.TIM_REF_STATUS_ACTIVE (b active)).setFld reg
    Fld.TIM_REF_STATUS_QL ql).setFld reg Fld.TIM_REF_STATUS_FOFS o.fofs.toNat
  let s3 := s2.setFld reg Fld.TIM_REF_STATUS_WTR (b (ok && !valid && r.wasValid))
  if changed then s3.setFld reg Fld.TIM_REF_STATUS_CHANGE 1 else s3

/-! ### Selection (R379) -/

/-- The preference of an input: rank, PRIO, index. -/
def State.preference (s : State) (i : Nat) : Nat × Nat :=
  (qlRank (s.fld (.TIM_REF_STATUS i) Fld.TIM_REF_STATUS_QL), s.fld (.TIM_REF_CFG i) Fld.TIM_REF_CFG_PRIO)

/-- The best valid input of a list that stands in index order. -/
def State.bestInput (s : State) (among : List Nat) : Option Nat :=
  (among.filter fun i => s.fld (.TIM_REF_STATUS i) Fld.TIM_REF_STATUS_VALID == 1).foldl
    (fun (m : Option Nat) i => match m with
      | none => some i
      | some j =>
        let p := s.preference i
        let q := s.preference j
        if p.1 < q.1 ∨ (p.1 = q.1 ∧ p.2 < q.2) then some i else some j) none

/-- A selection made afresh; `old` is the input held, 15 for none. -/
def State.selectInput (s : State) (among : List Nat) (old : Nat) : Nat :=
  match s.bestInput among with
  | none => 15
  | some i =>
    if old ∈ among ∧ s.fld (.TIM_REF_STATUS old) Fld.TIM_REF_STATUS_VALID = 1 then
      let p := s.preference i
      let q := s.preference old
      if p.1 < q.1 ∨ (p.1 = q.1 ∧ p.2 < q.2 ∧ s.fld .TIM_CFG Fld.TIM_CFG_REVERT = 1) then i else old
    else i

/-! ### Loop states (R381 to R383) -/

/-- HO_AVG in seconds. -/
def State.hoAvg (s : State) : Nat := 10 ^ s.fld .TIM_CFG Fld.TIM_CFG_HO_AVG

/-- The mean of the samples of the holdover average, rounded down or up: the spec gives no rounding. -/
def State.hoMean (s : State) (l : List Int) : Int × State :=
  let up := s.drawBool
  let n : Int := max 1 l.length
  (l.sum / n + (if up.1 && l.sum % n != 0 then 1 else 0), up.2)

/-- The DCO offset that TIM_FREQ shows in a loop state. -/
def State.dcoShown (s : State) (st : Nat) (dco : Int) : Int :=
  if st = 2 then
    let lim : Int := (1000000 * s.fld .TIM_CFG Fld.TIM_CFG_PULL_LIM : Nat)
    if s.tm.pull < 0 then -lim else lim
  else if st = 4 then signedOf 32 (s.fld .TIM_FREQ Fld.TIM_FREQ_HO_FREQ)
  else dco

/-- The loop state after an evaluation that selected `f`, with `changed` a change of either selection (R381). -/
def nextLoop (st f : Nat) (changed inLock ho : Bool) : Nat :=
  match st with
  | 0 => if f = 15 then 0 else 1
  | 1 => if f != 15 && inLock && !changed then 3 else 1
  | 3 => if f = 15 then (if ho then 4 else 0) else if changed then 1 else 3
  | 4 => if f = 15 then 4 else 1
  | _ => st

/-- The loop after the selections of an evaluation: `thr` whether the filtered phase errors of the frequency and the time input lie
within LOCK_THR. -/
def State.runLoop (s : State) (f t : Nat) (thr : Bool × Bool) (dco : Int) : State :=
  let st := s.fld .TIM_STATUS Fld.TIM_STATUS_STATE
  let changed := s.fld .TIM_STATUS Fld.TIM_STATUS_SEL_FREQ != f || s.fld .TIM_STATUS Fld.TIM_STATUS_SEL_TIME != t
  let need := 1000 * s.fld .TIM_CFG Fld.TIM_CFG_LOCK_TIME
  let inThr := if f != 15 && thr.1 && !changed then s.tm.inThr + 1 else 0
  let timeIn := if t != 15 && thr.2 && s.fld .TIM_STATUS Fld.TIM_STATUS_SEL_TIME == t then s.tm.timeInThr + 1 else 0
  let st' := nextLoop st f changed (decide (need ≤ inThr)) (s.fld .TIM_STATUS Fld.TIM_STATUS_HO_VALID == 1)
  let locked := if st' = 3 then (if st = 3 then s.tm.lockedFor + 1 else 0) else 0
  let fresh := if st' = 3 ∧ st ≠ 3 then [] else s.tm.hoSamples
  let samples := if st' = 3 ∧ locked % 1000 = 999 then (dco :: fresh).take s.hoAvg else fresh
  let s1 := { s with tm := { s.tm with
    inThr := min inThr 5000000, timeInThr := min timeIn 5000000, lockedFor := min locked 5000000, hoSamples := samples } }
  let hoValid := if st' = 3 then decide (1000 * s.hoAvg ≤ locked) else s.fld .TIM_STATUS Fld.TIM_STATUS_HO_VALID == 1
  let m := s1.hoMean samples
  let s2 := if st' = 3 ∧ samples ≠ [] then m.2.setFld .TIM_FREQ Fld.TIM_FREQ_HO_FREQ (unsignedOf 32 m.1) else s1
  let s3 := s2.setFld .TIM_FREQ Fld.TIM_FREQ_FREQ (unsignedOf 32 (s2.dcoShown st' dco))
  let ql := if f != 15 && (st' == 1 || st' == 2 || st' == 3) then s.fld (.TIM_REF_STATUS f) Fld.TIM_REF_STATUS_QL
    else s.fld .TIM_CFG Fld.TIM_CFG_QL_HO
  let s4 := ((s3.setFld .TIM_STATUS Fld.TIM_STATUS_STATE st').setFld .TIM_STATUS Fld.TIM_STATUS_SEL_FREQ f).setFld
    .TIM_STATUS Fld.TIM_STATUS_SEL_TIME t
  let s5 := ((s4.setFld .TIM_STATUS Fld.TIM_STATUS_HO_VALID (if hoValid then 1 else 0)).setFld .TIM_STATUS
    Fld.TIM_STATUS_TIME_LOCKED (if t != 15 && decide (need ≤ timeIn) then 1 else 0)).setFld .TIM_STATUS Fld.TIM_STATUS_OUT_QL ql
  let s6 := (List.range 8).foldl (fun u i => u.setFld (.TIM_REF_STATUS i) Fld.TIM_REF_STATUS_SELECTED
    (if i = f ∨ i = t then 1 else 0)) s5
  if changed ∨ st ≠ st' then s6.timChange else s6

/-- One evaluation of every input, both selections and the loop (R375, R379, R381). -/
def State.evaluateRefs (s : State) (obs : List RefObs) (dco : Int) : State :=
  let none_ : RefObs := ⟨false, 0, 0⟩
  let s1 := (List.range 8).foldl (fun t i => t.evaluateInput i (obs.getD i none_)) s
  let f := s1.selectInput [0, 1, 2, 3, 4, 5, 6, 7] (s.fld .TIM_STATUS Fld.TIM_STATUS_SEL_FREQ)
  let t := s1.selectInput [4, 7] (s.fld .TIM_STATUS Fld.TIM_STATUS_SEL_TIME)
  let lim := 65536 * s.fld .TIM_CFG Fld.TIM_CFG_LOCK_THR
  let within (i : Nat) : Bool := i != 15 && decide ((s1.refPhase i (obs.getD i none_)).natAbs ≤ lim)
  s1.runLoop f t (within f, within t) dco

/-! ### Steps of time (R389, R390) -/

/-- Rounding of a quotient to the nearest integer, ties toward zero. -/
def roundToZero (a : Int) (b : Nat) : Int :=
  let q := (2 * a.natAbs + b - 1) / (2 * b)
  if a < 0 then -(q : Int) else q

/-- The offset reference − local as a sum and a count (R389). -/
def State.stepOffset (s : State) (i : Nat) : Option (Int × Nat) :=
  let l := s.freshSamples (s.tm.refs.getD i RefInput.idleInput).samples
  if l = [] then none else
    let sec : Int := if i = 4 ∧ s.fld .TIM_TOD_SET Fld.TIM_TOD_SET_VALID = 1 then
      ((s.fld .TIM_TOD_SET Fld.TIM_TOD_SET_SEC : Int) - (s.tm.tod : Int)) * (unitsPerSecond : Int) else 0
    some ((l.map (·.2)).sum + sec * (l.length : Int), l.length)

/-- Whether a step may be fixed now. -/
def State.stepAllowed (s : State) : Bool :=
  s.tm.step.isNone && s.fld .TIM_STATUS Fld.TIM_STATUS_SEL_TIME != 15
    && (s.fld .TIM_STATUS Fld.TIM_STATUS_STEP_DONE == 0 || s.fld .TIM_STEP_ARM Fld.TIM_STEP_ARM_ARM == 1)
    && s.fld .ALM_SWAP_STATUS Fld.ALM_SWAP_STATUS_ARMED == 0

/-- The step fixed at core cycle 11,000 of the tick before its edge (R389). A tick is 4,096,000,000/7 units. -/
def State.fixStep (s : State) : State :=
  if !s.stepAllowed then s else
    let i := s.fld .TIM_STATUS Fld.TIM_STATUS_SEL_TIME
    match s.stepOffset i with
    | none => s
    | some d =>
      let k := roundToZero (7 * d.1) (4096000000 * d.2)
      let pps := i == 4 && s.fld .TIM_TOD_SET Fld.TIM_TOD_SET_VALID == 0
      { s with tm := { s.tm with
        step := some ⟨k, (7 * d.1 - 4096000000 * k * (d.2 : Int)) / (7 * (d.2 : Int)), pps⟩ } }

/-! ### Event timers (R398 to R400) -/

/-- Device time of core cycle `c` of the tick that lies `n` ticks after tick 0 of this second. -/
def State.timeOf (s : State) (n c : Nat) : Word :=
  let e := edgeUnits n
  s.tm.secDT + BitVec.ofNat 64 (e + c * (edgeUnits (1 + n) - e) / 14000)

/-- A timer armed at core cycle `c` of tick `n` of this second. -/
def State.armTimer (s : State) (i n c : Nat) : State :=
  let passed := decide (dtDiff (s.timeOf n c) (s.rd (.TIM_EVT_CMP i)) ≥ 0)
  let at_ := 14000 * (ticksPerSecond * s.tm.tod + n) + c
  { s with tm := { s.tm with armedAt := SMap.set zeroNat s.tm.armedAt i (2 * at_ + if passed then 1 else 0) } }.setFld
    (.TIM_EVT_CTRL i) Fld.TIM_EVT_CTRL_ARM 1

/-- Core cycles from cycle `c` of calendar index `idx` to a timer record of an almanac of `len` ticks; a full cycle for a record at the
same cycle when `after`. -/
def recordDistance (len idx c w : Nat) (after : Bool) : Nat :=
  let d := 14000 * ((bitsOf w 49 15 + len - idx % len) % len) + bitsOf w 35 14
  let d' := if c ≤ d then d - c else d + 14000 * len - c
  if after ∧ d' = 0 then 14000 * len else d'

/-- TIM_EVT0–5 loaded with its next record, counted from core cycle `c` of tick `n` of this second at calendar index `idx` (R400). -/
def State.loadTimer (s : State) (i n idx c : Nat) (after : Bool) : State :=
  let len := 1120 * imgK s.active
  let recs := (secRecords s.active 9 8).filter fun w => bitsOf w 32 3 == i
  let s0 := s.setFld (.TIM_EVT_CTRL i) Fld.TIM_EVT_CTRL_ARM 0
  let best := recs.foldl (fun (m : Option Nat) w => match m with
    | none => some w
    | some v => if recordDistance len idx c w after < recordDistance len idx c v after then some w else some v) none
  match best with
  | none => s0
  | some w =>
    let d := c + recordDistance len idx c w after
    let s1 := (s0.wr (.TIM_EVT_CMP i) (s.timeOf (n + d / 14000) (d % 14000))).setFld (.TIM_EVT_CTRL i) Fld.TIM_EVT_CTRL_PERIOD 0
    let s2 := (s1.setFld (.TIM_EVT_CTRL i) Fld.TIM_EVT_CTRL_ACTION (bitsOf w 24 8)).setFld (.TIM_EVT_CTRL i)
      Fld.TIM_EVT_CTRL_ARG (bitsOf w 0 24)
    s2.armTimer i n c

/-- TIM_EVT0 to TIM_EVT5 loaded at an edge: tick `n` of this second, at calendar index `idx`. -/
def State.loadTimers (s : State) (n idx : Nat) : State :=
  if s.almRuns then (List.range 6).foldl (fun t i => t.loadTimer i n idx 0 false) s else s

/-- Whether a GPIO is claimed for the timers (R399, R427). -/
def State.timerGpio (s : State) (i : Nat) : Bool :=
  s.sys.claims.any fun w => bitsOf w 60 4 == 2 && bitsOf w 48 12 == i && bitsOf w 40 8 == 5

/-- A GPIO driven; a running pulse on it ends. -/
def State.driveGpio (s : State) (i : Nat) (level : Bool) : State :=
  { s with tm := { s.tm with gpio := s.tm.gpio.set i level, gpioPulse := SMap.set zeroNat s.tm.gpioPulse i 0 } }.emit (.gpio i level)

/-- What a timer's ACTION does (R399). -/
def State.timerAction (s : State) (action arg : Nat) : State :=
  let i := arg % 32
  match action with
  | 1 => if s.timerGpio i then s.driveGpio i (arg.testBit 5) else s
  | 2 =>
    let width := bitsOf arg 8 16
    if s.timerGpio i ∧ width ≠ 0 then
      let s1 := s.driveGpio i true
      { s1 with tm := { s1.tm with gpioPulse := SMap.set zeroNat s1.tm.gpioPulse i (s.absCycle + width) } }
    else s
  | 3 => s.shepIrq shepTimer arg
  | 4 => s.msix (arg % 64)
  | _ => s

/-- The core cycle of this tick, from now on, in which an armed timer fires (R398): the first after its arming whose device time
reaches CMP. -/
def State.fireCycle (s : State) (i : Nat) : Option Nat :=
  let e := edgeUnits s.tm.tick
  let span := edgeUnits (1 + s.tm.tick) - e
  let d := dtDiff (s.rd (.TIM_EVT_CMP i)) (s.timeAt 0)
  let c0 := if d ≤ 0 then 0 else ceilDiv (14000 * d.toNat) span
  let armed := SMap.get zeroNat s.tm.armedAt i / 2
  let base := 14000 * s.absTick
  let c := max (max c0 s.tm.cycle) (if base ≤ armed then armed - base + 1 else 0)
  if s.fld (.TIM_EVT_CTRL i) Fld.TIM_EVT_CTRL_ARM = 1 ∧ c < 14000 then some c else none

/-- A timer fires (R398). -/
def State.fireTimer (s : State) (i : Nat) : State :=
  match s.fireCycle i with
  | none => s
  | some c =>
    let s1 := s.passTo c
    let late := SMap.get zeroNat s.tm.armedAt i % 2 == 1
    let s2 := if late then s1.setFld (.TIM_EVT_CTRL i) Fld.TIM_EVT_CTRL_LATE 1 else s1
    let s3 := s2.timerAction (s.fld (.TIM_EVT_CTRL i) Fld.TIM_EVT_CTRL_ACTION) (s.fld (.TIM_EVT_CTRL i) Fld.TIM_EVT_CTRL_ARG)
    let period := s.fld (.TIM_EVT_CTRL i) Fld.TIM_EVT_CTRL_PERIOD
    if i < 6 then s3.loadTimer i s.tm.tick s.calIndex c true
    else if period = 0 then s3.setFld (.TIM_EVT_CTRL i) Fld.TIM_EVT_CTRL_ARM 0
    else (s3.wr (.TIM_EVT_CMP i) (s.timeOf (s.tm.tick + period) c)).armTimer i s.tm.tick c

/-- A write of TIM_EVT_CTRL of a timer (R398, R400, R401). -/
def State.writeEvtCtrl (s : State) (i : Nat) (v : Word) : State :=
  let s1 := s.wrAccess (.TIM_EVT_CTRL i) v
  if 6 ≤ i ∧ Fld.TIM_EVT_CTRL_ARM.get v = 1 then s1.armTimer i s.tm.tick s.tm.cycle else s1

/-- A write of TIM_EVT_CMP of a timer: an armed timer is armed afresh with the new CMP. -/
def State.writeEvtCmp (s : State) (i : Nat) (v : Word) : State :=
  let s1 := s.wrAccess (.TIM_EVT_CMP i) v
  if 6 ≤ i ∧ s.fld (.TIM_EVT_CTRL i) Fld.TIM_EVT_CTRL_ARM = 1 then s1.armTimer i s.tm.tick s.tm.cycle else s1

/-- A timer of firmware disarmed by a step (R390). -/
def State.stepTimer (s : State) (i : Nat) : State :=
  if s.fld (.TIM_EVT_CTRL i) Fld.TIM_EVT_CTRL_ARM = 1 then
    (s.setFld (.TIM_EVT_CTRL i) Fld.TIM_EVT_CTRL_ARM 0).setFld (.TIM_EVT_CTRL i) Fld.TIM_EVT_CTRL_STEPPED 1
  else s

/-! ### The step at its edge (R390) -/

/-- Whether a held request is late when it is judged afresh at a position (R67, R68, R390). -/
def State.lateHeld (s : State) (q : Request) (pos : Nat) : Bool :=
  let len := cfgSlotLen (s.cfgFor q.cell (posOf q.frame 0))
  let lead (p : Nat) : Int := (imgLead (s.almanacFor p) : Int)
  let limit :=
    if q.replay then
      let tr := posAdd q.start ((s.firstReplay len q.start q.cell).getD 0)
      posAdd tr (-(lead tr))
    else posAdd q.start (-(lead q.start))
  decide ((2 ^ 20 - pos / 1120 + q.frame) % 2 ^ 20 ≥ 2 ^ 19) || decide (posDiff limit pos < 0)

/-- A fixed step applied to the counters, at the edge that ends this tick (R385, R389): second, tick and device time move by `k`
ticks. -/
def Tm.shift (t : Tm) (k : Int) : Tm :=
  let abs := ((ticksPerSecond * t.tod + t.tick : Nat) : Int) + k
  let sec := abs / (ticksPerSecond : Int)
  { t with
    tod := (sec % ((2 ^ 48 : Nat) : Int)).toNat
    tick := (abs % (ticksPerSecond : Int)).toNat
    secDT := t.secDT + BitVec.ofInt 64 ((sec - (t.tod : Int)) * (unitsPerSecond : Int))
    gpioPulse := t.gpioPulse.map fun p => (p.1, ((p.2 : Int) + 14000 * k).toNat)
    refs := t.refs.map fun (r : RefInput) => { r with samples := [] }
    step := none }

/-- The step that waits for this edge is applied (R389, R390). -/
def State.applyStep (s : State) : State :=
  match s.tm.step with
  | none => s
  | some st =>
    let s0 := { s with tm := { s.tm.shift st.k with pull := st.residual, lockedFor := 0, inThr := 0, timeInThr := 0 } }
    let s1 := s0.mapStore fun (q : Request) => { q with taken := ((q.taken : Int) + 14000 * st.k).toNat }
    let s2 := (s1.setFld .TIM_STATUS Fld.TIM_STATUS_STEP_DONE 1).setFld .TIM_STEP_ARM Fld.TIM_STEP_ARM_ARM 0
    let s3 := ((s2.setFld .TIM_STATUS Fld.TIM_STATUS_STATE 2).setFld .TIM_FREQ Fld.TIM_FREQ_FREQ
      (unsignedOf 32 (s2.dcoShown 2 0))).timChange
    let s4 := if st.fromPps then s3 else s3.setReadyBit 4 true
    let n := s4.tm.tick + 1
    let s5 := (s4.loadTimers n (indexOf s4.activeK s4.nextPos)).stepTimer 6 |>.stepTimer 7
    let late := s5.completeWhere (fun q => s5.lateHeld q s5.nextPos) 1 0
    late.completeWhere (fun q => decide (posDiff q.start s5.nextPos > 2240)) 2 0x05

/-- The residual of a step has been removed (R381, R389). -/
def State.endPull (s : State) : State :=
  if s.fld .TIM_STATUS Fld.TIM_STATUS_STATE = 2 then
    ({ s with tm := { s.tm with pull := 0 } }.setFld .TIM_STATUS Fld.TIM_STATUS_STATE 1).timChange
  else s

/-! ### Samples, outputs, latched reads -/

/-- A write of TIM_VREF_SUB: a sample of input 7 is committed (R375, R401). -/
def State.commitSample (s : State) (v : Word) : State :=
  let r := s.tm.refs.getD 7 RefInput.idleInput
  let off : Int := signedOf 48 (s.fld .TIM_VREF_SEC Fld.TIM_VREF_SEC_SEC) * (unitsPerSecond : Int) + v.toInt
    - signedOf 32 (s.fld (.TIM_REF_CFG 7) Fld.TIM_REF_CFG_DELAY)
  let r' : RefInput := { r with idle := 0, samples := s.freshSamples (r.samples ++ [(s.rd .TIM_VREF_AT, off)]) }
  { s with tm := { s.tm with refs := s.tm.refs.set 7 r' } }

/-- A write of TIM_REF_CFG: EN from 0 to 1 starts the qualification of the input afresh (R375). -/
def State.writeRefCfg (s : State) (i : Nat) (v : Word) : State :=
  let s1 := s.wrAccess (.TIM_REF_CFG i) v
  if s.fld (.TIM_REF_CFG i) Fld.TIM_REF_CFG_EN = 0 ∧ Fld.TIM_REF_CFG_EN.get v = 1 then
    let r := s.tm.refs.getD i RefInput.idleInput
    let r' : RefInput := { r with good := 0, wasValid := false }
    { s1 with tm := { s1.tm with refs := s1.tm.refs.set i r' } }
  else s1

/-- A write of TIM_CFG: reserved bandwidths are ignored whole (R380). -/
def State.writeTimCfg (s : State) (v : Word) : State :=
  if Fld.TIM_CFG_FREQ_BW.get v ≥ 14 ∨ Fld.TIM_CFG_PHASE_BW.get v ≥ 14 then s else s.wrAccess .TIM_CFG v

/-- A write of TIM_OUT_STEP (R392). -/
def State.addOutStep (s : State) (o : Nat) (v : Word) : State :=
  let p := s.tm.outStep.getD o 0 + signedOf 32 v.toNat
  let off := signedOf 40 (s.fld (.TIM_OUT o) Fld.TIM_OUT_OFFSET) + p
  if p < -(2 ^ 31) ∨ 2 ^ 31 ≤ p ∨ off < -(2 ^ 39) ∨ 2 ^ 39 ≤ off then s.setFld (.TIM_OUT o) Fld.TIM_OUT_REJECT 1
  else { s with tm := { s.tm with outStep := s.tm.outStep.set o p } }

/-- The pending step of an output added to its OFFSET at an edge (R392). -/
def State.applyOutStep (s : State) (o : Nat) : State :=
  let off := signedOf 40 (s.fld (.TIM_OUT o) Fld.TIM_OUT_OFFSET) + s.tm.outStep.getD o 0
  { s with tm := { s.tm with outStep := s.tm.outStep.set o 0 } }.setFld (.TIM_OUT o) Fld.TIM_OUT_OFFSET (unsignedOf 40 off)

/-! ### Outputs (R391) -/

/-- Frequency of a CLKOUT in Hz. -/
def clkHz (freq : Nat) : Nat :=
  match freq with
  | 0 => 10000000
  | 1 => 25000000
  | 2 => 112000000
  | 3 => 122880000
  | 4 => 156250000
  | 5 => 245760000
  | _ => (Config.clkReserved (BitVec.ofNat 3 freq)).toNat

/-- Whether an output is driven: the pin map gives it its ball, and EN is set; otherwise it is high-impedance (R391, R474; for EN DEDUCED, log 25). -/
def State.outDriven (s : State) (o : Nat) : Bool :=
  let ball := if o < 4 then 2608 + 2 * o else 2616 + (o - 4)
  s.sys.pinMap && s.fld (.TIM_OUT o) Fld.TIM_OUT_EN == 1
    && s.sys.claims.any fun w => bitsOf w 60 4 == 0 && bitsOf w 48 12 == ball && bitsOf w 40 8 == 4

/-- Whether an output is held low: SQ_UNLOCK in FREERUN, ACQUIRE or PULL. -/
def State.outSquelched (s : State) (o : Nat) : Bool :=
  s.fld (.TIM_OUT o) Fld.TIM_OUT_SQ_UNLOCK == 1 && decide (s.fld .TIM_STATUS Fld.TIM_STATUS_STATE < 3)

/-- Time in 2^-16 ns since the output's last rising edge, at time `x` of a second. Edges fall at each whole second plus OFFSET; a CLKOUT has
one in each period of its frequency. -/
def State.sinceRise (s : State) (o x : Nat) : Nat :=
  let u := (((x : Int) - signedOf 40 (s.fld (.TIM_OUT o) Fld.TIM_OUT_OFFSET)) % (unitsPerSecond : Int)).toNat
  if 4 ≤ o then u
  else
    let f := clkHz (s.fld (.TIM_OUT o) Fld.TIM_OUT_FREQ)
    (u * f % unitsPerSecond) / f

/-- The level of an output at time `x` of a second; none while it is high-impedance. A PPS_OUT is high for WIDTH microseconds. -/
def State.outLevel (s : State) (o x : Nat) : Option Bool :=
  if !s.outDriven o then none
  else if s.outSquelched o then some false
  else
    let high := if 4 ≤ o then s.fld (.TIM_OUT o) Fld.TIM_OUT_WIDTH * 65536000
      else (Config.clkHigh (BitVec.ofNat 3 (s.fld (.TIM_OUT o) Fld.TIM_OUT_FREQ))).toNat
    some (decide (s.sinceRise o x < high))

/-- The level of an output now. -/
def State.outPin (s : State) (o : Nat) : Option Bool := s.outLevel o (dtDiff s.now s.tm.secDT).toNat

/-! ### Commands -/

/-- TIME_STEP_FIX at core cycle 11,000 of the tick before E; a template fetched before it is fetched again (R389, R390). -/
def State.fixAt (s : State) : State :=
  if decide (11000 < s.tm.cycle) || !s.stepAllowed then s else
    { s with drv := { s.drv with next := [], nextIdx := none } }.fixStep.passTo 11000

/-- TIME_STEP at the edge that follows the fixing. -/
def State.stepNow (s : State) : State := if s.tm.step.isNone then s else s.closeTick.applyStep

/-- The end of a GPIO pulse, in this tick or before (R399). -/
def State.endPulse (s : State) (i : Nat) : State :=
  let p := SMap.get zeroNat s.tm.gpioPulse i
  if p = 0 ∨ 14000 * (s.absTick + 1) ≤ p then s else (s.passTo (p - 14000 * s.absTick)).driveGpio i false

/-- A timer whose ARM is written with its control word (R398). -/
def State.armEvent (s : State) (n : Nat) (v : Word) : State := s.writeEvtCtrl (6 + n) (Fld.TIM_EVT_CTRL_ARM.set v 1)

/-- TIM_CTRL.STAT_CLR (R401). -/
def State.clearTim (s : State) : State := (List.range 5).foldl (fun t k => t.wr (.TIM_CNT k) 0) s

/-- REFERENCE_EVALUATION. -/
def execReferenceEvaluation (obs : List RefObs) (dco : BitVec 32) (s : State) : Out := running (fun t => t.evaluateRefs obs dco.toInt) s
/-- TIME_STEP_FIX. -/
def execTimeStepFix (s : State) : Out := running (State.fixAt) s
/-- TIME_STEP. -/
def execTimeStep (s : State) : Out := running (State.stepNow) s
/-- PULL_COMPLETE. -/
def execPullComplete (s : State) : Out := running (State.endPull) s
/-- TIM_STEP_ARM. -/
def execTimStepArm (s : State) : Out := running (fun t => t.setFld .TIM_STEP_ARM Fld.TIM_STEP_ARM_ARM 1) s
/-- TIM_STEP_DISARM. -/
def execTimStepDisarm (s : State) : Out := running (fun t => t.setFld .TIM_STEP_ARM Fld.TIM_STEP_ARM_ARM 0) s
/-- TIM_VREF_SUB. -/
def execTimVrefSub (v : BitVec 64) (s : State) : Out := running (fun t => (t.wrAccess .TIM_VREF_SUB v).commitSample v) s
/-- TIM_TOD_SEC_READ. -/
def execTimTodSecRead (s : State) : Out := running (fun t => t.readTodSec.2) s
/-- TIM_OUT_STEP. -/
def execTimOutStep (o : Fin 6) (v : BitVec 64) (s : State) : Out := running (fun t => t.addOutStep o v) s
/-- OUTPUT_STEP_APPLY. -/
def execOutputStepApply (o : Fin 6) (s : State) : Out := running (fun t => t.edgeIf (t.tm.outStep.getD o 0 != 0) (·.applyOutStep o)) s
/-- EVENT_TIMER_ARM. -/
def execEventTimerArm (n : Fin 2) (v : BitVec 64) (s : State) : Out := running (fun t => t.armEvent n v) s
/-- EVENT_TIMER_FIRE. -/
def execEventTimerFire (n : Fin 8) (s : State) : Out := running (fun t => t.fireTimer n) s
/-- GPIO_PULSE_END. -/
def execGpioPulseEnd (n : Fin 32) (s : State) : Out := running (fun t => t.endPulse n) s
/-- TIM_STAT_CLR. -/
def execTimStatClr (s : State) : Out := running (State.clearTim) s

end Sys2Proof.Machine
end

