-- ==== Sys2Proof/Machine/Fronthaul.lean ====
section
/-!
DEFINITION. The fronthaul ports (R87 to R113): classification and reception of frames, windows, presence bits, C-plane and U-plane
transmission, delay measurement; PTP and ESMC frames on their way to the Bellwether (R378, R393 to R397).
-/
namespace Sys2Proof.Machine

/-- NI of the fronthaul ports that a port belongs to (R262). -/
def niFronthaul (port : Nat) : Nat := 70 + port / 16

/-- A port counter (R111). -/
def State.fhCount (s : State) (port i : Nat) (k : Nat := 1) : State := s.tally (.FHL_CNT port i) k

/-! ### eAxC entries (R112) -/

def State.eaxc (s : State) (n : Nat) (f : BitField) : Nat := s.fld (.FHL_EAXC n) f

/-- The valid entries that meet a condition, in index order. -/
def State.eaxcs (s : State) (p : Nat → Bool) : List Nat :=
  (List.range 1024).filter fun n => s.eaxc n Fld.FHL_EAXC_VALID == 1 && p n

/-- The entries of a cell, port and direction. -/
def State.eaxcsOf (s : State) (cell port dir : Nat) : List Nat :=
  s.eaxcs fun n => s.eaxc n Fld.FHL_EAXC_CELL == cell && s.eaxc n Fld.FHL_EAXC_PORT == port && s.eaxc n Fld.FHL_EAXC_DIR == dir

/-- Bits of I or Q of an entry (R96). -/
def State.eaxcWidth (s : State) (n : Nat) : Nat :=
  if s.eaxc n Fld.FHL_EAXC_METHOD = 1 ∧ s.eaxc n Fld.FHL_EAXC_WIDTH ≠ 0 then s.eaxc n Fld.FHL_EAXC_WIDTH else 16

/-- Whether the method and width of an entry are supported (R96). -/
def State.eaxcMethodOk (s : State) (n : Nat) : Bool :=
  let m := s.eaxc n Fld.FHL_EAXC_METHOD
  let w := s.eaxc n Fld.FHL_EAXC_WIDTH
  (m == 0 && w == 0) || (m == 1 && (w == 0 || decide (6 ≤ w)))

/-- The entries of a cell, port and direction that frames and messages are sent for: those whose compression is supported. That an entry
of a refused method or width sends nothing, and counts nothing, is a DESIGN CHOICE (R96, log 16). -/
def State.sendEaxcs (s : State) (cell port dir : Nat) : List Nat := (s.eaxcsOf cell port dir).filter s.eaxcMethodOk

/-- Bytes of a PRB of an entry (R96). -/
def State.prbBytes (s : State) (n : Nat) : Nat :=
  if s.eaxc n Fld.FHL_EAXC_METHOD = 1 then 3 * s.eaxcWidth n + 1 else 48

/-- udCompHdr of an entry. -/
def State.udCompHdr (s : State) (n : Nat) : Nat := s.eaxc n Fld.FHL_EAXC_WIDTH * 16 + s.eaxc n Fld.FHL_EAXC_METHOD

/-! ### Compression (R96) -/

/-- A value saturated to `w` signed bits. -/
def satS (w : Nat) (x : Int) : Int := max (-(2 ^ (w - 1) : Nat)) (min ((2 ^ (w - 1) - 1 : Nat) : Int) x)

/-- A right shift with round half up. -/
def roundShift (x : Int) (e : Nat) : Int := (x + (if e = 0 then 0 else (2 ^ (e - 1) : Nat))) / (2 ^ e : Nat)

/-- The 24 components of a PRB from its bytes: 24 values of 16 bits. -/
def expandPrb (method w : Nat) (bs : List Byte) : List Nat :=
  let body := if method = 1 then bs.drop 1 else bs
  let e := if method = 1 then leAt bs 0 1 % 16 else 0
  let n := beNat body
  (List.range 24).map fun i => unsignedOf 16 (satS 16 (signedOf w (bitsOf n ((23 - i) * w) w) * (2 ^ e : Nat)))

/-- The smallest exponent at which every component fits in `w` signed bits. -/
def bfpExponent (w : Nat) (xs : List Int) : Nat :=
  ((List.range 16).find? fun e => xs.all fun x => satS w (roundShift x e) == roundShift x e).getD 15

/-- The bytes of a PRB from its 24 components. -/
def compressPrb (method w : Nat) (xs : List Int) : List Byte :=
  let e := if method = 1 then bfpExponent w xs else 0
  let n := xs.foldl (fun m x => m * 2 ^ w + unsignedOf w (satS w (roundShift x e))) 0
  (if method = 1 then leBytes 1 e else []) ++ beBytes (3 * w) n

/-! ### Slots and windows (R41, R101) -/

/-- Ticks of a symbol of a cell (R12). -/
def State.symLen (s : State) (cell : Nat) : Nat := max 1 (s.slotLen cell / 14)

/-- The window records of the active almanac (R41). -/
def State.winRecords (s : State) : List Nat := secRecords s.active 8 16

def winCell (w : Nat) : Nat := bitsOf w 121 7
def winPort (w : Nat) : Nat := bitsOf w 115 6
def winOpenTick (w : Nat) : Nat := bitsOf w 49 15
def winOpenCycle (w : Nat) : Nat := bitsOf w 35 14
def winCloseTick (w : Nat) : Nat := bitsOf w 20 15
def winCloseCycle (w : Nat) : Nat := bitsOf w 6 14
def winDir (w : Nat) : Nat := bitsOf w 4 2
def winSym (w : Nat) : Nat := bitsOf w 0 4

/-- Core cycles for which a window is open in an almanac of `len` ticks. -/
def winSpan (len w : Nat) : Nat :=
  (14000 * winCloseTick w + winCloseCycle w + 14000 * len - (14000 * winOpenTick w + winOpenCycle w)) % (14000 * len)

/-- First tick of the slot that a window opening at tick `p` governs, for slots of `slot` ticks (R101). -/
def governedSlot (slot w : Nat) (span : Nat) (p : Int) : Int :=
  let u : Int := (slot / 14 : Nat)
  let k : Int := (winSym w : Nat)
  if winDir w = 0 then (p - (k + 1) * u) / (slot : Int) * (slot : Int)
  else
    let close : Int := p + ((winOpenCycle w + span + 13999) / 14000 : Nat)
    (close - k * u + (slot : Int) - 1) / (slot : Int) * (slot : Int)

/-- Position of the slot that a window opening at position `p` governs. -/
def State.windowSlot (s : State) (w p : Nat) : Nat :=
  (governedSlot (s.slotLen (winCell w)) w (winSpan (1120 * s.activeK) w) (p : Int) % (posCount : Int)).toNat

/-- Whether some window of the calendar with a direction governs a symbol of the slot at position `slot`. -/
def State.hasWindow (s : State) (recs : List Nat) (cell port dir sym slot : Nat) : Bool :=
  let len : Int := (1120 * s.activeK : Nat)
  recs.any fun w => winCell w == cell && winPort w == port && winDir w == dir && winSym w == sym
    && decide ((governedSlot (s.slotLen cell) w (winSpan (1120 * s.activeK) w) (winOpenTick w : Int) - (slot : Int)) % len = 0)

/-- First position of a symbol occurrence. -/
def State.occurrence (s : State) (cell slot sym : Nat) : Nat := posAdd slot (sym * s.symLen cell : Nat)

/-- Key of the presence bits of an entry and occurrence. -/
def presenceKey (eaxc occ : Nat) : Nat := posCount * eaxc + occ

/-- The presence bits of an entry at an occurrence (R106). -/
def State.presence (s : State) (eaxc occ : Nat) : Nat := SMap.get zeroNat s.fh.presence (presenceKey eaxc occ)

/-- Presence bits replaced. -/
def State.setPresence (s : State) (eaxc occ v : Nat) : State :=
  { s with fh := { s.fh with presence := SMap.set zeroNat s.fh.presence (presenceKey eaxc occ) v } }

/-- Device address of the antenna, or transmit, buffer of a symbol occurrence (R115). -/
def State.symbolBuffer (s : State) (cell slot sym : Nat) (down : Bool) : Nat :=
  let idx := indexOf s.activeK slot
  pastureBase + (if down then (Config.transmitBuffer (s.rd .ALM_ACTIVE_BUILD) cell idx sym).toNat
    else (Config.antennaBuffer (s.rd .ALM_ACTIVE_BUILD) cell idx sym).toNat) % pastureSize

/-- Offset of PRB 0 of an entry's row in a symbol buffer (R115). -/
def State.rowOffset (s : State) (eaxc : Nat) : Nat := s.eaxc eaxc Fld.FHL_EAXC_ANT * (12 * s.eaxc eaxc Fld.FHL_EAXC_NPRB) * 4

/-- Device address of PRB 0 of an entry's row in the buffer of a symbol occurrence (R115). -/
def State.rowAddr (s : State) (eaxc slot sym : Nat) (down : Bool) : Nat :=
  s.symbolBuffer (s.eaxc eaxc Fld.FHL_EAXC_CELL) slot sym down + s.rowOffset eaxc

/-! ### Frames out (R91, R100, R108) -/

/-- An eCPRI frame from a port (R91, R92). -/
def State.ecpriFrame (s : State) (port dst pcp type : Nat) (payload : List Byte) : List Byte :=
  beBytes 6 dst ++ beBytes 6 (s.fld (.FHL_PORT_MAC port) Fld.FHL_PORT_MAC_ADDR) ++ beBytes 2 0x8100
    ++ beBytes 2 (8192 * pcp + s.fld (.FHL_PORT_VLAN port) Fld.FHL_PORT_VLAN_VID_TX) ++ beBytes 2 0xAEFE
    ++ beBytes 1 0x10 ++ beBytes 1 type ++ beBytes 2 payload.length ++ payload

/-- A frame that starts on a port: sent, or dropped with the link (R108). -/
def State.sendFrame (s : State) (port : Nat) (bytes : List Byte) : State :=
  if s.fld (.FHL_PORT_STATUS port) Fld.FHL_PORT_STATUS_LINK_UP = 1 then (s.fhCount port 18).emit (.frame port bytes)
  else s.fhCount port 19

/-- The destination of an entry, if its peer is valid (R99). -/
def State.peerOf (s : State) (peer : Nat) : Option Nat :=
  if s.fld (.FHL_PEER peer) Fld.FHL_PEER_VALID = 1 then some (s.fld (.FHL_PEER peer) Fld.FHL_PEER_ADDR) else none

/-- The next sequence id of an entry and plane (R92). -/
def State.nextSeq (s : State) (eaxc plane : Nat) : Nat × State :=
  let n := SMap.get zeroNat s.fh.txSeq (2 * eaxc + plane)
  (n, { s with fh := { s.fh with txSeq := SMap.set zeroNat s.fh.txSeq (2 * eaxc + plane) ((n + 1) % 256) } })

/-- frameId, subframeId, slotId and a symbol as the O-RAN headers carry them. -/
def State.oranTime (s : State) (cell slot sym : Nat) : List Byte :=
  let len := s.slotLen cell
  beBytes 1 (slot / 1120) ++ beBytes 2 (4096 * (slot % 1120 / 112) + slot % 112 / len * 64 + sym)

/-- The PRA_CELL entry of a cell (R149). -/
def State.praCell (s : State) (cell : Nat) : Option Nat :=
  (List.range 64).find? fun i => s.fld (.PRA_CELL_A i) Fld.PRA_CELL_A_VALID == 1 && s.fld (.PRA_CELL_A i) Fld.PRA_CELL_A_CELL == cell

/-- filterIndex that O-RAN assigns to a PRACH format (R94). -/
def prachFilter (format : Nat) : Nat := if format ≤ 2 then 1 else if format = 3 then 2 else 3

/-- The C-plane messages of an entry for a symbol run (R97, R98, R149). -/
def State.cplane (s : State) (eaxc slot first count dir : Nat) : List (List Byte) × State :=
  let cell := s.eaxc eaxc Fld.FHL_EAXC_CELL
  let section_ (startPrb numPrb numSym : Nat) : List Byte :=
    beBytes 8 (2 ^ 52 * first + 2 ^ 40 * startPrb + 2 ^ 32 * numPrb + 0xFFF * 2 ^ 20 + 2 ^ 16 * numSym)
  let ids (t : State) : List Byte × State :=
    let q := t.nextSeq eaxc 1
    (beBytes 2 (s.eaxc eaxc Fld.FHL_EAXC_EAXC_ID) ++ beBytes 1 q.1 ++ beBytes 1 0x80, q.2)
  if s.eaxc eaxc Fld.FHL_EAXC_KIND = 0 then
    let i := ids s
    ([i.1 ++ beBytes 1 (dir * 128 + 16) ++ s.oranTime cell slot first ++ beBytes 1 1 ++ beBytes 1 1
        ++ beBytes 1 (s.udCompHdr eaxc) ++ beBytes 1 0 ++ section_ 0 0 count], i.2)
  else
    match s.praCell cell with
    | none => ([], s)
    | some c =>
      let reg (r : Reg) (f : BitField) : Nat := s.fld r f
      (List.range (2 ^ reg (.PRA_CELL_A c) Fld.PRA_CELL_A_FDM_LOG2)).foldl (fun (acc : List (List Byte) × State) f =>
        let i := ids acc.2
        let ofs := (reg (.PRA_CELL_D c) Fld.PRA_CELL_D_FREQ_OFS + f * reg (.PRA_CELL_D c) Fld.PRA_CELL_D_FREQ_STEP) % 2 ^ 24
        (acc.1 ++ [i.1 ++ beBytes 1 (dir * 128 + 16)
          ++ s.oranTime cell slot first ++ beBytes 1 1 ++ beBytes 1 3
          ++ beBytes 2 (reg (.PRA_CELL_C c) Fld.PRA_CELL_C_TIME_OFFSET) ++ beBytes 1 (reg (.PRA_CELL_C c) Fld.PRA_CELL_C_FRAME_STRUCT)
          ++ beBytes 2 (reg (.PRA_CELL_C c) Fld.PRA_CELL_C_CP_LENGTH) ++ beBytes 1 (s.udCompHdr eaxc)
          ++ section_ 0 (reg (.PRA_CELL_C c) Fld.PRA_CELL_C_NUM_PRBC) (reg (.PRA_CELL_C c) Fld.PRA_CELL_C_NUM_SYMBOL)
          ++ beBytes 3 ofs ++ beBytes 1 0], i.2)) ([], s)

/-- A C-plane payload made into a frame; `none` when the entry's peer is not valid (R99). -/
def State.cplaneFrame (s : State) (eaxc : Nat) (payload : List Byte) : Option (List Byte) :=
  let port := s.eaxc eaxc Fld.FHL_EAXC_PORT
  (s.peerOf (s.eaxc eaxc Fld.FHL_EAXC_PEER)).map fun d =>
    s.ecpriFrame port d (s.fld (.FHL_PORT_VLAN port) Fld.FHL_PORT_VLAN_PCP_C) 2 payload

/-- The length of the symbol run that starts at a symbol, 0 where none starts (R98). -/
def State.runLength (s : State) (recs : List Nat) (cell port dir slot sym : Nat) : Nat :=
  let has (k : Nat) : Bool := s.hasWindow recs cell port dir k slot
  if !has sym || (sym != 0 && has (sym - 1)) then 0 else
    (((List.range 14).drop sym).takeWhile has).length

/-- First symbol of the run that covers a symbol. -/
def State.runFirst (s : State) (recs : List Nat) (cell port dir slot sym : Nat) : Nat :=
  sym - ((List.range sym).reverse.takeWhile fun k => s.hasWindow recs cell port dir k slot).length

/-- The frames of a C-plane window: one message per entry for the run that starts at its symbol (R98). -/
def State.cplaneWindow (s : State) (cell port slot sym : Nat) : List (List Byte) × State :=
  let recs := s.winRecords
  [0, 1].foldl (fun (acc : List (List Byte) × State) dir =>
    let n := s.runLength recs cell port dir slot sym
    if n = 0 then acc else
      (s.sendEaxcs cell port dir).foldl (fun (a : List (List Byte) × State) e =>
        let m := a.2.cplane e slot sym n dir
        m.1.foldl (fun (b : List (List Byte) × State) p => match b.2.cplaneFrame e p with
          | some f => (b.1 ++ [f], b.2)
          | none => (b.1, b.2.fhCount port 24)) (a.1, m.2)) acc) ([], s)

/-- Messages of a run that no C-plane window governs, counted as the run's first window opens (R99). -/
def State.countNoCwin (s : State) (cell port dir slot sym : Nat) : State :=
  let recs := s.winRecords
  if s.runLength recs cell port dir slot sym = 0 ∨ s.hasWindow recs cell port 2 sym slot then s else
    s.fhCount port 25 ((s.sendEaxcs cell port dir).map fun e => (s.cplane e slot sym 1 dir).1.length).sum

/-- Whether the precoding of a symbol was discarded (R109). -/
def State.zeroSymbol (s : State) (cell slot sym : Nat) : Bool :=
  s.fh.zero.any fun z => z.1 == cell && z.2.1 == slot && decide (z.2.2.1 ≤ sym) && decide (sym < z.2.2.1 + z.2.2.2)

/-- PRBs per U-plane frame of an entry (R100). -/
def State.prbPerFrame (s : State) (eaxc : Nat) : Nat :=
  let port := s.eaxc eaxc Fld.FHL_EAXC_PORT
  let udc := 2 * s.fld (.FHL_PORT_CFG port) Fld.FHL_PORT_CFG_UDCOMP_HDR
  max 1 (min (max 1 (s.fld (.FHL_PORT_CFG port) Fld.FHL_PORT_CFG_PRB_PKT))
    ((s.fld (.FHL_PORT_CFG port) Fld.FHL_PORT_CFG_MAX_FRAME - (22 + 8 + 4 + 4 + udc)) / s.prbBytes eaxc))

/-- Whether a PRB of a symbol has signals that no request asks for: an SSB, or the cell-specific reference signals of LTE. -/
def State.staticPrb (s : State) (cell slot sym prb : Nat) : Bool :=
  (List.range 12).any fun j =>
    Config.ssbRe (s.rd .ALM_ACTIVE_BUILD) cell (indexOf s.activeK slot) sym (12 * prb + j)
      || (s.fld (.DEC_CELL_C cell) Fld.DEC_CELL_C_LTE == 1 && isCrs (s.fld (.DEC_CELL_C cell) Fld.DEC_CELL_C_CRS_PORTS) 0 0 sym j)

/-- Whether a request, or a static signal, fills a PRB of a symbol (R100). That a static signal does is DEDUCED: no request asks for it. -/
def State.filledPrb (s : State) (cell slot sym prb : Nat) : Bool :=
  s.staticPrb cell slot sym prb || s.fh.fills.any fun f => f.2.1 == cell && f.2.2.1 == slot
    && f.2.2.2.any fun e => entFills (s.fld (.DEC_CELL_C cell) Fld.DEC_CELL_C_LTE == 1) e sym prb

/-- The compressed bytes of PRBs of an entry read from its transmit buffer; zeros where precoding was discarded, and in the PRBs that
nothing fills (R100, R109). -/
def State.prbData (s : State) (eaxc slot sym first count : Nat) (zero : Bool) : List Byte × State :=
  let w := s.eaxcWidth eaxc
  let m := s.eaxc eaxc Fld.FHL_EAXC_METHOD
  let r := s.agentRead (niFronthaul (s.eaxc eaxc Fld.FHL_EAXC_PORT)) (s.rowAddr eaxc slot sym true + 48 * first) (48 * count)
  let s1 := if zero then s else r.2.replyErrors r.1 none
  let cell := s.eaxc eaxc Fld.FHL_EAXC_CELL
  ((List.range count).flatMap fun p =>
    let data := if zero || r.1.status != stOk || !s.filledPrb cell slot sym (first + p) then [] else r.1.data
    compressPrb m w ((List.range 24).map fun i => signedOf 16 (leAt data (48 * p + 2 * i) 2)), s1)

/-- The U-plane frames of an entry and symbol (R100). -/
def State.uplane (s : State) (eaxc slot sym : Nat) : List (List Byte) × State :=
  let cell := s.eaxc eaxc Fld.FHL_EAXC_CELL
  let port := s.eaxc eaxc Fld.FHL_EAXC_PORT
  let nprb := s.eaxc eaxc Fld.FHL_EAXC_NPRB
  let n := s.prbPerFrame eaxc
  let sec := s.runFirst s.winRecords cell port 1 slot sym
  let zero := s.zeroSymbol cell slot sym
  (List.range (ceilDiv nprb n)).foldl (fun (acc : List (List Byte) × State) i =>
    let first := i * n
    let count := min n (nprb - first)
    let d := acc.2.prbData eaxc slot sym first count zero
    let q := d.2.nextSeq eaxc 0
    let udc := if s.fld (.FHL_PORT_CFG port) Fld.FHL_PORT_CFG_UDCOMP_HDR = 1 then beBytes 2 (s.udCompHdr eaxc * 256) else []
    let payload := beBytes 2 (s.eaxc eaxc Fld.FHL_EAXC_EAXC_ID) ++ beBytes 1 q.1 ++ beBytes 1 0x80 ++ beBytes 1 (128 + 16)
      ++ s.oranTime cell slot sym ++ beBytes 4 (2 ^ 20 * sec + 2 ^ 8 * first + count % 256) ++ udc ++ d.1
    match s.peerOf (s.eaxc eaxc Fld.FHL_EAXC_PEER) with
    | some p =>
      let f := s.ecpriFrame port p (s.fld (.FHL_PORT_VLAN port) Fld.FHL_PORT_VLAN_PCP_U) 0 payload
      (acc.1 ++ [f], if zero then q.2.fhCount port 21 else q.2)
    | none => (acc.1, q.2.fhCount port 24)) ([], s)

/-- The frames of a U-plane transmit window, in eAxC and PRB order (R100). -/
def State.uplaneWindow (s : State) (cell port slot sym : Nat) : List (List Byte) × State :=
  (s.sendEaxcs cell port 1).foldl (fun (acc : List (List Byte) × State) e =>
    let m := acc.2.uplane e slot sym
    (acc.1 ++ m.1, m.2)) ([], s)

/-! ### Opening and closing windows (R101 to R106) -/

/-- The receive entries of a window. -/
def State.winEntries (s : State) (w : Win) : List Nat := s.eaxcsOf w.cell w.port 0

/-- A receive window opens: the presence bits of its occurrence are cleared, and its buffers read as zero (R106). -/
def State.openReceive (s : State) (w : Win) : State :=
  let s1 := { s with fh := { s.fh with wins := s.fh.wins ++ [w] } }
  let s2 := (s1.winEntries w).foldl (fun t e =>
    let t1 := t.setPresence e w.occ 0
    if t.eaxc e Fld.FHL_EAXC_KIND = 0 then
      let r := t1.agentPost (niFronthaul w.port) (w.buffer + t1.rowOffset e)
        (List.replicate (48 * t.eaxc e Fld.FHL_EAXC_NPRB) 0)
      r.2.replyErrors r.1 none
    else t1) s1
  s2.countNoCwin w.cell w.port 0 w.slot w.sym

/-- A receive window closes: the PRBs that are missing are counted (R106); one of PRACH eAxCs governs the cell's occasion from then on (R143). -/
def State.closeReceive (s : State) (w : Win) : State :=
  let missing := ((s.winEntries w).map fun e =>
    ((List.range (s.eaxc e Fld.FHL_EAXC_NPRB)).filter fun p => !(s.presence e w.occ).testBit p).length).sum
  let s1 := if missing = 0 then s else s.fhCount w.port 17 missing
  let prach := (s.winEntries w).any fun e => s.eaxc e Fld.FHL_EAXC_KIND == 1
  { s1 with fh := { s1.fh with wins := s1.fh.wins.filter fun x => x != w, closed := if prach then SMap.set zeroNat s1.fh.closed w.cell (w.occ + 1) else s1.fh.closed } }

/-- The open transmit window of a port whose frame starts next: C-plane goes before U-plane, and windows in their opening order
(R100). -/
def State.nextToSend (s : State) (port : Nat) : Option Win :=
  let open_ (dir : Nat) : Option Win := s.fh.wins.find? fun w => w.dir == dir && w.port == port && w.frames != []
  (open_ 2).orElse fun _ => open_ 1

/-- The next frames of a port's open windows start, each sent or dropped as the link then stands (R100, R104, R108). -/
def State.startFrames (s : State) (port : Nat) : Nat → State
  | 0 => s
  | n + 1 => match s.nextToSend port with
    | none => s
    | some w =>
      let s1 := { s with fh := { s.fh with wins := s.fh.wins.map fun (x : Win) => if x = w then { x with frames := x.frames.drop 1 } else x } }
      State.startFrames (s1.sendFrame port (w.frames.headD [])) port n

/-- A transmit window opens with all its frames waiting (R104). -/
def State.openTransmit (s : State) (w : Win) : State :=
  let m := if w.dir = 2 then s.cplaneWindow w.cell w.port w.slot w.sym
    else (s.countNoCwin w.cell w.port 1 w.slot w.sym).uplaneWindow w.cell w.port w.slot w.sym
  { m.2 with fh := { m.2.fh with wins := m.2.fh.wins ++ [{ w with frames := m.1 }] } }

/-- A transmit window closes: the frames that have not started are dropped (R104). -/
def State.closeTransmit (s : State) (w : Win) : State :=
  let s1 := { s with fh := { s.fh with wins := s.fh.wins.filter fun x => x != w } }
  if w.frames = [] then s1 else s1.fhCount w.port 20 w.frames.length

/-- The window that record `i` opens now. -/
def State.windowAt (s : State) (i p : Nat) : Win :=
  let w := s.winRecords.getD i 0
  let slot := s.windowSlot w p
  { idx := i, dir := winDir w, cell := winCell w, port := winPort w, sym := winSym w, slot := slot
    occ := s.occurrence (winCell w) slot (winSym w), buffer := s.symbolBuffer (winCell w) slot (winSym w) (winDir w != 0), frames := [] }

/-- Whether record `i` opens, or closes, in the current tick. -/
def State.windowDue (s : State) (i : Nat) (close : Bool) : Bool :=
  decide (i < s.winRecords.length) && s.almRuns &&
    s.calIndex == (if close then winCloseTick (s.winRecords.getD i 0) else winOpenTick (s.winRecords.getD i 0))

/-- WINDOW_OPEN and TX_WINDOW_OPEN of record `i`. How many frames have started when the next event of the port comes is the command's
operand here, at TX_WINDOW_CLOSE and at LINK_STATE_CHANGE: it follows from the line rate and what else the port sends. -/
def State.openWindow (s : State) (i : Nat) (transmit : Bool) (started : Nat) : State :=
  let w := s.windowAt i s.pos
  if !s.windowDue i false || (w.dir != 0) != transmit || s.fh.wins.any (fun x => x.idx == i) then s else
    let s1 := s.passTo (winOpenCycle (s.winRecords.getD i 0))
    if transmit then (s1.openTransmit w).startFrames w.port started else s1.openReceive w

/-- The open window of record `i`. -/
def State.openOf (s : State) (i : Nat) (transmit : Bool) : Option Win :=
  s.fh.wins.find? fun x => x.idx == i && (x.dir != 0) == transmit

/-- WINDOW_CLOSE and TX_WINDOW_CLOSE of record `i`; `started` more frames of the port have started by then. -/
def State.closeWindow (s : State) (i : Nat) (transmit : Bool) (started : Nat) : State :=
  match s.openOf i transmit with
  | none => s
  | some w =>
    if !s.windowDue i true then s else
      let s1 := (s.passTo (winCloseCycle (s.winRecords.getD i 0))).startFrames w.port started
      match s1.openOf i transmit with
      | none => s1
      | some v => if transmit then s1.closeTransmit v else s1.closeReceive v

/-- Whether two windows govern the same symbol of one cell, port and direction. -/
def sameOccurrence (a b : Win) : Bool :=
  a.dir == b.dir && a.cell == b.cell && a.port == b.port && a.sym == b.sym && a.occ == b.occ

/-- The windows of the almanac now in force whose interval contains the edge at position `p` (R105). -/
def State.windowsAt (s : State) (p : Nat) : List Win :=
  let len := 1120 * s.activeK
  (List.range s.winRecords.length).filterMap fun i =>
    let w := s.winRecords.getD i 0
    let back := (indexOf s.activeK p + len - winOpenTick w) % len
    let ago := if back = 0 ∧ winOpenCycle w ≠ 0 then len else back
    if winOpenCycle w ≤ 14000 * ago ∧ 14000 * ago - winOpenCycle w < winSpan len w ∧ (ago ≠ 0 ∨ winOpenCycle w = 0) then
      some (s.windowAt i (posAdd p (-(ago : Int))))
    else none

/-- The samples that a receive window of the old almanac holds moved to the buffer of the window that takes over its occurrence; PRBs
that have not arrived are zero in both (R105, R106). -/
def State.moveSamples (s : State) (o n : Win) : State :=
  if n.dir ≠ 0 ∨ o.buffer = n.buffer then s else
    (s.winEntries n).foldl (fun t e =>
      if t.eaxc e Fld.FHL_EAXC_KIND ≠ 0 then t else
        let r := t.agentRead (niFronthaul n.port) (o.buffer + t.rowOffset e) (48 * t.eaxc e Fld.FHL_EAXC_NPRB)
        let w := r.2.agentPost (niFronthaul n.port) (n.buffer + t.rowOffset e) r.1.data
        (w.2.replyErrors r.1 none).replyErrors w.1 none) s

/-- The windows exchanged at swap tick S (R105): those of the old almanac close; those of the new one that contain S are open, and take
over what an old window of the same occurrence received. -/
def State.swapWindows (s : State) (p : Nat) : State :=
  let old := s.fh.wins
  let new := s.windowsAt p
  let s1 := (old.filter fun o => !new.any (sameOccurrence o)).foldl
    (fun t o => if o.dir = 0 then t.closeReceive o else t.closeTransmit o) s
  let s2 := { s1 with fh := { s1.fh with wins := [] } }
  new.foldl (fun t n => match old.find? (sameOccurrence n) with
    | some o =>
      let t1 := t.moveSamples o n
      { t1 with fh := { t1.fh with wins := t1.fh.wins ++ [{ n with frames := o.frames }] } }
    | none => if n.dir = 0 then t.openReceive n else t.openTransmit n) s2

/-- What is no longer needed is forgotten: presence bits and discarded symbols of slots more than 4,480 ticks ago. -/
def State.ageFronthaul (s : State) : State :=
  let young (p : Nat) : Bool := decide (posDiff s.pos p ≤ 4480)
  { s with fh := { s.fh with
    presence := s.fh.presence.filter fun e => young (e.1 % posCount) || s.fh.closed.any fun c => c.2 == e.1 % posCount + 1
    zero := s.fh.zero.filter fun z => young z.2.1
    fills := s.fh.fills.filter fun f => young f.2.2.1
    prach := s.fh.prach.filter fun e => young (e.1 / 1024 % posCount) } }

/-! ### Degraded input (R107) -/

/-- Whether an uplink entry of a request misses antenna data. -/
def State.entryDegraded (s : State) (q : Request) (e : List Byte) : Bool :=
  let syms := (List.range 14).filter fun k =>
    (decide (entSymStart e ≤ k) && decide (k < entSymStart e + entSymCount e)) || (entDmrsMap e).testBit k
  let ants := s.eaxcs fun n => s.eaxc n Fld.FHL_EAXC_CELL == q.cell && s.eaxc n Fld.FHL_EAXC_DIR == 0 && s.eaxc n Fld.FHL_EAXC_KIND == 0
  ants.any fun n => syms.any fun k =>
    let bits := s.presence n (s.occurrence q.cell q.start k)
    (List.range (entPrbCount e)).any fun i => !bits.testBit (entPrbStart e + i)

/-- The results of an uplink request with the entries that missed data marked: DEGRADED_INPUT where the entry's own result is OK (R79,
R107, R449). -/
def State.markDegraded (s : State) (q : Request) : Request :=
  if q.dir ≠ 1 then q else
    { q with results := q.results.zipIdx.map fun r =>
        let e := q.entries.getD r.2 []
        if r.1.status = 0 ∧ (r.1.own ∨ q.discarded.isNone) ∧ entKind e ≠ 0 ∧ s.entryDegraded q e then { r.1 with status := 5 }
        else r.1 }

/-- COMPLETION_POST for the request of a queue and ring index, when it is due (R76, R107, R449). -/
def State.postCompletion (s : State) (queue ring : Nat) : State :=
  match (s.drv.store.find? fun q => q.queue == queue && q.ring == ring).map s.markDegraded with
  | none => s
  | some q =>
    match q.discarded with
    | some replayable => if s.absTick > q.discardedAt then s.completeRequest q (if replayable then 3 else 4) 0 else s
    | none =>
      if s.workEnded q then s.completeRequest q (if q.results.any fun r => r.status == 5 then 5 else 0) 0 else s

/-! ### Reception (R89 to R95, R103, R106) -/

/-- What a frame is found to be (R90). -/
inductive FrameClass where
  | drop (counter : Nat)
  | ptp
  | esmc
  | unsupported
  | delay
  | uplane (eaxc : Nat)
  deriving DecidableEq, Repr

/-- Whether a destination address is accepted by a port. -/
def State.acceptsMac (s : State) (port a : Nat) : Bool :=
  a == s.fld (.FHL_PORT_MAC port) Fld.FHL_PORT_MAC_ADDR || a == 0x011B19000000 || a == 0x0180C200000E || a == 0x0180C2000002

/-- Whether the header and message type of an eCPRI frame are accepted (R92, R93). Octets past the payload size are padding: a type 0
message without room for its sequence id, a delay measurement without its action, and a Response without its time-stamp and compensation
are refused here (DEDUCED, log 16). -/
def ecpriOk (b : List Byte) : Bool :=
  let o := ethBody b
  let size := beAt b (o + 2) 2
  let type := beAt b (o + 1) 1
  beAt b o 1 / 16 == 1 && beAt b o 1 % 2 == 0 && decide (o + 4 + size ≤ b.length)
    && ((type == 0 && decide (4 ≤ size) && beAt b (o + 7) 1 == 0x80) || type == 2
      || (type == 5 && ((decide (2 ≤ size) && (beAt b (o + 5) 1 == 0 || beAt b (o + 5) 1 == 3))
        || (decide (20 ≤ size) && beAt b (o + 5) 1 == 2))))

/-- The receive entries of a port. -/
def State.rxEaxcs (s : State) (port : Nat) : List Nat :=
  s.eaxcs fun n => s.eaxc n Fld.FHL_EAXC_PORT == port && s.eaxc n Fld.FHL_EAXC_DIR == 0

/-- Steps 1 to 7 of R90. -/
def State.classify (s : State) (f : RxFrame) : FrameClass :=
  let b := f.bytes
  let port := f.port.val
  let o := ethBody b
  let timing (t : Nat) : Bool := t == 0x88F7 || t == 0x8809 || t == 0x0800
  if !f.fcsOk || decide (b.length + 4 < 64) || decide (s.fld (.FHL_PORT_CFG port) Fld.FHL_PORT_CFG_MAX_FRAME < b.length + 4) then .drop 1
  else if !s.acceptsMac port (beAt b 0 6) then .drop 2
  else if ethType b = 0x8808 then .drop 3
  else if !(if ethTagged b then ethVid b == s.fld (.FHL_PORT_VLAN port) Fld.FHL_PORT_VLAN_VID_RX && ethVid b != 0
      && ethType b != 0x8100 && ethType b != 0x88A8 && ethType b != 0x9100 else timing (ethType b)) then .drop 4
  else if ethType b = 0x88F7 then .ptp
  else if ethType b = 0x8809 then .esmc
  else if ethType b = 0x0800 then if isPtpIpv4 b then .ptp else if ipv4Ok b then .drop 5 else .unsupported
  else if ethType b ≠ 0xAEFE then .drop 5
  else if !ecpriOk b then .drop 6
  else if beAt b (o + 1) 1 = 2 then .drop 7
  else if beAt b (o + 1) 1 = 5 then .delay
  else match (s.rxEaxcs port).find? fun n => s.eaxc n Fld.FHL_EAXC_EAXC_ID == beAt b (o + 4) 2 with
    | some n => .uplane n
    | none => .drop 8

/-- Whether the O-RAN header of a U-plane frame is accepted for an entry (R94). -/
def State.oranOk (s : State) (eaxc : Nat) (b : List Byte) : Bool :=
  let o := ethBody b + 8
  let cell := s.eaxc eaxc Fld.FHL_EAXC_CELL
  let t := beAt b (o + 2) 2
  let filter := if s.eaxc eaxc Fld.FHL_EAXC_KIND = 0 then some 0
    else if s.eaxc eaxc Fld.FHL_EAXC_KIND = 1 then
      (s.praCell cell).map fun c => prachFilter (s.fld (.PRA_CELL_A c) Fld.PRA_CELL_A_FORMAT0) else none
  decide (8 ≤ beAt b (ethBody b + 2) 2) && beAt b o 1 / 16 == 1 && some (beAt b o 1 % 16) == filter && decide (bitsOf t 12 4 ≤ 9) && decide (bitsOf t 0 6 ≤ 13)
    && decide (bitsOf t 6 6 < 112 / s.slotLen cell)

/-- Position of the slot that a U-plane header names (R94). -/
def State.namedSlot (s : State) (eaxc : Nat) (b : List Byte) : Nat :=
  let o := ethBody b + 8
  let t := beAt b (o + 2) 2
  let d := (beAt b (o + 1) 1 + 256 - s.frame % 256) % 256
  let frame := if d ≤ 127 then s.frame + d else s.frame + d + 2 ^ 20 - 256
  posOf frame (bitsOf t 12 4 * 112 + bitsOf t 6 6 * s.slotLen (s.eaxc eaxc Fld.FHL_EAXC_CELL))

/-- How a U-plane frame stands to the window that governs its symbol (R103): the counter that drops it, none when it is inside. A
window that governs the occurrence and is neither open nor still to open is past. -/
def State.windowCheck (s : State) (cell port sym slot : Nat) (at_ : Int) : Option Nat :=
  let len := 1120 * s.activeK
  let gov := s.winRecords.find? fun w => winCell w == cell && winPort w == port && winDir w == 0 && winSym w == sym
    && decide ((governedSlot (s.slotLen cell) w (winSpan len w) (winOpenTick w : Int) - (slot : Int)) % ((len : Nat) : Int) = 0)
  match gov with
  | none => some 10
  | some w =>
    let occEnd := posAdd slot ((winSym w + 1) * s.symLen cell : Nat)
    let ahead := (winOpenTick w + len - indexOf s.activeK occEnd) % len
    let opens : Int := 14000 * posDiff (posAdd occEnd ahead) s.pos + (winOpenCycle w : Int)
    if at_ < opens then some 11
    else if opens + (winSpan len w : Int) ≤ at_ then some 12
    else none

/-- Core cycles from the start of this tick to a device time: within the tick the last cycle that begins at or before it. -/
def State.cyclesTo (s : State) (t : Word) : Int :=
  let d := dtDiff t (s.timeAt 0)
  let span : Int := dtDiff (s.timeAt 14000) (s.timeAt 0)
  if 0 ≤ d ∧ d < span then (14000 * (d + 1) - 1) / span else 98000 * d / 4096000000

/-- One section of a U-plane frame (R95, R106): the offset of the next one, or none at the payload's end. -/
def State.takeSection (s : State) (f : RxFrame) (eaxc slot sym o stop : Nat) : Nat × State :=
  let b := f.bytes
  let port := f.port.val
  let nprb := s.eaxc eaxc Fld.FHL_EAXC_NPRB
  let w := beAt b o 4
  let hasHdr := s.fld (.FHL_PORT_CFG port) Fld.FHL_PORT_CFG_UDCOMP_HDR == 1
  let start := bitsOf w 8 10
  let count := if w % 256 = 0 then nprb else w % 256
  let data := o + 4 + (if hasHdr then 2 else 0)
  let next := data + count * s.prbBytes eaxc
  let bad := bitsOf w 18 2 != 0 || (w % 256 == 0 && start != 0) || decide (nprb < start + count) || decide (stop < next)
    || !s.eaxcMethodOk eaxc || (hasHdr && beAt b (o + 4) 1 != s.udCompHdr eaxc)
  if bad then (next, s.fhCount port 13) else
    let occ := s.occurrence (s.eaxc eaxc Fld.FHL_EAXC_CELL) slot sym
    let take (t : State) (i : Nat) : State :=
      let prb := start + i
      let bits := t.presence eaxc occ
      if bits.testBit prb then t.fhCount port 14 else
        let t1 := t.setPresence eaxc occ (bits + 2 ^ prb)
        let xs := expandPrb (s.eaxc eaxc Fld.FHL_EAXC_METHOD) (s.eaxcWidth eaxc) (slice b (data + i * s.prbBytes eaxc) (s.prbBytes eaxc))
        if t.eaxc eaxc Fld.FHL_EAXC_KIND ≠ 0 then
          { t1 with fh := { t1.fh with prach := SMap.set (fun _ => []) t1.fh.prach (1024 * presenceKey eaxc occ + prb) (xs.map (signedOf 16)) } }
        else
          let r := t1.agentPost (niFronthaul port) (t1.rowAddr eaxc slot sym false + 48 * prb) (xs.flatMap (leBytes 2))
          r.2.replyErrors r.1 none
    (next, (List.range count).foldl take s)

/-- The sections of a U-plane frame, at most `n` more (R95). -/
def State.takeSections (s : State) (f : RxFrame) (eaxc slot sym stop : Nat) : Nat → Nat → State
  | 0, _ => s
  | n + 1, o =>
    if o + 4 ≤ stop then
      let r := s.takeSection f eaxc slot sym o stop
      State.takeSections r.2 f eaxc slot sym stop n r.1
    else s

/-- A U-plane frame of an entry (steps 8 to 10 of R90). -/
def State.receiveUplane (s : State) (f : RxFrame) (eaxc : Nat) : State :=
  let b := f.bytes
  let port := f.port.val
  let o := ethBody b
  let cell := s.eaxc eaxc Fld.FHL_EAXC_CELL
  if !s.oranOk eaxc b then s.fhCount port 9 else
    let slot := s.namedSlot eaxc b
    let sym := bitsOf (beAt b (o + 10) 2) 0 6
    let t := s.rxTime port f.sfd
    match t.2.windowCheck cell port sym slot (t.2.cyclesTo t.1) with
    | some c => t.2.fhCount port c
    | none =>
      let seq := beAt b (o + 6) 1
      let last := SMap.get zeroNat t.2.fh.rxSeq eaxc
      let s1 := if last ≠ 0 ∧ seq ≠ last % 256 then t.2.fhCount port 15 else t.2
      let s2 := { s1 with fh := { s1.fh with rxSeq := SMap.set zeroNat s1.fh.rxSeq eaxc (seq + 1) } }
      s2.takeSections f eaxc slot sym (o + 4 + beAt b (o + 2) 2) 16 (o + 12)

/-! ### Delay measurement (R93) -/

/-- TOD in 2^-16 ns at a device time. -/
def State.todUnits (s : State) (t : Word) : Nat :=
  let d := s.todAt t
  unitsPerSecond * d.1 + 65536 * d.2.1 + d.2.2

/-- The body of a one-way delay message: measurement id, action, time-stamp, compensation. -/
def delayBody (id action units : Nat) : List Byte :=
  beBytes 1 id ++ beBytes 1 action ++ beBytes 6 (units / unitsPerSecond) ++ beBytes 4 (units % unitsPerSecond / 65536) ++ beBytes 8 0

/-- A delay-measurement frame sent from a port. -/
def State.sendDelay (s : State) (port dst id action units : Nat) : State :=
  s.sendFrame port (s.ecpriFrame port dst (s.fld (.FHL_PORT_VLAN port) Fld.FHL_PORT_VLAN_PCP_U) 5 (delayBody id action units))

/-- A Request of the block's own, whose time-stamp is its departure. -/
def State.sendDelayRequest (s : State) (port dst id : Nat) : State :=
  let t := s.txTime port s.now
  let units := t.2.todUnits t.1
  let s1 := { t.2 with fh := { t.2.fh with delays := (t.2.fh.delays.filter fun (d : Nat × Nat × Nat) => d.1 != port || d.2.1 != id) ++ [(port, id, units)] } }
  s1.sendDelay port dst id 0 units

/-- A Response to a Request of the block's own: t2 − t1 less the peer's compensation. -/
def State.storeDelay (s : State) (port id t2 : Nat) (comp : Int) : State :=
  match s.fh.delays.find? fun d => d.1 == port && d.2.1 == id with
  | none => s
  | some d =>
    let s1 := { s with fh := { s.fh with delays := s.fh.delays.filter fun x => x != d } }
    let v := unsignedOf 48 ((t2 : Int) - (d.2.2 : Int) - comp)
    ((s1.setFld .FHL_DLY_RESULT Fld.FHL_DLY_RESULT_VALID 1).setFld .FHL_DLY_RESULT Fld.FHL_DLY_RESULT_MEAS_ID id).setFld
      .FHL_DLY_RESULT Fld.FHL_DLY_RESULT_DELAY v

/-- A received delay-measurement frame. -/
def State.receiveDelay (s : State) (f : RxFrame) : State :=
  let b := f.bytes
  let o := ethBody b
  let port := f.port.val
  let id := beAt b (o + 4) 1
  let src := beAt b 6 6
  match beAt b (o + 5) 1 with
  | 0 =>
    let t := s.rxTime port f.sfd
    t.2.sendDelay port src id 2 (t.2.todUnits t.1)
  | 3 => s.sendDelayRequest port src id
  | _ => s.storeDelay port id (unitsPerSecond * beAt b (o + 6) 6 + 65536 * beAt b (o + 12) 4) (signedOf 64 (beAt b (o + 16) 8))

/-- A write of FHL_DLY_CTRL (R93, R99). -/
def State.writeDlyCtrl (s : State) (v : Word) : State :=
  let s1 := s.wrAccess .FHL_DLY_CTRL v
  if Fld.FHL_DLY_CTRL_SEND.get v = 0 then s1 else
    match s1.peerOf (Fld.FHL_DLY_CTRL_PEER.get v) with
    | none => s1
    | some d => s1.sendDelayRequest (Fld.FHL_DLY_CTRL_PORT.get v) d (Fld.FHL_DLY_CTRL_MEAS_ID.get v)

/-! ### PTP and ESMC frames (R378, R393 to R397) -/

/-- NI of the Shepherd complex, through which the Bellwether's rings are written (R262). -/
def niShepherd : Nat := 76

/-- The record and frame of a receive ring entry (R395). -/
def State.ptpEntry (s : State) (f : RxFrame) (t : Word) (phase : Nat) : List Byte :=
  let n := f.bytes.length
  let tod := s.todAt t
  let flags := phase + (if n > 480 then 2 else 0) + (if ethType f.bytes = 0x0800 then 4 else 0)
  leBytes 1 f.port.val ++ leBytes 1 flags ++ leBytes 2 n ++ leBytes 4 0 ++ leBytes 6 tod.1 ++ leBytes 2 0 ++ leBytes 4 tod.2.1
    ++ leBytes 2 tod.2.2 ++ leBytes 2 0 ++ leBytes 8 t.toNat ++ f.bytes.take 480

/-- A PTP frame to the receive ring (R388, R395). -/
def State.receivePtp (s : State) (f : RxFrame) : State :=
  if !s.bit .SYS_READY 3 then s.tally (.TIM_CNT 0) else
    let t := s.rxTime f.port.val f.sfd
    match t.2.pushRing niShepherd .TIM_RX_BASE .TIM_RX_CFG .TIM_RX_DB .TIM_RX_PI 512 (t.2.ptpEntry f t.1) with
    | some s1 => s1
    | none => t.2.tally (.TIM_CNT 1)

/-- An ESMC frame (R378, R388). -/
def State.receiveEsmc (s : State) (f : RxFrame) : State :=
  if !s.bit .SYS_READY 3 then s.tally (.TIM_CNT 0) else
    match esmcCode f.bytes with
    | none => s.tally (.TIM_CNT 3)
    | some ql =>
      let set (t : State) (i : Nat) : State :=
        let lane := (t.rclk i).1
        if t.fld (.SDS_LANE_STATUS lane) Fld.SDS_LANE_STATUS_USER = 1 ∧ t.portOfLane lane = f.port.val then
          let r := t.tm.refs.getD i RefInput.idleInput
          let r' : RefInput := { r with esmcIdle := 0, rxQl := ql }
          { t with tm := { t.tm with refs := t.tm.refs.set i r' } }
        else t
      set (set s 5) 6

/-- The codewords that RS-FEC corrected or gave up on the port since its last frame are counted, where the port runs it (R87, R111). -/
def State.countFec (s : State) (f : RxFrame) : State :=
  let port := f.port.val
  if s.fld (.FHL_PORT_CFG port) Fld.FHL_PORT_CFG_FEC = 1 ∧ 2 ≤ s.fld (.FHL_PORT_CFG port) Fld.FHL_PORT_CFG_MODE then
    (s.fhCount port 22 f.corrected.toNat).fhCount port 23 f.uncorrectable.toNat
  else s

/-- A received frame: classified, and acted on or dropped with its counter (R90, R108, R110). -/
def State.receiveFrame (s : State) (f : RxFrame) : State :=
  let port := f.port.val
  let s := s.countFec f
  if !s.bit .SYS_READY 39 then s.tally .FHL_EARLY
  else if s.fld (.FHL_PORT_CFG port) Fld.FHL_PORT_CFG_MODE = 0 ∨ s.fld (.FHL_PORT_STATUS port) Fld.FHL_PORT_STATUS_LINK_UP = 0 then s
  else
    let s1 := s.fhCount port 0
    if f.full then s1.fhCount port 16 else
      match s1.classify f with
      | .drop c => s1.fhCount port c
      | .ptp => s1.receivePtp f
      | .esmc => s1.receiveEsmc f
      | .unsupported => s1.tally (.TIM_CNT 2)
      | .delay => s1.receiveDelay f
      | .uplane e => s1.receiveUplane f e

/-- A frame received only if it is of a kind. -/
def State.receiveIf (s : State) (f : RxFrame) (p : FrameClass → Bool) : State := if p (s.classify f) then s.receiveFrame f else s

/-- ESMC has been silent for 5 s on a SyncE input of a fronthaul port (R378). -/
def State.esmcSilent (s : State) (i : Nat) : State :=
  let r := s.tm.refs.getD i RefInput.idleInput
  if r.esmcIdle < 5000 then s else
    let r' : RefInput := { r with rxQl := 0xF }
    let s1 := { s with tm := { s.tm with refs := s.tm.refs.set i r' } }
    let ql := s1.inputQl i r'
    if s1.fld (.TIM_REF_STATUS i) Fld.TIM_REF_STATUS_QL = ql then s1 else
      (s1.setFld (.TIM_REF_STATUS i) Fld.TIM_REF_STATUS_QL ql).setFld (.TIM_REF_STATUS i) Fld.TIM_REF_STATUS_CHANGE 1

/-! ### The transmit ring (R396, R397) -/

/-- Bytes of a string replaced from an offset. -/
def patch (bs : List Byte) (o : Nat) (new : List Byte) : List Byte :=
  bs.zipIdx.map fun p => if o ≤ p.2 ∧ p.2 < o + new.length then new.getD (p.2 - o) 0 else p.1

/-- Sum of the 16-bit words of a frame whose even bytes are those at the parity of `o`, modulo 65,535. -/
def wordSum (bs : List Byte) (o : Nat) : Nat :=
  ((bs.zipIdx.map fun p => if p.2 % 2 = o % 2 then p.1.toNat * 256 else p.1.toNat).sum) % 65535

/-- A one-step frame as it leaves (R397). -/
def oneStepFrame (rec frame : List Byte) (tod : Nat × Nat × Nat) : List Byte :=
  let ts := leAt rec 4 2
  let cf := leAt rec 6 2
  let f1 := patch frame ts (beBytes 6 tod.1 ++ beBytes 4 tod.2.1)
  patch f1 cf (beBytes 8 ((beAt f1 cf 8 + tod.2.2) % 2 ^ 64))

/-- The UDP fix-up of a frame that has been changed (R397). -/
def udpFix (rec before after : List Byte) : List Byte :=
  let fix := leAt rec 8 2
  let udp := ethBody after + 20
  if leAt rec 1 1 / 2 % 2 = 0 ∨ beAt after (udp + 6) 2 = 0 then after else
    let old := wordSum before fix
    let new := wordSum after fix
    if old = new then after else
      patch after fix (beBytes 2 ((beAt after fix 2 + old + 65535 - new) % 65535))

/-- A write of TIM_TX_DB. -/
def State.writeTxDb (s : State) (v : Word) : State := s.wrAccess .TIM_TX_DB v

/-- The frame at the transmit ring's consumer index leaves, or is dropped with the link; its record is written (R396). -/
def State.departTx (s : State) (sfd : Word) : State :=
  let n := 2 ^ s.fld .TIM_TX_CFG Fld.TIM_TX_CFG_LOG2_SIZE
  let ci := s.fld .TIM_TX_CI Fld.TIM_TX_CI_INDEX
  if s.fld .TIM_TX_CFG Fld.TIM_TX_CFG_ENABLE = 0 ∨ s.fld .TIM_TX_DB Fld.TIM_TX_DB_INDEX = ci then s else
    let addr := (s.rd .TIM_TX_BASE).toNat + ci % n * 512
    let r := s.agentRead niShepherd addr 512
    let s1 := r.2.replyErrors r.1 none
    let entry := r.1.data
    let rec_ := slice entry 0 32
    let port := leAt rec_ 0 1 % 64
    let frame := slice entry 32 (min 480 (leAt rec_ 2 2))
    let t := s1.txTime port sfd
    let tod := t.2.todAt t.1
    let up := s.fld (.FHL_PORT_STATUS port) Fld.FHL_PORT_STATUS_LINK_UP == 1
    let out := if leAt rec_ 1 1 % 2 = 1 then udpFix rec_ frame (oneStepFrame rec_ frame tod) else frame
    let s2 := t.2.sendFrame port out
    let s3 := if up then s2.tally (.TIM_CNT 4) else s2
    let flags := leAt rec_ 1 1 % 4 + 4 + (if up then 0 else 8)
    let w := s3.agentPost niShepherd (addr + 1) (leBytes 1 flags)
    let w2 := w.2.agentPost niShepherd (addr + 0x10) (leBytes 6 tod.1 ++ leBytes 2 0 ++ leBytes 4 tod.2.1 ++ leBytes 2 tod.2.2)
    (w2.2.replyErrors w2.1 none).setFld .TIM_TX_CI Fld.TIM_TX_CI_INDEX ((ci + 1) % 2 ^ 16)

/-! ### Links and configuration (R87, R88, R108) -/

/-- Whether a port is unused because port 4q of its quad takes all four lanes (R88). -/
def State.portUnused (s : State) (port : Nat) : Bool :=
  port % 4 != 0 && s.fld (.FHL_PORT_CFG (port / 4 * 4)) Fld.FHL_PORT_CFG_MODE == 3

/-- A port's link as its PCS, FEC and fault signals now stand. -/
def State.setLink (s : State) (port : Nat) (locked fecLock localFault remoteFault : Bool) : State :=
  let mode := s.fld (.FHL_PORT_CFG port) Fld.FHL_PORT_CFG_MODE
  let fec := s.fld (.FHL_PORT_CFG port) Fld.FHL_PORT_CFG_FEC == 1 && decide (2 ≤ mode)
  let up := mode != 0 && !s.portUnused port && locked && (!fec || fecLock) && !localFault && !remoteFault
  let b (x : Bool) : Nat := if x then 1 else 0
  let reg : Reg := .FHL_PORT_STATUS port
  let s1 := (s.setFld reg Fld.FHL_PORT_STATUS_FEC_LOCK (b (fec && fecLock))).setFld reg Fld.FHL_PORT_STATUS_REMOTE_FAULT (b remoteFault)
  if s.fld reg Fld.FHL_PORT_STATUS_LINK_UP = b up then s1 else
    ((s1.setFld reg Fld.FHL_PORT_STATUS_LINK_UP (b up)).setFld reg Fld.FHL_PORT_STATUS_CHANGE 1).msixIf
      (s.fld .FHL_CTRL Fld.FHL_CTRL_EVT_EN == 1) (s.fld .FHL_CTRL Fld.FHL_CTRL_VECTOR)

/-- Whether the resource claims let a port run in a mode (R88). -/
def State.modeAllowed (s : State) (port mode : Nat) : Bool :=
  let lanes := if mode = 3 then [port, port + 1, port + 2, port + 3] else [port]
  mode == 0 || (decide (mode ≤ 3) && (mode != 3 || port % 4 == 0)
    && lanes.all (fun l => s.fld (.SDS_LANE_STATUS l) Fld.SDS_LANE_STATUS_USER == 1)
    && !s.portUnused port)

/-- A write of FHL_PORT_CFG (R87, R88, R92): a mode that the claims do not allow keeps the old one. -/
def State.writePortCfg (s : State) (port : Nat) (v : Word) : State :=
  let old := s.fld (.FHL_PORT_CFG port) Fld.FHL_PORT_CFG_MODE
  let new := Fld.FHL_PORT_CFG_MODE.get v
  let s1 := s.wrAccess (.FHL_PORT_CFG port) v
  if !s.modeAllowed port new then s1.setFld (.FHL_PORT_CFG port) Fld.FHL_PORT_CFG_MODE old
  else if old = 0 ∧ new ≠ 0 then
    let mine (n : Nat) : Bool := s.eaxc n Fld.FHL_EAXC_PORT == port
    { s1 with fh := { s1.fh with
      txSeq := s1.fh.txSeq.filter fun e => !mine (e.1 / 2), rxSeq := s1.fh.rxSeq.filter fun e => !mine e.1 } }
  else if new = 0 then s1.setLink port false false false false
  else s1

/-- A write of FHL_PORT_CFG, which takes the other three ports of a quad out of use where it makes its port 100GBASE-R (R88). -/
def State.writePort (s : State) (port : Nat) (v : Word) : State :=
  let s1 := s.writePortCfg port v
  if port % 4 = 0 ∧ s1.fld (.FHL_PORT_CFG port) Fld.FHL_PORT_CFG_MODE = 3 then
    [port + 1, port + 2, port + 3].foldl (fun t p => t.setLink p false false false false) s1
  else s1

/-- The link of a port changes (R108): the frames that have started by then went with the old state, and a frame still in progress as
the link drops is ended with an error code group. -/
def State.changeLink (s : State) (port started : Nat) (busy locked fecLock localFault remoteFault : Bool) : State :=
  let up (t : State) : Bool := t.fld (.FHL_PORT_STATUS port) Fld.FHL_PORT_STATUS_LINK_UP == 1
  let s1 := s.startFrames port started
  let s2 := s1.setLink port locked fecLock localFault remoteFault
  if up s1 && !up s2 && busy then s2.emit (.frameCut port) else s2

/-- FHL_CTRL.STAT_CLR (R111, R112). -/
def State.clearFhl (s : State) : State :=
  ((List.range 64).foldl (fun t p => (List.range 26).foldl (fun u i => u.wr (.FHL_CNT p i) 0) t) s).wr .FHL_EARLY 0

/-! ### Commands -/

/-- Whether a frame is a one-way delay message of an action type (R93). -/
def isDelayAction (f : RxFrame) (action : Nat) (c : FrameClass) : Bool := c == .delay && beAt f.bytes (ethBody f.bytes + 5) 1 == action

/-- Whether a frame is an O-RAN U-plane frame. -/
def FrameClass.isUplane : FrameClass → Bool
  | .uplane _ => true
  | _ => false

/-- Whether a frame goes to the Bellwether as PTP, or is an IPv4 frame that it does not support (R393). -/
def FrameClass.isPtp (c : FrameClass) : Bool := c == .ptp || c == .unsupported

/-- FRAME_RECEIVE. -/
def execFrameReceive (f : RxFrame) (s : State) : Out := running (fun t => t.receiveFrame f) s
/-- UPLANE_RECEIVE. -/
def execUplaneReceive (f : RxFrame) (s : State) : Out := running (fun t => t.receiveIf f FrameClass.isUplane) s
/-- ONE_WAY_DELAY_REQUEST. -/
def execOneWayDelayRequest (f : RxFrame) (s : State) : Out := running (fun t => t.receiveIf f (isDelayAction f 0)) s
/-- REMOTE_REQUEST. -/
def execRemoteRequest (f : RxFrame) (s : State) : Out := running (fun t => t.receiveIf f (isDelayAction f 3)) s
/-- ONE_WAY_DELAY_RESPONSE. -/
def execOneWayDelayResponse (f : RxFrame) (s : State) : Out := running (fun t => t.receiveIf f (isDelayAction f 2)) s
/-- FHL_DLY_SEND. -/
def execFhlDlySend (v : BitVec 64) (s : State) : Out := running (fun t => t.writeDlyCtrl v) s
/-- COMPLETION_POST. -/
def execCompletionPost (q : Fin 16) (ring : BitVec 16) (s : State) : Out := running (fun t => t.postCompletion q ring.toNat) s
/-- WINDOW_OPEN. -/
def execWindowOpen (w : BitVec 16) (s : State) : Out := running (fun t => t.openWindow w.toNat false 0) s
/-- WINDOW_CLOSE. -/
def execWindowClose (w : BitVec 16) (s : State) : Out := running (fun t => t.closeWindow w.toNat false 0) s
/-- TX_WINDOW_OPEN. -/
def execTxWindowOpen (w : BitVec 16) (started : BitVec 16) (s : State) : Out := running (fun t => t.openWindow w.toNat true started.toNat) s
/-- TX_WINDOW_CLOSE. -/
def execTxWindowClose (w : BitVec 16) (started : BitVec 16) (s : State) : Out := running (fun t => t.closeWindow w.toNat true started.toNat) s
/-- LINK_STATE_CHANGE. -/
def execLinkStateChange (port : Fin 64) (started : BitVec 16) (busy locked fecLock localFault remoteFault : Bool) (s : State) : Out :=
  running (fun t => t.changeLink port started.toNat busy locked fecLock localFault remoteFault) s
/-- FHL_STAT_CLR. -/
def execFhlStatClr (s : State) : Out := running (State.clearFhl) s
/-- PTP_FRAME_RECEIVE. -/
def execPtpFrameReceive (f : RxFrame) (s : State) : Out := running (fun t => t.receiveIf f FrameClass.isPtp) s
/-- ESMC_RECEIVE. -/
def execEsmcReceive (f : RxFrame) (s : State) : Out := running (fun t => t.receiveIf f (· == .esmc)) s
/-- ESMC_TIMEOUT. -/
def execEsmcTimeout (n : Fin 2) (s : State) : Out := running (fun t => t.esmcSilent (5 + n.val)) s
/-- TIM_RX_DB. -/
def execTimRxDb (v : BitVec 64) (s : State) : Out := running (fun t => t.wrAccess .TIM_RX_DB v) s
/-- TIM_TX_DB. -/
def execTimTxDb (v : BitVec 64) (s : State) : Out := running (fun t => t.writeTxDb v) s
/-- PTP_TX_DEPARTURE. -/
def execPtpTxDeparture (sfd : BitVec 64) (s : State) : Out := working (fun t => t.departTx sfd) s

end Sys2Proof.Machine
end

