-- ==== Sys2Proof/Machine/Numeric.lean ====
section
/-!
DEFINITION. Arithmetic that several engines share: complex samples (R114), the Gold sequence of TS 38.211 clause 5.2.1, and CRCs of
the 3GPP codes.
-/
namespace Sys2Proof.Machine

/-! ### Complex samples -/

/-- A complex number with integer parts. -/
structure Cplx where
  re : Int
  im : Int
  deriving DecidableEq, Repr

def Cplx.zero : Cplx := ⟨0, 0⟩
def Cplx.add (a b : Cplx) : Cplx := ⟨a.re + b.re, a.im + b.im⟩
def Cplx.mul (a b : Cplx) : Cplx := ⟨a.re * b.re - a.im * b.im, a.re * b.im + a.im * b.re⟩
def Cplx.conj (a : Cplx) : Cplx := ⟨a.re, -a.im⟩
def Cplx.map (f : Int → Int) (a : Cplx) : Cplx := ⟨f a.re, f a.im⟩

/-- A sample from its 32-bit word (R114). -/
def cplxOf (w : Nat) : Cplx := ⟨signedOf 16 (bitsOf w 0 16), signedOf 16 (bitsOf w 16 16)⟩

/-- The 32-bit word of a sample. -/
def Cplx.word (a : Cplx) : Nat := unsignedOf 16 a.re + 2 ^ 16 * unsignedOf 16 a.im

/-- The samples of a byte string. -/
def cplxList (bs : List Byte) : List Cplx := (List.range (bs.length / 4)).map fun i => cplxOf (leAt bs (4 * i) 4)

/-- The byte string of samples. -/
def cplxBytes (xs : List Cplx) : List Byte := xs.flatMap fun x => leBytes 4 x.word

/-- Components of a value that lie outside 16 bits. -/
def Cplx.clips (a : Cplx) : Nat := (if satS 16 a.re = a.re then 0 else 1) + (if satS 16 a.im = a.im then 0 else 1)

/-- A value saturated to 16 bits per component (R114). -/
def Cplx.sat16 (a : Cplx) : Cplx := a.map (satS 16)

/-! ### Gold sequences -/

/-- One step of the shift register of x1: x1(n+31) = x1(n+3) + x1(n). -/
def goldStep1 (r : Nat) : Nat := r / 2 + 2 ^ 30 * ((bitsOf r 3 1 + bitsOf r 0 1) % 2)

/-- One step of the shift register of x2: x2(n+31) = x2(n+3) + x2(n+2) + x2(n+1) + x2(n). -/
def goldStep2 (r : Nat) : Nat := r / 2 + 2 ^ 30 * ((bitsOf r 3 1 + bitsOf r 2 1 + bitsOf r 1 1 + bitsOf r 0 1) % 2)

/-- `n` steps of both registers. -/
def goldSkip : Nat → Nat × Nat → Nat × Nat
  | 0, r => r
  | n + 1, r => goldSkip n (goldStep1 r.1, goldStep2 r.2)

/-- `n` output bits from the registers on. -/
def goldRun : Nat → Nat × Nat → List Bool
  | 0, _ => []
  | n + 1, r => (bitsOf r.1 0 1 + bitsOf r.2 0 1 == 1) :: goldRun n (goldStep1 r.1, goldStep2 r.2)

/-- The bits c(skip) to c(skip + n − 1) of the Gold sequence with c_init (TS 38.211 clause 5.2.1). -/
def goldBits (cinit skip n : Nat) : List Bool := goldRun n (goldSkip (1600 + skip) (1, cinit % 2 ^ 31))

/-! ### Cyclic redundancy checks, most significant bit first -/

/-- The remainder register of a CRC of `w` bits with polynomial `poly` after one bit. -/
def crcBit (w poly r : Nat) (b : Bool) : Nat :=
  let top := r.testBit (w - 1) != b
  (2 * r) % 2 ^ w ^^^ (if top then poly else 0)

/-- The CRC of a bit list. -/
def crcBits (w poly : Nat) (bs : List Bool) : Nat := bs.foldl (crcBit w poly) 0

/-- gCRC24A of TS 38.212 clause 5.1. -/
def crc24A (bs : List Bool) : Nat := crcBits 24 0x864CFB bs
/-- gCRC24B. -/
def crc24B (bs : List Bool) : Nat := crcBits 24 0x800063 bs
/-- gCRC16. -/
def crc16 (bs : List Bool) : Nat := crcBits 16 0x1021 bs

end Sys2Proof.Machine
end

