-- ==== Sys2Proof/Machine/Exact.lean ====
section
/-!
DEFINITION. Arithmetic behind results that the spec gives by a formula over the reals: rational complex numbers and matrices, square roots
to 160 bits after the point, and sine and cosine of a fraction of a turn to 88. A result within a tolerance of its formula is the formula's
value and a free slack.
-/
namespace Sys2Proof.Machine

/-! ### Roots, rounding and powers -/

/-- Integer square root of a number below 4 ^ n, a bit a step. -/
def isqrtBits : Nat → Nat → Nat
  | 0, _ => 0
  | n + 1, x =>
    let r := 2 * isqrtBits n (x / 4)
    if (r + 1) * (r + 1) ≤ x then r + 1 else r

/-- Integer square root of a number below 4 ^ 40. -/
def isqrt (x : Nat) : Nat := isqrtBits 40 x

/-- The square root of a rational that is not negative, to 160 bits after the point. -/
def sqrtQ (r : Rat) : Rat := mkRat (isqrtBits 400 (r.num.toNat * 2 ^ 320 / r.den) : Nat) (2 ^ 160)

/-- The nearest integer, a half rounded up. -/
def roundUp (r : Rat) : Int := (r + 1 / 2).floor

/-- The nearest integer, a half rounded to the even one. -/
def roundEven (r : Rat) : Int :=
  let f := r.floor
  if r - f = 1 / 2 then f + f % 2 else roundUp r

/-- 2 ^ e for a signed exponent. -/
def twoPow (e : Int) : Rat := if e < 0 then mkRat 1 (2 ^ e.natAbs) else ((2 ^ e.natAbs : Nat) : Rat)

/-! ### Angles -/

/-- 2π · 2 ^ 96. -/
def twoPi96 : Int := 497805226624462170461043889244

/-- The terms of the cosine or sine series from one on, with the square of the angle, in units of 2 ^ -96. -/
def trigSeries (sq : Int) : Nat → Nat → Int → Int
  | 0, _, _ => 0
  | n + 1, k, term => term + trigSeries sq n (k + 2) (-(term * sq / 2 ^ 96) / ((k + 1) * (k + 2) : Nat))

/-- An angle of `a / b` turns in units of 2 ^ -96. -/
def turnAngle (a : Int) (b : Nat) : Int := twoPi96 * (a % (b : Int)) / (b : Int)

/-- The cosine of `a / b` turns, in units of 2 ^ -96. -/
def cosTurn (a : Int) (b : Nat) : Int :=
  let x := turnAngle a b
  trigSeries (x * x / 2 ^ 96) 32 0 (2 ^ 96)

/-- The sine of `a / b` turns, in units of 2 ^ -96. -/
def sinTurn (a : Int) (b : Nat) : Int :=
  let x := turnAngle a b
  trigSeries (x * x / 2 ^ 96) 32 1 x

/-- exp(2πj · a / b) in units of 2 ^ -96. -/
def unitTurn (a : Int) (b : Nat) : Cplx := ⟨cosTurn a b, sinTurn a b⟩

/-- A component in units of 2 ^ -96 times `amp`, rounded half up. -/
def scaleTurn (amp : Nat) (v : Int) : Int := roundShift (amp * v) 96

/-- A complex number in units of 2 ^ -96 times an amplitude, rounded half up and saturated to 16 bits per component. -/
def Cplx.scaled (amp : Nat) (z : Cplx) : Cplx := (z.map (scaleTurn amp)).sat16

/-! ### Rational complex numbers -/

/-- A complex number with rational parts. -/
structure CRat where
  re : Rat
  im : Rat
  deriving DecidableEq, Repr

def CRat.zero : CRat := ⟨0, 0⟩
def CRat.one : CRat := ⟨1, 0⟩
def CRat.add (a b : CRat) : CRat := ⟨a.re + b.re, a.im + b.im⟩
def CRat.sub (a b : CRat) : CRat := ⟨a.re - b.re, a.im - b.im⟩
def CRat.mul (a b : CRat) : CRat := ⟨a.re * b.re - a.im * b.im, a.re * b.im + a.im * b.re⟩
def CRat.conj (a : CRat) : CRat := ⟨a.re, -a.im⟩
def CRat.smul (r : Rat) (a : CRat) : CRat := ⟨r * a.re, r * a.im⟩
def CRat.normSq (a : CRat) : Rat := a.re * a.re + a.im * a.im

/-- The quotient by a number other than 0. -/
def CRat.div (a b : CRat) : CRat := (a.mul b.conj).smul (1 / b.normSq)

/-- A sample with integer parts as a rational one. -/
def Cplx.rat (a : Cplx) : CRat := ⟨a.re, a.im⟩

def CRat.sum (l : List CRat) : CRat := l.foldl CRat.add CRat.zero

/-! ### Matrices, by rows -/

/-- A matrix of rational complex numbers, row by row. -/
abbrev CMat := List (List CRat)

def CMat.get (m : CMat) (i j : Nat) : CRat := (m.getD i []).getD j CRat.zero

/-- The matrix of given size with given elements. -/
def CMat.build (rows cols : Nat) (f : Nat → Nat → CRat) : CMat :=
  (List.range rows).map fun i => (List.range cols).map fun j => f i j

/-- A product over an inner dimension `n`. -/
def CMat.mul (a b : CMat) (rows n cols : Nat) : CMat :=
  CMat.build rows cols fun i j => CRat.sum ((List.range n).map fun k => (a.get i k).mul (b.get k j))

/-- The conjugate transpose of a matrix of `rows` rows and `cols` columns. -/
def CMat.herm (a : CMat) (rows cols : Nat) : CMat := CMat.build cols rows fun i j => (a.get j i).conj

/-- G = L · D · Lᴴ: the columns of the unit lower triangle L, the pivots, and the indices of those that were replaced. -/
structure Ldl where
  cols : List (List CRat)
  pivots : List Rat
  replaced : List Nat
  deriving DecidableEq, Repr

/-- Element (i, j) of L. -/
def Ldl.at (f : Ldl) (i j : Nat) : CRat := (f.cols.getD j []).getD i CRat.zero

/-- One more column: a pivot that is 0 or negative is replaced (R255). -/
def Ldl.step (g : CMat) (n : Nat) (instead : Rat) (f : Ldl) (j : Nat) : Ldl :=
  let before (i k : Nat) : CRat := ((f.at i k).mul (f.at j k).conj).smul (f.pivots.getD k 0)
  let p := (g.get j j).re - (CRat.sum ((List.range j).map (before j))).re
  let bad := decide (p ≤ 0)
  let d := if bad then instead else p
  let col := (List.range n).map fun i =>
    if i < j then CRat.zero else if i = j then CRat.one
    else ((g.get i j).sub (CRat.sum ((List.range j).map (before i)))).smul (1 / d)
  ⟨f.cols ++ [col], f.pivots ++ [d], if bad then f.replaced ++ [j] else f.replaced⟩

/-- The factors of a Hermitian matrix of order `n`, read from its lower triangle and the real parts of its diagonal. -/
def ldl (g : CMat) (n : Nat) (instead : Rat) : Ldl := (List.range n).foldl (Ldl.step g n instead) ⟨[], [], []⟩

/-- The solution of L · x = b for a lower triangle of order `n` given by its elements. -/
def lowerSolve (l : Nat → Nat → CRat) (n : Nat) (b : List CRat) : List CRat :=
  (List.range n).foldl (fun (x : List CRat) i =>
    x ++ [((b.getD i CRat.zero).sub (CRat.sum ((List.range i).map fun k => (l i k).mul (x.getD k CRat.zero)))).div (l i i)]) []

/-- The solution of Lᴴ · x = b. -/
def upperSolve (l : Nat → Nat → CRat) (n : Nat) (b : List CRat) : List CRat :=
  (lowerSolve (fun i k => (l (n - 1 - k) (n - 1 - i)).conj) n b.reverse).reverse

/-- The solution of G · x = b from the factors of G. -/
def Ldl.solve (f : Ldl) (n : Nat) (b : List CRat) : List CRat :=
  let y := lowerSolve f.at n b
  upperSolve f.at n (y.zipIdx.map fun p => p.1.smul (1 / f.pivots.getD p.2 1))

/-- A matrix from its columns. -/
def CMat.ofCols (cols : List (List CRat)) (rows : Nat) : CMat :=
  CMat.build rows cols.length fun i j => (cols.getD j []).getD i CRat.zero

/-- Column `j` of a matrix of `rows` rows. -/
def CMat.col (a : CMat) (rows j : Nat) : List CRat := (List.range rows).map fun i => a.get i j

/-- G⁻¹ · B for a positive definite G of order `n` and `k` columns of B. -/
def CMat.solve (g b : CMat) (n k : Nat) : CMat :=
  let f := ldl g n 1
  CMat.ofCols ((List.range k).map fun j => f.solve n (b.col n j)) n

/-! ### Values that are free within bounds -/

/-- Slacks of at most `lim` in each component, in turn from a free value; the sums saturated to 16 bits. -/
def State.slacken (s : State) (lim : Nat) (xs : List Cplx) : List Cplx × State :=
  let v := s.draw (16 * xs.length)
  let at_ (i : Nat) : Int := ((bitsOf v.1 (8 * i) 8 % (2 * lim + 1) : Nat) : Int) - (lim : Int)
  (xs.zipIdx.map fun x => (x.1.add ⟨at_ (2 * x.2), at_ (2 * x.2 + 1)⟩).sat16, v.2)

/-- Rational numbers rounded to integers, each down or up as a free value has it. -/
def State.roundFree (s : State) (xs : List Rat) : List Int × State :=
  let v := s.draw xs.length
  (xs.zipIdx.map fun x => x.1.floor + (if x.1.den ≠ 1 ∧ v.1.testBit x.2 then 1 else 0), v.2)

/-- Rational samples rounded down or up, and saturated to 16 bits (R114). -/
def State.roundSamples (s : State) (xs : List CRat) : List Cplx × State :=
  let r := s.roundFree (xs.flatMap fun x => [x.re, x.im])
  ((List.range xs.length).map fun i => (⟨r.1.getD (2 * i) 0, r.1.getD (2 * i + 1) 0⟩ : Cplx).sat16, r.2)

/-! ### Fourier transforms (R256) -/

/-- The transform of `n` samples, or its inverse, over √n · 2 ^ shift: each component rounded half up and saturated. -/
def dft (inverse : Bool) (n : Nat) (shift : Int) (xs : List Cplx) : List Cplx :=
  let w := ((List.range n).map fun (i : Nat) => unitTurn (if inverse then (i : Int) else -((i : Nat) : Int)) n).toArray
  let x := xs.toArray
  let root := isqrtBits 200 (n * 2 ^ 192)
  (List.range n).map fun k =>
    let sum := (List.range n).foldl (fun (a : Cplx) m => a.add ((x.getD m Cplx.zero).mul (w.getD (m * k % n) Cplx.zero))) Cplx.zero
    (sum.map fun v => roundUp (mkRat v root * twoPow (-shift))).sat16

end Sys2Proof.Machine
end

