-- ==== Sys2Proof/Machine/Codes.lean ====
section
/-!
DEFINITION. The channel codes of R152 on bits and LLRs: polar codes and their list decoder (TS 38.212 clauses 5.3.1, 5.4.1; R258, R259), the
small-block codes (clause 5.3.3), the LTE tail-biting convolutional code and its circular Viterbi decoder (TS 36.212 clause 5.1.3.1, R178), LTE
turbo codes (clause 5.1.3.2) and NR LDPC codes (TS 38.212 clause 5.3.2) with the decoder steps of R159. What those clauses fix in words or
short tables is PRESUMED from them; their long tables are constants of Config (log 31). A positive LLR favours 0.
-/
namespace Sys2Proof.Machine

/-- gCRC24C of TS 38.212 clause 5.1. -/
def crc24C (bs : List Bool) : Nat := crcBits 24 0xB2B117 bs
/-- gCRC11. -/
def crc11 (bs : List Bool) : Nat := crcBits 11 0x621 bs
/-- gCRC6. -/
def crc6 (bs : List Bool) : Nat := crcBits 6 0x21 bs
/-- gCRC8 of TS 36.212 clause 5.1.1. -/
def crc8 (bs : List Bool) : Nat := crcBits 8 0x9B bs

/-- The sum of bits modulo 2. -/
def parityOf (bs : List Bool) : Bool := bs.foldl (· != ·) false

/-- ceil(log2 n) for n ≥ 1. -/
def ceilLog2 (n : Nat) : Nat := ((List.range 64).find? fun k => decide (n ≤ 2 ^ k)).getD 64

/-- The element of a list that occurs first among those of the smallest value. -/
def minBy {α : Type} (f : α → Int) : List α → Option α
  | [] => none
  | x :: xs => match minBy f xs with
    | none => some x
    | some y => if f y < f x then some y else some x

/-! ### Polar codes -/

/-- How a payload is polar coded. -/
structure Polar where
  /-- Payload bits, and CRC bits. -/
  a : Nat
  crc : Nat
  /-- Rate-matched bits. -/
  e : Nat
  nMax : Nat
  /-- Input interleaving (DCI and PBCH), and channel interleaving (UCI). -/
  input : Bool
  channel : Bool
  deriving DecidableEq, Repr

/-- Bits that enter the encoder. -/
def Polar.k (p : Polar) : Nat := p.a + p.crc

/-- The polar code of UCI of `a` bits (TS 38.212 clause 6.3); `seg` where the block is one of two. -/
def polarUci (a e : Nat) (seg : Bool) : Polar := ⟨a, if a ≤ 19 ∧ !seg then 6 else 11, e, 10, false, true⟩

/-- The polar code of a DCI (clause 7.3) or of the PBCH (clause 7.1). -/
def polarDown (a e : Nat) : Polar := ⟨a, 24, e, 9, true, false⟩

/-- log2 of the mother code length (TS 38.212 clause 5.3.1). -/
def Polar.n (p : Polar) : Nat :=
  let le := ceilLog2 p.e
  let n1 := if 16 * p.e ≤ 9 * 2 ^ le ∧ 16 * p.k < 9 * p.e then le - 1 else le
  max (min (min n1 (ceilLog2 (8 * p.k))) p.nMax) 5

/-- Parity-check bits, and how many of them lie where the row weight is smallest (clause 6.3.1.3.1). -/
def Polar.pc (p : Polar) : Nat × Nat := if p.crc = 6 then (3, if p.e > p.k + 189 then 1 else 0) else (0, 0)

/-- The sub-block interleaver of TS 38.212 table 5.4.1.1-1. -/
def polarBlocks : List Nat := [0, 1, 2, 4, 3, 5, 6, 7, 8, 16, 9, 17, 10, 18, 11, 19, 12, 20, 13, 21, 14, 22, 15, 23, 24, 25, 26, 28, 27, 29,
  30, 31]

/-- J(i) for a mother code of 2 ^ n bits. -/
def polarJ (n i : Nat) : Nat := polarBlocks.getD (32 * i / 2 ^ n) 0 * (2 ^ n / 32) + i % (2 ^ n / 32)

/-- Whether the code is punctured rather than shortened, when it sends less than the mother code. -/
def Polar.punctured (p : Polar) : Bool := decide (16 * p.k ≤ 7 * p.e)

/-- Indices that rate matching freezes. -/
def Polar.barred (p : Polar) : List Nat :=
  let n := p.n
  let len := 2 ^ n
  if len ≤ p.e then []
  else if p.punctured then
    (List.range (len - p.e)).map (polarJ n) ++ List.range (if 3 * len ≤ 4 * p.e then ceilDiv (3 * len - 2 * p.e) 4 else ceilDiv (9 * len - 4 * p.e) 16)
  else ((List.range (len - p.e)).map fun i => polarJ n (p.e + i))

/-- The indices that carry bits, in ascending reliability (TS 38.212 clause 5.3.1.2). -/
def Polar.ranked (p : Polar) : List Nat :=
  let barred := p.barred
  let order := ((List.range 1024).map fun i => (Config.polarOrder i).toNat).filter fun q => decide (q < 2 ^ p.n) && !barred.contains q
  order.drop (order.length - (p.k + p.pc.1))

/-- Ones in row `i` of the generator matrix, as a power of 2: the ones in `i`. -/
def onesIn (i : Nat) : Nat := ((List.range 10).filter i.testBit).length

/-- The indices that carry parity-check bits (clause 5.3.1.2). -/
def Polar.pcAt (p : Polar) : List Nat :=
  let r := p.ranked
  let low := r.take (p.pc.1 - p.pc.2)
  if p.pc.2 = 0 then low else
    match minBy (fun i => (onesIn i : Int)) (r.drop p.pc.1).reverse with
    | some i => i :: low
    | none => low

/-- What index `i` carries: nothing, a parity check, or a bit of the input. -/
inductive PolarRole where
  | frozen
  | check
  | data
  deriving DecidableEq, Repr

def Polar.role (p : Polar) : Nat → PolarRole :=
  let r := p.ranked
  let c := p.pcAt
  fun i => if c.contains i then .check else if r.contains i then .data else .frozen

/-- The input interleaver of TS 38.212 table 5.3.1.1-1. -/
def polarPi : List Nat := [0, 2, 4, 7, 9, 14, 19, 20, 24, 25, 26, 28, 31, 34, 42, 45, 49, 50, 51, 53, 54, 56, 58, 59, 61, 62, 65, 66, 67, 69,
  70, 71, 72, 76, 77, 81, 82, 83, 87, 88, 89, 91, 93, 95, 98, 101, 104, 106, 108, 110, 111, 113, 115, 118, 119, 120, 122, 123, 126, 127, 129,
  132, 134, 138, 139, 140] ++ [1, 3, 5, 8, 10, 15, 21, 27, 29, 32, 35, 43, 46, 52, 55, 57, 60, 63, 68, 73, 78, 84, 90, 92, 94, 96, 99, 102,
  105, 107, 109, 112, 114, 116, 121, 124, 128, 130, 133, 135, 141, 6, 11, 16, 22, 30, 33, 36, 44, 47, 64, 74, 79, 85, 97, 100, 103, 117,
  125, 131, 136, 142] ++ [12, 17, 23, 37, 48, 75, 80, 86, 137, 143, 13, 18, 38, 144, 39, 145, 40, 146, 41, 147] ++ (List.range 16).map (148 + ·)

/-- The order in which the input bits enter the encoder. -/
def Polar.inputOrder (p : Polar) : List Nat :=
  if p.input then (polarPi.filter fun m => decide (164 ≤ m + p.k)).map fun m => m - (164 - p.k) else List.range p.k

/-- u · G for a vector of 2 ^ n bits. -/
def polarTransform : Nat → List Bool → List Bool
  | 0, u => u
  | n + 1, u =>
    let x := polarTransform n (u.take (2 ^ n))
    let y := polarTransform n (u.drop (2 ^ n))
    (x.zip y).map (fun p => p.1 != p.2) ++ y

/-- The parity check at index `i`: the bits of the input at earlier indices a multiple of 5 before. -/
def pcValue (role : Nat → PolarRole) (u : List Bool) (i : Nat) : Bool :=
  parityOf (u.zipIdx.filterMap fun p => if role p.2 = .data ∧ p.2 % 5 = i % 5 then some p.1 else none)

/-- The vector u from the input bits in encoding order. -/
def polarVector (role : Nat → PolarRole) : Nat → Nat → List Bool → List Bool → List Bool
  | 0, _, _, u => u
  | n + 1, i, c, u => match role i with
    | .frozen => polarVector role n (i + 1) c (u ++ [false])
    | .check => polarVector role n (i + 1) c (u ++ [pcValue role u i])
    | .data => polarVector role n (i + 1) (c.drop 1) (u ++ [c.headD false])

/-- The triangle of the channel interleaver: the input position of each output bit (TS 38.212 clause 5.4.1.3). -/
def triangle (e : Nat) : List Nat :=
  let t := ((List.range (e + 1)).find? fun t => decide (2 * e ≤ t * (t + 1))).getD e
  (List.range t).flatMap fun j => ((List.range (t - j)).map fun i => i * t - i * (i - 1) / 2 + j).filter fun k => decide (k < e)

/-- The mother code index that each transmitted bit carries. -/
def Polar.sent (p : Polar) : List Nat :=
  let n := p.n
  let len := 2 ^ n
  let e := (List.range p.e).map fun k => polarJ n (if len ≤ p.e then k % len else if p.punctured then k + len - p.e else k)
  if p.channel then (triangle p.e).map fun i => e.getD i 0 else e

/-- The transmitted bits for the payload with its CRC. -/
def Polar.encode (p : Polar) (c : List Bool) : List Bool :=
  let d := polarTransform p.n (polarVector p.role (2 ^ p.n) 0 (p.inputOrder.map fun i => c.getD i false) [])
  p.sent.map fun i => d.getD i false

/-- The LLRs of the mother code: repeated positions sum, punctured ones are 0 and shortened ones +127 (R258). -/
def Polar.recover (p : Polar) (llrs : List Int) : List Int :=
  let at_ := p.sent.zip llrs
  (List.range (2 ^ p.n)).map fun i =>
    let mine := at_.filter fun x => x.1 == i
    if mine.isEmpty then (if p.punctured then 0 else 127) else (mine.map (·.2)).sum

/-- The f function. -/
def minSum (a b : Int) : Int :=
  let m : Int := (min a.natAbs b.natAbs : Nat)
  if decide (a < 0) != decide (b < 0) then -m else m

/-- The decision LLR after the decisions `u`. -/
def scLlr : Nat → List Int → List Bool → Int
  | 0, l, _ => l.headD 0
  | n + 1, l, u =>
    let pairs := (l.take (2 ^ n)).zip (l.drop (2 ^ n))
    if u.length < 2 ^ n then scLlr n (pairs.map fun p => minSum p.1 p.2) u
    else scLlr n ((pairs.zip (polarTransform n (u.take (2 ^ n)))).map fun p => if p.2 then p.1.2 - p.1.1 else p.1.2 + p.1.1) (u.drop (2 ^ n))

/-- A path of the list decoder: its decisions and its metric. -/
structure Path where
  u : List Bool
  metric : Nat
  deriving DecidableEq, Repr

/-- A path with one more decision, given its decision LLR. -/
def Path.push (p : Path) (l : Int) (b : Bool) : Path :=
  ⟨p.u ++ [b], p.metric + (if (b && decide (0 < l)) || (!b && decide (l < 0)) then l.natAbs else 0)⟩

/-- The index of a path in metric order, the lower list index first among equals (R259). -/
def rankOf (ps : List Path) (i : Nat) : Nat :=
  let m := (ps.map (·.metric)).getD i 0
  (ps.zipIdx.filter fun q => decide (q.1.metric < m) || (q.1.metric == m && decide (q.2 < i))).length

/-- The eight best of the paths, in list order. That children stand in the order of their parents, decision 0 first, and that the
survivors keep list order is a DESIGN CHOICE (log 31). -/
def bestEight (ps : List Path) : List Path := (ps.zipIdx.filter fun q => decide (rankOf ps q.2 < 8)).map (·.1)

/-- The list after all decisions; parity-check bits are decided like data and checked at the end (DEDUCED: a path must pass the checks,
R259). -/
def listDecode (role : Nat → PolarRole) (n : Nat) (llrs : List Int) : Nat → Nat → List Path → List Path
  | 0, _, ps => ps
  | k + 1, i, ps =>
    let next := match role i with
      | .frozen => ps.map fun p => p.push (scLlr n llrs p.u) false
      | _ => bestEight (ps.flatMap fun p =>
          let l := scLlr n llrs p.u
          [p.push l false, p.push l true])
    listDecode role n llrs k (i + 1) next

/-- The payload and CRC that a path decides on. -/
def Polar.bitsOf (p : Polar) (role : Nat → PolarRole) (u : List Bool) : List Bool :=
  let c := u.zipIdx.filterMap fun b => if role b.2 = .data then some b.1 else none
  let order := p.inputOrder
  (List.range p.k).map fun i => match order.findIdx? (· == i) with
    | some j => c.getD j false
    | none => false

/-- Whether the CRC of decoded bits passes; `mask` is the RNTI that masks the last 16 bits of a DCI's CRC, whose register starts with ones
(TS 38.212 clause 7.3.2). -/
def Polar.crcOk (p : Polar) (dci : Bool) (mask : Nat) (bits : List Bool) : Bool :=
  let a := bits.take p.a
  let got := natOfMsbBits (bits.drop p.a)
  if p.crc = 6 then crc6 a == got else if p.crc = 11 then crc11 a == got
  else if dci then (crc24C (List.replicate 24 true ++ a)) ^^^ mask == got else crc24C a == got

/-- What a polar decoder gives: the payload, whether its CRC passed, its place in metric order and its metric. -/
structure PolarOut where
  payload : List Bool
  ok : Bool
  path : Nat
  metric : Nat
  deriving DecidableEq, Repr

/-- The list decoder of R259. -/
def Polar.decode (p : Polar) (dci : Bool) (mask : Nat) (llrs : List Int) : PolarOut :=
  let role := p.role
  let ps := listDecode role p.n (p.recover llrs) (2 ^ p.n) 0 [⟨[], 0⟩]
  let byRank := (List.range ps.length).filterMap fun k => (ps.zipIdx.find? fun q => rankOf ps q.2 == k).map (·.1)
  let checks := p.pcAt
  let pass (q : Path) : Bool :=
    p.crcOk dci mask (p.bitsOf role q.u) && checks.all fun i => pcValue role (q.u.take i) i == q.u.getD i false
  match byRank.zipIdx.find? fun q => pass q.1 with
  | some q => ⟨(p.bitsOf role q.1.u).take p.a, true, q.2, q.1.metric⟩
  | none => match byRank with
    | q :: _ => ⟨(p.bitsOf role q.u).take p.a, false, 0, q.metric⟩
    | [] => ⟨[], false, 0, 0⟩

/-! ### Small blocks (TS 38.212 clause 5.3.3, TS 36.212 clause 5.2.2.6.4) -/

/-- The (32, 11) block code. -/
def reedMuller (c : List Bool) : List Bool :=
  (List.range 32).map fun i => parityOf (c.zipIdx.map fun b => b.1 && (Config.reedMullerRow i).getLsbD b.2)

/-- A bit of a short code: one of the encoder's, or a placeholder x or y. -/
inductive ShortBit where
  | bit (b : Bool)
  | x
  | y
  deriving DecidableEq, Repr

/-- The code of 1 or 2 bits for a modulation order (tables 5.3.3.1-1 and 5.3.3.2-1). -/
def shortCode (qm : Nat) (c : List Bool) : List ShortBit :=
  match c with
  | [c0] => .bit c0 :: (if qm < 2 then [] else .y :: List.replicate (qm - 2) .x)
  | [c0, c1] =>
    let c2 := c0 != c1
    let fill := List.replicate (qm - 2) ShortBit.x
    if qm < 2 then [.bit c0, .bit c1, .bit c2]
    else [ShortBit.bit c0, .bit c1] ++ fill ++ [.bit c2, .bit c0] ++ fill ++ [.bit c1, .bit c2] ++ fill
  | _ => []

/-- The coded bits of 1 to 11 bits of UCI, before they are repeated to the rate-matched length. -/
def smallCode (qm : Nat) (c : List Bool) : List ShortBit :=
  if c.length ≤ 2 then shortCode qm c else (reedMuller c).map ShortBit.bit

/-- How well LLRs agree with a repeated codeword; `prev` undoes the placeholders y, which repeat the bit before them. -/
def agreement (code : List ShortBit) (llrs : List Int) : Int :=
  let n := max 1 code.length
  (llrs.zipIdx.map fun l => match code.getD (l.2 % n) .x with
    | .bit b => if b then -l.1 else l.1
    | .y => match code.getD ((l.2 + n - 1) % n) .x with
      | .bit b => if b then -l.1 else l.1
      | _ => 0
    | .x => 0).sum

/-- The words of `k` bits that agree best with LLRs, of which the search gives one: the maximum-likelihood search and the correlation of
R178. -/
def smallBest (qm k : Nat) (llrs : List Int) : List Nat :=
  let score (v : Nat) : Int := agreement (smallCode qm ((List.range k).map v.testBit)) llrs
  let all := List.range (2 ^ k)
  let top := (all.map score).foldl max (score 0)
  all.filter fun v => score v == top

/-! ### The tail-biting convolutional code (TS 36.212 clause 5.1.3.1) -/

/-- The three output bits for the six bits before, the latest first, and a bit: generators 133, 171 and 165. -/
def convOut (before : List Bool) (b : Bool) : List Bool :=
  let w := b :: before
  [[0, 2, 3, 5, 6], [0, 1, 2, 3, 6], [0, 1, 2, 4, 6]].map fun g => parityOf (g.map fun i => w.getD i false)

/-- The output bits of a run of input bits. -/
def convRun : List Bool → List Bool → List (List Bool)
  | _, [] => []
  | st, b :: bs => convOut st b :: convRun ((b :: st).take 6) bs

/-- The three streams of a codeword. -/
def convEncode (c : List Bool) : List (List Bool) :=
  let n := max 1 c.length
  let start := (List.range 6).map fun i => c.getD ((n * 6 + c.length - 1 - i) % n) false
  let o := convRun start c
  (List.range 3).map fun j => o.map fun b => b.getD j false

/-- The column permutation of TS 36.212 table 5.1.4-2. -/
def convPerm : List Nat := [1, 17, 9, 25, 5, 21, 13, 29, 3, 19, 11, 27, 7, 23, 15, 31, 0, 16, 8, 24, 4, 20, 12, 28, 2, 18, 10, 26, 6, 22, 14,
  30]

/-- The bits of one stream of `d` bits in the circular buffer's order, by index (TS 36.212 clause 5.1.4.2). -/
def convOrder (d : Nat) : List Nat :=
  let rows := ceilDiv d 32
  let nd := 32 * rows - d
  convPerm.flatMap fun c => (List.range rows).filterMap fun r => if 32 * r + c < nd then none else some (32 * r + c - nd)

/-- The stream and index of each of `e` rate-matched bits. -/
def convSent (d e : Nat) : List (Nat × Nat) :=
  let all := (List.range 3).flatMap fun j => (convOrder d).map fun i => (j, i)
  (List.range e).map fun k => all.getD (k % max 1 all.length) (0, 0)

/-- `e` rate-matched bits of a payload with its CRC. -/
def convSend (c : List Bool) (e : Nat) : List Bool :=
  let s := convEncode c
  (convSent c.length e).map fun p => (s.getD p.1 []).getD p.2 false

/-- The six bits of a trellis state, the latest first. -/
def stateBits (st : Nat) : List Bool := (List.range 6).map fun i => st.testBit (5 - i)

/-- One trellis step of the Viterbi decoder: for each state its metric and the oldest bit of the predecessor chosen; of two equal
metrics the predecessor with the lower number (DESIGN CHOICE, log 31). -/
def viterbiStep (m : List Int) (l : List Int) : List (Int × Bool) :=
  (List.range 64).map fun st =>
    let b := st.testBit 5
    let from_ (old : Bool) : Int :=
      let p := st % 32 * 2 + (if old then 1 else 0)
      m.getD p 0 + (((convOut (stateBits p) b).zip l).map fun x => if x.1 then -x.2 else x.2).sum
    if from_ false < from_ true then (from_ true, true) else (from_ false, false)

/-- The steps of the trellis over LLR triples: the metrics at the end, and what each step chose, the last first. -/
def viterbiRun : List (List Int) → List Int → List (List Bool) → List Int × List (List Bool)
  | [], m, h => (m, h)
  | l :: ls, m, h =>
    let o := viterbiStep m l
    viterbiRun ls (o.map (·.1)) (o.map (·.2) :: h)

/-- The bits on the path back from a state, the last first. -/
def viterbiBack : List (List Bool) → Nat → List Bool
  | [], _ => []
  | c :: cs, st => st.testBit 5 :: viterbiBack cs (st % 32 * 2 + (if c.getD st false then 1 else 0))

/-- The circular Viterbi decoder: three passes from equal metrics, back from the best state, and the bits of the second pass (R178). -/
def viterbiDecode (l : List (List Int)) : List Bool :=
  let o := viterbiRun (l ++ l ++ l) (List.replicate 64 0) []
  let best := (minBy (fun st => -(o.1.getD st 0)) (List.range 64)).getD 0
  ((viterbiBack o.2 best).reverse.drop l.length).take l.length

/-- The LLR triples of a codeword of `d` steps, summed over repetitions. -/
def convRecover (d : Nat) (llrs : List Int) : List (List Int) :=
  let at_ := (convSent d llrs.length).zip llrs
  (List.range d).map fun i => (List.range 3).map fun j => ((at_.filter fun p => p.1 == (j, i)).map (·.2)).sum

/-! ### Turbo codes (TS 36.212 clause 5.1.3.2) -/

/-- One step of a constituent encoder: the parity bit and the next state. The registers hold the three latest sums, the latest first. -/
def rscStep (st : List Bool) (u : Bool) : Bool × List Bool :=
  let a := parityOf [u, st.getD 1 false, st.getD 2 false]
  (parityOf [a, st.getD 0 false, st.getD 2 false], [a, st.getD 0 false, st.getD 1 false])

/-- The parity bits of a run, and the state at its end. -/
def rscRun : List Bool → List Bool → List Bool × List Bool
  | st, [] => ([], st)
  | st, u :: us =>
    let o := rscStep st u
    let rest := rscRun o.2 us
    (o.1 :: rest.1, rest.2)

/-- The three tail steps from a state: the input bits and the parity bits. -/
def rscTail : Nat → List Bool → List Bool × List Bool
  | 0, _ => ([], [])
  | n + 1, st =>
    let u := st.getD 1 false != st.getD 2 false
    let o := rscStep st u
    let rest := rscTail n o.2
    (u :: rest.1, o.1 :: rest.2)

/-- Π(i) of the internal interleaver. -/
def qpp (k i : Nat) : Nat := ((Config.qppF1 k).toNat * i + (Config.qppF2 k).toNat * i * i) % k

/-- The three streams of K + 4 bits each, filler bits coded as 0 (clause 5.1.3.2.2). -/
def turboEncode (c : List Bool) : List (List Bool) :=
  let k := c.length
  let a := rscRun [false, false, false] c
  let b := rscRun [false, false, false] ((List.range k).map fun i => c.getD (qpp k i) false)
  let x := rscTail 3 a.2
  let y := rscTail 3 b.2
  let g (l : List Bool) (i : Nat) : Bool := l.getD i false
  [c ++ [g x.1 0, g x.2 1, g y.1 0, g y.2 1], a.1 ++ [g x.2 0, g x.1 2, g y.2 0, g y.1 2], b.1 ++ [g x.1 1, g x.2 2, g y.1 1, g y.2 2]]

/-- Three quarters of a value, rounded to an integer as the part does (R159). -/
def threeQuarters (v : Int) : Int :=
  let m := v.natAbs
  let q : Int := (3 * m / 4 + (if 3 * m % 4 ≠ 0 ∧ Config.quarterUp m then 1 else 0) : Nat)
  if v < 0 then -q else q

/-- The three registers of a constituent state. -/
def rscBits (st : Nat) : List Bool := [st.testBit 2, st.testBit 1, st.testBit 0]
def rscNumber (b : List Bool) : Nat := natOfMsbBits b

/-- A metric that no path reaches. -/
def noPath : Int := -(2 ^ 40)

/-- The metric of a branch: the LLRs of the bits that are 1 count against it. -/
def branch (u p : Bool) (lu lp : Int) : Int := (if u then -lu else 0) - (if p then lp else 0)

/-- Forward metrics: those before each step, the first first. -/
def rscForward : List (Int × Int) → List Int → List (List Int)
  | [], a => [a]
  | (lu, lp) :: ls, a =>
    let next := (List.range 8).map fun st => ((List.range 8).flatMap fun p => [false, true].map fun u =>
      let o := rscStep (rscBits p) u
      if rscNumber o.2 = st then a.getD p noPath + branch u o.1 lu lp else noPath).foldl max noPath
    a :: rscForward ls next

/-- Backward metrics: those before each step, the first first, and the final ones. -/
def rscBackward : List (Int × Int) → List (List Int)
  | [] => [0 :: List.replicate 7 noPath]
  | (lu, lp) :: ls =>
    let rest := rscBackward ls
    let b := rest.headD []
    ((List.range 8).map fun p => ([false, true].map fun u =>
      let o := rscStep (rscBits p) u
      b.getD (rscNumber o.2) noPath + branch u o.1 lu lp).foldl max noPath) :: rest

/-- The a-posteriori LLRs of the inputs of a constituent code by max-log-MAP; each step has the LLR of its input and of its parity bit,
and the code ends in state 0. -/
def maxLogMap (steps : List (Int × Int)) : List Int :=
  let a := rscForward steps (0 :: List.replicate 7 noPath)
  let b := (rscBackward steps).drop 1
  (steps.zip (a.zip b)).map fun x =>
    let best (u : Bool) : Int := ((List.range 8).map fun p =>
      let o := rscStep (rscBits p) u
      x.2.1.getD p noPath + branch u o.1 x.1.1 x.1.2 + x.2.2.getD (rscNumber o.2) noPath).foldl max noPath
    best false - best true

/-- A value saturated to ±127. -/
def sat127 (v : Int) : Int := max (-127) (min 127 v)

/-- The state of a turbo code block between half-iterations: the three streams of K + 4 values, the extrinsic values in natural order, and
the values that the last half-iteration decided on. -/
structure TurboState where
  d0 : List Int
  d1 : List Int
  d2 : List Int
  ext : List Int
  app : List Int
  deriving DecidableEq, Repr

/-- Half-iteration `i` of a block of `k` bits (R159): even ones run the first constituent code, odd ones the second. That extrinsic
values saturate at ±127 is DEDUCED from the record of R160, which holds one byte for each. -/
def TurboState.half (t : TurboState) (k i : Nat) : TurboState :=
  let g (l : List Int) (j : Nat) : Int := l.getD j 0
  let order := (List.range k).map (qpp k)
  if i % 2 = 0 then
    let body := (List.range k).map fun j => (g t.d0 j + g t.ext j, g t.d1 j)
    let tail := [(g t.d0 k, g t.d1 k), (g t.d2 k, g t.d0 (k + 1)), (g t.d1 (k + 1), g t.d2 (k + 1))]
    let l := (maxLogMap (body ++ tail)).take k
    { t with app := l, ext := (l.zip body).map fun p => sat127 (threeQuarters (p.1 - p.2.1)) }
  else
    let body := order.zipIdx.map fun p => (g t.d0 p.1 + g t.ext p.1, g t.d2 p.2)
    let tail := [(g t.d0 (k + 2), g t.d1 (k + 2)), (g t.d2 (k + 2), g t.d0 (k + 3)), (g t.d1 (k + 3), g t.d2 (k + 3))]
    let l := (maxLogMap (body ++ tail)).take k
    let back (v : List Int) : List Int := (List.range k).map fun j => match order.findIdx? (· == j) with
      | some x => v.getD x 0
      | none => 0
    { t with app := back l, ext := back ((l.zip body).map fun p => sat127 (threeQuarters (p.1 - p.2.1))) }

/-! ### LDPC codes (TS 38.212 clause 5.3.2) -/

/-- Index of the set of lifting sizes that holds a size (table 5.3.2-1). -/
def liftSet (zc : Nat) : Nat :=
  (([2, 3, 5, 7, 9, 11, 13, 15] : List Nat).findIdx? fun a => (List.range 8).any fun j => a * 2 ^ j == zc).getD 0

/-- Columns of a base graph. -/
def graphCols (g2 : Bool) : Nat := if g2 then 52 else 68
/-- Columns that carry information. -/
def graphInfo (g2 : Bool) : Nat := if g2 then 10 else 22
/-- Rows of a base graph. -/
def graphRows (g2 : Bool) : Nat := if g2 then 42 else 46

/-- The columns of a row of the base graph with their shifts for a lifting size. -/
def graphRow (g2 : Bool) (zc row : Nat) : List (Nat × Nat) :=
  (List.range (graphCols g2)).filterMap fun c => (Config.ldpcShift g2 (liftSet zc) row c).map fun v => (c, v.toNat % zc)

/-- The variable of a column and shift in lift `z`. -/
def liftVar (zc : Nat) (e : Nat × Nat) (z : Nat) : Nat := e.1 * zc + (z + e.2) % zc

/-- Rows of an equation system over bits, each a list of coefficients and the right-hand side, reduced by the rows that follow: Gaussian
elimination, the first row with a 1 in the leading column being the pivot. -/
def solveBits : Nat → List (List Bool × Bool) → List Bool
  | 0, _ => []
  | n + 1, rows =>
    match rows.find? fun r => r.1.headD false with
    | none => false :: solveBits n (rows.map fun r => (r.1.drop 1, r.2))
    | some p =>
      let rest := (rows.erase p).map fun r =>
        if r.1.headD false then ((r.1.zip p.1).map (fun x => x.1 != x.2), r.2 != p.2) else r
      let x := solveBits n (rest.map fun r => (r.1.drop 1, r.2))
      (p.2 != parityOf ((p.1.drop 1).zip x |>.map fun q => q.1 && q.2)) :: x

/-- The codeword of information bits (filler bits 0): the parity bits that make every check 0. The four core columns are solved
together; every later column belongs to one row. -/
def ldpcEncode (g2 : Bool) (zc : Nat) (c : List Bool) : List Bool :=
  let k := graphInfo g2
  let sum (known : List Bool) (row z : Nat) (cols : Nat → Bool) : Bool :=
    parityOf ((graphRow g2 zc row).map fun e => cols e.1 && known.getD (liftVar zc e z) false)
  let core := (List.range 4).flatMap fun row => (List.range zc).map fun z =>
    let vars := ((graphRow g2 zc row).filter fun e => decide (k ≤ e.1) && decide (e.1 < k + 4)).map fun e => liftVar zc e z
    ((List.range (4 * zc)).map fun j => vars.contains (k * zc + j), sum c row z fun col => decide (col < k))
  let w := c ++ solveBits (4 * zc) core
  w ++ (List.range (graphRows g2 - 4)).flatMap fun i =>
    let row := i + 4
    let shift := (((graphRow g2 zc row).find? fun e => e.1 == k + row).map (·.2)).getD 0
    (List.range zc).map fun y => sum w row ((y + zc - shift) % zc) fun col => decide (col < k + 4)

/-- The compressed messages of a check (R160): the two smallest magnitudes after scaling, which edge has the smallest, and the signs. -/
structure Check where
  min1 : Nat
  min2 : Nat
  arg : Nat
  signs : Nat
  deriving DecidableEq, Repr

/-- A check that has sent nothing. -/
def Check.none : Check := ⟨0, 0, 0, 0⟩

/-- The message of a check to its edge `i`. -/
def Check.message (c : Check) (i : Nat) : Int :=
  let m : Int := ((if i = c.arg then c.min2 else c.min1 : Nat) : Int)
  if c.signs.testBit i then -m else m

/-- The check that answers to the values of its edges: normalised min-sum with 0.75 (R159). -/
def Check.of (qs : List Int) : Check :=
  let mags := qs.map (·.natAbs)
  let arg := (minBy (fun i => ((mags.getD i 0 : Nat) : Int)) (List.range qs.length)).getD 0
  let others := mags.zipIdx.filter fun m => m.2 != arg
  let scale (m : Nat) : Nat := (threeQuarters m).natAbs
  let neg := parityOf (qs.map fun q => decide (q < 0))
  ⟨scale (mags.getD arg 0), scale ((others.map (·.1)).foldl min 127), arg,
    (qs.zipIdx.map fun q => if neg != decide (q.1 < 0) then 2 ^ q.2 else 0).sum⟩

/-- The state of an LDPC code block between layers: the posterior values by column and lift, and the checks by row and lift. -/
structure LdpcState where
  post : List Int
  checks : List Check
  deriving DecidableEq, Repr

/-- One lift of a layer. Posterior values saturate at ±127: DEDUCED from the record of R160, which holds one byte for each. -/
def LdpcState.check (s : LdpcState) (zc row : Nat) (edges : List (Nat × Nat)) (z : Nat) : LdpcState :=
  let old := s.checks.getD (row * zc + z) Check.none
  let vars := edges.map fun e => liftVar zc e z
  let qs := vars.zipIdx.map fun v => sat127 (s.post.getD v.1 0 - old.message v.2)
  let new := Check.of qs
  { post := (vars.zip qs).zipIdx.foldl (fun (p : List Int) v => p.set v.1.1 (sat127 (v.1.2 + new.message v.2))) s.post
    checks := s.checks.set (row * zc + z) new }

/-- One layer: a row of the base graph over all lifts. -/
def LdpcState.layer (s : LdpcState) (g2 : Bool) (zc row : Nat) : LdpcState :=
  (List.range zc).foldl (fun t z => t.check zc row (graphRow g2 zc row) z) s

end Sys2Proof.Machine
end

