-- ==== Sys2Proof/Machine/Move.lean ====
section
/-!
DEFINITION. The Move engines (R303 to R309): software channels packet by packet, and the COPY release.
-/
namespace Sys2Proof.Machine

/-! ### Channels -/

/-- NI of Move engine `e` (R262). -/
def niMove (e : Nat) : Nat := 58 + e

/-- A channel. -/
def State.movCh (s : State) (e h : Nat) : MovCh := SMap.get movIdle s.mov.ch (16 * e + h)

/-- A channel replaced. -/
def State.setMovCh (s : State) (e h : Nat) (c : MovCh) : State :=
  { s with mov := { s.mov with ch := SMap.set movIdle s.mov.ch (16 * e + h) c } }

/-- Whether a channel is halted. -/
def State.movHalted (s : State) (e h : Nat) : Bool := s.fld (.MOV_CH_STATUS e h) Fld.MOV_CH_STATUS_HALTED == 1

/-- A number of leading bytes covered by intervals, from `cur` on. -/
def leadFrom (acked : List (Nat × Nat)) : Nat → Nat → Nat
  | 0, cur => cur
  | fuel + 1, cur => match acked.find? fun a => decide (a.1 ≤ cur) && decide (cur < a.1 + a.2) with
    | some a => leadFrom acked fuel (a.1 + a.2)
    | none => cur

/-- The largest count of leading bytes whose writes have all been acknowledged (R308). -/
def MovCh.lead (c : MovCh) : Nat := leadFrom c.acked c.acked.length 0

/-- A transfer as an XFER word lays it out (R304, R311). -/
def xferOf (src dst : Nat) (w : Word) : Xfer :=
  { src := src, dst := dst, len := Fld.MOV_CH_XFER_LEN.get w, srcFix := Fld.MOV_CH_XFER_SRC_FIX.get w == 1
    dstFix := Fld.MOV_CH_XFER_DST_FIX.get w == 1, elem := 2 ^ Fld.MOV_CH_XFER_ELEM.get w
    irqHalf := Fld.MOV_CH_XFER_IRQ_HALF.get w == 1, irqFull := Fld.MOV_CH_XFER_IRQ_FULL.get w == 1 }

/-- A transfer as a ring descriptor lays it out (R309). -/
def xferOfDesc (d : List Byte) : Xfer :=
  let w := leAt d 0 4
  { src := leAt d 8 8, dst := leAt d 16 8, len := bitsOf w 0 24, srcFix := bitsOf w 27 1 == 1, dstFix := bitsOf w 26 1 == 1
    elem := 2 ^ bitsOf w 24 2, irqHalf := bitsOf w 28 1 == 1, irqFull := bitsOf w 29 1 == 1 }

/-- Whether a transfer breaks R304. -/
def Xfer.bad (x : Xfer) : Bool :=
  x.len == 0 || (isDeviceAddr x.src && bitsOf x.src 48 15 != 0) || (isDeviceAddr x.dst && bitsOf x.dst 48 15 != 0)
    || ((x.srcFix || x.dstFix) && (x.len % x.elem != 0 || x.src % x.elem != 0 || x.dst % x.elem != 0))

/-- Bytes of the read that begins at offset `o` of a transfer (R304). -/
def Xfer.readSize (x : Xfer) (o : Nat) : Nat :=
  if x.srcFix then x.elem else
    min (x.len - o) (min (256 - (x.src + o) % 256) (if x.dstFix then 256 else 256 - (x.dst + o) % 256))

/-- Bytes of a write out of `n` bytes that have been read (R304). -/
def Xfer.writeSize (x : Xfer) (n : Nat) : Nat := if x.dstFix then x.elem else n

/-- Source address of offset `o`. -/
def Xfer.srcAt (x : Xfer) (o : Nat) : Nat := if x.srcFix then x.src else x.src + o
/-- Destination address of offset `o`. -/
def Xfer.dstAt (x : Xfer) (o : Nat) : Nat := if x.dstFix then x.dst else x.dst + o

/-- The channel's interrupt (R311 TARGET). -/
def State.movSignal (s : State) (e h : Nat) : State :=
  if s.fld (.MOV_CH_CFG e h) Fld.MOV_CH_CFG_TARGET = 0 then s.msix (s.fld (.MOV_CH_CFG e h) Fld.MOV_CH_CFG_VECTOR)
  else s.shepIrq shepMov (16 * e + h)

/-- A packet of a channel handed to the engine's interface, under the engine's next tag; `none` where it is answered DECODE at
once. -/
def State.movSend (s : State) (e h : Nat) (use : MovUse) (off len addr : Nat) (bytes : List Byte) : Option State :=
  let tag := SMap.get zeroNat s.mov.tag e
  let type := if use = .read ∨ use = .fetch then pktRead else pktWriteAck
  let a := if isDeviceAddr addr then bitsOf addr 0 48 else addr
  match s.requestPacket (niMove e) type tag a len (!isDeviceAddr addr) bytes with
  | none => none
  | some p =>
    let c := s.movCh e h
    let s1 := s.setMovCh e h { c with reqs := c.reqs ++ [(⟨tag, use, off, len, addr⟩ : MovReq)] }
    some (({ s1 with mov := { s1.mov with tag := SMap.set zeroNat s1.mov.tag e ((tag + 1) % 4096) } }).inject p)

/-- Responses for which a channel holds buffer space: those of reads, with the data not yet written on, and those of writes (R270). -/
def MovCh.reading (c : MovCh) : Nat := (c.reqs.filter fun r => r.use == .read || r.use == .fetch).length + c.data.length
def MovCh.writing (c : MovCh) : Nat := (c.reqs.filter fun r => r.use == .write || r.use == .writeBack).length

/-- Address of a ring descriptor. -/
def State.descAddr (s : State) (e h : Nat) : Nat :=
  (s.rd (.MOV_CH_RING e h)).toNat + 32 * s.fld (.MOV_CH_POS e h) Fld.MOV_CH_POS_RING_IDX

/-- The first eight bytes of a descriptor written back (R309). -/
def State.writeBack (s : State) (e h : Nat) (word0 : Nat) (done err write : Bool) (status count : Nat) : State :=
  let w1 := (if done then 2 ^ 31 else 0) + (if err then 2 ^ 30 else 0) + (if write then 2 ^ 29 else 0)
    + 2 ^ 24 * (status % 8) + count % 2 ^ 24
  (s.movSend e h .writeBack 0 8 (s.descAddr e h) (leBytes 4 (setBitsOf word0 31 1 0) ++ leBytes 4 w1)).getD s

/-- DONE_BYTES brought up to date. -/
def State.showLead (s : State) (e h : Nat) : State := s.setFld (.MOV_CH_POS e h) Fld.MOV_CH_POS_DONE_BYTES (s.movCh e h).lead

/-- A channel stops in the middle of a transfer: outstanding responses will be discarded, and the engine is free. -/
def State.movStop (s : State) (e h : Nat) : State :=
  let c := s.movCh e h
  let s1 := (s.showLead e h).setMovCh e h { c with reqs := [], data := [] }
  let s2 := (s1.setFld (.MOV_CH_STATUS e h) Fld.MOV_CH_STATUS_HALTED 1).setFld (.MOV_CH_STATUS e h) Fld.MOV_CH_STATUS_BUSY 0
  if s2.fld (.MOV_ENG e) Fld.MOV_ENG_BUSY = 1 ∧ s2.fld (.MOV_ENG e) Fld.MOV_ENG_CUR_CH = h ∧ s2.movFree e then
    s2.setFld (.MOV_ENG e) Fld.MOV_ENG_BUSY 0
  else s2

/-- A channel halts on an error response (R308). -/
def State.movHalt (s : State) (e h : Nat) (write : Bool) (status addr : Nat) : State :=
  let s1 := s.movStop e h
  let s2 := ((s1.setFld (.MOV_CH_STATUS e h) Fld.MOV_CH_STATUS_ERR_DIR (if write then 1 else 0)).setFld (.MOV_CH_STATUS e h)
    Fld.MOV_CH_STATUS_ERR_STATUS status).wr (.MOV_CH_ERR_ADDR e h) (BitVec.ofNat 64 addr)
  let s3 := (s2.record { code := 0x70, cls := 5, phys := e, addr := if isDeviceAddr addr then bitsOf addr 0 48 else 0
                         detail := h + status * 256 }).movSignal e h
  match (s3.movCh e h).desc with
  | some w => s3.writeBack e h w false true write status (s3.movCh e h).lead
  | none => s3

/-- The reads that a channel in service may issue (R304). -/
def State.movReads (e h : Nat) : Nat → State → State
  | 0, s => s
  | fuel + 1, s =>
    let c := s.movCh e h
    match c.active with
    | none => s
    | some x =>
      if x.len ≤ c.nextRead ∨ 16 ≤ c.reading then s else
        let n := x.readSize c.nextRead
        match s.movSend e h .read c.nextRead n (x.srcAt c.nextRead) [] with
        | none => s.movHalt e h false stDecode (x.srcAt c.nextRead)
        | some t =>
          let d := t.movCh e h
          State.movReads e h fuel (t.setMovCh e h { d with nextRead := c.nextRead + n })

/-- The writes that a channel in service may issue, in the order of the transfer (R304). -/
def State.movWrites (e h : Nat) : Nat → State → State
  | 0, s => s
  | fuel + 1, s =>
    let c := s.movCh e h
    match c.active, c.data.find? fun d => d.1 == c.nextWrite with
    | some x, some d =>
      if 16 ≤ c.writing then s else
        let n := x.writeSize d.2.length
        match s.movSend e h .write c.nextWrite n (x.dstAt c.nextWrite) (d.2.take n) with
        | none => s.movHalt e h true stDecode (x.dstAt c.nextWrite)
        | some t =>
          let k := t.movCh e h
          let others := k.data.filter fun q => q.1 != d.1
          let left := d.2.drop n
          State.movWrites e h fuel (t.setMovCh e h { k with
            nextWrite := c.nextWrite + n
            data := if left = [] then others else others ++ [(c.nextWrite + n, left)] })
    | _, _ => s

/-- IRQ_HALF, once the writes of the first half have been acknowledged (R307). -/
def State.movHalf (s : State) (e h : Nat) : State :=
  let c := s.movCh e h
  match c.active with
  | some x =>
    if x.irqHalf ∧ !c.half ∧ x.len / 2 ≤ c.lead then
      ((s.setMovCh e h { c with half := true }).setFld (.MOV_CH_STATUS e h) Fld.MOV_CH_STATUS_HALF 1).movSignal e h
    else s
  | none => s

/-- A channel in service goes on. -/
def State.movRun (s : State) (e h : Nat) : State :=
  if s.movHalted e h || s.fld (.MOV_ENG e) Fld.MOV_ENG_BUSY == 0 || s.fld (.MOV_ENG e) Fld.MOV_ENG_CUR_CH != h then s
  else State.movReads e h 16 (State.movWrites e h 16 s)

/-- Whether a channel is ready (R306). -/
def State.movReady (s : State) (e h : Nat) : Bool :=
  s.fld (.MOV_CH_CFG e h) Fld.MOV_CH_CFG_ENABLE == 1 && !s.movHalted e h && (s.movCh e h).active.isSome

/-- Whether the commit point of an armed swap has passed whose almanac binds or lists an engine: it starts no software transfer
then (R303). -/
def State.movCommitted (s : State) (e : Nat) : Bool :=
  match s.alm.swap with
  | some w => s.nextPos == posOf w.frame 0 && decide (11000 ≤ s.tm.cycle)
      && ((imgMap s.shadow).contains (5, e) || (imgFallow s.shadow).contains (5, e))
  | none => false

/-- A free engine takes its next ready channel, round robin (R306). -/
def State.movServe (s : State) (e : Nat) : State :=
  if !s.movFree e || s.movCommitted e || s.fld (.MOV_ENG e) Fld.MOV_ENG_BUSY == 1 || s.unitState 5 e != 0 then s else
    let last := SMap.get zeroNat s.mov.last e
    match ((List.range 16).map fun i => (last + 1 + i) % 16).find? (s.movReady e) with
    | none => s
    | some h =>
      let s1 := { s with mov := { s.mov with last := SMap.set zeroNat s.mov.last e h } }
      ((s1.setFld (.MOV_ENG e) Fld.MOV_ENG_BUSY 1).setFld (.MOV_ENG e) Fld.MOV_ENG_CUR_CH h).movRun e h

/-- A transfer enters the active set; one that breaks R304 halts at once. -/
def State.movLoad (s : State) (e h : Nat) (x : Xfer) (desc : Option Nat) : State :=
  let c := s.movCh e h
  let s1 := (s.setMovCh e h { MovCh.idle with active := some x, desc := desc, reqs := c.reqs }).setFld (.MOV_CH_STATUS e h)
    Fld.MOV_CH_STATUS_BUSY 1
  let s2 := s1.setFld (.MOV_CH_POS e h) Fld.MOV_CH_POS_DONE_BYTES 0
  if x.bad then s2.movHalt e h false stDecode x.src else (s2.movHalf e h).movServe e

/-- A FULL shadow moves to the active set when the channel has no active transfer (R307). -/
def State.movPromote (s : State) (e h : Nat) : State :=
  if s.fld (.MOV_CH_STATUS e h) Fld.MOV_CH_STATUS_SH_FULL = 0 ∨ (s.movCh e h).active.isSome then s else
    (s.setFld (.MOV_CH_STATUS e h) Fld.MOV_CH_STATUS_SH_FULL 0).movLoad e h
      (xferOf (s.rd (.MOV_CH_SRC e h)).toNat (s.rd (.MOV_CH_DST e h)).toNat (s.rd (.MOV_CH_XFER e h))) none

/-- The descriptor at the ring index is read (R309), when there is room for it (R270): where there is none, an earlier read of it is
still on its way. -/
def State.movFetch (s : State) (e h : Nat) : State :=
  if (s.movCh e h).active.isSome ∨ s.movHalted e h ∨ 16 ≤ (s.movCh e h).reading then s else
    match s.movSend e h .fetch 0 32 (s.descAddr e h) [] with
    | some t => t
    | none => s.movHalt e h false stDecode (s.descAddr e h)

/-! ### Writes of the channel registers -/

/-- A write of the shadow set: ignored while it is FULL (R307). -/
def State.writeShadow (s : State) (r : Reg) (e h : Nat) (v : Word) : State :=
  if s.fld (.MOV_CH_STATUS e h) Fld.MOV_CH_STATUS_SH_FULL = 1 then
    s.setFld (.MOV_CH_STATUS e h) Fld.MOV_CH_STATUS_SH_REJECT 1
  else s.wrAccess r v

/-- A write of MOV_CH_XFER: the GO of native mode, or the kick of compatibility mode (R307, R309). -/
def State.writeXfer (s : State) (e h : Nat) (v : Word) : State :=
  let go := Fld.MOV_CH_XFER_GO.get v == 1
  if s.fld (.MOV_CH_CFG e h) Fld.MOV_CH_CFG_MODE = 1 then
    if go then s.movFetch e h else s.wrAccess (.MOV_CH_XFER e h) v
  else
    let full := s.fld (.MOV_CH_STATUS e h) Fld.MOV_CH_STATUS_SH_FULL == 1
    let s1 := s.writeShadow (.MOV_CH_XFER e h) e h v
    if go && !full then (s1.setFld (.MOV_CH_STATUS e h) Fld.MOV_CH_STATUS_SH_FULL 1).movPromote e h else s1

/-- A write of MOV_CH_RING resets the ring index (R311). -/
def State.writeRing (s : State) (e h : Nat) (v : Word) : State :=
  (s.wrAccess (.MOV_CH_RING e h) v).setFld (.MOV_CH_POS e h) Fld.MOV_CH_POS_RING_IDX 0

/-- The ring index after a descriptor (R309 WRAP). -/
def State.advanceRing (s : State) (e h : Nat) (word0 : Nat) : State :=
  s.setFld (.MOV_CH_POS e h) Fld.MOV_CH_POS_RING_IDX
    (if word0.testBit 30 then 0 else (s.fld (.MOV_CH_POS e h) Fld.MOV_CH_POS_RING_IDX + 1) % 2 ^ 16)

/-- CLEAR ends a halt and discards the rest of the transfer (R308, R309). -/
def State.movClear (s : State) (e h : Nat) : State :=
  if !s.movHalted e h then s else
    let c := s.movCh e h
    let s1 := (s.setMovCh e h MovCh.idle).setFld (.MOV_CH_STATUS e h) Fld.MOV_CH_STATUS_HALTED 0
    let s2 := if s.fld (.MOV_CH_CFG e h) Fld.MOV_CH_CFG_MODE = 1 then s1.advanceRing e h (c.desc.getD 0) else s1
    s2.movPromote e h

/-- A write of MOV_CH_CFG. -/
def State.writeMovCfg (s : State) (e h : Nat) (v : Word) : State :=
  let s1 := s.wrAccess (.MOV_CH_CFG e h) v
  (if Fld.MOV_CH_CFG_CLEAR.get v = 1 then s1.movClear e h else s1).movServe e

/-! ### Responses and completion -/

/-- A response that reaches a Move engine. -/
def State.movResponse (s : State) (e tag status : Nat) (data : List Byte) : State :=
  match (List.range 16).findSome? fun h => ((s.movCh e h).reqs.find? fun r => r.tag == tag).map fun r => (h, r) with
  | none => s
  | some (h, r) =>
    let c := s.movCh e h
    let s1 := s.setMovCh e h { c with reqs := c.reqs.filter fun q => q.tag != tag }
    if r.use = .writeBack then s1.movRun e h
    else if status ≠ stOk then s1.movHalt e h (r.use == .write) status r.addr
    else match r.use with
      | .read =>
        let k := s1.movCh e h
        (s1.setMovCh e h { k with data := k.data ++ [(r.off, data)] }).movRun e h
      | .write =>
        let k := s1.movCh e h
        let k1 := { k with acked := k.acked ++ [(r.off, r.len)] }
        let k2 := { k1 with acked := (0, k1.lead) :: k1.acked.filter fun a => decide (k1.lead < a.1) }
        (((s1.setMovCh e h k2).showLead e h).movHalf e h).movRun e h
      | .fetch =>
        let w := leAt data 0 4
        if (s1.movCh e h).active.isSome || s1.movHalted e h || r.addr != s1.descAddr e h || !w.testBit 31 then s1
        else s1.movLoad e h (xferOfDesc data) (some w)
      | .writeBack => s1

/-- MOV_TRANSFER_COMPLETE: the transfer in service has had every write acknowledged (R307, R309). -/
def State.movComplete (s : State) (e : Nat) : State :=
  let h := s.fld (.MOV_ENG e) Fld.MOV_ENG_CUR_CH
  let c := s.movCh e h
  match c.active with
  | none => s
  | some x =>
    if s.movHalted e h || s.fld (.MOV_ENG e) Fld.MOV_ENG_BUSY == 0 || !s.movFree e || decide (c.lead < x.len) then s else
      let s1 := ((s.setMovCh e h { MovCh.idle with reqs := c.reqs }).setFld (.MOV_CH_STATUS e h)
        Fld.MOV_CH_STATUS_BUSY 0).setFld (.MOV_ENG e) Fld.MOV_ENG_BUSY 0
      let s2 := s1.bump (.MOV_ENG e) Fld.MOV_ENG_TRANSFERS
      let s3 := if x.irqFull then (s2.setFld (.MOV_CH_STATUS e h) Fld.MOV_CH_STATUS_FULL 1).movSignal e h else s2
      let s4 := match c.desc with
        | some w =>
          let t := (s3.writeBack e h w true false false 0 x.len).advanceRing e h w
          if s3.fld (.MOV_CH_CFG e h) Fld.MOV_CH_CFG_ENABLE = 1 then t.movFetch e h else t
        | none => s3.movPromote e h
      s4.movServe e

/-- The software transfer of an engine that a new almanac binds or lists stops at tick S (R303). -/
def State.movSwapAbort (s : State) (e h : Nat) : State :=
  if (s.movCh e h).active.isNone || s.movHalted e h || s.fld (.MOV_ENG e) Fld.MOV_ENG_BUSY == 0
      || s.fld (.MOV_ENG e) Fld.MOV_ENG_CUR_CH != h then s
  else (((s.movStop e h).setFld (.MOV_ENG e) Fld.MOV_ENG_BUSY 0).setFld (.MOV_CH_STATUS e h) Fld.MOV_CH_STATUS_SWAP_ABORT 1)

/-- Every channel register and channel of an engine as after reset: what FLT_RESET does to its transfers (R456). -/
def State.movReset (s : State) (e : Nat) : State :=
  ((List.range 16).foldl (fun t h => ((t.setMovCh e h MovCh.idle).setFld (.MOV_CH_STATUS e h) Fld.MOV_CH_STATUS_BUSY 0)) s).setFld
    (.MOV_ENG e) Fld.MOV_ENG_BUSY 0

/-! ### The COPY release (R305) -/

/-- Elements of a fixed side, or the whole in one piece: offsets and lengths. -/
def pieces (fixed : Bool) (elem len : Nat) : List (Nat × Nat) :=
  if fixed then (List.range (len / elem)).map fun i => (i * elem, elem) else [(0, len)]

/-- Bytes of the source of a COPY; the status of the first response that is not OK, with its address. -/
def State.copyRead (s : State) (e : Nat) (x : Xfer) (host : HostData) : List (Nat × Nat) → (Option (Nat × Nat × List MemErr)) × List Byte × State
  | [] => (none, [], s)
  | (o, n) :: rest =>
    let a := x.srcAt o
    let r : Reply × State :=
      if isDeviceAddr a then s.agentRead (niMove e) (bitsOf a 0 48) n
      else s.hostRead (niMove e) a n o host
    if r.1.status ≠ stOk then (some (r.1.status, a, r.1.errs), [], r.2) else
      let t := State.copyRead r.2 e x host rest
      (t.1, r.1.data ++ t.2.1, t.2.2)

/-- Bytes written to the destination of a COPY. -/
def State.copyWrite (s : State) (e : Nat) (x : Xfer) (bytes : List Byte) : List (Nat × Nat) → (Option (Nat × Nat × List MemErr)) × State
  | [] => (none, s)
  | (o, n) :: rest =>
    let a := x.dstAt o
    let r : Reply × State :=
      if isDeviceAddr a then s.agentWrite (niMove e) (bitsOf a 0 48) (slice bytes o n)
      else s.hostPost (niMove e) pktWriteAck a (slice bytes o n)
    if r.1.status ≠ stOk then (some (r.1.status, a, r.1.errs), r.2) else State.copyWrite r.2 e x bytes rest

/-- The bytes that a COPY between overlapping regions moves: each is the original or the already copied byte of its source
(R304). -/
def State.overlapBytes (s : State) (x : Xfer) (orig : List Byte) : List Byte × State :=
  let near := !x.srcFix && !x.dstFix && isDeviceAddr x.src && isDeviceAddr x.dst
    && decide (x.dst < x.src + x.len) && decide (x.src < x.dst + x.len) && x.src != x.dst
  if !near then (orig, s) else
    orig.zipIdx.foldl (fun acc b =>
      let c := acc.2.drawBool
      let from_ := x.src + b.2
      let done := if x.dst ≤ from_ then acc.1[from_ - x.dst]? else none
      (acc.1 ++ [if c.1 then b.1 else done.getD b.1], c.2)) ([], s)

/-- What an error response does to a COPY: a job fault recorded DMA_BUS_ERROR, after the responder's own failure, which is recorded apart
(R294, R442). -/
def State.copyFault (s : State) (e : Nat) (f : Nat × Nat × List MemErr) : State :=
  let s1 := s.uncorrectables f.2.2 none
  s1.jobFault ⟨5, e, 0⟩ 0 0x70 (if isDeviceAddr f.2.1 then bitsOf f.2.1 0 48 else 0) (f.1 * 256) (f.2.2.any fun m => decide (17 ≤ m.group) && decide (m.group ≤ 40))

/-- The release in service on a fixed-function engine has had its effect. -/
def State.markRan (s : State) (r : Release) : State :=
  { s with drv := { s.drv with rels := s.drv.rels.map fun (o : Release) => if o.idx = r.idx then { o with ran := true } else o } }

/-- COPY: the release in service on Move engine `e`; `host` is what the host's memory answered for a source outside the device. -/
def State.copyRelease (s : State) (e : Nat) (host : HostData) : State :=
  let s := s.whenServed 5 e 0 0
  match s.serving 5 e 0 0 with
  | none => s
  | some r =>
    if r.ran then s else
      let addr := pastureBase + relArg r.word
      let rec_ := s.agentRead (niMove e) addr 32
      let w := leAt rec_.1.data 16 8
      let x := xferOf (leAt rec_.1.data 0 8) (leAt rec_.1.data 8 8) (BitVec.ofNat 64 w)
      let rsvd := w.testBit 63 || x.irqHalf || x.irqFull || bitsOf w 41 22 != 0 || bitsOf w 32 3 != 0
        || !allZero (slice rec_.1.data 24 8)
      if relOp r.word ≠ 1 ∨ relFill r.word ∨ relArg r.word % 32 ≠ 0 then s.freeze 5 e 4 0 0
      else if rec_.1.status ≠ stOk then rec_.2.copyFault e (rec_.1.status, 2 ^ 63 + addr, rec_.1.errs)
      else if x.bad || rsvd then rec_.2.freeze 5 e 4 0 0
      else
        let b := rec_.2.copyRead e x host (pieces x.srcFix x.elem x.len)
        match b.1 with
        | some f => b.2.2.copyFault e f
        | none =>
          let o := b.2.2.overlapBytes x b.2.1
          let d := o.2.copyWrite e x o.1 (pieces x.dstFix x.elem x.len)
          match d.1 with
          | some f => d.2.copyFault e f
          | none => d.2.markRan r

/-! ### Commands -/

/-- MOV_CTRL.STAT_CLR (R311). -/
def State.clearMov (s : State) : State := (List.range 8).foldl (fun t e => t.setFld (.MOV_ENG e) Fld.MOV_ENG_TRANSFERS 0) s

/-- COPY. -/
def execCopy (e : Fin 8) (host : HostData) (s : State) : Out := working (fun t => t.copyRelease e host) s
/-- MOV_GO: a write of MOV_CH_XFER with GO = 1. -/
def execMovGo (e : Fin 8) (h : Fin 16) (v : BitVec 64) (s : State) : Out := running (fun t => t.writeXfer e h (Fld.MOV_CH_XFER_GO.set v 1)) s
/-- MOV_KICK: a write of MOV_CH_XFER with GO = 1 in compatibility mode. -/
def execMovKick (e : Fin 8) (h : Fin 16) (s : State) : Out := running (fun t => t.writeXfer e h (Fld.MOV_CH_XFER_GO.set 0 1)) s
/-- MOV_TRANSFER_COMPLETE. -/
def execMovTransferComplete (e : Fin 8) (s : State) : Out := running (fun t => t.movComplete e) s
/-- CLEAR: a write of MOV_CH_CFG with CLEAR = 1 and its other fields as they stand. -/
def execClear (e : Fin 8) (h : Fin 16) (s : State) : Out := running (fun t => t.writeMovCfg e h (Fld.MOV_CH_CFG_CLEAR.set (t.rd (.MOV_CH_CFG e h)) 1)) s
/-- MOV_CH_RING. -/
def execMovChRing (e : Fin 8) (h : Fin 16) (v : BitVec 64) (s : State) : Out := running (fun t => t.writeRing e h v) s
/-- MOV_STAT_CLR. -/
def execMovStatClr (s : State) : Out := running (State.clearMov) s

end Sys2Proof.Machine
end

