-- ==== Sys2Proof/Machine/Mce.lean ====
section
/-!
DEFINITION. The matrix combiner engines (R116 to R126, R134 to R137): job descriptors and their checks, weight memory with its valid
bits, COMBINE, PRECODE and DEMAP.
-/
namespace Sys2Proof.Machine

/-- NI of MCE `m` (R262). -/
def niMce (m : Nat) : Nat := 40 + m

/-! ### Weight memory (R122) -/

/-! ### Job descriptors (R120) -/

/-- A job descriptor. -/
structure MceJob where
  type_ : Nat
  flags : Nat
  gLog2 : Nat
  unitLog2 : Nat
  prbFirst : Nat
  prbCount : Nat
  symFirst : Nat
  symCount : Nat
  nsc : Nat
  wbase : Nat
  inAddr : Nat
  outAddr : Nat
  inStride : Nat
  outStride : Nat
  aux0 : Nat
  aux1 : Nat
  len : Nat
  rsvd : Nat
  deriving DecidableEq, Repr

/-- A job descriptor from its 64 bytes. -/
def mceJobOf (d : List Byte) : MceJob :=
  { type_ := leAt d 0 1, flags := leAt d 1 1, gLog2 := leAt d 2 1, unitLog2 := leAt d 3 1, prbFirst := leAt d 4 2
    prbCount := leAt d 6 2, symFirst := leAt d 8 1, symCount := leAt d 9 1, nsc := leAt d 0x0A 2, wbase := leAt d 0x0C 4
    inAddr := leAt d 0x10 8, outAddr := leAt d 0x18 8, inStride := leAt d 0x20 4, outStride := leAt d 0x24 4
    aux0 := leAt d 0x28 8, aux1 := leAt d 0x30 8, len := leAt d 0x38 4, rsvd := leAt d 0x3C 4 }

def MceJob.gain (j : MceJob) : Bool := j.flags.testBit 1
def MceJob.acc (j : MceJob) : Bool := j.flags.testBit 0

/-- Whether the symbol and subcarrier fields of a job are out of range. -/
def MceJob.shapeBad (j : MceJob) : Bool :=
  decide (13 < j.symFirst) || decide (j.symCount < 1) || decide (14 < j.symFirst + j.symCount) || j.nsc % 12 != 0
    || decide (j.nsc < 12) || decide (3276 < j.nsc) || decide (4 < j.gLog2)

/-- Whether a number is no device address. -/
def notAddr (a : Nat) : Bool := decide (2 ^ 48 ≤ a)

/-- Whether a descriptor breaks R121 for an OP_CODE. -/
def MceJob.bad (j : MceJob) (op : Nat) : Bool :=
  let wbad := j.wbase % 64 != 0 || decide (524288 ≤ j.wbase)
  j.type_ != op % 256 || j.rsvd != 0 || notAddr j.inAddr || (match op with
    | 1 => j.flags != 0 || j.gLog2 != 0 || j.unitLog2 != 0 || j.prbFirst != 0 || j.prbCount != 0 || j.symFirst != 0
        || j.symCount != 0 || j.nsc != 0 || j.outAddr != 0 || j.inStride != 0 || j.outStride != 0 || j.aux0 != 0 || j.aux1 != 0
        || wbad || j.len % 64 != 0 || decide (524288 < j.wbase + j.len)
    | 2 => j.flags / 4 != 0 || j.acc || j.unitLog2 != 0 || j.shapeBad || decide (272 < j.prbFirst) || decide (j.prbCount < 1)
        || decide (j.nsc / 12 < j.prbFirst + j.prbCount) || wbad || notAddr j.outAddr
        || (if j.gain then j.aux0 % 64 != 0 || notAddr j.aux0 else j.aux0 != 0) || j.aux1 != 0 || j.len % 64 != 0
    | 3 => j.flags / 2 != 0 || j.unitLog2 != 0 || j.shapeBad || decide (272 < j.prbFirst) || decide (j.prbCount < 1)
        || decide (j.nsc / 12 < j.prbFirst + j.prbCount) || wbad || notAddr j.outAddr || j.aux0 != 0 || j.aux1 != 0
        || j.len % 64 != 0
    | _ => j.flags != 0 || decide (j.unitLog2 < 6) || decide (14 < j.unitLog2) || j.prbFirst != 0 || j.prbCount != 0 || j.shapeBad
        || j.wbase != 0 || notAddr j.outAddr || j.outStride != 0 || j.aux0 % 64 != 0 || notAddr j.aux0 || j.aux1 % 64 != 0
        || notAddr j.aux1)

/-! ### Starting a job -/

/-- What becomes of a job up to the reading of its descriptor. -/
inductive JobStart where
  /-- Nothing to do, or the job has ended in a fault or a violation. -/
  | ended (s : State)
  | run (r : Release) (j : MceJob) (s : State)

/-- The release in service on a pipeline of MCE `m` with an OP_CODE, and its descriptor (R119 to R121). -/
def State.startMce (s : State) (m op : Nat) : JobStart :=
  let lane := if op % 2 ^ 15 = 4 then 1 else 0
  let s := s.whenServed 1 m 0 lane
  match s.serving 1 m 0 lane with
  | none => .ended s
  | some r =>
    if r.ran || relOp r.word != op then .ended s
    else if relArg r.word % 64 ≠ 0 ∨ pastureSize < relArg r.word + 64 ∨ (lane = 1 ∧ !relFill r.word) then
      .ended (s.freeze 1 m 4 0 0)
    else
      let d := s.agentRead (niMce m) (pastureBase + relArg r.word) 64
      if d.1.status ≠ stOk then .ended (d.2.engineFault ⟨1, m, 0⟩ lane (pastureBase + relArg r.word) d.1)
      else
        let j := mceJobOf d.1.data
        if j.bad op then .ended (d.2.freeze 1 m 4 0 0) else .run r j d.2

/-! ### LOAD_WEIGHTS -/

/-- LOAD_WEIGHTS on MCE `m`. -/
def State.loadWeights (s : State) (m : Nat) : State :=
  match s.startMce m 1 with
  | .ended t => t
  | .run r j t =>
    let d := t.agentRead (niMce m) j.inAddr j.len
    if d.1.status ≠ stOk then d.2.engineFault ⟨1, m, 0⟩ 0 j.inAddr d.1 else
      let w := d.2.writeMem (mceAddr m j.wbase) (j.len + 1) d.1.data
      ((List.range (j.len / 64)).foldl (fun u i => u.setLine m (j.wbase / 64 + i)) w.1).markRan r

/-! ### Weight blocks (R116, R117) -/

/-- A weight block. -/
structure Block where
  shift : Nat
  rows : Nat
  cols : Nat
  w : List Cplx
  deriving DecidableEq, Repr

/-- What reading a weight block found. -/
inductive BlockRead where
  | illegal (s : State)
  /-- Offset of the first line that is not valid. -/
  | miss (off : Nat) (s : State)
  | lost (errs : List MemErr) (s : State)
  | block (b : Block) (s : State)

/-- The block at an offset of weight memory, of the shape of `first` where a first block has been read; `down` for PRECODE. -/
def State.readBlock (s : State) (m off : Nat) (down : Bool) (first : Option Block) : BlockRead :=
  if 524288 < off + 64 then .illegal s
  else if !s.lineValid m (off / 64) then .miss off s
  else
    let h := s.readMem (mceAddr m off) 64 64
    match h.1 with
    | none => .lost h.2.2 h.2.1
    | some d =>
      let rows := leAt d 1 1
      let cols := leAt d 2 1
      let same := match first with
        | some b => b.rows == rows && b.cols == cols
        | none => true
      let size := 64 + rows * cols * 4
      if bitsOf (leAt d 0 1) 5 3 ≠ 0 ∨ rows < 1 ∨ cols < 1 ∨ 1024 < rows * cols ∨ !allZero (slice d 3 61) ∨ !same
          ∨ (if down then 64 else 8) < rows ∨ (if down then 16 else 64) < cols ∨ 524288 < off + size then .illegal h.2.1
      else match (List.range (ceilDiv size 64)).find? fun i => !h.2.1.lineValid m (off / 64 + i) with
        | some i => .miss (off + 64 * i) h.2.1
        | none =>
          let b := h.2.1.readMem (mceAddr m (off + 64)) (size + 1) (rows * cols * 4)
          match b.1 with
          | none => .lost b.2.2 b.2.1
          | some bytes => .block ⟨leAt d 0 1 % 32, rows, cols, cplxList bytes⟩ b.2.1

/-- What reading the blocks of a job found: the blocks by RB group, or the state in which the job has ended. -/
def State.readBlocks (s : State) (m : Nat) (j : MceJob) (down : Bool) : List Nat → Option Block → List (Nat × Block) → State ⊕ (List (Nat × Block) × State)
  | [], _, acc => .inr (acc, s)
  | g :: gs, first, acc =>
    match s.readBlock m (j.wbase + (g - j.prbFirst / 2 ^ j.gLog2) * j.len) down first with
    | .illegal t => .inl (t.freeze 1 m 4 0 0)
    | .miss off t => .inl ((t.bump (.MCE_STATUS m) Fld.MCE_STATUS_WMISS).jobFault ⟨1, m, 0⟩ 0 0x23 off m false)
    | .lost es t => .inl (t.uncorrectables es none)
    | .block b t => State.readBlocks t m j down gs (some (first.getD b)) (acc ++ [(g, b)])

/-- The RB groups that a job touches. -/
def MceJob.groups (j : MceJob) : List Nat :=
  let lo := j.prbFirst / 2 ^ j.gLog2
  (List.range ((j.prbFirst + j.prbCount - 1) / 2 ^ j.gLog2 - lo + 1)).map fun i => lo + i

/-! ### COMBINE and PRECODE (R123, R127) -/

/-- Multiplier and shift of a gain index (R127): the gain is M · 2^E / 2^15, and 15 − E is the shift. -/
def gainOf (g : Nat) : Nat × Nat := if g % 2 = 0 then (32768, 15 + 3 - g / 2) else (46341, 15 + 3 - (g - 1) / 2)

/-- A sample after the gain step, with the number of its components that saturated. -/
def gainStep (g : Nat) (x : Cplx) : Cplx × Nat :=
  let y := x.map fun v => roundShift (v * (gainOf g).1) (gainOf g).2
  (y.sat16, y.clips)

/-- One output of the array (R123): the sum of products shifted, added to the destination where `d` is given, and saturated. -/
def arrayOut (b : Block) (row : Nat) (xs : List Cplx) (d : Option Cplx) : Cplx × Nat :=
  let sum := ((List.range b.cols).map fun c => (b.w.getD (row * b.cols + c) Cplx.zero).mul (xs.getD c Cplx.zero)).foldl Cplx.add Cplx.zero
  let y := (sum.map fun v => roundShift v b.shift).add (d.getD Cplx.zero)
  (y.sat16, y.clips)

/-- Rows read by a job for one symbol: row `c` of the source, the PRBs of the job. -/
def State.readRows (s : State) (m base : Nat) (j : MceJob) : List Nat → (Option (Nat × Reply)) × List (List Cplx) × State
  | [] => (none, [], s)
  | c :: cs =>
    let a := base + (c * j.nsc + 12 * j.prbFirst) * 4
    let r := s.agentRead (niMce m) a (48 * j.prbCount)
    if r.1.status ≠ stOk then (some (a, r.1), [], r.2) else
      let rest := State.readRows r.2 m base j cs
      (rest.1, cplxList r.1.data :: rest.2.1, rest.2.2)

/-- Rows written by a job for one symbol. -/
def State.writeRows (s : State) (m base : Nat) (j : MceJob) : List (List Cplx × Nat) → (Option (Nat × Reply)) × State
  | [] => (none, s)
  | (xs, c) :: cs =>
    let a := base + (c * j.nsc + 12 * j.prbFirst) * 4
    let r := s.agentWrite (niMce m) a (cplxBytes xs)
    if r.1.status ≠ stOk then (some (a, r.1), r.2) else State.writeRows r.2 m base j cs

/-- One symbol of COMBINE or PRECODE: its outputs by row, and the components that saturated. -/
def arraySymbol (j : MceJob) (blocks : List (Nat × Block)) (gains : Option (List Nat)) (xs : List (List Cplx))
    (old : Option (List (List Cplx))) : List (List Cplx) × Nat :=
  let gained : List (List Cplx) × Nat := match gains with
    | none => (xs, 0)
    | some gs =>
      let ys := xs.zipIdx.map fun (r : List Cplx × Nat) => r.1.map (gainStep (gs.getD r.2 6))
      (ys.map fun r => r.map (·.1), (ys.map fun r => (r.map (·.2)).sum).sum)
  let rows := match blocks with
    | b :: _ => b.2.rows
    | [] => 0
  let outs := (List.range rows).map fun row => (List.range (12 * j.prbCount)).map fun k =>
    let g := (j.prbFirst + k / 12) / 2 ^ j.gLog2
    match blocks.find? fun b => b.1 == g with
    | some b => arrayOut b.2 row (gained.1.map fun (r : List Cplx) => r.getD k Cplx.zero) (old.map fun (o : List (List Cplx)) => (o.getD row []).getD k Cplx.zero)
    | none => (Cplx.zero, 0)
  (outs.map fun r => r.map (·.1), gained.2 + (outs.map fun r => (r.map (·.2)).sum).sum)

/-- The symbols of COMBINE or PRECODE in order. -/
def State.arraySymbols (s : State) (m : Nat) (j : MceJob) (blocks : List (Nat × Block)) (gains : Option (List Nat)) :
    List Nat → (Option (Nat × Reply)) × State
  | [] => (none, s)
  | i :: is =>
    let rows := match blocks with
      | b :: _ => b.2.rows
      | [] => 0
    let cols := match blocks with
      | b :: _ => b.2.cols
      | [] => 0
    let x := s.readRows m (j.inAddr + i * j.inStride) j (List.range cols)
    match x.1 with
    | some e => (some e, x.2.2)
    | none =>
      let o := if j.acc then x.2.2.readRows m (j.outAddr + i * j.outStride) j (List.range rows) else (none, [], x.2.2)
      match o.1 with
      | some e => (some e, o.2.2)
      | none =>
        let y := arraySymbol j blocks gains x.2.1 (if j.acc then some o.2.1 else none)
        let w := (o.2.2.tally (.MCE_SAT m) y.2).writeRows m (j.outAddr + i * j.outStride) j y.1.zipIdx
        match w.1 with
        | some e => (some e, w.2)
        | none => State.arraySymbols w.2 m j blocks gains is

/-- COMBINE (`down` false) or PRECODE (`down` true) on MCE `m`. -/
def State.arrayJob (s : State) (m : Nat) (down : Bool) : State :=
  match s.startMce m (if down then 3 else 2) with
  | .ended t => t
  | .run r j t =>
    match t.readBlocks m j down j.groups none [] with
    | .inl u => u
    | .inr b =>
      let g := if j.gain then b.2.agentRead (niMce m) j.aux0 64 else (⟨stOk, [], []⟩, b.2)
      if g.1.status ≠ stOk then g.2.engineFault ⟨1, m, 0⟩ 0 j.aux0 g.1 else
        let gains := if j.gain then some (g.1.data.map fun x => x.toNat % 16) else none
        let w := g.2.arraySymbols m j b.1 gains (List.range j.symCount)
        match w.1 with
        | some e => w.2.engineFault ⟨1, m, 0⟩ 0 e.1 e.2
        | none => w.2.markRan r

/-! ### DEMAP (R134 to R137) -/

/-- Modulation order of a data entry (R134, R180). -/
def entQm (e : List Byte) : Nat :=
  if entKind e = 8 then lteQm (entMcsTable e) (entMcs e) else nrQm (entMcsTable e) (entMcs e) (entPi2 e)

/-- Whether a symbol of an entry carries DMRS: an LTE PUSCH has it on symbols 3 and 10 (R180). -/
def isDmrs (e : List Byte) (sym : Nat) : Bool :=
  if entKind e = 8 then sym == 3 || sym == 10 else (entDmrsMap e).testBit sym

/-- Symbols of an entry that carry data. -/
def dataSymbols (e : List Byte) : List Nat :=
  ((List.range (entSymCount e)).map fun i => entSymStart e + i).filter fun k => !isDmrs e k

/-- The symbols with PTRS of TS 38.211 clause 6.4.1.2.2.1, by its procedure: `lref` and `i` are its variables. -/
def ptrsSymbols (e : List Byte) (every : Nat) : Nat → Nat → Nat → List Nat
  | 0, _, _ => []
  | fuel + 1, lref, i =>
    let last := entSymStart e + entSymCount e
    let l := lref + i * every
    if last ≤ l then [] else
      let lo := if i = 0 then lref else lref + (i - 1) * every + 1
      match (((List.range (l + 1 - lo)).map fun j => lo + j).filter (isDmrs e)).getLast? with
      | some d =>
        let d' := if isDmrs e (d + 1) then d + 1 else d
        ptrsSymbols e every fuel d' 1
      | none => l :: ptrsSymbols e every fuel lref (i + 1)

/-- Subcarrier of the PTRS in its resource block by DMRS type, port and offset (TS 38.211 table 6.4.1.2.2.1-1). -/
def ptrsRe (type2 : Bool) (port ofs : Nat) : Nat :=
  let t1 := [[0, 2, 6, 8], [2, 4, 8, 10], [1, 3, 7, 9], [3, 5, 9, 11]]
  let t2 := [[0, 1, 6, 7], [1, 6, 7, 0], [2, 3, 8, 9], [3, 8, 9, 2], [4, 5, 10, 11], [5, 10, 11, 4]]
  ((if type2 then t2.getD (port % 6) [] else t1.getD (port % 4) [])).getD ofs 0

/-- Whether subcarrier `k`, counted from the entry's first, of a symbol carries PTRS. -/
def isPtrs (e : List Byte) (sym k : Nat) : Bool :=
  if entKind e > 2 ∨ entParam e 18 1 = 0 then false
  else if entTp e then Config.transformPtrs (entRnti e) (entPrbCount e) sym k
  else
    let every := 2 ^ entParam e 19 2
    let step := if entParam e 21 1 = 0 then 2 else 4
    let n := entPrbCount e
    let rb := if n % step = 0 then entRnti e % step else entRnti e % (n % step)
    (ptrsSymbols e every 40 (entSymStart e) 0).contains sym && k % 12 == ptrsRe (entParam e 16 1 == 1) (entPortBase e) (entParam e 24 2)
      && decide (rb ≤ k / 12) && (k / 12 - rb) % step == 0

/-- Subcarriers of an entry that carry data in a symbol, in ascending order. -/
def dataRes (e : List Byte) (sym : Nat) : List Nat := (List.range (12 * entPrbCount e)).filter fun k => !isPtrs e sym k

/-- LLR bytes of the entry's data symbols before symbol `first`. -/
def llrOffset (e : List Byte) (first : Nat) : Nat :=
  (((dataSymbols e).filter fun k => decide (k < first)).map fun k => (dataRes e k).length).sum * entLayers e * entQm e

/-- The values λ_0 to λ_(m−1) of a dimension (R135), by the number that are left. -/
def lambdas (u : Nat) : Nat → Int → List Int
  | 0, _ => []
  | n + 1, v => v :: lambdas u n ((2 ^ n * u : Nat) - (v.natAbs : Int))

/-- The bits of one rotated sample; `i` is the codeword index of its first bit (R135). -/
def softBits (qm u : Nat) (z : Cplx) (i : Nat) : List Int :=
  if qm = 1 then [if i % 2 = 0 then z.re + z.im else z.im - z.re]
  else
    let m := qm / 2
    let a := lambdas u m z.re
    let b := lambdas u m z.im
    (List.range m).flatMap fun k => [a.getD k 0, b.getD k 0]

/-- An LLR from λ and a scale (R135). -/
def llrOf (lam : Int) (scale unitLog2 : Nat) : Int := min 127 (max (-127) (roundShift (lam * scale) (unitLog2 + 8)))

/-- What a DEMAP job needs for a symbol: the layer rows, the rotation and the scales by RB group and row. -/
structure DemapIn where
  rows : List (List Cplx)
  p : Cplx
  scale : Nat → Nat → Nat

/-- The LLRs of one symbol before descrambling; `start` is the codeword index of its first bit. -/
def demapSymbol (e : List Byte) (j : MceJob) (sym start : Nat) (d : DemapIn) : List Int :=
  let qm := entQm e
  let nu := entLayers e
  (dataRes e sym).zipIdx.flatMap fun re => (List.range nu).flatMap fun layer =>
    let y := (d.rows.getD layer []).getD re.1 Cplx.zero
    let z := (y.mul d.p).map fun v => satS 16 (roundShift v 15)
    let g := (entPrbStart e + re.1 / 12) / 2 ^ j.gLog2
    let bits := softBits qm (2 ^ j.unitLog2) z (start + (re.2 * nu + layer) * qm)
    bits.map fun lam => llrOf lam (d.scale g (entPortBase e + layer)) j.unitLog2

/-- c_init of an uplink entry's scrambling (R136, R180): `sub` is the subframe and `pci` the cell identity, for LTE. -/
def uplinkInit (e : List Byte) (sub pci : Nat) : Nat :=
  if entKind e = 8 then 2 ^ 14 * entRnti e + 2 ^ 9 * sub + pci else 2 ^ 15 * entRnti e + entScrId e

/-- LLRs negated where the scrambling bit is 1 (R136). -/
def descramble (init start : Nat) (xs : List Int) : List Int :=
  ((goldBits init start xs.length).zip xs).map fun p => if p.1 then -p.2 else p.2

/-- The layer rows of an entry for one symbol. -/
def State.readLayers (s : State) (m base : Nat) (j : MceJob) (e : List Byte) : List Nat → (Option (Nat × Reply)) × List (List Cplx) × State
  | [] => (none, [], s)
  | layer :: ls =>
    let a := base + ((entPortBase e + layer) * j.nsc + 12 * entPrbStart e) * 4
    let r := s.agentRead (niMce m) a (48 * entPrbCount e)
    if r.1.status ≠ stOk then (some (a, r.1), [], r.2) else
      let rest := State.readLayers r.2 m base j e ls
      (rest.1, cplxList r.1.data :: rest.2.1, rest.2.2)

/-- The symbols of a DEMAP job in order, each LLR written as one signed byte. -/
def State.demapSymbols (s : State) (m : Nat) (j : MceJob) (e : List Byte) (init : Nat) (phase : List Cplx) (scale : Nat → Nat → Nat) :
    List Nat → (Option (Nat × Reply)) × State
  | [] => (none, s)
  | sym :: syms =>
    let x := s.readLayers m (j.inAddr + (sym - j.symFirst) * j.inStride) j e (List.range (entLayers e))
    match x.1 with
    | some f => (some f, x.2.2)
    | none =>
      let start := llrOffset e sym
      let llrs := descramble init start (demapSymbol e j sym start ⟨x.2.1, phase.getD sym Cplx.zero, scale⟩)
      let w := x.2.2.agentWrite (niMce m) (j.outAddr + start) (llrs.map fun v => BitVec.ofNat 8 (unsignedOf 8 v))
      if w.1.status ≠ stOk then (some (j.outAddr + start, w.1), w.2)
      else State.demapSymbols w.2 m j e init phase scale syms

/-- The result of the entry that a filled release draws on changed (R80). -/
def State.entryResult (s : State) (r : Release) (f : EntryResult → EntryResult) : State :=
  match r.req with
  | some id => s.setResult id (relFillIndex r.word) f
  | none => s

/-- An entry that the release does not serve: REJECTED_FORMAT, and no work (R126). -/
def State.rejectEntry (s : State) (r : Release) : State :=
  (s.entryResult r fun x => { x with status := 2 }).markRan r

/-- DEMAP (OP_CODE 0x0004) or its replay (0x8004) on MCE `m`. -/
def State.demapJob (s : State) (m : Nat) (replay : Bool) : State :=
  match s.startMce m (if replay then 0x8004 else 4) with
  | .ended t => t
  | .run r j t =>
    let e := (t.entryOf r).getD []
    let syms := (dataSymbols e).filter fun k => decide (j.symFirst ≤ k) && decide (k < j.symFirst + j.symCount)
    let slot := ((r.req.bind t.request).map (·.slot)).getD 0
    let init := uplinkInit e (slot % 10) (t.fld (.DEC_CELL_C (relCell r.word)) Fld.DEC_CELL_C_PCI)
    if (entKind e ≠ 2 ∧ entKind e ≠ 8) ∨ j.len < llrOffset e (j.symFirst + j.symCount) ∨ j.nsc < 12 * (entPrbStart e + entPrbCount e) then
      t.rejectEntry r
    else
      let p := t.agentRead (niMce m) j.aux0 64
      if p.1.status ≠ stOk then p.2.engineFault ⟨1, m, 0⟩ 1 j.aux0 p.1 else
        let groups := (entPrbStart e + entPrbCount e - 1) / 2 ^ j.gLog2 + 1
        let sc := p.2.agentRead (niMce m) j.aux1 (16 * groups)
        if sc.1.status ≠ stOk then sc.2.engineFault ⟨1, m, 0⟩ 1 j.aux1 sc.1 else
          let w := sc.2.demapSymbols m j e init (cplxList (slice p.1.data 0 56)) (fun g row => leAt sc.1.data ((8 * g + row) * 2) 2) syms
          match w.1 with
          | some f => w.2.engineFault ⟨1, m, 0⟩ 1 f.1 f.2
          | none => w.2.markRan r

/-- STAT_CLR of MCE_CTRL (R150). -/
def State.clearMce (s : State) : State :=
  (List.range 12).foldl (fun t n =>
    ((t.wr (.MCE_JOBS n) 0).wr (.MCE_SAT n) 0).setFld (.MCE_STATUS n) Fld.MCE_STATUS_WMISS 0) s

/-! ### Commands -/

/-- LOAD_WEIGHTS. -/
def execLoadWeights (m : Fin 12) (s : State) : Out := working (fun t => t.loadWeights m) s
/-- COMBINE. -/
def execCombine (m : Fin 12) (s : State) : Out := working (fun t => t.arrayJob m false) s
/-- PRECODE. -/
def execPrecode (m : Fin 12) (s : State) : Out := working (fun t => t.arrayJob m true) s
/-- DEMAP. -/
def execDemap (m : Fin 12) (s : State) : Out := working (fun t => t.demapJob m false) s
/-- DEMAP_REPLAY. -/
def execDemapReplay (m : Fin 12) (s : State) : Out := working (fun t => t.demapJob m true) s
/-- MCE_STAT_CLR. -/
def execMceStatClr (s : State) : Out := running (State.clearMce) s

end Sys2Proof.Machine
end

