-- ==== Sys2Proof/Machine/Segment.lean ====
section
/-!
DEFINITION. Segmentation of transport blocks into code blocks (R152, R153; TS 38.212 clause 5.2.2, TS 36.212 clause 5.1.2).
-/
namespace Sys2Proof.Machine

/-- The 51 lifting sizes of TS 38.212 table 5.3.2-1. -/
def liftSizes : List Nat := ((List.range 8).flatMap fun j => [2, 3, 5, 7, 9, 11, 13, 15].map (· * 2 ^ j)).filter fun z => decide (z ≤ 384)

/-- The 188 block sizes of TS 36.212 table 5.1.3-3. -/
def turboSizes : List Nat :=
  (List.range 60).map (fun i => 40 + 8 * i) ++ (List.range 32).map (fun i => 528 + 16 * i)
    ++ (List.range 32).map (fun i => 1056 + 32 * i) ++ (List.range 64).map (fun i => 2112 + 64 * i)

/-- How a transport block is segmented. -/
structure Code where
  turbo : Bool
  graph2 : Bool
  /-- Number of code blocks. -/
  c : Nat
  /-- Lifting size, or K of code block 0. -/
  zc : Nat
  tbs : Nat
  /-- Bits of the transport block with its CRC. -/
  b : Nat
  /-- LTE: the larger and the smaller block size, and how many blocks have the smaller one. -/
  kPlus : Nat
  kMinus : Nat
  cMinus : Nat
  deriving DecidableEq, Repr

/-- The smallest element of a list that is at least `n`. -/
def leastFrom (l : List Nat) (n : Nat) : Nat := ((l.filter fun k => decide (n ≤ k)).min?).getD 0

/-- Segmentation of an NR transport block (TS 38.212 clause 5.2.2). -/
def nrCode (tbs : Nat) (g2 : Bool) : Code :=
  let b := tbs + (if tbs > 3824 then 24 else 16)
  let c := nrBlocks tbs g2
  let kp := if c = 1 then b else ceilDiv (b + 24 * c) c
  let kb := if !g2 then 22 else if b > 640 then 10 else if b > 560 then 9 else if b > 192 then 8 else 6
  { turbo := false, graph2 := g2, c := c, zc := leastFrom liftSizes (ceilDiv kp kb), tbs := tbs, b := b, kPlus := 0, kMinus := 0
    cMinus := 0 }

/-- Segmentation of an LTE transport block (TS 36.212 clause 5.1.2). -/
def lteCode (tbs : Nat) : Code :=
  let b := tbs + 24
  let c := lteBlocks tbs
  let total := if c = 1 then b else b + 24 * c
  let kp := leastFrom turboSizes (ceilDiv total c)
  let km := ((turboSizes.filter fun k => decide (k < kp)).max?).getD 0
  let cm := if c = 1 ∨ kp = km then 0 else (c * kp - total) / (kp - km)
  { turbo := true, graph2 := false, c := c, zc := if 0 < cm then km else kp, tbs := tbs, b := b, kPlus := kp, kMinus := km, cMinus := cm }

/-- Segmentation of a data entry (R153). -/
def codeOf (e : List Byte) : Code :=
  if entKind e = 8 ∨ entKind e = 7 then lteCode (entTbs e) else nrCode (entTbs e) (entGraph2 e)

/-- K of code block `r`. -/
def Code.k (d : Code) (r : Nat) : Nat :=
  if d.turbo then (if r < d.cMinus then d.kMinus else d.kPlus) else (if d.graph2 then 10 else 22) * d.zc

/-- Filler bits of code block `r`. -/
def Code.fill (d : Code) (r : Nat) : Nat :=
  if d.turbo then
    if r = 0 then d.cMinus * d.kMinus + (d.c - d.cMinus) * d.kPlus - (if d.c = 1 then d.b else d.b + 24 * d.c) else 0
  else d.k r - (if d.c = 1 then d.b else ceilDiv (d.b + 24 * d.c) d.c)

/-- Information bits of code block `r` without its CRC. -/
def Code.info (d : Code) (r : Nat) : Nat :=
  let full (i : Nat) : Nat := d.k i - d.fill i - (if d.c = 1 then 0 else 24)
  if r + 1 = d.c ∧ !d.turbo then d.b - r * full 0 else full r

/-- First bit of code block `r` in the transport block with its CRC. -/
def Code.infoAt (d : Code) (r : Nat) : Nat := ((List.range r).map d.info).sum

/-- Length of the circular buffer of code block `r` (R153): the full buffer. -/
def Code.ncb (d : Code) (r : Nat) : Nat :=
  if d.turbo then 3 * (32 * ceilDiv (d.k r + 4) 32) else (if d.graph2 then 50 else 66) * d.zc

end Sys2Proof.Machine
end

