-- ==== Sys2Proof/Machine/UciMux.lean ====
section
/-!
DEFINITION. Where the bits of a PUSCH codeword go: UL-SCH and UCI of NR entries (R136; TS 38.212 clause 6.2.7, with the amounts of clause
6.3.2.4.1 and the offsets of TS 38.213 clause 9.3) and of LTE entries (R180; TS 36.212 clauses 5.2.2.6 to 5.2.2.8, TS 36.213 clause 8.6.3).
PRESUMED from those clauses (log 31).
-/
namespace Sys2Proof.Machine

/-- A codeword of a PUSCH taken apart, each place being an index into the entry's LLR buffer: the UL-SCH bits in order, none for a bit that
HARQ-ACK has punctured, and the coded bits of each UCI part in order. -/
structure UciPlan where
  ulsch : List (Option Nat)
  parts : List (List (Option Nat))
  deriving DecidableEq, Repr

/-- CRC bits of `n` bits of UCI (TS 38.212 clause 6.3.1.2.1). -/
def uciCrc (n : Nat) : Nat := if n ≤ 11 then 0 else if n ≤ 19 then 6 else 11

/-- Offsets of HARQ-ACK, in 1/1,000 (TS 38.213 table 9.3-1). -/
def betaAck : List Nat := [1000, 2000, 2500, 3125, 4000, 5000, 6250, 8000, 10000, 12625, 15875, 20000, 31000, 50000, 80000, 126000]

/-- Offsets of CSI, in 1/1,000 (TS 38.213 table 9.3-2). -/
def betaCsi : List Nat := [1125, 1250, 1375, 1625, 1750, 2000, 2250, 2500, 2875, 3125, 3500, 4000, 5000, 6250, 8000, 10000]

/-- α, in 1/1,000. -/
def uciAlpha : List Nat := [500, 650, 800, 1000]

/-- Places spread over symbols in turn: `n` resource elements, each symbol giving all of its set or every d-th of it (clause 6.2.7). -/
def spreadRes (set : Nat → List Nat) : List Nat → Nat → List (Nat × Nat)
  | [], _ => []
  | l :: ls, n =>
    let s := set l
    if n = 0 then [] else if s = [] then spreadRes set ls n
    else
      let d := if s.length ≤ n then 1 else s.length / n
      let take := min n s.length
      ((List.range take).map fun j => (l, s.getD (j * d) 0)) ++ spreadRes set ls (n - take)

/-- Symbols of an entry. -/
def entSymbols (e : List Byte) : List Nat := (List.range (entSymCount e)).map fun i => entSymStart e + i

/-- The symbols of an entry from its first data symbol after its first run of DMRS symbols on; all from the first data symbol where it
has no DMRS. -/
def afterDmrs (e : List Byte) : List Nat :=
  let rest := (entSymbols e).dropWhile fun l => !isDmrs e l
  let tail := rest.dropWhile (isDmrs e)
  if rest = [] then entSymbols e else tail

/-- Resource elements of a UCI part: the coded bits that its offset asks for, at most `most`. -/
def uciElements (bits beta res total most : Nat) : Nat :=
  if bits = 0 then 0 else min (ceilDiv ((bits + uciCrc bits) * beta * res) (1000 * total)) most

/-- The plan of an NR entry. Where HARQ-ACK has at most 2 bits it overwrites elements set aside for 2; CSI part 1 keeps off those. -/
def nrPlan (e : List Byte) : UciPlan :=
  let d := codeOf e
  let per := entLayers e * entQm e
  let res (l : Nat) : List Nat := if isDmrs e l then [] else dataRes e l
  let count (ls : List Nat) : Nat := (ls.map fun l => (res l).length).sum
  let all := entSymbols e
  let total := ((List.range d.c).map d.k).sum
  let ack := entParam e 32 16
  let csi1 := entParam e 48 16
  let csi2 := entParam e 64 16
  let few := decide (ack ≤ 2)
  let alpha := uciAlpha.getD (entParam e 92 2) 0
  let cap := ceilDiv (alpha * count all) 1000
  let ackMost := ceilDiv (alpha * count (afterDmrs e)) 1000
  let bAck := betaAck.getD (entParam e 80 4) 0
  let qAck := uciElements ack bAck (count all) total ackMost
  let qHeld := if few then uciElements 2 bAck (count all) total ackMost else 0
  let q1 := uciElements csi1 (betaCsi.getD (entParam e 84 4) 0) (count all) total (cap - (if few then qHeld else qAck))
  let q2 := uciElements csi2 (betaCsi.getD (entParam e 88 4) 0) (count all) total (cap - (if few then 0 else qAck) - q1)
  let held := if few then spreadRes res (afterDmrs e) qHeld else []
  let acks := if few then spreadRes (fun l => (held.filter fun p => p.1 == l).map (·.2)) (afterDmrs e) qAck else spreadRes res (afterDmrs e) qAck
  let taken := if few then [] else acks
  let free (ps : List (Nat × Nat)) (l : Nat) : List Nat := (res l).filter fun k => !ps.contains (l, k)
  let c1 := spreadRes (free (taken ++ held)) all q1
  let c2 := spreadRes (free (taken ++ c1)) all q2
  let order := all.flatMap fun l => (res l).map fun k => (l, k)
  let place (lost : Bool) (p : Nat × Nat) : List (Option Nat) := match order.findIdx? (· == p) with
    | some i => (List.range per).map fun b => if lost then none else some (i * per + b)
    | none => []
  { ulsch := order.zipIdx.flatMap fun p =>
      if taken.contains p.1 || c1.contains p.1 || c2.contains p.1 then []
      else (List.range per).map fun b => if few && acks.contains p.1 then none else some (p.2 * per + b)
    parts := [acks.flatMap (place false), c1.flatMap (place false), c2.flatMap fun p => place (few && acks.contains p) p] }

/-- Offsets of LTE HARQ-ACK, RI and CQI, in 1/1,000 (TS 36.213 tables 8.6.3-1 to 8.6.3-3); 0 for a reserved index. -/
def lteBeta (part i : Nat) : Nat :=
  (([[2000, 2500, 3125, 4000, 5000, 6250, 8000, 10000, 12625, 15875, 20000, 31000, 50000, 80000, 126000],
    [1250, 1625, 2000, 2500, 3125, 4000, 5000, 6250, 8000, 10000, 12625, 15875, 20000],
    [0, 0, 1125, 1250, 1375, 1625, 1750, 2000, 2250, 2500, 2875, 3125, 3500, 4000, 5000, 6250]] : List (List Nat)).getD part []).getD i 0

/-- Cells of the channel interleaver that HARQ-ACK or RI takes, from its last row up (TS 36.212 clause 5.2.2.8). -/
def interleaverCells (cols : List Nat) (rows n : Nat) : List (Nat × Nat) :=
  (List.range n).map fun i => (rows - 1 - i / 4, cols.getD (i * 3 % 4) 0)

/-- The plan of an LTE entry: the matrix of the channel interleaver has a column for each data symbol and a row for each subcarrier; it is
read column by column. The initial transmission's allocation is taken to be the entry's own (DESIGN CHOICE, log 31). -/
def ltePlan (e : List Byte) : UciPlan :=
  let d := codeOf e
  let per := entLayers e * entQm e
  let rows := 12 * entPrbCount e
  let cols := (dataSymbols e).length
  let total := ((List.range d.c).map d.k).sum
  let want (part bits i crc most : Nat) : Nat :=
    if bits = 0 then 0 else min (ceilDiv ((bits + crc) * lteBeta part i * (rows * cols)) (1000 * total)) most
  let qAck := want 0 (entParam e 16 16) (entParam e 64 4) 0 (4 * rows)
  let qRi := want 1 (entParam e 32 8) (entParam e 68 4) 0 (4 * rows)
  let cqi := entParam e 48 16
  let qCqi := want 2 cqi (entParam e 72 4) (if cqi ≤ 11 then 0 else 8) (rows * cols - qRi)
  let ri := interleaverCells [1, 4, 7, 10] rows qRi
  let ack := interleaverCells [2, 3, 8, 9] rows qAck
  let data := ((List.range rows).flatMap fun r => (List.range cols).map fun c => (r, c)).filter fun p => !ri.contains p
  let place (p : Nat × Nat) : List (Option Nat) := (List.range per).map fun b => some ((p.2 * rows + p.1) * per + b)
  let left (p : Nat × Nat) : List (Option Nat) := if ack.contains p then List.replicate per none else place p
  { ulsch := (data.drop qCqi).flatMap left, parts := [ack.flatMap place, ri.flatMap place, (data.take qCqi).flatMap left] }

/-- The plan of an uplink data entry. -/
def uciPlan (e : List Byte) : UciPlan := if entKind e = 8 then ltePlan e else nrPlan e

end Sys2Proof.Machine
end

