-- ==== Sys2Proof/Machine/Decoder.lean ====
section
/-!
DEFINITION. The decoders (R154 to R172): circular buffers and rate recovery, HARQ soft buffers in DDR, the step sequence
with its suspension records, and TB_DONE.
-/
namespace Sys2Proof.Machine

/-- NI of decoder `u` (R262). -/
def niDecoder (u : Nat) : Nat := 52 + u / 8
/-- NI of the encoders (R262). -/
def niEncoder : Nat := 56

/-! ### Circular buffers (R164) -/

/-- Column permutation of TS 36.212 table 5.1.4-1. -/
def turboPerm : List Nat := [0, 16, 8, 24, 4, 20, 12, 28, 2, 18, 10, 26, 6, 22, 14, 30, 1, 17, 9, 25, 5, 21, 13, 29, 3, 19, 11, 27, 7, 23,
  15, 31]

/-- The stream and bit that position `p` of a turbo circular buffer holds: `none` for a dummy bit. -/
def Code.turboBit (d : Code) (r p : Nat) : Option (Nat × Nat) :=
  let rows := ceilDiv (d.k r + 4) 32
  let kp := 32 * rows
  let nd := kp - (d.k r + 4)
  let stream := if p < kp then 0 else 1 + (p - kp) % 2
  let k := if p < kp then p else (p - kp) / 2
  let y := (turboPerm.getD (k / rows) 0 + 32 * (k % rows) + (if stream = 2 then 1 else 0)) % kp
  if y < nd then none else some (stream, y - nd)

/-- Whether a circular-buffer position of code block `r` holds a filler or dummy bit. -/
def Code.isFill (d : Code) (r p : Nat) : Bool :=
  if d.turbo then match d.turboBit r p with
    | none => true
    | some b => decide (b.1 < 2) && decide (b.2 < d.fill r)
  else decide (d.k r - d.fill r - 2 * d.zc ≤ p) && decide (p < d.k r - 2 * d.zc)

/-- k0 of a redundancy version, for a buffer of `ncb` positions. -/
def Code.k0 (d : Code) (r rv ncb : Nat) : Nat :=
  if d.turbo then
    let rows := ceilDiv (d.k r + 4) 32
    rows * (2 * ceilDiv ncb (8 * rows) * rv + 2)
  else if d.graph2 then [0, 13, 25, 43].getD rv 0 * ncb / (50 * d.zc) * d.zc
  else [0, 17, 33, 56].getD rv 0 * ncb / (66 * d.zc) * d.zc

/-- The positions that carry bits, in transmission order from k0 on. -/
def Code.order (d : Code) (r rv ncb : Nat) : List Nat :=
  ((List.range ncb).map fun i => (d.k0 r rv ncb + i) % ncb).filter fun p => !d.isFill r p

/-- Rate-matched length of code block `r` for `g` bits (TS 38.212 clause 5.4.2.1, TS 36.212 clause 5.1.4.1.2). -/
def Code.e (d : Code) (g nuQm r : Nat) : Nat :=
  let gp := g / nuQm
  if r + gp % d.c + 1 ≤ d.c then nuQm * (gp / d.c) else nuQm * ceilDiv gp d.c

/-- LLRs of a code block after bit de-interleaving (TS 38.212 clause 5.4.2.2). -/
def deinterleave (qm : Nat) (f : List Int) : List Int :=
  let n := f.length / qm
  (List.range f.length).map fun x => f.getD (x / n + x % n * qm) 0

/-- The sum of the LLRs that fall on the `j`-th position of an order of `n`. -/
def foldLlr (n : Nat) (e : List Int) (j : Nat) : Int := ((e.zipIdx.filter fun p => p.2 % n == j).map (·.1)).sum

/-- The highest position covered by `e` bits of a redundancy version, plus 1; the whole buffer when it wraps (R159). -/
def Code.reach (d : Code) (r rv e : Nat) : Nat :=
  let ncb := d.ncb r
  let straight := (d.order r rv ncb).filter fun p => decide (d.k0 r rv ncb ≤ p)
  if straight.length < e then ncb else match straight[e - 1]? with
    | some p => p + 1
    | none => 0

/-! ### Soft buffers (R163, R167 to R169) -/

/-- A soft value among packed ones. -/
def softGet (bs : List Byte) (j : Nat) : Int := signedOf 6 (bitsOf (leAt bs (j / 4 * 3) 3) (6 * (j % 4)) 6)

/-- Soft values packed four to three bytes. -/
def softPack (xs : List Int) : List Byte :=
  (List.range (ceilDiv xs.length 4)).flatMap fun q =>
    leBytes 3 ((List.range 4).map fun i => 2 ^ (6 * i) * unsignedOf 6 (xs.getD (4 * q + i) 0)).sum

/-- A HARQ process as a job finds it. -/
structure Harq where
  addr : Nat
  slots : Nat
  header : List Byte
  /-- Bank that this transmission writes. -/
  bank : Nat
  /-- Records combined with; none for a new transmission. -/
  records : List Nat
  /-- HARQ_RESET counts. -/
  reset : Bool
  /-- TB_DONE leaves the header as it is (R166). -/
  keep : Bool
  deriving DecidableEq, Repr

def harqState (h : List Byte) : Nat := leAt h 0 2
def harqValid (h : List Byte) : Bool := (harqState h).testBit 0
def harqNdi (h : List Byte) : Bool := (harqState h).testBit 1
def harqBank (h : List Byte) : Nat := bitsOf (harqState h) 2 1
def harqCount (h : List Byte) : Nat := bitsOf (harqState h) 3 4
def harqRecord (h : List Byte) (i : Nat) : Nat := leAt h (0x10 + 6 * i) 6

/-- The CODE field of a header (R169). K of a turbo code lies in [12:0] and the turbo flag in [10] of the same bits: the flag stands (DESIGN
CHOICE, log 12). -/
def Code.field (d : Code) : Nat := if d.turbo then setBitsOf (d.zc % 8192) 10 1 1 else d.zc + (if d.graph2 then 512 else 0)

/-- E of code block `r` under a record. -/
def recordE (w r : Nat) : Nat := if r < bitsOf w 32 10 then bitsOf w 2 15 else bitsOf w 17 15

/-- Address of a bank's slot for code block `r` (R168). -/
def Harq.slot (h : Harq) (bank r : Nat) : Nat := h.addr + 64 + 19008 * (bank * h.slots + r)

/-- A HARQ process under R165 and R166: `lastSlot` is the LAST_SLOT of the request at hand. -/
def harqOf (addr slots : Nat) (h e : List Byte) (d : Code) (replay : Bool) (lastSlot : Nat) : Harq :=
  let same := harqValid h && harqNdi h == entNdi e
  let differs := leAt h 4 4 != d.tbs || leAt h 2 2 % 1024 != d.c || leAt h 8 2 != d.field
  let full := harqCount h == 8
  if replay ∧ harqValid h ∧ leAt h 0x0A 4 = lastSlot then
    ⟨addr, slots, h, harqBank h, (List.range (harqCount h - 1)).map (harqRecord h), false, true⟩
  else if same ∧ !differs ∧ !full then
    ⟨addr, slots, h, 1 - harqBank h, (List.range (harqCount h)).map (harqRecord h), false, false⟩
  else ⟨addr, slots, h, 1 - harqBank h, [], same && (differs || full), false⟩

/-- What the search for a soft buffer found. -/
inductive HarqFind where
  | fault (addr : Nat) (r : Reply) (s : State)
  | none (s : State)
  | some (h : Harq) (s : State)

/-- The process of an entry (R167, R168). -/
def State.findHarq (s : State) (u : Nat) (e : List Byte) (q : Request) (d : Code) : HarqFind :=
  let c := q.cell
  let dir := 4096 * s.fld (.DEC_CELL_A c) Fld.DEC_CELL_A_DIR_BASE + 2 * entRnti e
  if s.fld (.DEC_CELL_A c) Fld.DEC_CELL_A_VALID = 0 then .none s else
    let r := s.agentRead (niDecoder u) dir 2
    if r.1.status ≠ stOk then .fault dir r.1 r.2 else
      let w := leAt r.1.data 0 2
      let ue := w % 2 ^ 15
      if !w.testBit 15 ∨ s.fld (.DEC_CELL_A c) Fld.DEC_CELL_A_NUE ≤ ue then .none r.2 else
        let slots := s.fld (.DEC_CELL_B c) Fld.DEC_CELL_B_CB_SLOTS
        let addr := 65536 * s.fld (.DEC_CELL_B c) Fld.DEC_CELL_B_BUF_BASE
          + (ue * s.fld (.DEC_CELL_B c) Fld.DEC_CELL_B_NPROC + entHarq e) * (64 + 19008 * (2 * slots))
        let h := r.2.agentRead (niDecoder u) addr 64
        if h.1.status ≠ stOk then .fault addr h.1 h.2
        else .some (harqOf addr slots h.1.data e d q.replay (q.frame + 2 ^ 20 * (q.slot % 128))) h.2

/-! ### Steps (R158 to R160) -/

/-- UL-SCH bits of an entry: those that its UCI leaves. -/
def ulBits (e : List Byte) : Nat := if (uciBytes e).2 = 0 then llrOffset e 14 else (uciPlan e).ulsch.length

/-- E_r of an uplink entry. -/
def upE (e : List Byte) (d : Code) (r : Nat) : Nat := d.e (ulBits e) (entLayers e * entQm e) r

/-- Steps of code block `r` (R159). -/
def stepsOf (e : List Byte) (d : Code) (records : List Nat) (iter r : Nat) : Nat :=
  if d.turbo then max 1 (2 * iter) else
    let l := records.foldl (fun m w => max m (d.reach r (bitsOf w 0 2) (recordE w r))) (d.reach r (entRv e) (upE e d r))
    let m := min (if d.graph2 then 42 else 46) (max 4 (ceilDiv (l + 2 * d.zc) d.zc - (if d.graph2 then 10 else 22)))
    max 1 (iter * m)

/-- Bytes of the suspension record of code block `r` (R160). -/
def suspendLen (e : List Byte) (d : Code) (records : List Nat) (r : Nat) : Nat :=
  if d.turbo then 64 + 4 * (d.k r + 4)
  else 64 + d.zc * ((if d.graph2 then 10 else 22) + 9 * stepsOf e d records 1 r)

/-! ### Front end (R164) -/

/-- Values at the circular-buffer positions of code block `r` from its LLRs and the soft values read (R164): the value, and whether the
position is covered. -/
def combineAt (e : List Byte) (d : Code) (records : List Nat) (r : Nat) (llrs : List Int) (soft : Option (List Byte)) : List (Int × Bool) :=
  let ncb := d.ncb r
  let order := d.order r (entRv e) ncb
  let n := max 1 order.length
  let f := if d.turbo then llrs else deinterleave (entQm e) llrs
  let idx (l : List Nat) (p : Nat) : Option Nat := l.findIdx? (· == p)
  (List.range ncb).map fun p =>
    let now := match idx order p with
      | some j => if j < llrs.length then some (foldLlr n f j) else none
      | none => none
    let before := records.any fun w => match idx (d.order r (bitsOf w 0 2) ncb) p with
      | some j => decide (j < recordE w r)
      | none => false
    if d.isFill r p then (127, false)
    else if now.isSome || before then
      let s := match soft with
        | some bs => if before then softGet bs p else 0
        | none => 0
      (max (-127) (min 127 (4 * s + now.getD 0)), true)
    else (0, false)

/-- The soft values stored for a block: those of covered positions replaced (R164). -/
def softAfter (old : List Byte) (xs : List (Int × Bool)) : List Byte :=
  softPack (xs.zipIdx.map fun p => if p.1.2 then max (-31) (min 31 (roundShift p.1.1 2)) else softGet old p.2)

/-- The front end of code block `r`: the values that decoding starts from, and the other bank written; or the fault. -/
def State.frontEnd (s : State) (u : Nat) (e : List Byte) (d : Code) (h : Option Harq) (inAddr r : Nat) :
    (Option (Nat × Reply)) × List (Int × Bool) × State :=
  let a := inAddr + ((List.range r).map (upE e d)).sum
  let l := s.agentRead (niDecoder u) a (upE e d r)
  if l.1.status ≠ stOk then (some (a, l.1), [], l.2) else
    let llrs := l.1.data.map fun b => b.toInt
    match h with
    | none => (none, combineAt e d [] r llrs none, l.2)
    | some q =>
      let len := ceilDiv (d.ncb r) 4 * 3
      let old := if q.records = [] then (⟨stOk, [], []⟩, l.2) else l.2.agentRead (niDecoder u) (q.slot (1 - q.bank) r) len
      if old.1.status ≠ stOk then (some (q.slot (1 - q.bank) r, old.1), [], old.2) else
        let xs := combineAt e d q.records r llrs (if q.records = [] then none else some old.1.data)
        let w := old.2.agentWrite (niDecoder u) (q.slot q.bank r) (softAfter (old.2.raw (q.slot q.bank r) len) xs)
        if w.1.status ≠ stOk then (some (q.slot q.bank r, w.1), xs, w.2) else (none, xs, w.2)

/-! ### Decoded bits (R158, R171, R172) -/

/-- The state of a code block between steps. -/
inductive BlockState where
  | ldpc (s : LdpcState)
  | turbo (s : TurboState)
  deriving DecidableEq, Repr

/-- The combined value of bit `i` of stream `j` of a turbo block, from the values at its circular-buffer positions. -/
def turboStream (d : Code) (r : Nat) (xs : List (Int × Bool)) (j : Nat) : List Int :=
  let at_ := (List.range (d.ncb r)).filterMap fun p => match d.turboBit r p with
    | some b => if b.1 = j then some (b.2, (xs.getD p (0, false)).1) else none
    | none => none
  (List.range (d.k r + 4)).map fun i => match at_.find? fun q => q.1 == i with
    | some q => q.2
    | none => 0

/-- The state that decoding starts from, for `m` layers of an LDPC code: the two punctured columns are 0 (R164). -/
def BlockState.start (d : Code) (r m : Nat) (xs : List (Int × Bool)) : BlockState :=
  if d.turbo then
    let s := turboStream d r xs
    .turbo ⟨s 0, s 1, s 2, List.replicate (d.k r) 0, s 0⟩
  else
    .ldpc ⟨(List.range ((graphInfo d.graph2 + m) * d.zc)).map fun v => if v < 2 * d.zc then 0 else (xs.getD (v - 2 * d.zc) (0, false)).1,
      List.replicate (m * d.zc) Check.none⟩

/-- Step `i` of a code block (R159). -/
def BlockState.step (b : BlockState) (d : Code) (r m i : Nat) : BlockState :=
  match b with
  | .ldpc s => .ldpc (s.layer d.graph2 d.zc (i % m))
  | .turbo s => .turbo (s.half (d.k r) i)

/-- A suspension record (R160). The order within its parts, and a header that holds the block's number and the steps done, are a DESIGN
CHOICE (log 12). -/
def BlockState.record (b : BlockState) (r done : Nat) : List Byte :=
  let head := leBytes 4 r ++ leBytes 4 done ++ List.replicate 56 0
  let byte (v : Int) : Byte := BitVec.ofNat 8 (unsignedOf 8 v)
  head ++ match b with
    | .ldpc s => s.post.map byte ++ s.checks.flatMap fun c =>
        leBytes 1 c.min1 ++ leBytes 1 c.min2 ++ leBytes 1 c.arg ++ leBytes 3 c.signs ++ leBytes 2 0
    | .turbo s => (List.range s.d0.length).flatMap fun i => [s.d0, s.d1, s.d2, s.ext].map fun l => byte (l.getD i 0)

/-- The state of a block from its suspension record. -/
def BlockState.restore (d : Code) (r m : Nat) (bs : List Byte) : BlockState :=
  let val (o : Nat) : Int := signedOf 8 (leAt bs (64 + o) 1)
  if d.turbo then
    let part (j n : Nat) : List Int := (List.range n).map fun i => val (4 * i + j)
    .turbo ⟨part 0 (d.k r + 4), part 1 (d.k r + 4), part 2 (d.k r + 4), part 3 (d.k r), part 0 (d.k r)⟩
  else
    let n := (graphInfo d.graph2 + m) * d.zc
    let check (i : Nat) : Check :=
      let o := 64 + n + 8 * i
      ⟨leAt bs o 1, leAt bs (o + 1) 1, leAt bs (o + 2) 1, leAt bs (o + 3) 3⟩
    .ldpc ⟨(List.range n).map val, (List.range (m * d.zc)).map check⟩

/-- The values on which the information bits of code block `r` and its code-block CRC are decided, in order (R158). -/
def BlockState.values (b : BlockState) (d : Code) (r : Nat) : List Int :=
  let n := d.info r + (if d.c = 1 then 0 else 24)
  match b with
  | .ldpc s => (List.range n).map fun i => s.post.getD i 0
  | .turbo s => (List.range n).map fun i => s.app.getD (d.fill r + i) 0

/-- Hard decisions; the decision on a value of 0 is left open. -/
def State.hardBits (s : State) : List Int → List Bool × State
  | [] => ([], s)
  | x :: xs =>
    let b := if x = 0 then s.drawBool else (decide (x < 0), s)
    let rest := State.hardBits b.2 xs
    (b.1 :: rest.1, rest.2)

/-- The bits of a memory region, most significant bit of each byte first (R172). -/
def bitsMsb (bs : List Byte) : List Bool := bs.flatMap fun b => msbBits 8 b.toNat

/-- Bits packed most significant first. -/
def packMsb : List Bool → List Byte
  | b0 :: b1 :: b2 :: b3 :: b4 :: b5 :: b6 :: b7 :: bs => BitVec.ofNat 8 (natOfMsbBits [b0, b1, b2, b3, b4, b5, b6, b7]) :: packMsb bs
  | [] => []
  | bs => [BitVec.ofNat 8 (natOfMsbBits (bs ++ List.replicate (8 - bs.length) false))]

/-- Bits written at bit offset `o` of a region. -/
def State.writeBits (s : State) (srcNi addr o : Nat) (bits : List Bool) : Reply × State :=
  let lo := o / 8
  let hi := ceilDiv (o + bits.length) 8
  let old := bitsMsb (s.raw (addr + lo) (hi - lo))
  let new := old.take (o % 8) ++ bits ++ old.drop (o % 8 + bits.length)
  s.agentWrite srcNi (addr + lo) (packMsb new)

/-- The progress of an entry. -/
def State.decProg (s : State) (req entry : Nat) : DecProg :=
  (s.dec.prog.find? fun p => p.req == req && p.entry == entry).getD ⟨req, entry, false, false⟩

/-- The progress of an entry replaced. -/
def State.setDecProg (s : State) (p : DecProg) : State :=
  { s with dec := { s.dec with prog := (s.dec.prog.filter fun o => !(o.req == p.req && o.entry == p.entry)) ++ [p] } }

/-- Whether a release is the last planned decoder job of its entry (R162). -/
def State.lastDecoder (s : State) (r : Release) : Bool :=
  let len := s.slotLen (relCell r.word)
  let op := relOp r.word
  let mine (w : Nat) : Bool := relCell w == relCell r.word && relFill w && relFillIndex w == relFillIndex r.word && relOp w == op
    && relClass s.active w == 2
  let lag := slotLag len r.calIdx (relSlotOfs r.word)
  let start := slotNamed len s.pos (relSlotOfs r.word)
  (slotLags s.active len start (relCell r.word) mine).all (fun l => decide (l ≤ lag))
    && (templateReleases s.active (calendarAt s.active r.calIdx)).all fun o => !(mine o.2 && decide (r.idx < o.1)
      && relSlotOfs o.2 == relSlotOfs r.word)

/-- One decoder job at work. -/
structure Job where
  u : Nat
  e : List Byte
  d : Code
  h : Option Harq
  iter : Nat
  inAddr : Nat
  outAddr : Nat
  stateAddr : Nat
  deriving DecidableEq, Repr

def Job.records (j : Job) : List Nat := (j.h.map (·.records)).getD []
def Job.steps (j : Job) (r : Nat) : Nat := stepsOf j.e j.d j.records j.iter r
def Job.stepAt (j : Job) (r : Nat) : Nat := ((List.range r).map j.steps).sum

/-- Layers of an iteration over code block `r`. -/
def Job.layers (j : Job) (r : Nat) : Nat := stepsOf j.e j.d j.records 1 r

/-- The steps `lo` to `hi` of a code block; a count of 0 iterations leaves it as it is (R158). -/
def Job.run (j : Job) (r lo hi : Nat) (b : BlockState) : BlockState :=
  if j.iter = 0 then b else
    (List.range (hi - lo)).foldl (fun (x : BlockState) i => x.step j.d r (j.layers r) (lo + i)) b

/-- The bits of a finished block written to the staging buffer; whether its code-block CRC failed (R171). -/
def State.finishBlock (s : State) (j : Job) (r : Nat) (b : BlockState) : (Option (Nat × Reply)) × Bool × State :=
  let all := s.hardBits (b.values j.d r)
  let bits := all.1.take (j.d.info r)
  let bad := decide (1 < j.d.c) && crc24B bits != natOfMsbBits (all.1.drop (j.d.info r))
  let w := all.2.writeBits (niDecoder j.u) j.outAddr (j.d.infoAt r) bits
  (if w.1.status = stOk then none else some (j.outAddr + j.d.infoAt r / 8, w.1), bad, w.2)

/-- The state of code block `r` as a window that begins at step `lo` of the block finds it: restored from the suspension record, or fresh
from the front end (R160, R164). -/
def State.enterBlock (s : State) (j : Job) (r lo : Nat) : (Option (Nat × Reply)) × BlockState × State :=
  let empty : BlockState := .ldpc ⟨[], []⟩
  if 0 < lo then
    let q := s.agentRead (niDecoder j.u) j.stateAddr (suspendLen j.e j.d j.records r)
    if q.1.status = stOk then (none, BlockState.restore j.d r (j.layers r) q.1.data, q.2) else (some (j.stateAddr, q.1), empty, q.2)
  else
    let f := s.frontEnd j.u j.e j.d j.h j.inAddr r
    (f.1, BlockState.start j.d r (j.layers r) f.2.1, f.2.2)

/-- The code blocks of a window of steps, in order: R160 and R164. The fault that ended the job, and whether a CRC failed. -/
def State.runSteps (s : State) (j : Job) (first stop : Nat) : List Nat → (Option (Nat × Reply)) × Bool × State
  | [] => (none, false, s)
  | r :: rs =>
    let a := j.stepAt r
    let b := a + j.steps r
    if b ≤ first ∨ stop ≤ a then State.runSteps s j first stop rs
    else
      let f := s.enterBlock j r (first - a)
      match f.1 with
      | some x => (some x, false, f.2.2)
      | none =>
        let done := min b stop - a
        let x := j.run r (first - a) done f.2.1
        if b ≤ stop then
          let o := f.2.2.finishBlock j r x
          match o.1 with
          | some y => (some y, o.2.1, o.2.2)
          | none =>
            let rest := State.runSteps o.2.2 j first stop rs
            (rest.1, o.2.1 || rest.2.1, rest.2.2)
        else
          let w := f.2.2.agentWrite (niDecoder j.u) j.stateAddr (x.record r done)
          (if w.1.status = stOk then none else some (j.stateAddr, w.1), false, w.2)

/-- The code blocks that the planned steps leave unfinished, as hard decisions of their combined LLRs (R162). -/
def State.runShort (s : State) (j : Job) : List Nat → (Option (Nat × Reply)) × State
  | [] => (none, s)
  | r :: rs =>
    let f := s.enterBlock j r 0
    match f.1 with
    | some x => (some x, f.2.2)
    | none =>
      let o := f.2.2.finishBlock j r f.2.1
      match o.1 with
      | some x => (some x, o.2.2)
      | none => State.runShort o.2.2 j rs

/-! ### Starting a job (R154 to R156) -/

/-- A coding job's descriptor, up to checks. -/
inductive CodeStart where
  | ended (s : State)
  | run (r : Release) (d : List Byte) (s : State)

/-- The release in service on a coding engine of class `cls` with an OP_CODE, and its descriptor; `bad` says what freezes it. -/
def State.startCoding (s : State) (cls phys ni op : Nat) (bad : List Byte → Bool) : CodeStart :=
  let s := s.whenServed cls phys 0 0
  match s.serving cls phys 0 0 with
  | none => .ended s
  | some r =>
    if r.ran then .ended s
    else if (if cls = 2 then !(relOp r.word % 2 ^ 15 == 1 || relOp r.word % 2 ^ 15 == 2 || relOp r.word % 2 ^ 15 == 3)
        else decide (relOp r.word < 1) || decide (5 < relOp r.word)) then .ended (s.freeze cls phys 4 0 0)
    else if relOp r.word ≠ op then .ended s
    else if relArg r.word % 64 ≠ 0 ∨ pastureSize < relArg r.word + 64 then .ended (s.freeze cls phys 4 0 0)
    else
      let d := s.agentRead ni (pastureBase + relArg r.word) 64
      if d.1.status ≠ stOk then .ended (d.2.engineFault ⟨cls, phys, 0⟩ 0 (pastureBase + relArg r.word) d.1)
      else if bad d.1.data then .ended (d.2.freeze cls phys 4 0 0) else .run r d.1.data d.2

/-- Whether every byte of a descriptor outside some ranges is 0. -/
def onlyFields (d : List Byte) (fs : List (Nat × Nat)) : Bool :=
  (List.range 64).all fun i => (fs.any fun f => decide (f.1 ≤ i) && decide (i < f.1 + f.2)) || d.getD i 0 == 0

/-- Whether a decoder descriptor breaks R155 or R156. -/
def badDecDesc (op : Nat) (d : List Byte) : Bool :=
  leAt d 0 1 != op % 256
    || (if op % 2 ^ 15 = 3 then !onlyFields d [(0, 1), (0x18, 8), (0x2C, 4)] || notAddr (leAt d 0x18 8)
      else !onlyFields d [(0, 1), (4, 8), (0x10, 0x20)] || decide (leAt d 8 4 < 1) || decide (65535 < leAt d 8 4)
        || notAddr (leAt d 0x10 8) || notAddr (leAt d 0x18 8) || notAddr (leAt d 0x20 8))

/-! ### DEC_LDPC and DEC_TURBO -/

/-- The steps of a decoding command on a code, with the HARQ buffer found or with none; the result on completion. -/
def State.runCode (t : State) (u : Nat) (turbo : Bool) (r : Release) (desc e : List Byte) (q : Request) (d : Code)
    (h : Option Harq) : State :=
  let iter := leAt t.active (if turbo then 0x2D else 0x2C) 1
  let j : Job := ⟨u, e, d, h, iter, leAt desc 0x10 8, leAt desc 0x18 8, leAt desc 0x20 8⟩
  let first := leAt desc 4 4
  let stop := first + leAt desc 8 4
  let t1 := if first = 0 then
      let a := if h.isNone then t.bump .DEC_STATS Fld.DEC_STATS_NO_HBUF else t
      if (h.map (·.reset)).getD false then a.bump .DEC_STATS Fld.DEC_STATS_HARQ_RESET else a
    else t
  let w := t1.runSteps j first stop (List.range d.c)
  match w.1 with
  | some x => w.2.2.engineFault ⟨2, u, 0⟩ 0 x.1 x.2
  | none =>
    let p := w.2.2.decProg q.id (relFillIndex r.word)
    let p1 : DecProg := { p with bad := p.bad || w.2.1 }
    let left := (List.range d.c).filter fun i => decide (stop < j.stepAt i + j.steps i)
    if left = [] ∨ !t.lastDecoder r then (w.2.2.setDecProg p1).markRan r
    else
      let v := w.2.2.runShort j left
      match v.1 with
      | some x => v.2.engineFault ⟨2, u, 0⟩ 0 x.1 x.2
      | none => ((v.2.bump .DEC_STATS Fld.DEC_STATS_STEP_SHORT).setDecProg { p1 with short := true }).markRan r

/-- A decoder job on UID `u`. -/
def State.decodeJob (s : State) (u : Nat) (turbo replay : Bool) : State :=
  let op := (if turbo then 2 else 1) + (if replay then 0x8000 else 0)
  match s.startCoding 2 u (niDecoder u) op (badDecDesc op) with
  | .ended t => t
  | .run r desc t =>
    let e := (t.entryOf r).getD []
    match r.req.bind t.request with
    | none => t.markRan r
    | some q =>
      let d := codeOf e
      if entKind e ≠ (if turbo then 8 else 2) ∨ leAt desc 0x28 4 < ulBits e ∨ leAt desc 0x2C 4 < ceilDiv d.b 8 then t.rejectEntry r
      else
        match t.findHarq u e q d with
        | .fault a f x => x.engineFault ⟨2, u, 0⟩ 0 a f
        | .none x => x.runCode u turbo r desc e q d none
        | .some h x => x.runCode u turbo r desc e q d (some h)

/-! ### TB_DONE (R166, R171) -/

/-- A header after a transmission has been recorded. -/
def harqCommit (h : Harq) (e : List Byte) (d : Code) (lastSlot : Nat) : List Byte :=
  let cap := d.ncb 0
  let ea := min cap (upE e d 0)
  let sw := ((List.range d.c).find? fun r => upE e d r != upE e d 0).getD d.c
  let eb := min cap (upE e d (d.c - 1))
  let rec_ := entRv e + ea % 2 ^ 15 * 4 + 2 ^ 17 * (eb % 2 ^ 15) + 2 ^ 32 * (sw % 2 ^ 10)
  let rs := h.records ++ [rec_]
  let state := 1 + (if entNdi e then 2 else 0) + h.bank * 4 + rs.length * 8
  leBytes 2 state ++ leBytes 2 (d.c % 1024) ++ leBytes 4 d.tbs ++ leBytes 2 d.field ++ leBytes 4 lastSlot ++ leBytes 2 0
    ++ (List.range 8).flatMap fun i => leBytes 6 (rs.getD i 0)

/-- The CRC of a transport block in staging: whether it passes (R171). -/
def tbCrcOk (d : Code) (bits : List Bool) : Bool :=
  let data := bits.take d.tbs
  let crc := natOfMsbBits ((bits.drop d.tbs).take (d.b - d.tbs))
  if d.turbo || decide (d.tbs > 3824) then crc24A data == crc else crc16 data == crc

/-- TB_DONE on UID `u`. -/
def State.tbDone (s : State) (u : Nat) (replay : Bool) : State :=
  let op := 3 + (if replay then 0x8000 else 0)
  match s.startCoding 2 u (niDecoder u) op (badDecDesc op) with
  | .ended t => t
  | .run r desc t =>
    let e := (t.entryOf r).getD []
    match r.req.bind t.request with
    | none => t.markRan r
    | some q =>
      let d := codeOf e
      if (entKind e ≠ 2 ∧ entKind e ≠ 8) ∨ leAt desc 0x2C 4 < ceilDiv d.b 8 then t.rejectEntry r
      else if ((q.results[relFillIndex r.word]?).map (·.status)) = some 2 then t.markRan r
      else
        let src := leAt desc 0x18 8
        let b := t.agentRead (niDecoder u) src (ceilDiv d.b 8)
        if b.1.status ≠ stOk then b.2.engineFault ⟨2, u, 0⟩ 0 src b.1 else
          let p := b.2.decProg q.id (relFillIndex r.word)
          let ok := !p.bad && !p.short && tbCrcOk d (bitsMsb b.1.data)
          let n := ceilDiv d.tbs 8
          let out := packMsb ((bitsMsb b.1.data).take d.tbs)
          let t1 := b.2.write70 (niDecoder u) (entDataAddr e) out
          let t2 := if ok then t1 else t1.bump .DEC_STATS Fld.DEC_STATS_CRC_FAIL
          let t3 := { t2 with dec := { t2.dec with prog := t2.dec.prog.filter fun o => !(o.req == p.req && o.entry == p.entry) } }
          let t4 := t3.entryResult r fun x => { x with status := 0, crcOk := ok, bytes_ := n + (uciBytes e).2 }
          match t4.findHarq u e q d with
          | .fault a f x => x.engineFault ⟨2, u, 0⟩ 0 a f
          | .none x => x.markRan r
          | .some h x =>
            if h.keep then x.markRan r else
              let w := x.agentWrite (niDecoder u) h.addr (harqCommit h e d (q.frame + 2 ^ 20 * (q.slot % 128)))
              if w.1.status ≠ stOk then w.2.engineFault ⟨2, u, 0⟩ 0 h.addr w.1 else w.2.markRan r

/-! ### Commands -/

/-- DEC_LDPC. -/
def execDecLdpc (u : Fin 32) (s : State) : Out := working (fun t => t.decodeJob u false false) s
/-- DEC_TURBO. -/
def execDecTurbo (u : Fin 32) (s : State) : Out := working (fun t => t.decodeJob u true false) s
/-- TB_DONE. -/
def execTbDone (u : Fin 32) (s : State) : Out := working (fun t => t.tbDone u false) s
/-- DEC_LDPC_REPLAY. -/
def execDecLdpcReplay (u : Fin 32) (s : State) : Out := working (fun t => t.decodeJob u false true) s
/-- DEC_TURBO_REPLAY. -/
def execDecTurboReplay (u : Fin 32) (s : State) : Out := working (fun t => t.decodeJob u true true) s
/-- TB_DONE_REPLAY. -/
def execTbDoneReplay (u : Fin 32) (s : State) : Out := working (fun t => t.tbDone u true) s

end Sys2Proof.Machine
end

