-- ==== Sys2Proof/Machine/Refsig.lean ====
section
/-!
DEFINITION. Reference signals and sequences: the low-PAPR sequences, DMRS of PUSCH, PDSCH and PDCCH, CSI-RS, SRS, and the SSB (TS 38.211
clauses 5.2.2, 6.4.1, 7.4.1 to 7.4.3; TS 36.211 clause 5.5 for LTE uplink). PRESUMED from those clauses (log 31).
-/
namespace Sys2Proof.Machine

/-- A fraction of a turn: the point exp(2πj · num / den). -/
structure Turn where
  num : Int
  den : Nat
  deriving DecidableEq, Repr

def Turn.point (t : Turn) : Cplx := unitTurn t.num t.den
def Turn.add (a b : Turn) : Turn := ⟨a.num * b.den + b.num * a.den, a.den * b.den⟩

/-! ### Low-PAPR sequences (TS 38.211 clause 5.2.2) -/

/-- Whether a number is a prime. -/
def isPrime (n : Nat) : Bool := decide (2 ≤ n) && (List.range (isqrt n + 1)).all fun i => decide (i < 2) || n % i != 0

/-- The largest prime below `m`. -/
def primeBelow (m : Nat) : Nat := (((List.range m).filter isPrime).getLast?).getD 2

/-- Element `n` of the base sequence of group `u`, number `v` and length `m`. -/
def baseSequence (u v m n : Nat) : Turn :=
  if m < 36 then
    if m = 30 then ⟨-((u + 1) * (n + 1) * (n + 2) : Nat), 62⟩ else ⟨2 * ((Config.shortPhase m u n).toNat : Int) - 3, 8⟩
  else
    let p := primeBelow m
    let up : Bool := 2 * (p * (u + 1)) / 31 % 2 == 0
    let near := (2 * p * (u + 1) + 31) / 62
    let q := if v = 0 then near else if up then near + 1 else near - 1
    let i := n % p
    ⟨-(q * i * (i + 1) : Nat), 2 * p⟩

/-- Element `n` of a sequence with a cyclic shift of `cs / of_` turns per element. -/
def shiftedSequence (u v m cs of_ n : Nat) : Turn := (baseSequence u v m n).add ⟨(cs * n : Nat), max 1 of_⟩

/-- A number read from 8 bits of a Gold sequence, the first least significant. -/
def goldByte (cinit skip : Nat) : Nat := natOfBits (goldBits cinit skip 8)

/-! ### DMRS of PUSCH and PDSCH (TS 38.211 clauses 6.4.1.1 and 7.4.1.1) -/

/-- Whether a symbol is the second of a pair of DMRS symbols. -/
def secondDmrs (map sym : Nat) : Bool := ((List.range sym).reverse.takeWhile map.testBit).length % 2 == 1

/-- Where a port's DMRS lies: for subcarrier `k` of the cell the element of the sequence and whether its weight is −1. -/
def dmrsAt (type2 : Bool) (port k : Nat) (second : Bool) : Option (Nat × Bool) :=
  let wt := second && decide ((if type2 then 6 else 4) ≤ port)
  if type2 then
    let d := port % 6 / 2 * 2
    if d ≤ k % 6 ∧ k % 6 < d + 2 then some (k / 6 * 2 + (k % 6 - d), (decide (k % 6 = d + 1) && port % 2 == 1) != wt) else none
  else
    let d := port % 4 / 2
    if k % 2 = d then some (k / 4 * 2 + k % 4 / 2, (decide (2 ≤ k % 4) && port % 2 == 1) != wt) else none

/-- c_init of the DMRS of a symbol: `slot` in the cell's numerology. -/
def dmrsInit (slot sym id scid : Nat) : Nat := (2 ^ 17 * (14 * slot + sym + 1) * (2 * id + 1) + 2 * id + scid) % 2 ^ 31

/-- Two bits of a QPSK sequence: element `n` of a Gold sequence. -/
def goldPair (cinit n : Nat) : Bool × Bool :=
  match goldBits cinit (2 * n) 2 with
  | [a, b] => (a, b)
  | _ => (false, false)

/-- The bits of a DMRS sample of a PDSCH or PUSCH entry without transform precoding: `slot` within the frame. -/
def dmrsBits (e : List Byte) (slot sym port k : Nat) : Option (Bool × Bool) :=
  (dmrsAt (entParam e 16 1 == 1) port k (secondDmrs (entDmrsMap e) sym)).map fun x =>
    let b := goldPair (dmrsInit slot sym (entParam e 0 16) (entParam e 17 1)) x.1
    (b.1 != x.2, b.2 != x.2)

/-- The point in QPSK with given sign bits: an odd number of eighths of a turn. -/
def qpskTurn (b : Bool × Bool) : Turn :=
  ⟨match b with | (false, false) => 1 | (true, false) => 3 | (true, true) => 5 | (false, true) => 7, 8⟩

/-- The uplink DMRS of an NR entry at subcarrier `k` of the cell, as a point of the unit circle. With transform precoding the sequence is of
group DMRS_ID mod 30 and starts at the entry's first subcarrier (clause 6.4.1.1.1.2). -/
def puschDmrs (e : List Byte) (slot sym port k : Nat) : Option Turn :=
  if entTp e then
    let r := k - 12 * entPrbStart e
    (dmrsAt false port r (secondDmrs (entDmrsMap e) sym)).map fun x =>
      let t := baseSequence (entParam e 0 16 % 30) 0 (6 * entPrbCount e) x.1
      if x.2 then t.add ⟨1, 2⟩ else t
  else (dmrsBits e slot sym port k).map qpskTurn

/-! ### DMRS of LTE PUSCH (TS 36.211 clauses 5.5.1 and 5.5.2) -/

/-- n_DMRS(2) of a layer by the field of the grant (table 5.5.2.1.1-1). -/
def lteShift2 (field layer : Nat) : Nat :=
  (([[0, 6, 3, 9], [6, 0, 9, 3], [3, 9, 6, 0], [4, 10, 7, 1], [2, 8, 5, 11], [8, 2, 11, 5], [10, 4, 1, 7], [9, 3, 0, 6]] : List (List Nat)).getD
    field []).getD layer 0

/-- The DMRS of an LTE PUSCH layer in half-slot `ns` (twice the subframe, plus 1 in its second half), at subcarrier `k` from the
entry's first. The cell's Δss is a constant of Config. -/
def lteDmrs (e : List Byte) (cell pci ns layer k : Nat) : Turn :=
  let fss := (pci % 30 + (Config.lteDeltaSs cell).toNat) % 30
  let m := 12 * entPrbCount e
  let fgh := if entParam e 3 1 = 1 then goldByte (pci / 30) (8 * ns) % 30 else 0
  let v := if entParam e 4 1 = 1 ∧ entParam e 3 1 = 0 ∧ 72 ≤ m ∧ goldBits (pci / 30 * 32 + fss) ns 1 = [true] then 1 else 0
  let n1 := ([0, 2, 3, 4, 6, 8, 9, 10] : List Nat).getD (entParam e 8 3) 0
  let cs := (n1 + lteShift2 (entParam e 0 3) layer + goldByte (pci / 30 * 32 + fss) (56 * ns)) % 12
  shiftedSequence ((fgh + fss) % 30) v m cs 12 k

/-! ### SRS (TS 38.211 clause 6.4.1.4) -/

/-- The comb of an SRS entry. -/
def srsComb (e : List Byte) : Nat := 2 * 2 ^ entParam e 0 2

/-- Cyclic shifts that a comb has. -/
def srsShifts (comb : Nat) : Nat := if comb = 2 then 8 else if comb = 4 then 12 else 6

/-- The SRS of a port in a symbol at subcarrier `k` from the entry's first: none off the port's comb. -/
def srsAt (e : List Byte) (slot sym port k : Nat) : Option Turn :=
  let comb := srsComb e
  let most := srsShifts comb
  let ports := max 1 (entParam e 16 8)
  let cs0 := entParam e 8 8
  let cs := (cs0 + most * port / ports) % most
  let ofs := if ports = 4 ∧ port % 2 = 1 ∧ most ≤ 2 * cs0 then (entParam e 2 3 + comb / 2) % comb else entParam e 2 3
  if k % comb ≠ ofs then none else
    let m := 12 * entPrbCount e / comb
    let id := entParam e 32 16
    let hop := entParam e 24 2
    let fgh := if hop = 1 then goldByte id (8 * (14 * slot + sym)) % 30 else 0
    let v := if hop = 2 ∧ 72 ≤ m ∧ goldBits id (14 * slot + sym) 1 = [true] then 1 else 0
    some (shiftedSequence ((fgh + id) % 30) v m cs most (k / comb))

/-! ### CSI-RS sequences (TS 38.211 clause 7.4.1.5) -/

/-- The sign bits of a CSI-RS port at an RE: none where the port sends nothing. -/
def csirsBits (e : List Byte) (slot port sym k : Nat) : Option (Bool × Bool) :=
  let row := entParam e 0 8
  let cdm := csirsCdm row
  let size := cdm.1 * cdm.2
  let groups := if row ≤ 2 then csirsPlaces e else ((csirsPlaces e).drop (port / size)).take 1
  match groups.find? fun g => csirsPrb e (k / 12) && decide (g.1 ≤ k % 12) && decide (k % 12 < g.1 + cdm.1)
      && decide (g.2 ≤ sym) && decide (sym < g.2 + cdm.2) with
  | none => none
  | some g =>
    let s := port % size
    let k' := k % 12 - g.1
    let l' := sym - g.2
    let t := s / 2
    let neg := (s.testBit 0 && k' == 1) != ((t == 1 && l' % 2 == 1) != ((t == 2 && decide (2 ≤ l')) != (t == 3 && (l' == 1 || l' == 2))))
    let neg4 := (s.testBit 0 && k' == 1) != (t == 1 && l' == 1)
    let dens := entParam e 8 2
    let n := k / 12
    let twice := if dens ≤ 1 then 1 else if dens = 2 then 2 else 6
    let m := (if csirsPorts e = 1 then n * twice / 2 else n * twice) + k' + g.1 * twice / 24
    let b := goldPair ((2 ^ 10 * (14 * slot + sym + 1) * (2 * entScrId e + 1) + entScrId e) % 2 ^ 31) m
    let w := if cdm.2 = 4 then neg else neg4
    some (b.1 != w, b.2 != w)

/-! ### SSB (TS 38.211 clauses 7.4.2, 7.4.3 and 7.4.1.4) -/

/-- `n` bits of a shift register of 7 bits, the next bit being the sum of those at `a` and `b`. -/
def mSequence (a b : Nat) : Nat → Nat → List Bool
  | 0, _ => []
  | n + 1, r => r.testBit 0 :: mSequence a b n (r / 2 + (if r.testBit a != r.testBit b then 64 else 0))

/-- The sign bits of the PSS. -/
def pssBits (pci : Nat) : List Bool :=
  let x := mSequence 4 0 127 0x76
  (List.range 127).map fun n => x.getD ((n + 43 * (pci % 3)) % 127) false

/-- The sign bits of the SSS. -/
def sssBits (pci : Nat) : List Bool :=
  let n1 := pci / 3
  let x0 := mSequence 4 0 127 1
  let x1 := mSequence 1 0 127 1
  (List.range 127).map fun n => x0.getD ((n + 15 * (n1 / 112) + 5 * (pci % 3)) % 127) false != x1.getD ((n + n1 % 112) % 127) false

/-- The REs of the PBCH or of its DMRS in an SSB, by symbol and subcarrier of the block, in mapping order. -/
def pbchPlaces (pci : Nat) (dmrs : Bool) : List (Nat × Nat) :=
  [1, 2, 3].flatMap fun l => ((List.range 240).filter fun k =>
    (l != 2 || decide (k < 48) || decide (192 ≤ k)) && ((k % 4 == pci % 4) == dmrs)).map fun k => (l, k)

/-- c_init of the PBCH's DMRS. -/
def pbchDmrsInit (pci ssb lmax half : Nat) : Nat :=
  let i := if lmax = 4 then ssb % 4 + 4 * half else ssb % 8
  2 ^ 11 * (i + 1) * (pci / 4 + 1) + 2 ^ 6 * (i + 1) + pci % 4

end Sys2Proof.Machine
end

