-- ==== Sys2Proof/Machine/Encoder.lean ====
section
/-!
DEFINITION. The shared-channel encoders (R173 to R175): which bits a job sends, their coding, scrambling, modulation and mapping into the
stream grid.
-/
namespace Sys2Proof.Machine

/-! ### Modulation (R175) -/

/-- amp · a / sqrt(n), rounded half up. -/
def scaledLevel (amp : Nat) (a : Int) (n : Nat) : Int :=
  let v := amp * a.natAbs
  let k := (1 + isqrt (4 * v * v / n)) / 2
  if a < 0 then -(k : Int) else k

/-- The sign that a bit gives. -/
def bitSign (b : Bool) : Int := if b then -1 else 1

/-- The level of one dimension from its bits (TS 38.211 clause 5.1): `bs` are the bits of the dimension, the sign bit first. -/
def dimLevel : List Bool → Int
  | [] => 0
  | [b] => bitSign b
  | b :: bs => bitSign b * ((2 ^ bs.length : Nat) - dimLevel bs)

/-- The mean energy of a constellation of odd coordinates with `qm` bits. -/
def meanEnergy (qm : Nat) : Nat := if qm ≤ 2 then 2 else if qm = 4 then 10 else if qm = 6 then 42 else if qm = 8 then 170 else 682

/-- A modulated sample from its bits. -/
def modulate (amp : Nat) (bits : List Bool) : Cplx :=
  let i := (bits.zipIdx.filter fun b => b.2 % 2 == 0).map (·.1)
  let q := (bits.zipIdx.filter fun b => b.2 % 2 == 1).map (·.1)
  ⟨satS 16 (scaledLevel amp (dimLevel i) (meanEnergy bits.length)), satS 16 (scaledLevel amp (dimLevel q) (meanEnergy bits.length))⟩

/-- AMP of an entry: 8,192 when the field is 0. -/
def ampOf (a : Nat) : Nat := if a = 0 then 8192 else a

/-! ### Data REs of a downlink entry (R175) -/

/-- Whether an RE of a downlink entry carries data: `k` is counted from the entry's first subcarrier. -/
def State.isDataRe (s : State) (q : Request) (e : List Byte) (sym k : Nat) : Bool :=
  let idx := indexOf s.activeK q.start
  let sc := 12 * entPrbStart e + k
  !isDmrs e sym && !isPtrs e sym k
    && !(q.entries.any fun o => entKind o == 5 && csirsRe o sym sc)
    && !Config.ssbRe (s.rd .ALM_ACTIVE_BUILD) q.cell idx sym sc
    && !(s.fld (.DEC_CELL_C q.cell) Fld.DEC_CELL_C_LTE == 1
      && isCrs (s.fld (.DEC_CELL_C q.cell) Fld.DEC_CELL_C_CRS_PORTS) (s.fld (.DEC_CELL_C q.cell) Fld.DEC_CELL_C_PCI) q.slot sym sc)

/-- The data REs of a downlink entry in mapping order: symbol and subcarrier. -/
def State.downRes (s : State) (q : Request) (e : List Byte) : List (Nat × Nat) :=
  ((List.range (entSymCount e)).map fun i => entSymStart e + i).flatMap fun sym =>
    ((List.range (12 * entPrbCount e)).filter fun k => s.isDataRe q e sym k).map fun k => (sym, k)

/-! ### Code blocks -/

/-- Bits of the transport block with its CRC (R173, R174), from the staged bytes. -/
def tbBits (d : Code) (bytes : List Byte) : List Bool :=
  let a := (bitsMsb bytes).take d.tbs
  a ++ (if d.turbo || decide (d.tbs > 3824) then msbBits 24 (crc24A a) else msbBits 16 (crc16 a))

/-- Systematic bits of code block `r` with its CRC. -/
def blockBits (d : Code) (tb : List Bool) (r : Nat) : List Bool :=
  let b := (tb.drop (d.infoAt r)).take (d.info r)
  if d.c = 1 then b else b ++ msbBits 24 (crc24B b)

/-- Length of the downlink circular buffer of a block (R153): limited by LBRM or N_IR. -/
def Code.ncbDown (d : Code) (e : List Byte) (r : Nat) : Nat :=
  if d.turbo then
    let nir := entParam e 32 32
    if nir = 0 then d.ncb r else min (nir / d.c) (d.ncb r)
  else if entParam e 23 1 = 1 then min (d.ncb r) (entParam e 32 32 * 3 / 2 / d.c) else d.ncb r

/-- The coded bits of code block `r` with systematic bits `sys`, by circular-buffer position (R152, R174). -/
def codedBits (d : Code) (sys : List Bool) (r : Nat) : List Bool :=
  let fill := List.replicate (d.fill r) false
  if d.turbo then
    let s := turboEncode (fill ++ sys)
    (List.range (d.ncb r)).map fun p => match d.turboBit r p with
      | some b => (s.getD b.1 []).getD b.2 false
      | none => false
  else (ldpcEncode d.graph2 d.zc (sys ++ fill)).drop (2 * d.zc)

/-- Bit interleaving of an NR block (TS 38.212 clause 5.4.2.2). -/
def interleave (qm : Nat) (e : List Bool) : List Bool :=
  let n := e.length / qm
  (List.range e.length).map fun x => e.getD (x % qm * n + x / qm) false

/-- The rate-matched bits of code block `r`. -/
def rateMatch (d : Code) (e : List Byte) (sys : List Bool) (r len : Nat) : List Bool :=
  let order := d.order r (entRv e) (d.ncbDown e r)
  let coded := codedBits d sys r
  let bits := (List.range len).map fun i => coded.getD (order.getD (i % max 1 order.length) 0) false
  if d.turbo then bits else interleave (entQm e) bits

/-- c_init of a downlink entry (R175). -/
def downInit (e : List Byte) (sub pci : Nat) : Nat :=
  if entKind e = 7 then 2 ^ 14 * entRnti e + 2 ^ 13 * entParam e 0 1 + 2 ^ 9 * sub + pci
  else 2 ^ 15 * entRnti e + 2 ^ 14 * entParam e 22 1 + entScrId e

/-- Samples written into a stream grid: position, as row · NSC + subcarrier within the symbol's grid, and symbol. -/
def State.writeGrid (s : State) (base stride nsc : Nat) : List ((Nat × Nat × Nat) × Cplx) → (Option (Nat × Reply)) × State
  | [] => (none, s)
  | ((sym, row, k), x) :: rest =>
    let a := base + sym * stride + (row * nsc + k) * 4
    let w := s.agentWrite niEncoder a (leBytes 4 x.word)
    if w.1.status ≠ stOk then (some (a, w.1), w.2) else State.writeGrid w.2 base stride nsc rest

/-- Address of the staged data of a downlink entry (R173). -/
def stagedAt (q : Request) (entry : Nat) : Nat :=
  pastureBase + (Config.stagingAddr q.build q.cell q.slot entry).toNat % pastureSize

/-- Whether an encoder descriptor breaks R155 or R156. -/
def badEncDesc (op : Nat) (d : List Byte) : Bool :=
  let nsc := leAt d 0x0C 2
  leAt d 0 1 != op || nsc % 12 != 0 || decide (nsc < 12) || decide (3276 < nsc) || notAddr (leAt d 0x18 8)
    || (match op with
      | 1 => !onlyFields d [(0, 1), (2, 4), (0x0C, 2), (0x18, 8), (0x28, 4)] || decide (leAt d 4 2 < 1) || decide (1023 < leAt d 4 2)
      | 2 => !onlyFields d [(0, 1), (2, 4), (0x0C, 2), (0x18, 8), (0x28, 4)] || decide (leAt d 4 2 < 1) || decide (1023 < leAt d 4 2)
      | 3 => !onlyFields d [(0, 1), (0x0C, 2), (0x18, 8), (0x28, 4)]
      | 4 => !onlyFields d [(0, 1), (0x0C, 3), (0x18, 8), (0x28, 4)] || decide (63 < leAt d 0x0E 1)
      | _ => !onlyFields d [(0, 1), (0x0C, 2), (0x10, 16), (0x28, 4)] || notAddr (leAt d 0x10 8))

/-- The code blocks of an encoder job: the bits of each and where the first of them stands. -/
def encodeBlocks (d : Code) (e : List Byte) (tb : List Bool) (g nuQm : Nat) (blocks : List Nat) : List (Nat × List Bool) :=
  blocks.map fun r => (((List.range r).map (d.e g nuQm)).sum, rateMatch d e (blockBits d tb r) r (d.e g nuQm r))

/-- ENC_DLSCH or ENC_LTE_DLSCH on encoder `m`. -/
def State.encodeJob (s : State) (m : Nat) (lte : Bool) : State :=
  let op := if lte then 2 else 1
  match s.startCoding 3 m niEncoder op (badEncDesc op) with
  | .ended t => t
  | .run r desc t =>
    let e := (t.entryOf r).getD []
    match r.req.bind t.request with
    | none => t.markRan r
    | some q =>
      let d := codeOf e
      let nu := entLayers e
      let qm := entQm e
      if entKind e ≠ (if lte then 7 else 1) ∨ nu > 4 then t.rejectEntry r
      else if (Config.stagingBytes q.build q.cell q.slot (relFillIndex r.word)).toNat < stagedLen e then t.rejectEntry r
      else
        let src := stagedAt q (relFillIndex r.word)
        let b := t.agentRead niEncoder src (stagedLen e)
        if b.1.status ≠ stOk then b.2.engineFault ⟨3, m, 0⟩ 0 src b.1 else
          let res := b.2.downRes q e
          let g := res.length * nu * qm
          let first := leAt desc 2 2
          let blocks := ((List.range (leAt desc 4 2)).map fun i => first + i).filter fun i => decide (i < d.c)
          let init := downInit e (q.slot % 10) (t.fld (.DEC_CELL_C q.cell) Fld.DEC_CELL_C_PCI)
          let amp := ampOf (entParam e 64 16)
          let samples := (encodeBlocks d e (tbBits d b.1.data) g (nu * qm) blocks).flatMap fun blk =>
            let scr := (goldBits init blk.1 blk.2.length).zip blk.2 |>.map fun p => p.1 != p.2
            (List.range (scr.length / qm)).map fun i =>
              let t0 := blk.1 / qm + i
              let re := res.getD (t0 / nu) (0, 0)
              ((re.1, entPortBase e + t0 % nu, 12 * entPrbStart e + re.2), modulate amp ((scr.drop (i * qm)).take qm))
          let w := b.2.writeGrid (leAt desc 0x18 8) (leAt desc 0x28 4) (leAt desc 0x0C 2) samples
          match w.1 with
          | some f => w.2.engineFault ⟨3, m, 0⟩ 0 f.1 f.2
          | none => w.2.markRan r

/-- STAT_CLR of DEC_CTRL (R181). -/
def State.clearDec (s : State) : State :=
  let s1 := (List.range 32).foldl (fun t n => t.setFld (.DEC_UID_STATUS n) Fld.DEC_UID_STATUS_JOBS 0) (s.wr .DEC_STATS 0)
  (List.range 8).foldl (fun t n => t.setFld (.DEC_ENC_STATUS n) Fld.DEC_ENC_STATUS_JOBS 0) s1

/-! ### Commands -/

/-- ENC_DLSCH. -/
def execEncDlsch (m : Fin 8) (s : State) : Out := working (fun t => t.encodeJob m false) s
/-- ENC_LTE_DLSCH. -/
def execEncLteDlsch (m : Fin 8) (s : State) : Out := working (fun t => t.encodeJob m true) s
/-- DEC_STAT_CLR. -/
def execDecStatClr (s : State) : Out := running (State.clearDec) s

end Sys2Proof.Machine
end

