-- ==== Sys2Proof/Machine/Control.lean ====
section
/-!
DEFINITION. The control channels of the encoders (R177): the NR PDCCH and PBCH (TS 38.212 clauses 7.1 and 7.3, TS 38.211 clauses 7.3.2 and
7.3.3), and LTE DCI, HI, CFI and BCH with the mapping of the LTE control region (TS 36.212 clause 5.3, TS 36.211 clauses 6.3.4 and 6.6 to
6.9). PRESUMED from those clauses (log 31).
-/
namespace Sys2Proof.Machine

/-- Bits scrambled by a Gold sequence from its bit `skip` on. -/
def scramble (init skip : Nat) (bits : List Bool) : List Bool := ((goldBits init skip bits.length).zip bits).map fun p => p.1 != p.2

/-- QPSK samples of a bit list. -/
def qpskSamples (amp : Nat) (bits : List Bool) : List Cplx :=
  (List.range (bits.length / 2)).map fun i => modulate amp [bits.getD (2 * i) false, bits.getD (2 * i + 1) false]

/-! ### NR PDCCH -/

/-- The REs of an NR PDCCH that carry data, or its DMRS: symbol and subcarrier of the cell, subcarriers first (clause 7.3.2.5). -/
def pdcchRes (e : List Byte) (dmrs : Bool) : List (Nat × Nat) :=
  let nreg := entPrbCount e * entSymCount e
  let cces := (List.range (2 ^ entParam e 8 3)).map fun i => entParam e 16 16 + i
  let regs := (cces.flatMap (cceRegs e)).filter fun g => decide (g < nreg)
  (List.range (entSymCount e)).flatMap fun l => ((List.range (12 * entPrbCount e)).filter fun k =>
    regs.contains (k / 12 * entSymCount e + l) && ((k % 4 == 1) == dmrs)).map fun k => (entSymStart e + l, 12 * entPrbStart e + k)

/-- The scrambled bits of an NR DCI (R177). -/
def dciBits (e : List Byte) (data : List Byte) (pci : Nat) : List Bool :=
  let a := (bitsMsb data).take (entParam e 32 16)
  let crc := crc24C (List.replicate 24 true ++ a) ^^^ entRnti e
  let p := polarDown a.length (108 * 2 ^ entParam e 8 3)
  scramble (if entScrId e = 0 then pci else (2 ^ 16 * entRnti e + entScrId e) % 2 ^ 31) 0 (p.encode (a ++ msbBits 24 crc))

/-! ### The parts of the LTE control buffer -/

/-- The first sample of a control entry in the LTE control buffer, and how many it has: 16 of the PCFICH, 12 of a PHICH group, 36 of each
CCE. -/
def lteControlAt (e : List Byte) : Nat × Nat :=
  match entParam e 0 2 with
  | 1 => ((Config.lteControlBase 2).toNat + 36 * entParam e 16 16, 36 * 2 ^ entParam e 8 3)
  | 2 => ((Config.lteControlBase 1).toNat + 12 * entParam e 16 8, 12)
  | _ => ((Config.lteControlBase 0).toNat, 16)

/-- The samples of an LTE DCI (TS 36.212 clause 5.3.3, TS 36.211 clause 6.8): scrambled where its first CCE stands among all. -/
def lteDci (e data : List Byte) (sub pci : Nat) : List Cplx :=
  let a := (bitsMsb data).take (entParam e 32 16)
  let c := a ++ msbBits 16 (crc16 a ^^^ entRnti e)
  qpskSamples (ampOf (entParam e 80 16)) (scramble (2 ^ 9 * sub + pci) (72 * entParam e 16 16) (convSend c (72 * 2 ^ entParam e 8 3)))

/-- c_init of the PCFICH and the PHICH. -/
def lteSubInit (sub pci : Nat) : Nat := (sub + 1) * (2 * pci + 1) * 2 ^ 9 + pci

/-- Element `i` of PHICH sequence `seq`, as quarters of a turn (TS 36.211 table 6.9.1-2, normal cyclic prefix). -/
def hiSequence (seq i : Nat) : Nat :=
  let neg := match seq % 4 with
    | 0 => false
    | 1 => i % 2 == 1
    | 2 => decide (2 ≤ i)
    | _ => i == 1 || i == 2
  (if 4 ≤ seq then 1 else 0) + (if neg then 2 else 0)

/-- A sample turned by quarters. -/
def Cplx.quarter (x : Cplx) : Nat → Cplx
  | 0 => x
  | n + 1 => Cplx.quarter ⟨-x.im, x.re⟩ n

/-- The samples of an HI: its bit three times in BPSK, spread by its sequence and scrambled. -/
def lteHi (e : List Byte) (sub pci : Nat) : List Cplx :=
  let z := modulate (ampOf (entParam e 80 16)) [entParam e 32 1 == 1, entParam e 32 1 == 1]
  (goldBits (lteSubInit sub pci) 0 12).zipIdx.map fun c =>
    let x := z.quarter (hiSequence (entParam e 24 3) (c.2 % 4))
    if c.1 then ⟨-x.re, -x.im⟩ else x

/-- The samples of a CFI (TS 36.212 table 5.3.4-1). -/
def lteCfi (e : List Byte) (sub pci : Nat) : List Cplx :=
  let v := entParam e 32 2
  let word := (List.range 32).map fun i => decide (v < 3) && (i + 3 - v) % 3 != 0
  qpskSamples (ampOf (entParam e 80 16)) (scramble (lteSubInit sub pci) 0 word)

/-! ### ENC_CTRL -/

/-- Samples of a control entry written to the LTE control buffer at `out`; an HI is added to its group. -/
def State.writeLteControl (s : State) (e : List Byte) (out : Nat) (xs : List Cplx) : (Option (Nat × Reply)) × State :=
  let a := out + 4 * (lteControlAt e).1
  let old := if entParam e 0 2 = 2 then s.agentRead niEncoder a (4 * xs.length) else (⟨stOk, List.replicate (4 * xs.length) 0, []⟩, s)
  if old.1.status ≠ stOk then (some (a, old.1), old.2) else
    let w := old.2.agentWrite niEncoder a (cplxBytes (((cplxList old.1.data).zip xs).map fun p => (p.1.add p.2).sat16))
    (if w.1.status = stOk then none else some (a, w.1), w.2)

/-- ENC_CTRL on encoder `m`. -/
def State.encodeControl (s : State) (m : Nat) : State :=
  match s.startCoding 3 m niEncoder 3 (badEncDesc 3) with
  | .ended t => t
  | .run r desc t =>
    let e := (t.entryOf r).getD []
    match r.req.bind t.request with
    | none => t.markRan r
    | some q =>
      if entKind e ≠ 6 then t.rejectEntry r
      else if (Config.stagingBytes q.build q.cell q.slot (relFillIndex r.word)).toNat < stagedLen e then t.rejectEntry r
      else
        let src := stagedAt q (relFillIndex r.word)
        let b := t.agentRead niEncoder src (stagedLen e)
        if b.1.status ≠ stOk then b.2.engineFault ⟨3, m, 0⟩ 0 src b.1 else
          let pci := t.fld (.DEC_CELL_C q.cell) Fld.DEC_CELL_C_PCI
          let out := leAt desc 0x18 8
          let w : (Option (Nat × Reply)) × State := match entParam e 0 2 with
            | 0 => b.2.writeGrid out (leAt desc 0x28 4) (leAt desc 0x0C 2)
                (((pdcchRes e false).zip (qpskSamples (ampOf (entParam e 80 16)) (dciBits e b.1.data pci))).map fun p =>
                  ((p.1.1, entPortBase e, p.1.2), p.2))
            | 1 => b.2.writeLteControl e out (lteDci e b.1.data (q.slot % 10) pci)
            | 2 => b.2.writeLteControl e out (lteHi e (q.slot % 10) pci)
            | _ => b.2.writeLteControl e out (lteCfi e (q.slot % 10) pci)
          match w.1 with
          | some f => w.2.engineFault ⟨3, m, 0⟩ 0 f.1 f.2
          | none => w.2.markRan r

/-! ### Transmit diversity (TS 36.211 clause 6.3.4.3) -/

/-- A sample over √2, rounded half up. -/
def Cplx.half (x : Cplx) : Cplx := x.map fun v => scaledLevel 1 v 2

/-- Pairs of samples over antenna ports: for each sample place, its row and what the row carries. Four-port coding takes rows 0 and 2 and
rows 1 and 3 by turns, or one of the two for all pairs, the second where `fixed` is true. -/
def diversity (ports : Nat) (fixed : Option Bool) (xs : List Cplx) : List (List (Nat × Cplx)) :=
  if ports ≤ 1 then xs.map fun x => [(0, x)] else
    (List.range xs.length).map fun i =>
      let a := (xs.getD (i / 2 * 2) Cplx.zero).half
      let b := (xs.getD (i / 2 * 2 + 1) Cplx.zero).half
      let pair : Nat × Nat := if ports = 2 then (0, 1) else if fixed.getD (i / 2 % 2 == 1) then (1, 3) else (0, 2)
      if i % 2 = 0 then [(pair.1, a), (pair.2, ⟨-b.re, b.im⟩)] else [(pair.1, b), (pair.2, ⟨a.re, -a.im⟩)]

/-- Antenna ports that CRS_PORTS gives. -/
def State.ltePorts (s : State) (cell : Nat) : Nat := 2 ^ min 2 (s.fld (.DEC_CELL_C cell) Fld.DEC_CELL_C_CRS_PORTS)

/-! ### ENC_PBCH -/

/-- Places of the payload bits of a PBCH before scrambling (TS 38.212 table 7.1.1-1). -/
def pbchOrder : List Nat := [16, 23, 18, 17, 8, 30, 10, 6, 24, 7, 0, 5, 3, 2, 1, 4, 9, 11, 12, 13, 14, 15, 19, 20, 21, 22, 25, 26, 27, 28, 29, 31]

/-- The PBCH payload of 32 bits before interleaving: the MIB with the SFN's six upper bits, the four lower ones, the half-frame bit, and
the three upper bits of the SSB index where it has them (R177, TS 38.212 clause 7.1.1). -/
def pbchPayload (mib sfn half ssb lmax : Nat) : List Bool :=
  let top := msbBits 24 (setBitsOf mib 17 6 (sfn / 16))
  top ++ msbBits 4 sfn ++ [half == 1] ++ (if lmax = 64 then msbBits 3 (ssb / 8) else List.replicate 3 false)

/-- The payload interleaved: SFN bits, then the half-frame bit, the last three and the rest take their places in turn. -/
def pbchInterleave (p : List Bool) : List Bool :=
  let sfn := ((List.range 6).map fun i => 1 + i) ++ ((List.range 4).map fun i => 24 + i)
  let rest := (List.range 24).filter fun i => !sfn.contains i
  let src := sfn ++ [28] ++ [29, 30, 31] ++ rest
  (List.range 32).map fun a => match pbchOrder.findIdx? (· == a) with
    | some j => p.getD (src.getD j 0) false
    | none => false

/-- The bits of the payload that the first scrambling leaves: the half-frame bit, the SSB index, and the second and third lowest SFN bits. -/
def pbchKept (lmax : Nat) : List Nat :=
  let at_ (j : Nat) : Nat := pbchOrder.getD j 0
  [at_ 10, at_ 7, at_ 8] ++ (if lmax = 64 then [at_ 11, at_ 12, at_ 13] else [])

/-- The payload after the first scrambling (TS 38.212 clause 7.1.2). -/
def pbchScramble (a : List Bool) (pci sfn lmax : Nat) : List Bool :=
  let kept := pbchKept lmax
  let m := 32 - kept.length
  let c := goldBits pci (sfn / 2 % 4 * m) m
  a.zipIdx.map fun b =>
    if kept.contains b.2 then b.1 else b.1 != c.getD ((List.range b.2).filter fun i => !kept.contains i).length false

/-- The 864 scrambled bits of an NR PBCH. -/
def pbchBits (mib pci sfn half ssb lmax : Nat) : List Bool :=
  let a := pbchScramble (pbchInterleave (pbchPayload mib sfn half ssb lmax)) pci sfn lmax
  let f := (polarDown 32 864).encode (a ++ msbBits 24 (crc24C a))
  scramble pci (864 * (if lmax = 4 then ssb % 4 else ssb % 8)) f

/-- The 480 bits of an LTE PBCH in a frame: a quarter of the coded BCH (TS 36.212 clause 5.3.1, TS 36.211 clause 6.6). -/
def bchBits (mib pci sfn ports : Nat) : List Bool :=
  let a := msbBits 24 (setBitsOf mib 10 8 (sfn / 4))
  let mask := if ports = 1 then 0 else if ports = 2 then 0xFFFF else 0x5555
  let c := a ++ msbBits 16 (crc16 a ^^^ mask)
  ((scramble pci 0 (convSend c 1920)).drop (480 * (sfn % 4))).take 480

/-- The REs of an LTE PBCH in a cell of `nsc` subcarriers: the CRS places of four ports are left out. -/
def bchRes (nsc pci : Nat) : List (Nat × Nat) :=
  (List.range 4).flatMap fun l => ((List.range 72).filter fun k => !(decide (l ≤ 1) && k % 3 == pci % 3)).map fun k => (7 + l, nsc / 2 - 36 + k)

/-- ENC_PBCH on encoder `m`: the SSB's place comes from the build report. -/
def State.encodePbch (s : State) (m : Nat) : State :=
  match s.startCoding 3 m niEncoder 4 (badEncDesc 4) with
  | .ended t => t
  | .run r desc t =>
    let cell := relCell r.word
    let nsc := leAt desc 0x0C 2
    let ssb := leAt desc 0x0E 1
    let build := t.rd .ALM_ACTIVE_BUILD
    let mib := t.fld (.DEC_CELL_C cell) Fld.DEC_CELL_C_MIB
    let pci := t.fld (.DEC_CELL_C cell) Fld.DEC_CELL_C_PCI
    let start := slotNamed (t.slotLen cell) t.pos (relSlotOfs r.word)
    let sfn := start / 1120 % 1024
    let ports := t.ltePorts cell
    let samples : List ((Nat × Nat × Nat) × Cplx) :=
      if t.fld (.DEC_CELL_C cell) Fld.DEC_CELL_C_LTE = 1 then
        ((bchRes nsc pci).zip (diversity ports none (qpskSamples 8192 (bchBits mib pci sfn ports)))).flatMap fun p =>
          p.2.map fun x => ((p.1.1, x.1, p.1.2), x.2)
      else
        ((pbchPlaces pci false).zip (qpskSamples 8192 (pbchBits mib pci sfn (start % 1120 / 560) ssb (Config.ssbMost build cell)))).map fun p =>
          (((Config.ssbSymbol build cell ssb).toNat + p.1.1, 0, (Config.ssbCarrier build cell ssb).toNat + p.1.2), p.2)
    let w := t.writeGrid (leAt desc 0x18 8) (leAt desc 0x28 4) nsc samples
    match w.1 with
    | some f => w.2.engineFault ⟨3, m, 0⟩ 0 f.1 f.2
    | none => w.2.markRan r

/-! ### The LTE control region (TS 36.211 clauses 6.2.4, 6.7.4, 6.8.5 and 6.9.3) -/

/-- First subcarriers of the REGs of a control symbol, and a REG's span: 6 subcarriers where CRS takes two of them, else 4. -/
def lteRegs (nsc ports sym : Nat) : List Nat × Nat :=
  if sym = 0 ∨ (sym = 1 ∧ ports = 4) then ((List.range (nsc / 6)).map (6 * ·), 6) else ((List.range (nsc / 4)).map (4 * ·), 4)

/-- The four REs of a REG: CRS of ports 0 and 1 are left out even where the cell has one port. -/
def lteRegRes (pci ports sym k : Nat) (span : Nat) : List (Nat × Nat) :=
  (((List.range span).map (k + ·)).filter fun c => !isCrs (if ports = 4 then 2 else 1) pci 0 sym c).map fun c => (sym, c)

/-- The REGs of the PCFICH. -/
def pcfichRegs (nsc pci : Nat) : List (Nat × Nat) :=
  let rb := nsc / 12
  (List.range 4).map fun i => (0, (6 * (pci % (2 * rb)) + 6 * (i * rb / 2)) % nsc / 6 * 6)

/-- PHICH groups and whether their duration is extended, from phich-Config of the MIB. -/
def phichConfig (mib nsc : Nat) : Nat × Bool :=
  let ng := [1, 3, 6, 12].getD (bitsOf mib 18 2) 1
  (ceilDiv (ng * (nsc / 12)) 48, bitsOf mib 20 1 == 1)

/-- The REGs of PHICH group `g`. -/
def phichRegs (mib nsc pci ports g : Nat) : List (Nat × Nat) :=
  let free (l : Nat) : List Nat := (lteRegs nsc ports l).1.filter fun k => !(pcfichRegs nsc pci).contains (l, k)
  (List.range 3).map fun i =>
    let l := if (phichConfig mib nsc).2 then i else 0
    let n := (free l).length
    let base := if l = 0 then pci else pci * n / max 1 (free 0).length
    (l, (free l).getD ((base + g + i * n / 3) % max 1 n) 0)

/-- The REGs left to the PDCCH in mapping order: subcarriers first, and symbols for each (clause 6.8.5). -/
def pdcchRegs (mib nsc pci ports symbols : Nat) : List (Nat × Nat) :=
  let used := pcfichRegs nsc pci ++ (List.range (phichConfig mib nsc).1).flatMap (phichRegs mib nsc pci ports)
  (List.range nsc).flatMap fun k => ((List.range symbols).filter fun l => (lteRegs nsc ports l).1.contains k).filterMap fun l =>
    if used.contains (l, k) then none else some (l, k)

/-- Quadruplet of the CCEs that each PDCCH REG carries: interleaved like a stream of the convolutional code and shifted by the cell
identity. -/
def pdcchQuads (n pci : Nat) : List Nat :=
  let w := convOrder n
  (List.range n).map fun i => w.getD ((i + pci) % max 1 n) 0

/-- The control symbols of an LTE subframe: what the CFI of a held request of the cell and subframe gives, 3 where none does; one more
in a narrow cell (TS 36.212 clause 5.3.4). -/
def State.controlSymbols (s : State) (cell start nsc : Nat) : Nat :=
  let es := (s.drv.store.filter fun q => q.cell == cell && q.start == start && q.dir == 0).flatMap fun q => q.entries
  (match es.find? fun e => entKind e == 6 && entParam e 0 2 == 3 with
  | some e => entParam e 32 2 + 1
  | none => 3) + (if nsc ≤ 120 then 1 else 0)

/-- The LTE control entries of a subframe. -/
def State.controlEntries (s : State) (cell start : Nat) : List (List Byte) :=
  ((s.drv.store.filter fun q => q.cell == cell && q.start == start && q.dir == 0).flatMap fun q => q.entries).filter fun e =>
    entKind e == 6 && entParam e 0 2 != 0

/-- The control region: for each REG that carries something the index of its first sample in the buffer, and the rows of four-port coding
where it is a PHICH's. -/
def State.controlMap (s : State) (cell start nsc : Nat) : List ((Nat × Nat) × Nat × Option Bool) :=
  let mib := s.fld (.DEC_CELL_C cell) Fld.DEC_CELL_C_MIB
  let pci := s.fld (.DEC_CELL_C cell) Fld.DEC_CELL_C_PCI
  let ports := s.ltePorts cell
  let es := s.controlEntries cell start
  let regs := pdcchRegs mib nsc pci ports (s.controlSymbols cell start nsc)
  let cces := es.flatMap fun e => if entParam e 0 2 = 1 then (List.range (2 ^ entParam e 8 3)).map fun i => entParam e 16 16 + i else []
  let groups := (es.filterMap fun e => if entParam e 0 2 = 2 then some (entParam e 16 8) else none).eraseDups
  (if es.any fun e => entParam e 0 2 == 3 then (pcfichRegs nsc pci).zipIdx.map fun p => (p.1, (Config.lteControlBase 0).toNat + 4 * p.2, none)
    else [])
    ++ (groups.flatMap fun g => (phichRegs mib nsc pci ports g).zipIdx.map fun p =>
        (p.1, (Config.lteControlBase 1).toNat + 12 * g + 4 * p.2, some ((p.2 + g) % 2 == 1)))
    ++ (regs.zip (pdcchQuads regs.length pci)).filterMap fun p =>
        if cces.contains (p.2 / 9) then some (p.1, (Config.lteControlBase 2).toNat + 4 * p.2, none) else none

/-- The REGs of a control region read from the buffer one by one: what each RE carries. -/
def State.readControl (s : State) (buf pci ports nsc : Nat) :
    List ((Nat × Nat) × Nat × Option Bool) → (Option (Nat × Reply)) × List ((Nat × Nat × Nat) × Cplx) × State
  | [] => (none, [], s)
  | ((l, k), i, fixed) :: rest =>
    let r := s.agentRead niEncoder (buf + 4 * i) 16
    if r.1.status ≠ stOk then (some (buf + 4 * i, r.1), [], r.2) else
      let here := ((lteRegRes pci ports l k (lteRegs nsc ports l).2).zip (diversity ports fixed (cplxList r.1.data))).flatMap fun p =>
        p.2.map fun x => ((p.1.1, x.1, p.1.2), x.2)
      let t := State.readControl r.2 buf pci ports nsc rest
      (t.1, here ++ t.2.1, t.2.2)

/-- LTE_CTRL_MAP on encoder `m`. -/
def State.mapControl (s : State) (m : Nat) : State :=
  match s.startCoding 3 m niEncoder 5 (badEncDesc 5) with
  | .ended t => t
  | .run r desc t =>
    let cell := relCell r.word
    let nsc := leAt desc 0x0C 2
    let start := slotNamed (t.slotLen cell) t.pos (relSlotOfs r.word)
    let pci := t.fld (.DEC_CELL_C cell) Fld.DEC_CELL_C_PCI
    let x := t.readControl (leAt desc 0x10 8) pci (t.ltePorts cell) nsc (t.controlMap cell start nsc)
    match x.1 with
    | some f => x.2.2.engineFault ⟨3, m, 0⟩ 0 f.1 f.2
    | none =>
      let w := x.2.2.writeGrid (leAt desc 0x18 8) (leAt desc 0x28 4) nsc x.2.1
      match w.1 with
      | some f => w.2.engineFault ⟨3, m, 0⟩ 0 f.1 f.2
      | none => w.2.markRan r

/-! ### Commands -/

/-- ENC_CTRL. -/
def execEncCtrl (m : Fin 8) (s : State) : Out := working (fun t => t.encodeControl m) s
/-- ENC_PBCH. -/
def execEncPbch (m : Fin 8) (s : State) : Out := working (fun t => t.encodePbch m) s
/-- LTE_CTRL_MAP. -/
def execLteCtrlMap (m : Fin 8) (s : State) : Out := working (fun t => t.mapControl m) s

end Sys2Proof.Machine
end

