-- ==== Sys2Proof/Machine/Kernels.lean ====
section
/-!
DEFINITION. The kernels of the Folds (R128 to R133, R138 to R140, R178, R180). A kernel command stands for the whole work of one release of
the kernel's program; what Taruno placed and the build fixed is in its operands. The formulas of R129 to R133 and the decoders of R178 are
computed; how a kernel rounds, the noise it estimates and the scale of its weights are free (log 12).
-/
namespace Sys2Proof.Machine

/-- The work of the kernel release in service on a core: an entry of a kind that the kernel does not serve is rejected (R126). -/
def State.kernel (s : State) (f c : Nat) (kinds : List Nat) (body : Release → List Byte → State → State) : State :=
  let s := s.whenServed 0 f c 0
  match s.serving 0 f c 0 with
  | none => s
  | some r =>
    if r.ran then s else match s.entryOf r with
    | some e => if kinds.contains (entKind e) then body r e s else s.rejectEntry r
    | none => body r [] s

/-- A kernel's output written from its Fold, which ends its work. -/
def State.kernelWrite (s : State) (f c : Nat) (r : Release) (a : Nat) (bytes : List Byte) : State :=
  let w := s.agentWrite f a bytes
  if w.1.status ≠ stOk then w.2.engineFault ⟨0, f, c⟩ 0 a w.1 else w.2.markRan r

/-! ### GAIN_SELECT (R127 to R129) -/

/-- The antennas of a cell: its uplink data eAxC entries. -/
def State.uplinkAnts (s : State) (cell : Nat) : List Nat :=
  s.eaxcs fun n => s.eaxc n Fld.FHL_EAXC_CELL == cell && s.eaxc n Fld.FHL_EAXC_DIR == 0 && s.eaxc n Fld.FHL_EAXC_KIND == 0

/-- Whether a / b is at most 10^(n / k), for positive `k`. -/
def powLe (a b k : Nat) (n : Int) : Bool :=
  if n < 0 then decide (a ^ k * 10 ^ n.natAbs ≤ b ^ k) else decide (a ^ k ≤ 10 ^ n.natAbs * b ^ k)

/-- What GAIN_SELECT found of an antenna: the sum of |x|² of the gained samples, their number, and the components at full scale. -/
structure Level where
  power : Nat
  count : Nat
  clipped : Nat
  deriving DecidableEq, Repr

/-- A sample added to a level. -/
def Level.add (l : Level) (x : Cplx) : Level :=
  let full (v : Int) : Nat := if v = 32767 ∨ v = -32768 then 1 else 0
  { power := l.power + (x.re * x.re + x.im * x.im).natAbs, count := l.count + 1, clipped := l.clipped + full x.re + full x.im }

/-- Whether a level exceeds `q4` quarters of a dBFS; the square of full scale is the unit. -/
def Level.above (l : Level) (q4 : Int) : Bool := !powLe l.power (l.count * (2 * 32767 * 32767)) 40 q4

/-- Whether a level lies below `q4` quarters of a dBFS. -/
def Level.below (l : Level) (q4 : Int) : Bool := !powLe (l.count * (2 * 32767 * 32767)) l.power 40 (-q4)

/-- Whether a level is at most `t` quarters of a dB and `n` steps of 3.01 dB. -/
def Level.within (l : Level) (t n : Int) : Bool := powLe l.power (l.count * (2 * 32767 * 32767)) 1000 (25 * t + 301 * n)

/-- The step that R129 gives an antenna, before the clamp. -/
def gainStepOf (cfg : Word) (l : Level) (hold : Nat) : Int :=
  let t := signedOf 8 (Fld.MCE_GAIN_CFG_TARGET.get cfg)
  let h : Int := (Fld.MCE_GAIN_CFG_HYST.get cfg : Nat)
  let most := Fld.MCE_GAIN_CFG_MAX_STEPS.get cfg
  if 1000000 * l.clipped > Fld.MCE_GAIN_CFG_CLIP_PPM.get cfg * (2 * l.count) then -2
  else if hold > 0 then 0
  else if l.above (t + h) then -(((List.range most).find? fun (n : Nat) => l.within t (n : Int)).getD most : Nat)
  else if l.below (t - h) then ((((List.range most).filter fun (n : Nat) => l.within t (-((n : Int) + 1))).length : Nat) : Int)
  else 0

/-- The gained samples of an antenna's received PRBs in a slot, symbol by symbol. -/
def State.antennaLevel (s : State) (f eaxc cell slot g : Nat) : List (Nat × Nat) → Level → (Option (Nat × Reply)) × Level × State
  | [], l => (none, l, s)
  | (sym, prb) :: rest, l =>
    if (s.presence eaxc (s.occurrence cell slot sym)).testBit prb then
      let a := s.rowAddr eaxc slot sym false + 48 * prb
      let r := s.agentRead f a 48
      if r.1.status ≠ stOk then (some (a, r.1), l, r.2) else
        State.antennaLevel r.2 f eaxc cell slot g rest ((cplxList r.1.data).foldl (fun m x => m.add (gainStep g x).1) l)
    else State.antennaLevel s f eaxc cell slot g rest l

/-- The antennas of a cell in turn: each received antenna's gain index and hold count (R129). -/
def State.gainAntennas (s : State) (f cell slot : Nat) : List Nat → List Byte → (Option (Nat × Reply)) × List Byte × State
  | [], v => (none, v, s)
  | n :: ns, v =>
    let ant := s.eaxc n Fld.FHL_EAXC_ANT
    let g := (v.getD ant 0).toNat % 16
    let where_ := (List.range 14).flatMap fun sym => (List.range (s.eaxc n Fld.FHL_EAXC_NPRB)).map fun p => (sym, p)
    let r := s.antennaLevel f n cell slot g where_ ⟨0, 0, 0⟩
    match r.1 with
    | some e => (some e, v, r.2.2)
    | none =>
      if r.2.1.count = 0 then State.gainAntennas r.2.2 f cell slot ns v else
        let key := 64 * cell + ant
        let hold := SMap.get zeroNat s.mce.hold key
        let cfg := s.rd .MCE_GAIN_CFG
        let g' := (max 0 (min 15 ((g : Int) + gainStepOf cfg r.2.1 hold))).toNat
        let hold' := if g' ≠ g then Fld.MCE_GAIN_CFG_HOLD.get cfg else hold - 1
        let t := r.2.2
        State.gainAntennas { t with mce := { t.mce with hold := SMap.set zeroNat t.mce.hold key hold' } } f cell slot ns
          (v.set ant (BitVec.ofNat 8 (setBitsOf (v.getD ant 0).toNat 0 4 g')))

/-- GAIN_SELECT with the gain vector at `a`. -/
def State.gainSelect (s : State) (f c a : Nat) : State :=
  let s := s.whenServed 0 f c 0
  match s.serving 0 f c 0 with
  | none => s
  | some r =>
    if r.ran then s else
      let cell := relCell r.word
      let slot := slotNamed (s.slotLen cell) s.pos (relSlotOfs r.word)
      let v := s.agentRead f a 64
      if v.1.status ≠ stOk then v.2.engineFault ⟨0, f, c⟩ 0 a v.1 else
        let w := v.2.gainAntennas f cell slot (v.2.uplinkAnts cell) v.1.data
        match w.1 with
        | some e => w.2.2.engineFault ⟨0, f, c⟩ 0 e.1 e.2
        | none => w.2.2.kernelWrite f c r a w.2.1

/-! ### Channel estimates (R128, R130) -/

/-- The RB groups that `count` PRBs from `first` touch, and the subcarriers of each, from the first PRB's. -/
def rbGroups (gLog2 first count : Nat) : List (Nat × List Nat) :=
  let lo := first / 2 ^ gLog2
  (List.range ((first + count - 1) / 2 ^ gLog2 - lo + 1)).map fun i =>
    (lo + i, (List.range (12 * count)).filter fun k => (first + k / 12) / 2 ^ gLog2 == lo + i)

/-- Least squares over some subcarriers: the mean of the samples against the reference points found there, times a gain. -/
def leastSquares (ys : List Cplx) (ref : Nat → Option Turn) (ks : List Nat) (gain : Rat) : CRat :=
  let terms := ks.filterMap fun k => (ref k).map fun x => (ys.getD k Cplx.zero).rat.mul (x.point.rat.smul (mkRat 1 (2 ^ 96))).conj
  (CRat.sum terms).smul (gain / max 1 (terms.length : Rat))

/-- Byte offset of an estimate in the table of a cell: RB group, antenna and DMRS port, eight ports to an antenna and 64 antennas to a
group. The layout is a DESIGN CHOICE (log 12). -/
def estimateAt (group ant port : Nat) : Nat := ((group * 64 + ant) * 8 + port) * 4

/-- Byte offset of an estimate in a channel store: groups of 4 PRBs, four SRS ports to an antenna (DESIGN CHOICE, log 12). -/
def storeAt (group ant port : Nat) : Nat := ((group * 64 + ant) * 4 + port) * 4

/-- Device address of the channel store that WEIGHT_SET names in a cell (R133). -/
def State.storeBase (s : State) (cell ws : Nat) : Nat :=
  pastureBase + (Config.channelStore (s.rd .ALM_ACTIVE_BUILD) cell ws).toNat % pastureSize

/-- Samples written in turn, each list at its address. -/
def State.writeSamples (s : State) (f : Nat) : List (Nat × List Cplx) → (Option (Nat × Reply)) × State
  | [] => (none, s)
  | (a, xs) :: rest =>
    let w := s.agentWrite f a (cplxBytes xs)
    if w.1.status ≠ stOk then (some (a, w.1), w.2) else State.writeSamples w.2 f rest

/-- The estimates of one antenna after another, each from the row of a symbol: `est` gives where each RB group's values go and what they
are before rounding, from the antenna and its samples. -/
def State.estimateAnts (s : State) (f slot sym first count : Nat) (est : Nat → List Cplx → List (Nat × List CRat)) :
    List Nat → (Option (Nat × Reply)) × State
  | [] => (none, s)
  | n :: ns =>
    let a := s.rowAddr n slot sym false + 48 * first
    let x := s.agentRead f a (48 * count)
    if x.1.status ≠ stOk then (some (a, x.1), x.2) else
      let rows := est (s.eaxc n Fld.FHL_EAXC_ANT) (cplxList x.1.data)
      let z := x.2.roundSamples (rows.flatMap (·.2))
      let out := rows.foldl (fun (acc : List (Nat × List Cplx) × List Cplx) r =>
        (acc.1 ++ [(r.1, acc.2.take r.2.length)], acc.2.drop r.2.length)) ([], z.1)
      let w := z.2.writeSamples f out.1
      match w.1 with
      | some e => (some e, w.2)
      | none => State.estimateAnts w.2 f slot sym first count est ns

/-- The work of a kernel that estimates: its end, or its fault. -/
def State.kernelEnd (s : State) (f c : Nat) (r : Release) (fault : Option (Nat × Reply)) : State :=
  match fault with
  | some x => s.engineFault ⟨0, f, c⟩ 0 x.1 x.2
  | none => s.markRan r

/-- The reference points of a data entry's DMRS port in its first DMRS symbol, by subcarrier from the entry's first. -/
def State.entryDmrs (s : State) (q : Request) (e : List Byte) (sym layer k : Nat) : Option Turn :=
  if entKind e = 8 then some (lteDmrs e q.cell (s.fld (.DEC_CELL_C q.cell) Fld.DEC_CELL_C_PCI) (2 * (q.slot % 10)) layer k)
  else puschDmrs e q.slot sym (entPortBase e + layer) (12 * entPrbStart e + k)

/-- PUSCH_CHEST and LTE_PUSCH_CHEST: the estimates of the entry's ports from its first DMRS symbol, scaled by each antenna's gain (R128),
into the table at `out`; the entry's SINR, TIMING and FO are free (R139). -/
def State.puschChest (s : State) (f c gain out gLog2 : Nat) : State :=
  s.kernel f c [2, 8] fun r e t =>
    match r.req.bind t.request with
    | none => t.markRan r
    | some q =>
      let v := t.draw 48
      let t1 := v.2.entryResult r fun x => { x with kind := setBitsOf x.kind 0 48 v.1 }
      let g := t1.agentRead f gain 64
      if g.1.status ≠ stOk then g.2.engineFault ⟨0, f, c⟩ 0 gain g.1 else
        let sym := (((List.range 14).find? (isDmrs e))).getD 0
        let groups := rbGroups gLog2 (entPrbStart e) (entPrbCount e)
        let w := g.2.estimateAnts f q.start sym (entPrbStart e) (entPrbCount e) (fun ant ys =>
          let m := gainOf ((g.1.data.getD ant 0).toNat % 16)
          groups.map fun grp => (out + estimateAt grp.1 ant (entPortBase e), (List.range (entLayers e)).map fun layer =>
            leastSquares ys (t.entryDmrs q e sym layer) grp.2 (mkRat m.1 (2 ^ m.2)))) (t.uplinkAnts q.cell)
        w.2.kernelEnd f c r w.1

/-! ### Weights (R116, R130, R135) -/

/-- A free positive number: a noise power, a regularisation or a scale that the spec leaves to the kernel. -/
def State.drawPositive (s : State) : Rat × State :=
  let v := s.draw 64
  (mkRat (v.1 + 1) (2 ^ 32), v.2)

/-- Weight blocks with free SHIFT: each block's weights, as values to be scaled by 2 ^ SHIFT, row by row. -/
def State.weightBlocks (s : State) (rows cols stride : Nat) : List CMat → List Byte × State
  | [] => ([], s)
  | w :: ws =>
    let shift := s.draw 5
    let z := shift.2.roundSamples ((List.range rows).flatMap fun i => (List.range cols).map fun j => (w.get i j).smul (twoPow shift.1))
    let b := leBytes 1 shift.1 ++ leBytes 1 rows ++ leBytes 1 cols ++ List.replicate 61 0 ++ cplxBytes z.1
    let rest := State.weightBlocks z.2 rows cols stride ws
    (slice b 0 (max stride b.length) ++ rest.1, rest.2)

/-- The estimates of RB groups read from a table: antennas by ports. -/
def State.readEstimates (s : State) (f base ants ports : Nat) : List Nat → (Option (Nat × Reply)) × List CMat × State
  | [] => (none, [], s)
  | g :: gs =>
    let a := base + estimateAt g 0 0
    let x := s.agentRead f a 2048
    if x.1.status ≠ stOk then (some (a, x.1), [], x.2) else
      let h := CMat.build ants ports fun i j => (cplxOf (leAt x.1.data (estimateAt 0 i j) 4)).rat
      let rest := State.readEstimates x.2 f base ants ports gs
      (rest.1, h :: rest.2.1, rest.2.2)

/-- (HᴴH + σ²I)⁻¹ of estimates of `ants` antennas and `ports` ports. -/
def mmseInverse (h : CMat) (ants ports : Nat) (noise : Rat) : CMat :=
  let g := (h.herm ants ports).mul h ports ants ports
  (CMat.build ports ports fun i j => (g.get i j).add (if i = j then ⟨noise, 0⟩ else CRat.zero)).solve
    (CMat.build ports ports fun i j => if i = j then CRat.one else CRat.zero) ports ports

/-- Mean energy, in odd-integer coordinates, of the constellation that a layer row carries in an RB group: that of the entry of the
slot's held requests that has the row there, QPSK where none has. -/
def State.rowEnergy (s : State) (cell start gLog2 group row : Nat) : Nat :=
  let es := (s.drv.store.filter fun q => q.cell == cell && q.start == start && q.dir == 1).flatMap fun q => q.entries
  match es.find? fun e => (entKind e == 2 || entKind e == 8) && decide (entPortBase e ≤ row) && decide (row < entPortBase e + entLayers e)
      && decide (entPrbStart e / 2 ^ gLog2 ≤ group) && decide (group ≤ (entPrbStart e + entPrbCount e - 1) / 2 ^ gLog2) with
  | some e => meanEnergy (entQm e)
  | none => 2

/-- One group's weights and scales: W = (HᴴH + σ²I)⁻¹Hᴴ with each row scaled to U a coordinate, and S such that one LLR step is a quarter
of a natural-log unit at the row's SINR (R130, R135). -/
def mmseGroup (h : CMat) (ants ports unitLog2 : Nat) (noise : Rat) (energy : Nat → Nat) : CMat × List Rat :=
  let inv := mmseInverse h ants ports noise
  let w := inv.mul (h.herm ants ports) ports ports ants
  (CMat.build ports ants fun i j => (w.get i j).smul (sqrtQ (energy i : Nat) * twoPow unitLog2),
   (List.range ports).map fun i =>
     let sinr := 1 / (noise * (inv.get i i).re) - 1
     max 0 (min 65535 (4096 * sinr / (energy i : Nat))))

/-- PUSCH_MMSE and LTE_PUSCH_MMSE: the uplink weight set and the scale table for RB groups `first` on, from the estimates at `est`; the
noise power is the kernel's own estimate. -/
def State.puschMmse (s : State) (f c est weights scale rows cols first groups stride gLog2 unitLog2 : Nat) : State :=
  s.kernel f c [2, 8] fun r _ t =>
    let gs := (List.range groups).map (first + ·)
    let x := t.readEstimates f est cols rows gs
    match x.1 with
    | some e => x.2.2.engineFault ⟨0, f, c⟩ 0 e.1 e.2
    | none =>
      let cell := relCell r.word
      let slot := slotNamed (t.slotLen cell) t.pos (relSlotOfs r.word)
      let n := x.2.2.drawPositive
      let ws := (gs.zip x.2.1).map fun g => mmseGroup g.2 cols rows unitLog2 n.1 (t.rowEnergy cell slot gLog2 g.1)
      let b := n.2.weightBlocks rows cols stride (ws.map (·.1))
      let w := b.2.agentWrite f weights b.1
      if w.1.status ≠ stOk then w.2.engineFault ⟨0, f, c⟩ 0 weights w.1 else
        let z := w.2.roundFree (ws.flatMap fun x => (List.range 8).map fun i => x.2.getD i 0)
        z.2.kernelWrite f c r (scale + 16 * first) (z.1.flatMap fun v => leBytes 2 v.toNat)

/-! ### Phase (R131) -/

/-- One estimate entered into the FO table (R131): a quarter of the difference is added, and its rounding is free. -/
def State.foUpdate (s : State) (cell rnti : Nat) (est : Int) : State :=
  let key := 256 * cell + rnti % 256
  let old := SMap.get (fun _ => ((0 : Nat), (0 : Int))) s.mce.fo key
  let up := s.drawBool
  let d := est - old.2
  let fo := if old.1 = rnti then old.2 + d / 4 + (if d % 4 ≠ 0 ∧ up.1 then 1 else 0) else est
  { up.2 with mce := { up.2.mce with fo := SMap.set (fun _ => ((0 : Nat), (0 : Int))) up.2.mce.fo key (rnti, fo) } }

/-- FO_TRACK with the estimates of the slot, each an RNTI and a frequency offset. -/
def State.foTrack (s : State) (f c : Nat) (est : List (BitVec 16 × BitVec 32)) : State :=
  let s := s.whenServed 0 f c 0
  match s.serving 0 f c 0 with
  | none => s
  | some r =>
    if r.ran then s else
      (est.foldl (fun t x => t.foUpdate (relCell r.word) x.1.toNat x.2.toInt) s).markRan r

/-- The frequency offset that an entry's lookup finds (R131). -/
def State.foOf (s : State) (cell rnti : Nat) : Int :=
  let e := SMap.get (fun _ => ((0 : Nat), (0 : Int))) s.mce.fo (256 * cell + rnti % 256)
  if e.1 = rnti then e.2 else 0

/-- PUSCH_PHASE: the phase record at `a`: p_s = exp(−j(cpe_s + 2π · fo · t_s)) in Q1.15, where symbol s starts s symbol periods of R12 after
its slot (DEDUCED), and cpe_s is an estimate from PTRS, 0 with PTRS off (R131). -/
def State.puschPhase (s : State) (f c a : Nat) : State :=
  s.kernel f c [2, 8] fun r e t =>
    let fo := t.foOf (relCell r.word) (entRnti e)
    let ptrs := entKind e == 2 && entParam e 18 1 == 1
    let v := t.draw (16 * 14)
    let word (sym : Nat) : CRat :=
      let drift : Turn := ⟨-(fo * (sym * t.slotLen (relCell r.word) : Nat)), 14 * ticksPerSecond⟩
      let cpe : Turn := ⟨-((if ptrs then bitsOf v.1 (16 * sym) 16 else 0 : Nat) : Int), 2 ^ 16⟩
      (drift.add cpe).point.rat.smul (mkRat 1 (2 ^ 81))
    let z := v.2.roundSamples ((List.range 14).map word)
    z.2.kernelWrite f c r a (cplxBytes z.1 ++ List.replicate 8 0)

/-! ### PUSCH_TP_IDFT -/

/-- The rows that PUSCH_TP_IDFT transforms, one per data symbol. -/
def idftRows (e : List Byte) (base nsc stride : Nat) : List Nat :=
  (dataSymbols e).map fun sym => base + sym * stride + (entPortBase e * nsc + 12 * entPrbStart e) * 4

/-- Rows of `n` samples transformed in place by the DFU, at SHIFT 0 and within its 2 LSB (R256). -/
def State.idftEach (s : State) (f n : Nat) : List Nat → (Option (Nat × Reply)) × State
  | [] => (none, s)
  | a :: rest =>
    let x := s.agentRead f a (4 * n)
    if x.1.status ≠ stOk then (some (a, x.1), x.2) else
      let z := x.2.slacken 2 (dft true n 0 (cplxList x.1.data))
      let w := z.2.agentWrite f a (cplxBytes z.1)
      if w.1.status ≠ stOk then (some (a, w.1), w.2) else State.idftEach w.2 f n rest

/-- PUSCH_TP_IDFT and LTE_PUSCH_IDFT, in place; an NR entry without transform precoding is left as it is. -/
def State.puschIdft (s : State) (f c base nsc stride : Nat) : State :=
  s.kernel f c [2, 8] fun r e t =>
    if entKind e = 2 ∧ !entTp e then t.markRan r else
      let w := t.idftEach f (12 * entPrbCount e) (idftRows e base nsc stride)
      w.2.kernelEnd f c r w.1

/-! ### UCI (R139, R140, R178, R180) -/

/-- Bits in whole bytes, least significant bit first; the bits past the end are 0. -/
def uciPack (bits : List Bool) : List Byte := leBytes (ceilDiv bits.length 8) (natOfBits bits)

/-- The bit counts of the UCI parts of an entry in the order in which they are written. -/
def uciCounts (e : List Byte) : List Nat :=
  match entKind e with
  | 2 => [entParam e 32 16, entParam e 48 16, entParam e 64 16]
  | 8 => [entParam e 16 16, entParam e 32 8, entParam e 48 16]
  | _ => [entParam e 64 16, entParam e 96 16, entParam e 112 16]

/-- Polar decoding of `n` bits of UCI, in two blocks where they are many (TS 38.212 clause 6.3.1.2.1); whether every CRC passed. -/
def polarUciDecode (n : Nat) (llrs : List Int) : List Bool × Bool :=
  if 1013 ≤ n ∨ (360 ≤ n ∧ 1088 ≤ llrs.length) then
    let half := ceilDiv n 2
    let e := llrs.length / 2
    let p := polarUci half e true
    let a := p.decode false 0 (llrs.take e)
    let b := p.decode false 0 ((llrs.drop e).take e)
    ((a.payload ++ b.payload).drop (2 * half - n), a.ok && b.ok)
  else
    let o := (polarUci n llrs.length false).decode false 0 llrs
    (o.payload, o.ok)

/-- The bits of a UCI part of `n` bits, and whether its CRC passed where it has one: the search over a small code gives one of the words
that agree best (R178). -/
def State.uciDecode (s : State) (qm n : Nat) (llrs : List Int) : List Bool × Option Bool × State :=
  if n = 0 then ([], none, s)
  else if n ≤ 11 then
    let best := smallBest qm n llrs
    let v := s.draw 11
    let w := best.getD (v.1 % max 1 best.length) 0
    ((List.range n).map w.testBit, none, v.2)
  else
    let o := polarUciDecode n llrs
    (o.1, some o.2, s)

/-- As `uciDecode` for LTE: CQI of more than 11 bits has a CRC of 8 bits and the convolutional code; more than 11 bits of HARQ-ACK or RI are
in codes that the spec does not name: free (R152, R178). -/
def State.lteUciDecode (s : State) (cqi : Bool) (qm n : Nat) (llrs : List Int) : List Bool × Option Bool × State :=
  if n ≤ 11 then s.uciDecode qm n llrs
  else if cqi then
    let b := viterbiDecode (convRecover (n + 8) llrs)
    (b.take n, some (crc8 (b.take n) == natOfMsbBits (b.drop n)), s)
  else
    let v := s.draw n
    ((List.range n).map v.1.testBit, none, v.2)

/-- The LLRs of a part from the entry's LLRs. A placeholder y repeats the scrambled bit before it: its LLR, which DEMAP has descrambled as a
bit of its own, is turned back (R136; TS 38.211 clause 6.3.1.1). -/
def partLlrs (init qm n : Nat) (llrs : List Int) (at_ : List (Option Nat)) : List Int :=
  at_.zipIdx.map fun p => match p.1 with
    | none => 0
    | some i =>
      let l := llrs.getD i 0
      if n = 1 ∧ 2 ≤ qm ∧ p.2 % qm = 1 ∧ parityOf (goldBits init (i - 1) 2) then -l else l

/-- Parts decoded in turn: their bytes, their bits, and their CRC results. -/
def State.uciParts (s : State) (decode : State → Nat → Nat → List Int → List Bool × Option Bool × State) :
    List (Nat × Nat × List Int) → List Byte × List (Nat × Option Bool) × State
  | [] => ([], [], s)
  | (i, n, llrs) :: rest =>
    let o := decode s i n llrs
    let t := State.uciParts o.2.2 decode rest
    (uciPack o.1 ++ t.1, (n, o.2.1) :: t.2.1, t.2.2)

/-- A result flag: what a CRC gave; free for a part that has bits and no CRC, 0 for one without bits. -/
def State.uciFlag (s : State) (p : Nat × Option Bool) : Bool × State :=
  match p.2 with
  | some b => (b, s)
  | none => if p.1 = 0 then (false, s) else s.drawBool

/-- Flags of a result from its parts, in ascending bits. -/
def State.uciFlags (s : State) : List (Nat × Option Bool) → Nat → Nat × State
  | [], _ => (0, s)
  | p :: ps, bit =>
    let v := s.uciFlag p
    let rest := State.uciFlags v.2 ps (bit + 1)
    ((if v.1 then 2 ^ bit else 0) + rest.1, rest.2)

/-- PUSCH_UCI and LTE_UCI: the parts of UCI decoded and written after the transport block where DATA_ADDR has room for them, the flags,
and the UL-SCH LLRs for the decoder (R136, R178, R180). -/
def State.puschUci (s : State) (f c llrs ulsch : Nat) (lte : Bool) : State :=
  s.kernel f c [if lte then 8 else 2] fun r e t =>
    let n := uciCounts e
    let src := t.agentRead f llrs (llrOffset e 14)
    if src.1.status ≠ stOk then src.2.engineFault ⟨0, f, c⟩ 0 llrs src.1 else
      let plan := uciPlan e
      let l := src.1.data.map fun b => b.toInt
      let slot := ((r.req.bind t.request).map (·.slot)).getD 0
      let init := uplinkInit e (slot % 10) (t.fld (.DEC_CELL_C (relCell r.word)) Fld.DEC_CELL_C_PCI)
      let parts := n.zipIdx.map fun p => (p.2, p.1, partLlrs init (entQm e) p.1 l (plan.parts.getD p.2 []))
      let u := src.2.uciParts (fun x i k ls => if lte then x.lteUciDecode (i == 2) (entQm e) k ls else x.uciDecode (entQm e) k ls) parts
      let part (i : Nat) : Nat × Option Bool := u.2.1.getD i (0, none)
      let fl := u.2.2.uciFlags (if lte then [((part 0).1, none), ((part 1).1, none), part 2] else [((part 0).1, none), part 0, part 1, part 2]) 0
      let t1 := if u.1 = [] ∨ entDataAddr e = 0 then fl.2 else fl.2.write70 f (entDataAddr e + (uciBytes e).1) u.1
      let t2 := t1.entryResult r fun x => { x with kind := setBitsOf x.kind 48 4 fl.1 }
      t2.kernelWrite f c r ulsch (plan.ulsch.map fun p => match p with
        | some i => src.1.data.getD i 0
        | none => 0)

/-! ### PUCCH -/

/-- The rows of an entry's PRBs read from every antenna of the cell in its symbols: the first fault. -/
def State.readAntennas (s : State) (f slot : Nat) (e : List Byte) : List (Nat × Nat) → (Option (Nat × Reply)) × State
  | [] => (none, s)
  | (n, sym) :: rest =>
    let a := s.rowAddr n slot sym false + 48 * entPrbStart e
    let x := s.agentRead f a (48 * entPrbCount e)
    if x.1.status ≠ stOk then (some (a, x.1), x.2) else State.readAntennas x.2 f slot e rest

/-- Coded bits that a PUCCH of formats 2 to 4 carries (TS 38.212 clause 6.3.1.4, TS 38.211 clause 6.4.1.3.3.2). -/
def pucchBits (e : List Byte) : Nat :=
  let n := entSymCount e
  let add := entParam e 9 1 == 1
  let hop := entParam e 8 1 == 1
  let dmrs := if n ≤ 4 then (if hop then 2 else 1) else if n ≤ 9 then 2 else if add then 4 else 2
  let qm := if entParam e 10 1 = 1 then 1 else 2
  match entParam e 0 8 with
  | 2 => 16 * n * entPrbCount e
  | 3 => (n - dmrs) * 12 * entPrbCount e * qm
  | 4 => (n - dmrs) * 12 * qm / max 1 (entParam e 60 4)
  | _ => 0

/-- The bits of a PUCCH: HARQ-ACK, SR and CSI part 1 coded together, then CSI part 2, and what the CRCs gave. The LLRs that the kernel
forms are free; formats 0 and 1 carry their bits in a choice of sequence. -/
def State.pucchDecode (s : State) (e : List Byte) : List Bool × List (Nat × Option Bool) × State :=
  let n1 := entParam e 64 16 + entParam e 80 8 + entParam e 96 16
  let n2 := entParam e 112 16
  if entParam e 0 8 ≤ 1 then
    let v := s.draw n1
    ((List.range n1).map v.1.testBit, [(n1, none)], v.2)
  else
    let total := pucchBits e
    let e1 := if n2 = 0 then total else min total (Config.pucchSplit e)
    let d := s.drawBytes total
    let l := d.1.map fun b => b.toInt
    let a := d.2.uciDecode 2 n1 (l.take e1)
    let b := a.2.2.uciDecode 2 n2 ((l.drop e1).take (total - e1))
    (a.1 ++ b.1, [(n1, a.2.1), (n2, b.2.1)], b.2.2)

/-- PUCCH formats 0 to 4: SINR, TIMING, DTX, SR, CRC_OK, HARQ-ACK bits, and the UCI bytes where the entry has a place for them. SR is set
where an SR bit is (DEDUCED). -/
def State.pucchKernel (s : State) (f c : Nat) : State :=
  s.kernel f c [3] fun r e t =>
    match r.req.bind t.request with
    | none => t.markRan r
    | some q =>
      let rows := (t.uplinkAnts q.cell).flatMap fun n => (entSymbols e).map fun sym => (n, sym)
      let x := t.readAntennas f q.start e rows
      match x.1 with
      | some y => x.2.engineFault ⟨0, f, c⟩ 0 y.1 y.2
      | none =>
        let nAck := entParam e 64 16
        let nSr := entParam e 80 8
        let nCsi := entParam e 96 16
        let o := x.2.pucchDecode e
        let ack := o.1.take nAck
        let sr := (o.1.drop nAck).take nSr
        let csi1 := (o.1.drop (nAck + nSr)).take nCsi
        let bytes := uciPack ack ++ uciPack csi1 ++ uciPack (o.1.drop (nAck + nSr + nCsi))
        let crcs := o.2.1.filter fun p => p.2.isSome
        let free := o.2.2.draw 34
        let ok := if crcs = [] then bitsOf free.1 33 1 == 1 else crcs.all fun p => p.2 == some true
        let flags := bitsOf free.1 32 1 + (if sr.any id then 2 else 0) + (if ok then 4 else 0)
        let kind := free.1 % 2 ^ 32 + 2 ^ 32 * flags + 2 ^ 48 * (natOfBits ack % 2 ^ 16)
        let u := if entDataAddr e = 0 ∨ bytes = [] then free.2 else free.2.write70 f (entDataAddr e) bytes
        (u.entryResult r fun y =>
          { y with kind := kind, bytes_ := if entDataAddr e = 0 then 0 else bytes.length }).markRan r

/-! ### SRS and the downlink kernels (R130, R133, R139) -/

/-- The estimates that one SRS symbol gives for an antenna: the channel of each port in each group of PRBs, where it is stored. -/
def srsEstimates (q : Request) (e : List Byte) (base sym ant : Nat) (ys : List Cplx) : List (Nat × List CRat) :=
  (rbGroups 2 (entPrbStart e) (entPrbCount e)).map fun grp => (base + storeAt grp.1 ant 0,
    (List.range (max 1 (entParam e 16 8))).map fun port => leastSquares ys (srsAt e q.slot sym port) grp.2 1)

/-- The estimates of SRS symbols in turn: the last symbol's stand. -/
def State.srsSymbols (s : State) (f : Nat) (q : Request) (e : List Byte) (base : Nat) (syms : List Nat) : (Option (Nat × Reply)) × State :=
  syms.foldl (fun (acc : (Option (Nat × Reply)) × State) sym =>
    if acc.1.isSome then acc
    else acc.2.estimateAnts f q.start sym (entPrbStart e) (entPrbCount e) (srsEstimates q e base sym) (acc.2.uplinkAnts q.cell)) (none, s)

/-- SRS_EST: the channel store that WEIGHT_SET names, by least squares per RB group of 4 PRBs; wideband SINR, TIMING and RSRP are free. -/
def State.srsEst (s : State) (f c : Nat) : State :=
  s.kernel f c [4] fun r e t =>
    match r.req.bind t.request with
    | none => t.markRan r
    | some q =>
      let v := t.draw 48
      let t1 := v.2.entryResult r fun x => { x with kind := v.1 }
      let w := t1.srsSymbols f q e (t1.storeBase q.cell (entWeightSet e)) (entSymbols e)
      w.2.kernelEnd f c r w.1

/-- The data entries of a cell's downlink requests for a slot that cover a PRB. -/
def State.downEntries (s : State) (cell start prb : Nat) : List (List Byte) :=
  ((s.drv.store.filter fun q => q.cell == cell && q.start == start && q.dir == 0).flatMap fun q => q.entries).filter fun e =>
    (entKind e == 1 || entKind e == 7) && decide (entPrbStart e ≤ prb) && decide (prb < entPrbStart e + entPrbCount e)

/-- The channel rows of the entries that share an RB group: for each the stream and the channel from every antenna. -/
def State.readStores (s : State) (f cell prb ants : Nat) : List (List Byte) → (Option (Nat × Reply)) × List (Nat × List CRat) × State
  | [] => (none, [], s)
  | e :: es =>
    let a := s.storeBase cell (entWeightSet e) + storeAt (prb / 4) 0 0
    let x := s.agentRead f a 1024
    if x.1.status ≠ stOk then (some (a, x.1), [], x.2) else
      let rows := (List.range (entLayers e)).map fun l =>
        (entPortBase e + l, (List.range ants).map fun i => (cplxOf (leAt x.1.data (storeAt 0 i (l % 4)) 4)).rat)
      let rest := State.readStores x.2 f cell prb ants es
      (rest.1, rows ++ rest.2.1, rest.2.2)

/-- Regularised zero forcing across the streams of a group: Hᴴ(HHᴴ + αI)⁻¹ with a scale, antennas by streams (R130). A stream that no
entry has gets no weight. -/
def zeroForcing (h : List (Nat × List CRat)) (ants cols : Nat) (reg scale : Rat) : CMat :=
  let n := h.length
  let m := h.map (·.2)
  let g := CMat.mul m (CMat.herm m n ants) n ants n
  let inv := (CMat.build n n fun i j => (g.get i j).add (if i = j then ⟨reg, 0⟩ else CRat.zero)).solve
    (CMat.build n n fun i j => if i = j then CRat.one else CRat.zero) n n
  let w := (CMat.herm m n ants).mul inv ants n n
  CMat.build ants cols fun i j => match h.findIdx? fun x => x.1 == j with
    | some k => (w.get i k).smul scale
    | none => CRat.zero

/-- The weights of RB groups in turn. -/
def State.zeroForcings (s : State) (f cell start gLog2 ants cols : Nat) : List Nat → (Option (Nat × Reply)) × List CMat × State
  | [] => (none, [], s)
  | g :: gs =>
    let prb := g * 2 ^ gLog2
    let x := s.readStores f cell prb ants (s.downEntries cell start prb)
    match x.1 with
    | some e => (some e, [], x.2.2)
    | none =>
      let reg := x.2.2.drawPositive
      let k := reg.2.drawPositive
      let rest := State.zeroForcings k.2 f cell start gLog2 ants cols gs
      (rest.1, zeroForcing x.2.1 ants cols reg.1 k.1 :: rest.2.1, rest.2.2)

/-- DL_WEIGHTS: the downlink weight set of RB groups `first` on. -/
def State.dlWeights (s : State) (f c weights rows cols first groups stride gLog2 : Nat) : State :=
  s.kernel f c [1, 5, 6, 7] fun r _ t =>
    let cell := relCell r.word
    let slot := slotNamed (t.slotLen cell) t.pos (relSlotOfs r.word)
    let x := t.zeroForcings f cell slot gLog2 rows cols ((List.range groups).map (first + ·))
    match x.1 with
    | some e => x.2.2.engineFault ⟨0, f, c⟩ 0 e.1 e.2
    | none =>
      let b := x.2.2.weightBlocks rows cols stride x.2.1
      b.2.kernelWrite f c r weights b.1

/-- A reference sample's place in the stream grid (symbol, row, subcarrier), its amplitude and its sign bits; `real` for one in BPSK. -/
structure RefSample where
  sym : Nat
  row : Nat
  k : Nat
  amp : Nat
  real : Bool
  bits : Bool × Bool
  deriving DecidableEq, Repr

/-- The sample's value, its components rounded half up. -/
def RefSample.value (x : RefSample) : Cplx :=
  if x.real then ⟨if x.bits.1 then -(x.amp : Int) else x.amp, 0⟩
  else ⟨scaledLevel x.amp (bitSign x.bits.1) 2, scaledLevel x.amp (bitSign x.bits.2) 2⟩

/-- 8,192 at a power of −3, 0, +3 or +6 dB (R138). -/
def csirsAmp (code : Nat) : Nat := ([5799, 8192, 11572, 16345] : List Nat).getD code 8192

/-- The reference samples of a downlink entry: DMRS of its ports, CSI-RS ports 0 to 15 or, in the second pass, 16 to 31, or the DMRS of its
PDCCH. -/
def State.entryRefs (s : State) (q : Request) (e : List Byte) (second : Bool) : List RefSample :=
  let carriers := (List.range (12 * entPrbCount e)).map (12 * entPrbStart e + ·)
  match entKind e with
  | 1 => ((List.range 14).filter (entDmrsMap e).testBit).flatMap fun sym => (List.range (entLayers e)).flatMap fun l =>
      carriers.filterMap fun k => (dmrsBits e q.slot sym (entPortBase e + l) k).map fun b =>
        ⟨sym, entPortBase e + l, k, ampOf (entParam e 64 16), false, b⟩
  | 5 => (List.range 14).flatMap fun sym => ((List.range 16).filter fun p => decide (p + (if second then 16 else 0) < csirsPorts e)).flatMap fun p =>
      carriers.filterMap fun k => (csirsBits e q.slot (p + (if second then 16 else 0)) sym k).map fun b =>
        ⟨sym, p, k, csirsAmp (entParam e 48 2), false, b⟩
  | 6 =>
    let id := if entScrId e = 0 then s.fld (.DEC_CELL_C q.cell) Fld.DEC_CELL_C_PCI else entScrId e
    if entParam e 0 2 ≠ 0 then [] else (pdcchRes e true).map fun x =>
      ⟨x.1, entPortBase e, x.2, ampOf (entParam e 80 16), false, goldPair (dmrsInit q.slot x.1 id 0) (x.2 / 12 * 3 + x.2 % 12 / 4)⟩
  | _ => []

/-- The reference samples of an SSB: PSS, SSS and the DMRS of its PBCH. -/
def State.ssbRefs (s : State) (cell start ssb : Nat) : List RefSample :=
  let build := s.rd .ALM_ACTIVE_BUILD
  let pci := s.fld (.DEC_CELL_C cell) Fld.DEC_CELL_C_PCI
  let sym := (Config.ssbSymbol build cell ssb).toNat
  let car := (Config.ssbCarrier build cell ssb).toNat
  let init := pbchDmrsInit pci ssb (Config.ssbMost build cell) (start % 1120 / 560)
  (pssBits pci).zipIdx.map (fun b => (⟨sym, 0, car + 56 + b.2, 8192, true, (b.1, false)⟩ : RefSample))
    ++ (sssBits pci).zipIdx.map (fun b => (⟨sym + 2, 0, car + 56 + b.2, 8192, true, (b.1, false)⟩ : RefSample))
    ++ (pbchPlaces pci true).zipIdx.map fun p => (⟨sym + p.1.1, 0, car + p.1.2, 8192, false, goldPair init p.2⟩ : RefSample)

/-- Reference samples written into the stream grid at `grid`, each within 1 LSB of its value, as the SQU gives them (R257). -/
def State.writeRefs (s : State) (f grid nsc stride : Nat) (xs : List RefSample) : (Option (Nat × Reply)) × State :=
  let z := s.slacken 1 (xs.map RefSample.value)
  z.2.writeSamples f ((xs.zip z.1).map fun p => (grid + p.1.sym * stride + (p.1.row * nsc + p.1.k) * 4, [p.2]))

/-- DL_RS: the reference symbols of an entry, or for a static release those of an SSB, in the stream grid of symbol 0 at `grid`. -/
def State.dlRs (s : State) (f c grid nsc stride ssb : Nat) (second : Bool) : State :=
  s.kernel f c [1, 5, 6, 7] fun r e t =>
    let xs := match r.req.bind t.request with
      | some q => t.entryRefs q e second
      | none => t.ssbRefs (relCell r.word) (slotNamed (t.slotLen (relCell r.word)) t.pos (relSlotOfs r.word)) ssb
    let w := t.writeRefs f grid nsc stride xs
    w.2.kernelEnd f c r w.1

/-! ### Commands -/

/-- GAIN_SELECT. -/
def execGainSelect (fold : Fin 16) (core : Fin 8) (gain : BitVec 48) (s : State) : Out := working (fun t => t.gainSelect fold core gain.toNat) s
/-- PUSCH_CHEST. -/
def execPuschChest (fold : Fin 16) (core : Fin 8) (gain out : BitVec 48) (gLog2 : Fin 5) (s : State) : Out :=
  working (fun t => t.puschChest fold core gain.toNat out.toNat gLog2) s
/-- PUSCH_MMSE. -/
def execPuschMmse (fold : Fin 16) (core : Fin 8) (est weights scale : BitVec 48) (rows cols first groups : BitVec 8) (stride : BitVec 16)
    (gLog2 : Fin 5) (unitLog2 : Fin 15) (s : State) : Out :=
  working (fun t => t.puschMmse fold core est.toNat weights.toNat scale.toNat rows.toNat cols.toNat first.toNat groups.toNat stride.toNat gLog2 unitLog2) s
/-- FO_TRACK. -/
def execFoTrack (fold : Fin 16) (core : Fin 8) (est : List (BitVec 16 × BitVec 32)) (s : State) : Out := working (fun t => t.foTrack fold core est) s
/-- PUSCH_PHASE. -/
def execPuschPhase (fold : Fin 16) (core : Fin 8) (out : BitVec 48) (s : State) : Out := working (fun t => t.puschPhase fold core out.toNat) s
/-- PUSCH_TP_IDFT. -/
def execPuschTpIdft (fold : Fin 16) (core : Fin 8) (layers : BitVec 48) (nsc : BitVec 12) (stride : BitVec 32) (s : State) : Out := working (fun t => t.puschIdft fold core layers.toNat nsc.toNat stride.toNat) s
/-- PUSCH_UCI. -/
def execPuschUci (fold : Fin 16) (core : Fin 8) (llrs ulsch : BitVec 48) (s : State) : Out := working (fun t => t.puschUci fold core llrs.toNat ulsch.toNat false) s
/-- PUCCH. -/
def execPucch (fold : Fin 16) (core : Fin 8) (s : State) : Out := working (fun t => t.pucchKernel fold core) s
/-- SRS_EST. -/
def execSrsEst (fold : Fin 16) (core : Fin 8) (s : State) : Out := working (fun t => t.srsEst fold core) s
/-- DL_WEIGHTS. -/
def execDlWeights (fold : Fin 16) (core : Fin 8) (weights : BitVec 48) (rows cols first groups : BitVec 8) (stride : BitVec 16) (gLog2 : Fin 5)
    (s : State) : Out :=
  working (fun t => t.dlWeights fold core weights.toNat rows.toNat cols.toNat first.toNat groups.toNat stride.toNat gLog2) s
/-- DL_RS. -/
def execDlRs (fold : Fin 16) (core : Fin 8) (grid : BitVec 48) (nsc : BitVec 12) (stride : BitVec 32) (ssb : BitVec 6) (second : Bool) (s : State) : Out :=
  working (fun t => t.dlRs fold core grid.toNat nsc.toNat stride.toNat ssb.toNat second) s
/-- LTE_UCI. -/
def execLteUci (fold : Fin 16) (core : Fin 8) (llrs ulsch : BitVec 48) (s : State) : Out := working (fun t => t.puschUci fold core llrs.toNat ulsch.toNat true) s

end Sys2Proof.Machine
end

