-- ==== Sys2Proof/Machine/Flags.lean ====
section
/-!
DEFINITION. The flag computations of the DSP cores: rounding, saturation, wrapping and overflow (R204, R205), and the fields of STATUS
(R189).
-/
namespace Sys2Proof.Machine

/-- An exact value shifted right by `s` bits and rounded by RND: 0 TRUNC, 1 HALF_UP, 2 CONV (R204). -/
def rndShift (rnd : Nat) (x : Int) (s : Nat) : Int :=
  let q := x / (2 ^ s : Nat)
  let r := x % (2 ^ s : Nat)
  if rnd = 0 then q
  else if rnd = 1 then if 2 * r ≥ ((2 ^ s : Nat) : Int) ∧ r ≠ 0 then q + 1 else q
  else if 2 * r > ((2 ^ s : Nat) : Int) ∨ (2 * r = ((2 ^ s : Nat) : Int) ∧ q % 2 = 1) then q + 1 else q

/-- What narrowing an exact value does: the bits written, whether it saturated, and whether it raises ARITH. -/
structure Fit where
  val : Nat
  sat : Bool
  arith : Bool
  deriving DecidableEq, Repr

/-- An exact value narrowed to `w` signed bits under the saturation bit and STATUS.OVT (R204). -/
def fit (w : Nat) (sat ovt : Bool) (x : Int) : Fit :=
  let lim := satS w x
  if lim = x then ⟨unsignedOf w x, false, false⟩
  else if sat then ⟨unsignedOf w lim, true, false⟩
  else ⟨unsignedOf w x, false, ovt⟩

/-- A result that needs no narrowing. -/
def Fit.plain (v : Nat) : Fit := ⟨v, false, false⟩

/-! ### STATUS -/

/-- STATUS of a core. -/
def Core.status (c : Core) : Nat := SMap.get crReset c.cr 0

/-- A control register of a core, by number. -/
def Core.getCr (c : Core) (n : Nat) : Nat := SMap.get crReset c.cr n

/-- A control register replaced. -/
def Core.setCr (c : Core) (n v : Nat) : Core := { c with cr := SMap.set crReset c.cr n v }

/-- A field of STATUS replaced. -/
def Core.setStatus (c : Core) (lo w v : Nat) : Core := c.setCr 0 (setBitsOf c.status lo w v)

/-- The level: 0 FW, 1 KN, 2 TK. -/
def Core.pl (c : Core) : Nat := bitsOf c.status 0 2
def Core.ie (c : Core) : Bool := c.status.testBit 2
def Core.sh (c : Core) : Bool := c.status.testBit 3
def Core.exk (c : Core) : Bool := c.status.testBit 4
def Core.exf (c : Core) : Bool := c.status.testBit 5
def Core.ovt (c : Core) : Bool := c.status.testBit 6
def Core.la (c : Core) : Bool := c.status.testBit 8
def Core.ra (c : Core) : Bool := c.status.testBit 9

end Sys2Proof.Machine
end

