-- ==== Sys2Proof/Machine/Operands.lean ====
section
/-!
DEFINITION. The operand forms of the DSP syllables: fields (R226, R231 to R239), register names with rotation (R186, R207), guards
(R229), lanes (R187), immediates with extension (R228), and the address modes with their post-modification (R201 to R203, R234).
-/
namespace Sys2Proof

/-! ### Fields of a syllable -/

/-- Bits of the operand field of a syllable. -/
def Syl.bits (y : Syl) (lo w : Nat) : Nat := Machine.bitsOf y.ops.toNat lo w

def Syl.d (y : Syl) : Nat := y.bits 15 5
def Syl.a (y : Syl) : Nat := y.bits 10 5
def Syl.b (y : Syl) : Nat := y.bits 5 5

end Sys2Proof

namespace Sys2Proof.Machine

/-! ### Registers -/

/-- Physical register of a name in a file with position `pos` (R207). -/
def rotated (pos n : Nat) : Nat := if n < 16 then n else 16 + (n - 16 + pos) % 16

def Core.spos (c : Core) : Nat := bitsOf (c.getCr 7) 8 4
def Core.vpos (c : Core) : Nat := bitsOf (c.getCr 7) 12 4

/-- Physical scalar and vector registers of a name. -/
def Core.sName (c : Core) (n : Nat) : Nat := rotated c.spos n
def Core.vName (c : Core) (n : Nat) : Nat := rotated c.vpos n

/-- A scalar register by name. -/
def Core.sreg (c : Core) (n : Nat) : Nat := SMap.get zeroNat c.s (c.sName n)
/-- A vector register by name. -/
def Core.vreg (c : Core) (n : Nat) : Nat := SMap.get zeroNat c.v (c.vName n)
def Core.preg (c : Core) (n : Nat) : Nat := SMap.get zeroNat c.p n
def Core.kreg (c : Core) (n : Nat) : Nat := SMap.get zeroNat c.k n
/-- A predicate: Q0 reads as all ones (R186). -/
def Core.qreg (c : Core) (n : Nat) : Nat := if n = 0 then 2 ^ 32 - 1 else SMap.get zeroNat c.q n

/-- A signed 64-bit value. -/
def s64 (n : Nat) : Int := signedOf 64 n

/-- The bits of `old` outside `mask`, and those of `val` inside it. -/
def merge (old val mask : Nat) : Nat := (old ^^^ (old &&& mask)) ||| (val &&& mask)

/-- Every bit of `w` bits. -/
def ones (w : Nat) : Nat := 2 ^ w - 1

/-! ### Lanes -/

/-- Lane `i` of `w` bits. -/
def lane (w v i : Nat) : Nat := bitsOf v (w * i) w

/-- The register whose lanes of `w` bits are listed. -/
def ofLanes (w : Nat) : List Nat → Nat
  | [] => 0
  | x :: xs => x % 2 ^ w + 2 ^ w * ofLanes w xs

/-- Bits of a component of a lane format: 32 for FMT 1, else 16 (R236). -/
def compBits (fmt : Nat) : Nat := if fmt = 1 then 32 else 16

/-- Whether a guard governs 16-bit position `i` of a register under a lane format (R187, R229). -/
def governs (fmt guard i : Nat) : Bool := guard.testBit (if fmt = 0 then i else 2 * (i / 2))

/-- The bits of a vector register that a guard lets an operation write. -/
def vecMask (fmt guard : Nat) : Nat := ofLanes 16 ((List.range 32).map fun i => if governs fmt guard i then ones 16 else 0)

/-- The bits of a predicate that a guard lets a compare write. -/
def predMask (fmt guard : Nat) : Nat := ofLanes 1 ((List.range 32).map fun i => if governs fmt guard i then 1 else 0)

/-- Whether component `i` of a format is active. -/
def activeComp (fmt guard i : Nat) : Bool := if fmt = 1 then guard.testBit (2 * i) else governs fmt guard i

/-! ### Immediates -/

/-- An immediate of 10 bits, extended by the HI of an extension syllable (R228). -/
def immOf (ext : Option (BitVec 28)) (imm : Nat) : Int :=
  match ext with
  | some hi => signedOf 38 (1024 * hi.toNat + imm)
  | none => signedOf 10 imm

/-! ### Post-modification -/

/-- The least exponent of a power of two that is at least `n`. -/
def log2Ceil (n : Nat) : Nat := ((List.range 25).find? fun m => decide (n ≤ 2 ^ m)).getD 25

/-- The low `n` bits of a number in reverse order. -/
def revBits (n x : Nat) : Nat := ofLanes 1 ((List.range n).map fun i => bitsOf x (n - 1 - i) 1)

/-- STEP and LEN of a K register (R188). -/
def kStep (k : Nat) : Int := signedOf 32 k
def kLen (k : Nat) : Nat := bitsOf k 40 24

/-- Linear update of a pointer. -/
def ptrLinear (p : Nat) (step : Int) : Nat := unsignedOf 64 ((p : Int) + step)

/-- Circular update (R202). -/
def ptrCircular (p k : Nat) : Nat :=
  let len := kLen k
  let m := log2Ceil len
  let base := p / 2 ^ m * 2 ^ m
  let off := p % 2 ^ m
  if off < len ∧ (kStep k).natAbs ≤ len then
    let o := (off : Int) + kStep k
    if o ≥ (len : Int) then unsignedOf 64 ((base : Int) + o - len)
    else if o < 0 then unsignedOf 64 ((base : Int) + o + len) else unsignedOf 64 ((base : Int) + o)
  else ptrLinear p (kStep k)

/-- Bit-reversed update (R203); none where LEN is no power of two from 2^3 to 2^22. -/
def ptrReversed (p k : Nat) : Option Nat :=
  match (List.range 20).find? fun i => kLen k == 2 ^ (i + 3) with
  | some i =>
    let n := i + 3
    let sum := (revBits n (p % 2 ^ n) + revBits n (unsignedOf n (kStep k))) % 2 ^ n
    some (p / 2 ^ n * 2 ^ n + revBits n sum)
  | none => none

/-- What a MODE makes of a pointer: the address and the pointer after, none where the syllable is illegal (R234). -/
def Core.address (c : Core) (mode ofs size p : Nat) : Option (Nat × Option Nat) :=
  let v := c.preg p
  let step : Int := signedOf 8 ofs * (size : Int)
  let k := c.kreg (ofs % 8)
  match mode with
  | 0 => some (unsignedOf 48 ((v : Int) + step), none)
  | 1 => some (v % 2 ^ 48, some (ptrLinear v step))
  | 2 => if ofs < 8 then some (v % 2 ^ 48, some (ptrLinear v (kStep k))) else none
  | 3 => if ofs < 8 then some (v % 2 ^ 48, some (ptrCircular v k)) else none
  | 4 => if ofs < 8 then (ptrReversed v k).map fun q => (v % 2 ^ 48, some q) else none
  | _ => none

/-! ### What an operation of a bundle does -/

/-- A memory operation (R234, R235): its elements that are accessed, and where a load's data go. -/
structure MemOp where
  store : Bool
  /-- Bytes of the access and of one element. -/
  size : Nat
  elem : Nat
  addr : Nat
  /-- Elements that the guard leaves in, in ascending order. -/
  elems : List Nat
  /-- Data of a store. -/
  data : Nat
  /-- A load's register, and whether a scalar value is sign-extended. -/
  dst : Dst
  signed : Bool
  /-- Pointer register and its value after post-modification. -/
  post : Option (Nat × Nat)
  deriving DecidableEq, Repr

/-- A control action of a bundle. -/
inductive Ctl where
  | next
  | jump (target : Int)
  | loop (count : Nat) (last : Nat)
  | rep (count : Nat)
  | fence
  | done
  | trap (n : Nat)
  | rfe
  | signal (core : Nat)
  | viol (code : Nat)
  | acq (p unit tag : Nat)
  | acwait (tag : Nat)
  /-- A cache action of a control core (R301): register number and address. -/
  | cache (n addr : Nat)
  deriving DecidableEq, Repr

/-- What one operation does when its bundle issues. -/
structure Eff where
  /-- Exception code, 0 for none, and the address that it reports. -/
  exc : Nat := 0
  addr : Nat := 0
  /-- Results, each with its latency. -/
  writes : List Pend := []
  /-- A MAC: accumulator, its lanes after, and the bits that it writes. -/
  chain : Option (Nat × Nat × Nat) := none
  mem : Option MemOp := none
  ctl : Ctl := .next
  sat : Bool := false
  deriving DecidableEq, Repr

/-- An operation that does nothing. -/
def Eff.none : Eff := {}

/-- An operation that raises an exception. -/
def Eff.raise (code : Nat) (addr : Nat := 0) : Eff := { exc := code, addr := addr }

/-- ILLEGAL_OP. -/
def Eff.illegal : Eff := Eff.raise 3

/-- What an operation sees of its core as its bundle issues. -/
structure OpCtx where
  c : Core
  /-- Number of the core: Fold cores 0–127, control cores 128–135. -/
  n : Nat
  /-- Extension of the syllable's immediate. -/
  ext : Option (BitVec 28)
  /-- Offset of the bundle and of the next one. -/
  pc : Nat
  nextPc : Nat
  tcyc : Nat
  tickno : Nat
  /-- Accelerator enable word of the Fold. -/
  enable : Nat
  deriving DecidableEq, Repr

/-- Whether the core is a control core. -/
def OpCtx.control (x : OpCtx) : Bool := decide (128 ≤ x.n)

/-- A scalar or memory operation under its guard: nothing where bit 0 of PG is 0 (R229). -/
def OpCtx.guarded (x : OpCtx) (y : Syl) (e : Eff) : Eff := if (x.c.qreg y.pg.toNat).testBit 0 then e else Eff.none

/-- A result for a scalar register. -/
def OpCtx.toS (x : OpCtx) (d lat v : Nat) : List Pend := [⟨lat, .s (x.c.sName d), v % 2 ^ 64, ones 64⟩]

/-- A scalar result from its narrowing: ARITH writes nothing (R204). -/
def OpCtx.scalar (x : OpCtx) (d lat : Nat) (f : Fit) : Eff :=
  if f.arith then Eff.raise 5 else { writes := x.toS d lat f.val, sat := f.sat }

/-- A predicate result: a write of Q0 is ignored. -/
def toQ (d v mask lat : Nat) : List Pend := if d = 0 then [] else [⟨lat, .q d, v, mask⟩]

/-- A scalar compare into a predicate (R231). -/
def compareTo (d : Nat) (r : Bool) : Eff :=
  if 8 ≤ d then Eff.illegal else { writes := toQ d (if r then ones 32 else 0) (ones 32) 1 }

end Sys2Proof.Machine
end

