-- ==== Sys2Proof/Machine/DspScalar.lean ====
section
/-!
DEFINITION. The scalar, immediate, address and predicate operations of the DSP cores: groups 0, 1 and 2 (R231 to R233).
-/
namespace Sys2Proof.Machine

/-! ### Group 0 (R231) -/

/-- A group 0 operation on A and B, with SAT and RND. -/
def grp0 (x : OpCtx) (y : Syl) (f : Nat → Nat → Bool → Nat → Eff) : Eff :=
  x.guarded y (if y.bits 0 2 ≠ 0 ∨ y.bits 2 2 = 3 then Eff.illegal
    else f (x.c.sreg y.a) (x.c.sreg y.b) (y.bits 4 1 == 1) (y.bits 2 2))

def opAdd (x : OpCtx) (y : Syl) : Eff := grp0 x y fun a b sat _ => x.scalar y.d 1 (fit 64 sat x.c.ovt (s64 a + s64 b))
def opSub (x : OpCtx) (y : Syl) : Eff := grp0 x y fun a b sat _ => x.scalar y.d 1 (fit 64 sat x.c.ovt (s64 a - s64 b))
def opAnd (x : OpCtx) (y : Syl) : Eff := grp0 x y fun a b _ _ => x.scalar y.d 1 (.plain (a &&& b))
def opOr (x : OpCtx) (y : Syl) : Eff := grp0 x y fun a b _ _ => x.scalar y.d 1 (.plain (a ||| b))
def opXor (x : OpCtx) (y : Syl) : Eff := grp0 x y fun a b _ _ => x.scalar y.d 1 (.plain (a ^^^ b))
def opAndn (x : OpCtx) (y : Syl) : Eff := grp0 x y fun a b _ _ => x.scalar y.d 1 (.plain (a ^^^ (a &&& b)))
def opShl (x : OpCtx) (y : Syl) : Eff :=
  grp0 x y fun a b sat _ => x.scalar y.d 1 (fit 64 sat x.c.ovt (s64 a * (2 ^ (b % 64) : Nat)))
def opShr (x : OpCtx) (y : Syl) : Eff :=
  grp0 x y fun a b _ rnd => x.scalar y.d 1 (.plain (rndShift rnd (a : Int) (b % 64)).toNat)
def opSar (x : OpCtx) (y : Syl) : Eff :=
  grp0 x y fun a b sat rnd => x.scalar y.d 1 (fit 64 sat x.c.ovt (rndShift rnd (s64 a) (b % 64)))
def opMin (x : OpCtx) (y : Syl) : Eff := grp0 x y fun a b _ _ => x.scalar y.d 1 (.plain (if s64 b < s64 a then b else a))
def opMax (x : OpCtx) (y : Syl) : Eff := grp0 x y fun a b _ _ => x.scalar y.d 1 (.plain (if s64 a < s64 b then b else a))
def opMinu (x : OpCtx) (y : Syl) : Eff := grp0 x y fun a b _ _ => x.scalar y.d 1 (.plain (min a b))
def opMaxu (x : OpCtx) (y : Syl) : Eff := grp0 x y fun a b _ _ => x.scalar y.d 1 (.plain (max a b))
def opAbs (x : OpCtx) (y : Syl) : Eff :=
  grp0 x y fun a _ sat _ => x.scalar y.d 1 (fit 64 sat x.c.ovt ((s64 a).natAbs : Nat))
/-- Leading zero bits of a 64-bit number. -/
def clz64 (a : Nat) : Nat := ((List.range 64).find? fun i => a.testBit (63 - i)).getD 64
def opClz (x : OpCtx) (y : Syl) : Eff := grp0 x y fun a _ _ _ => x.scalar y.d 1 (.plain (clz64 a))
def opPopc (x : OpCtx) (y : Syl) : Eff :=
  grp0 x y fun a _ _ _ => x.scalar y.d 1 (.plain ((List.range 64).filter fun i => a.testBit i).length)
def opMul (x : OpCtx) (y : Syl) : Eff := grp0 x y fun a b sat _ => x.scalar y.d 3 (fit 64 sat x.c.ovt (s64 a * s64 b))
def opMulh (x : OpCtx) (y : Syl) : Eff :=
  grp0 x y fun a b _ _ => x.scalar y.d 3 (.plain (unsignedOf 64 (s64 a * s64 b / (2 ^ 64 : Nat))))
def opMulq (x : OpCtx) (y : Syl) : Eff :=
  grp0 x y fun a b sat rnd =>
    let f := fit 16 sat x.c.ovt (rndShift rnd (signedOf 16 a * signedOf 16 b) 15)
    x.scalar y.d 3 { f with val := unsignedOf 64 (signedOf 16 f.val) }
def opMov (x : OpCtx) (y : Syl) : Eff := grp0 x y fun a _ _ _ => x.scalar y.d 1 (.plain a)
def opSext (x : OpCtx) (y : Syl) : Eff :=
  grp0 x y fun a b _ _ => x.scalar y.d 1 (.plain (unsignedOf 64 (signedOf (b % 64 + 1) a)))
def opCmpeq (x : OpCtx) (y : Syl) : Eff := grp0 x y fun a b _ _ => compareTo y.d (a == b)
def opCmplt (x : OpCtx) (y : Syl) : Eff := grp0 x y fun a b _ _ => compareTo y.d (decide (s64 a < s64 b))
def opCmpltu (x : OpCtx) (y : Syl) : Eff := grp0 x y fun a b _ _ => compareTo y.d (decide (a < b))
def opCmple (x : OpCtx) (y : Syl) : Eff := grp0 x y fun a b _ _ => compareTo y.d (decide (s64 a ≤ s64 b))

/-! ### Group 1 (R232) -/

/-- A group 1 operation on A and the immediate. -/
def grp1 (x : OpCtx) (y : Syl) (f : Nat → Int → Eff) : Eff :=
  x.guarded y (f (x.c.sreg y.a) (immOf x.ext (y.bits 0 10)))

/-- A group 1 shift by IMM[5:0]; IMM[9:6] must be 0. -/
def grp1Shift (x : OpCtx) (y : Syl) (f : Nat → Nat → Eff) : Eff :=
  x.guarded y (if y.bits 6 4 ≠ 0 then Eff.illegal else f (x.c.sreg y.a) (y.bits 0 6))

def opAddi (x : OpCtx) (y : Syl) : Eff := grp1 x y fun a i => x.scalar y.d 1 (fit 64 false x.c.ovt (s64 a + i))
def opAndi (x : OpCtx) (y : Syl) : Eff := grp1 x y fun a i => x.scalar y.d 1 (.plain (a &&& unsignedOf 64 i))
def opOri (x : OpCtx) (y : Syl) : Eff := grp1 x y fun a i => x.scalar y.d 1 (.plain (a ||| unsignedOf 64 i))
def opXori (x : OpCtx) (y : Syl) : Eff := grp1 x y fun a i => x.scalar y.d 1 (.plain (a ^^^ unsignedOf 64 i))
def opShli (x : OpCtx) (y : Syl) : Eff := grp1Shift x y fun a n => x.scalar y.d 1 (.plain (a * 2 ^ n))
def opShri (x : OpCtx) (y : Syl) : Eff := grp1Shift x y fun a n => x.scalar y.d 1 (.plain (a / 2 ^ n))
def opSari (x : OpCtx) (y : Syl) : Eff := grp1Shift x y fun a n => x.scalar y.d 1 (.plain (unsignedOf 64 (rndShift 0 (s64 a) n)))
def opSarri (x : OpCtx) (y : Syl) : Eff := grp1Shift x y fun a n => x.scalar y.d 1 (.plain (unsignedOf 64 (rndShift 1 (s64 a) n)))
def opMuli (x : OpCtx) (y : Syl) : Eff := grp1 x y fun a i => x.scalar y.d 3 (fit 64 false x.c.ovt (s64 a * i))
def opMovi (x : OpCtx) (y : Syl) : Eff :=
  grp1 x y fun _ i => if y.a ≠ 0 then Eff.illegal else x.scalar y.d 1 (.plain (unsignedOf 64 i))
def opCmpeqi (x : OpCtx) (y : Syl) : Eff := grp1 x y fun a i => compareTo y.d (a == unsignedOf 64 i)
def opCmplti (x : OpCtx) (y : Syl) : Eff := grp1 x y fun a i => compareTo y.d (decide (s64 a < i))
def opCmpltui (x : OpCtx) (y : Syl) : Eff := grp1 x y fun a i => compareTo y.d (decide (a < unsignedOf 64 i))

/-! ### Group 2 (R233) -/

/-- The fields of a group 2 syllable that must be small: D, A and B below `nd`, `na` and `nb`; with B, bits [4:0] are RSVD. -/
def grp2Ok (y : Syl) (nd na : Nat) (nb : Option Nat) : Bool :=
  decide (y.d < nd) && decide (y.a < na) && (match nb with
    | some n => decide (y.b < n) && y.bits 0 5 == 0
    | none => true)

/-- A group 2 operation. -/
def grp2 (x : OpCtx) (y : Syl) (nd na : Nat) (nb : Option Nat) (e : Eff) : Eff :=
  x.guarded y (if grp2Ok y nd na nb then e else Eff.illegal)

/-- A pointer result, modulo 2^64. -/
def toP (d : Nat) (v : Int) : Eff := { writes := [⟨1, .p d, unsignedOf 64 v, ones 64⟩] }

def opAddpi (x : OpCtx) (y : Syl) : Eff :=
  grp2 x y 16 16 none (toP y.d ((x.c.preg y.a : Int) + immOf x.ext (y.bits 0 10)))
def opAddp (x : OpCtx) (y : Syl) : Eff := grp2 x y 16 16 (some 32) (toP y.d ((x.c.preg y.a : Int) + (x.c.sreg y.b : Int)))
def opMovps (x : OpCtx) (y : Syl) : Eff := grp2 x y 16 32 (some 32) (toP y.d (x.c.sreg y.a : Int))
def opMovsp (x : OpCtx) (y : Syl) : Eff := grp2 x y 32 16 (some 32) { writes := x.toS y.d 1 (x.c.preg y.a) }
def opMovks (x : OpCtx) (y : Syl) : Eff := grp2 x y 8 32 (some 32) { writes := [⟨1, .k y.d, x.c.sreg y.a, ones 64⟩] }
def opMovsk (x : OpCtx) (y : Syl) : Eff := grp2 x y 32 8 (some 32) { writes := x.toS y.d 1 (x.c.kreg y.a) }
def opQand (x : OpCtx) (y : Syl) : Eff :=
  grp2 x y 8 8 (some 8) { writes := toQ y.d (x.c.qreg y.a &&& x.c.qreg y.b) (ones 32) 1 }
def opQor (x : OpCtx) (y : Syl) : Eff :=
  grp2 x y 8 8 (some 8) { writes := toQ y.d (x.c.qreg y.a ||| x.c.qreg y.b) (ones 32) 1 }
def opQxor (x : OpCtx) (y : Syl) : Eff :=
  grp2 x y 8 8 (some 8) { writes := toQ y.d (x.c.qreg y.a ^^^ x.c.qreg y.b) (ones 32) 1 }
def opQandn (x : OpCtx) (y : Syl) : Eff :=
  grp2 x y 8 8 (some 8) { writes := toQ y.d (x.c.qreg y.a ^^^ (x.c.qreg y.a &&& x.c.qreg y.b)) (ones 32) 1 }
def opQnot (x : OpCtx) (y : Syl) : Eff := grp2 x y 8 8 (some 32) { writes := toQ y.d (ones 32 ^^^ x.c.qreg y.a) (ones 32) 1 }
def opQfroms (x : OpCtx) (y : Syl) : Eff := grp2 x y 8 32 (some 32) { writes := toQ y.d (x.c.sreg y.a % 2 ^ 32) (ones 32) 1 }
def opQtos (x : OpCtx) (y : Syl) : Eff := grp2 x y 32 8 (some 32) { writes := x.toS y.d 1 (x.c.qreg y.a) }
def opQseti (x : OpCtx) (y : Syl) : Eff :=
  grp2 x y 8 32 none { writes := toQ y.d (unsignedOf 32 (immOf x.ext (y.bits 0 10))) (ones 32) 1 }

end Sys2Proof.Machine
end

