-- ==== Sys2Proof/Machine/DspVector.lean ====
section
/-!
DEFINITION. The vector operations of the DSP cores: groups 4 and 5 (R236 to R238).
-/
namespace Sys2Proof.Machine

/-! ### Group 4 (R236) -/

/-- A vector result whose components are narrowed: only active components count for SAT and ARITH (R204, R229). -/
def OpCtx.vector (x : OpCtx) (d lat fmt guard : Nat) (fs : List Fit) : Eff :=
  let live := (fs.zipIdx.filter fun f => activeComp fmt guard f.2).map (·.1)
  if live.any (·.arith) then Eff.raise 5 else
    { writes := [⟨lat, .v (x.c.vName d), ofLanes (compBits fmt) (fs.map (·.val)), vecMask fmt guard⟩], sat := live.any (·.sat) }

/-- The components of a vector register, signed. -/
def comps (fmt v : Nat) : List Int :=
  (List.range (512 / compBits fmt)).map fun i => signedOf (compBits fmt) (lane (compBits fmt) v i)

/-- What a group 4 operation is given: FMT, SAT, RND, the guard, and the registers A and B. -/
structure VecArgs where
  fmt : Nat
  sat : Bool
  rnd : Nat
  guard : Nat
  a : Nat
  b : Nat
  deriving DecidableEq, Repr

/-- A group 4 operation whose FMT is one of `fmts`; RND 3 is illegal where RND means anything. -/
def grp4 (x : OpCtx) (y : Syl) (fmts : List Nat) (bitwise : Bool) (f : VecArgs → Eff) : Eff :=
  if !fmts.contains (y.bits 3 2) ∨ (!bitwise ∧ y.bits 0 2 = 3) then Eff.illegal
  else f ⟨y.bits 3 2, y.bits 2 1 == 1, y.bits 0 2, x.c.qreg y.pg.toNat, x.c.vreg y.a, x.c.vreg y.b⟩

/-- A component-wise operation with narrowing. -/
def mapComps (x : OpCtx) (y : Syl) (fmts : List Nat) (f : VecArgs → Int → Int → Int) : Eff :=
  grp4 x y fmts false fun v => x.vector y.d 2 v.fmt v.guard
    (((comps v.fmt v.a).zip (comps v.fmt v.b)).map fun p => fit (compBits v.fmt) v.sat x.c.ovt (f v p.1 p.2))

/-- A vector result taken as a whole. -/
def OpCtx.vecWhole (x : OpCtx) (d fmt guard v : Nat) : Eff := { writes := [⟨2, .v (x.c.vName d), v, vecMask fmt guard⟩] }

def opVadd (x : OpCtx) (y : Syl) : Eff := mapComps x y [0, 1, 2] fun _ a b => a + b
def opVsub (x : OpCtx) (y : Syl) : Eff := mapComps x y [0, 1, 2] fun _ a b => a - b
def opVmin (x : OpCtx) (y : Syl) : Eff := mapComps x y [0, 1] fun _ a b => min a b
def opVmax (x : OpCtx) (y : Syl) : Eff := mapComps x y [0, 1] fun _ a b => max a b
def opVabs (x : OpCtx) (y : Syl) : Eff := mapComps x y [0, 1] fun _ a _ => (a.natAbs : Nat)
def opVneg (x : OpCtx) (y : Syl) : Eff := mapComps x y [0, 1, 2] fun _ a _ => -a
def opVand (x : OpCtx) (y : Syl) : Eff := grp4 x y [0, 1, 2] true fun v => x.vecWhole y.d v.fmt v.guard (v.a &&& v.b)
def opVor (x : OpCtx) (y : Syl) : Eff := grp4 x y [0, 1, 2] true fun v => x.vecWhole y.d v.fmt v.guard (v.a ||| v.b)
def opVxor (x : OpCtx) (y : Syl) : Eff := grp4 x y [0, 1, 2] true fun v => x.vecWhole y.d v.fmt v.guard (v.a ^^^ v.b)
def opVshl (x : OpCtx) (y : Syl) : Eff := mapComps x y [0, 1, 2] fun _ a _ => a * (2 ^ y.b : Nat)
def opVshr (x : OpCtx) (y : Syl) : Eff := mapComps x y [0, 1, 2] fun v a _ => rndShift v.rnd a y.b

/-- The lanes of a format as numbers: 16 or 32 bits, a complex lane as a whole. -/
def laneBits (fmt : Nat) : Nat := if fmt = 0 then 16 else 32

/-- A vector compare into a predicate (R187, R236). -/
def vecCompare (x : OpCtx) (y : Syl) (fmts : List Nat) (r : Nat → Nat → Nat → Bool) : Eff :=
  grp4 x y fmts false fun v =>
    if 8 ≤ y.d then Eff.illegal else
      let w := laneBits v.fmt
      let res := ofLanes (w / 16) ((List.range (512 / w)).map fun i => if r w (lane w v.a i) (lane w v.b i) then ones (w / 16) else 0)
      { writes := toQ y.d res (predMask v.fmt v.guard) 2 }

def opVcmpeq (x : OpCtx) (y : Syl) : Eff := vecCompare x y [0, 1, 2] fun _ a b => a == b
def opVcmplt (x : OpCtx) (y : Syl) : Eff := vecCompare x y [0, 1] fun w a b => decide (signedOf w a < signedOf w b)
def opVsel (x : OpCtx) (y : Syl) : Eff :=
  grp4 x y [0, 1, 2] false fun v => x.vecWhole y.d 0 (ones 32) (merge v.b v.a (vecMask v.fmt v.guard))
def opVperm (x : OpCtx) (y : Syl) : Eff :=
  grp4 x y [0, 1, 2] false fun v =>
    let w := laneBits v.fmt
    x.vecWhole y.d v.fmt v.guard (ofLanes w ((List.range (512 / w)).map fun i => lane w v.a (lane w v.b i % (512 / w))))
def opVsplat (x : OpCtx) (y : Syl) : Eff :=
  grp4 x y [0, 1, 2] false fun v =>
    let w := laneBits v.fmt
    x.vecWhole y.d v.fmt v.guard (ofLanes w (List.replicate (512 / w) (x.c.sreg y.a)))
def opVext (x : OpCtx) (y : Syl) : Eff :=
  grp4 x y [0, 1, 2] false fun v =>
    let w := laneBits v.fmt
    if 512 / w ≤ y.b then Eff.illegal
    else if !v.guard.testBit (if v.fmt = 0 then y.b else 2 * y.b) then Eff.none
    else
      let n := lane w v.a y.b
      { writes := x.toS y.d 2 (if v.fmt = 2 then n else unsignedOf 64 (signedOf w n)) }
def opVconj (x : OpCtx) (y : Syl) : Eff :=
  grp4 x y [2] false fun v => x.vector y.d 2 2 v.guard
    ((comps 2 v.a).zipIdx.map fun p => fit 16 v.sat x.c.ovt (if p.2 % 2 = 1 then -p.1 else p.1))
def opVswapiq (x : OpCtx) (y : Syl) : Eff :=
  grp4 x y [2] false fun v =>
    x.vecWhole y.d 2 v.guard (ofLanes 16 ((List.range 32).map fun i => lane 16 v.a (if i % 2 = 0 then i + 1 else i - 1)))
def opVpack (x : OpCtx) (y : Syl) : Eff :=
  grp4 x y [1] false fun v => x.vector y.d 2 0 v.guard
    ((comps 1 v.a ++ comps 1 v.b).map fun n => fit 16 v.sat x.c.ovt n)

/-- The 16-bit lanes of a register from `lo` on, widened to 32 bits. -/
def unpack (v lo : Nat) : Nat := ofLanes 32 ((List.range 16).map fun i => unsignedOf 32 (signedOf 16 (lane 16 v (lo + i))))

def opVunpkl (x : OpCtx) (y : Syl) : Eff := grp4 x y [1] false fun v => x.vecWhole y.d 1 v.guard (unpack v.a 0)
def opVunpkh (x : OpCtx) (y : Syl) : Eff := grp4 x y [1] false fun v => x.vecWhole y.d 1 v.guard (unpack v.a 16)
def opVmov (x : OpCtx) (y : Syl) : Eff := grp4 x y [0, 1, 2] false fun v => x.vecWhole y.d v.fmt v.guard v.a

/-! ### Group 5 (R237) -/

/-- A group 5 operation: the fields that it does not use, given by bit position and width, must be 0; RND 3 is illegal. -/
def grp5 (y : Syl) (unused : List (Nat × Nat)) (e : Eff) : Eff :=
  if y.bits 2 2 = 3 ∨ unused.any fun f => y.bits f.1 f.2 != 0 then Eff.illegal else e

/-- Complex lanes of a register. -/
def cplxLanes (v : Nat) : List Cplx := (List.range 16).map fun j => cplxOf (lane 32 v j)

/-- The components of complex values, I and Q in turn. -/
def cplxComps (xs : List Cplx) : List Int := xs.flatMap fun z => [z.re, z.im]

/-- Products scaled by 2^-15 into V (R205). -/
def scaled (x : OpCtx) (y : Syl) (fmt : Nat) (ps : List Int) : Eff :=
  grp5 y [(0, 2)] (x.vector y.d 4 fmt (x.c.qreg y.pg.toNat)
    (ps.map fun p => fit 16 (y.bits 4 1 == 1) x.c.ovt (rndShift (y.bits 2 2) p 15)))

def opVmul (x : OpCtx) (y : Syl) : Eff :=
  scaled x y 0 (((comps 0 (x.c.vreg y.a)).zip (comps 0 (x.c.vreg y.b))).map fun p => p.1 * p.2)
def opVcmul (x : OpCtx) (y : Syl) : Eff :=
  scaled x y 2 (cplxComps (((cplxLanes (x.c.vreg y.a)).zip (cplxLanes (x.c.vreg y.b))).map fun p => p.1.mul p.2))
def opVcmulc (x : OpCtx) (y : Syl) : Eff :=
  scaled x y 2 (cplxComps (((cplxLanes (x.c.vreg y.a)).zip (cplxLanes (x.c.vreg y.b))).map fun p => p.1.mul p.2.conj))

/-- Lane `i` of an accumulator as the next MAC chains to it. -/
def Core.vaLane (c : Core) (acc i : Nat) : Int := signedOf 40 (lane 40 (SMap.get zeroNat c.va acc) i)

/-- Products added to the lanes of an accumulator: `none` leaves a lane as it is (R205, R237). -/
def macInto (x : OpCtx) (y : Syl) (unused : List (Nat × Nat)) (fmt : Nat) (ps : List (Option Int)) : Eff :=
  grp5 y unused
    (let g := x.c.qreg y.pg.toNat
     let acc := y.bits 0 2
     let fs := ps.zipIdx.map fun p => match p.1 with
       | some v => (governs fmt g p.2, fit 40 (y.bits 4 1 == 1) x.c.ovt (x.c.vaLane acc p.2 + v))
       | none => (false, Fit.plain 0)
     if fs.any fun f => f.1 && f.2.arith then Eff.raise 5 else
       { chain := some (acc, ofLanes 40 (fs.map fun f => f.2.val), ofLanes 40 (fs.map fun f => if f.1 then ones 40 else 0))
         sat := fs.any fun f => f.1 && f.2.sat })

def opVmac (x : OpCtx) (y : Syl) : Eff :=
  macInto x y [(15, 5)] 0 (((comps 0 (x.c.vreg y.a)).zip (comps 0 (x.c.vreg y.b))).map fun p => some (p.1 * p.2))
def opVmsu (x : OpCtx) (y : Syl) : Eff :=
  macInto x y [(15, 5)] 0 (((comps 0 (x.c.vreg y.a)).zip (comps 0 (x.c.vreg y.b))).map fun p => some (-(p.1 * p.2)))
def opVcmac (x : OpCtx) (y : Syl) : Eff :=
  macInto x y [(15, 5)] 2
    ((cplxComps (((cplxLanes (x.c.vreg y.a)).zip (cplxLanes (x.c.vreg y.b))).map fun p => p.1.mul p.2)).map some)
def opVcmacc (x : OpCtx) (y : Syl) : Eff :=
  macInto x y [(15, 5)] 2
    ((cplxComps (((cplxLanes (x.c.vreg y.a)).zip (cplxLanes (x.c.vreg y.b))).map fun p => p.1.mul p.2.conj)).map some)
def opVcmag (x : OpCtx) (y : Syl) : Eff :=
  macInto x y [(15, 5), (5, 5)] 2 ((cplxLanes (x.c.vreg y.a)).flatMap fun z => [some (z.re * z.re + z.im * z.im), none])
def opVaclr (x : OpCtx) (y : Syl) : Eff :=
  grp5 y [(15, 5), (10, 5), (5, 5), (4, 1)]
    (let g := x.c.qreg y.pg.toNat
     { chain := some (y.bits 0 2, 0, ofLanes 40 ((List.range 32).map fun i => if governs 0 g i then ones 40 else 0)) })
def opVrd (x : OpCtx) (y : Syl) : Eff :=
  grp5 y [(10, 5)] (x.vector y.d 2 0 (x.c.qreg y.pg.toNat)
    ((List.range 32).map fun i => fit 16 (y.bits 4 1 == 1) x.c.ovt
      (rndShift (y.bits 2 2) (signedOf 40 (lane 40 (SMap.get zeroNat x.c.vaSeen (y.bits 0 2)) i)) y.b)))

/-! ### Add-compare-select (R238) -/

/-- A candidate metric: saturated to ±32,767, or wrapped, or ARITH. -/
def acsFit (sat ovt : Bool) (v : Int) : Int × Fit :=
  let lim := max (-32767) (min 32767 v)
  if sat then (lim, ⟨unsignedOf 16 lim, lim != v, false⟩) else (v, fit 16 false ovt v)

/-- Whether candidate c1 is chosen over c0. -/
def acsChoose (sat : Bool) (c0 c1 : Int) : Bool :=
  if sat then decide (c0 < c1) else decide (0 < signedOf 16 (unsignedOf 16 (c1 - c0)))

/-- VACSL (`high` false) and VACSH: the metrics into V(D), the decisions into Q(QD) and to the trace at P14 or P15. -/
def acsOp (x : OpCtx) (y : Syl) (high : Bool) : Eff :=
  let sat := y.bits 4 1 == 1
  if y.pg ≠ 0 ∨ y.a % 2 = 1 ∨ y.d = y.a ∨ y.d = y.a + 1 then Eff.illegal else
    let m (s : Nat) : Int := signedOf 16 (if s < 32 then lane 16 (x.c.vreg y.a) s else lane 16 (x.c.vreg (y.a + 1)) (s - 32))
    let rows := (List.range 32).map fun i =>
      let b := signedOf 16 (lane 16 (x.c.vreg y.b) i)
      let c0 := acsFit sat x.c.ovt (if high then m (2 * i) - b else m (2 * i) + b)
      let c1 := acsFit sat x.c.ovt (if high then m (2 * i + 1) + b else m (2 * i + 1) - b)
      let pick := acsChoose sat c0.1 c1.1
      (pick, (if pick then c1.2.val else c0.2.val), c0.2.sat || c1.2.sat, c0.2.arith || c1.2.arith)
    if rows.any fun r => r.2.2.2 then Eff.raise 5 else
      let dec := ofLanes 1 (rows.map fun r => if r.1 then 1 else 0)
      let p := if y.bits 0 1 = 0 then 14 else 15
      { writes := (⟨2, .v (x.c.vName y.d), ofLanes 16 (rows.map fun r => r.2.1), ones 512⟩ : Pend) :: toQ (y.bits 1 3) dec (ones 32) 2
        mem := some { store := true, size := 4, elem := 4, addr := x.c.preg p % 2 ^ 48, elems := [0], data := dec, dst := .s 0
                      signed := false, post := some (p, ptrLinear (x.c.preg p) 4) }
        sat := rows.any fun r => r.2.2.1 }

def opVacsl (x : OpCtx) (y : Syl) : Eff := acsOp x y false
def opVacsh (x : OpCtx) (y : Syl) : Eff := acsOp x y true

end Sys2Proof.Machine
end

