-- ==== Sys2Proof/Machine/DspMemory.lean ====
section
/-!
DEFINITION. The loads and stores of the DSP cores: group 3 (R234, R235). The bundle's issue performs them.
-/
namespace Sys2Proof.Machine

/-- Fields of a group 3 syllable. -/
def Syl3.r (y : Syl) : Nat := y.bits 15 5
def Syl3.p (y : Syl) : Nat := y.bits 11 4
def Syl3.mode (y : Syl) : Nat := y.bits 8 3
def Syl3.ofs (y : Syl) : Nat := y.bits 0 8

/-- A memory operation of `size` bytes with elements of `elem` bytes. -/
def memOp (x : OpCtx) (y : Syl) (store : Bool) (size elem : Nat) (elems : List Nat) (data : Nat) (dst : Dst) (signed : Bool) : Eff :=
  match x.c.address (Syl3.mode y) (Syl3.ofs y) size (Syl3.p y) with
  | none => Eff.illegal
  | some a =>
    { mem := some { store := store, size := size, elem := elem, addr := a.1, elems := elems, data := data, dst := dst, signed := signed
                    post := a.2.map fun v => (Syl3.p y, v) } }

/-- A scalar load into S(R). -/
def loadS (x : OpCtx) (y : Syl) (size : Nat) (signed : Bool) : Eff :=
  x.guarded y (memOp x y false size size [0] 0 (.s (x.c.sName (Syl3.r y))) signed)

/-- A scalar store of S(R). -/
def storeS (x : OpCtx) (y : Syl) (size : Nat) : Eff :=
  x.guarded y (memOp x y true size size [0] (x.c.sreg (Syl3.r y)) (.s 0) false)

/-- The elements of a vector access that the guard leaves in (R229, R235). -/
def vecElems (x : OpCtx) (y : Syl) (elem : Nat) : List Nat :=
  (List.range (64 / elem)).filter fun i => (x.c.qreg y.pg.toNat).testBit (if elem = 2 then i else 2 * i)

/-- A vector load or store. -/
def vecMem (x : OpCtx) (y : Syl) (store : Bool) (elem : Nat) : Eff :=
  memOp x y store 64 elem (vecElems x y elem) (x.c.vreg (Syl3.r y)) (.v (x.c.vName (Syl3.r y))) false

def opLdb (x : OpCtx) (y : Syl) : Eff := loadS x y 1 true
def opLdbu (x : OpCtx) (y : Syl) : Eff := loadS x y 1 false
def opLdh (x : OpCtx) (y : Syl) : Eff := loadS x y 2 true
def opLdhu (x : OpCtx) (y : Syl) : Eff := loadS x y 2 false
def opLdw (x : OpCtx) (y : Syl) : Eff := loadS x y 4 true
def opLdwu (x : OpCtx) (y : Syl) : Eff := loadS x y 4 false
def opLdd (x : OpCtx) (y : Syl) : Eff := loadS x y 8 false
def opLdp (x : OpCtx) (y : Syl) : Eff :=
  x.guarded y (if 16 ≤ Syl3.r y then Eff.illegal else memOp x y false 8 8 [0] 0 (.p (Syl3.r y)) false)
def opVld (x : OpCtx) (y : Syl) : Eff := vecMem x y false 2
def opVldw (x : OpCtx) (y : Syl) : Eff := vecMem x y false 4
def opStb (x : OpCtx) (y : Syl) : Eff := storeS x y 1
def opSth (x : OpCtx) (y : Syl) : Eff := storeS x y 2
def opStw (x : OpCtx) (y : Syl) : Eff := storeS x y 4
def opStd (x : OpCtx) (y : Syl) : Eff := storeS x y 8
def opStp (x : OpCtx) (y : Syl) : Eff :=
  x.guarded y (if 16 ≤ Syl3.r y then Eff.illegal else memOp x y true 8 8 [0] (x.c.preg (Syl3.r y)) (.s 0) false)
def opVst (x : OpCtx) (y : Syl) : Eff := vecMem x y true 2
def opVstw (x : OpCtx) (y : Syl) : Eff := vecMem x y true 4

/-! ### Where a core's accesses lead (R184, R190, R191) -/

/-- The offset in its Fold's window that an address of Fold core `n` names, in Fold-window or alias form. -/
def foldOffset (n a : Nat) : Option Nat :=
  let base := foldAddr (n / 8) 0
  if base ≤ a ∧ a < base + 0x1000000 then some (a - base)
  else if aliasBase ≤ a ∧ a < aliasBase + 0x1000000 then some (a - aliasBase) else none

/-- Whether `len` bytes from an address are data memory, or for a load also mailboxes, of Fold core `n`; the offset of the first. -/
def ownMemory (n : Nat) (store : Bool) (a len : Nat) : Option Nat :=
  match foldOffset n a with
  | some o => if o + len ≤ (if store then 0x3FFE00 else 0x400000) then some o else none
  | none => none

/-- Whether a byte at an offset lies in an enabled TK window that allows the access (R191). -/
def Core.tkByte (c : Core) (store : Bool) (o : Nat) : Bool :=
  (List.range 4).any fun i =>
    let w := c.getCr (0x18 + i)
    w.testBit 63 && (!store || w.testBit 62) && decide (bitsOf w 0 22 ≤ o) && decide (o < bitsOf w 32 22)

/-- Whether every byte of a range lies in such windows. -/
def Core.tkRange (c : Core) (store : Bool) (o len : Nat) : Bool := (List.range len).all fun i => c.tkByte store (o + i)

/-- What a check of a memory operation finds. -/
inductive MemCheck where
  | ok
  /-- An exception with its code and address; for WINDOW_FAULT the first faulting element. -/
  | exc (code addr elem : Nat)
  /-- ACCESS_VIOLATION. -/
  | viol (addr : Nat)
  deriving DecidableEq, Repr

/-- The checks of a memory operation of a Fold core: alignment, then element by element in ascending order the core's own
memory and the TK windows (R184, R191, R199, R235). -/
def OpCtx.checkMem (x : OpCtx) (m : MemOp) : MemCheck :=
  if m.addr % (if m.size = 64 then 8 else m.size) ≠ 0 then .exc 2 m.addr 0
  else
    let check (i : Nat) : MemCheck :=
      let a := m.addr + i * m.elem
      match ownMemory x.n m.store a m.elem with
      | none => .viol a
      | some o => if x.c.pl < 2 ∨ x.c.tkRange m.store o m.elem then .ok else .exc 1 a i
    ((m.elems.map check).find? (· != .ok)).getD .ok

end Sys2Proof.Machine
end

