-- ==== Sys2Proof/Machine/DspControl.lean ====
section
/-!
DEFINITION. The control operations of the DSP cores: group 6 (R239, R240), with loops (R206, R208) and the control registers (R189,
R223, R301).
-/
namespace Sys2Proof.Machine

/-- Bits of a syllable outside some fields, given by position and width. -/
def otherBits (y : Syl) (fs : List (Nat × Nat)) : Nat := clearFields y.ops.toNat fs

/-- A control operation: RSVD bits must be 0, and the guard must be Q0 (R230). -/
def ctlOp (y : Syl) (fs : List (Nat × Nat)) (e : Eff) : Eff := if otherBits y fs ≠ 0 ∨ y.pg ≠ 0 then Eff.illegal else e

/-- A control operation that may carry a guard. -/
def ctlGuarded (x : OpCtx) (y : Syl) (fs : List (Nat × Nat)) (e : Eff) : Eff :=
  x.guarded y (if otherBits y fs ≠ 0 then Eff.illegal else e)

/-- An operation of FW alone (R190). -/
def OpCtx.fwOnly (x : OpCtx) (e : Eff) : Eff := if x.c.pl = 0 then e else Eff.raise 4

/-- An operation that a control core does not have (R221). -/
def OpCtx.foldOnly (x : OpCtx) (e : Eff) : Eff := if x.control then Eff.illegal else e

/-- A signed offset of 20 bits in syllables from the bundle. -/
def branchTarget (x : OpCtx) (y : Syl) : Int := (x.pc : Int) + 4 * signedOf 20 (y.bits 0 20)

/-- A LOOP with a count (R206): illegal inside a loop or with a body of fewer than two bundles. -/
def loopOp (x : OpCtx) (y : Syl) (count : Nat) : Eff :=
  let last := x.pc + 4 * y.bits 0 10
  if x.c.la ∨ last ≤ x.nextPc then Eff.illegal else { ctl := .loop count last }

/-- A REP with a count (R208). -/
def repOp (x : OpCtx) (count : Nat) : Eff :=
  if 4096 < count ∨ x.c.ra ∨ (x.c.la ∧ x.pc = x.c.getCr 6) then Eff.illegal else { ctl := .rep count }

def opNop (_ : OpCtx) (y : Syl) : Eff := ctlOp y [] Eff.none
def opBr (x : OpCtx) (y : Syl) : Eff := ctlGuarded x y [(0, 20)] { ctl := .jump (branchTarget x y) }
def opCall (x : OpCtx) (y : Syl) : Eff :=
  ctlGuarded x y [(0, 20)] { writes := x.toS 15 1 x.nextPc, ctl := .jump (branchTarget x y) }
def opJr (x : OpCtx) (y : Syl) : Eff :=
  ctlGuarded x y [(10, 5)]
    (let t : Nat := x.c.sreg y.a % 2 ^ 19
     if t % 4 ≠ 0 then Eff.illegal else { ctl := .jump (t : Int) })
def opLoop (x : OpCtx) (y : Syl) : Eff := ctlOp y [(15, 5), (0, 10)] (loopOp x y (x.c.sreg (y.bits 15 5) % 2 ^ 32))
def opLoopi (x : OpCtx) (y : Syl) : Eff := ctlOp y [(10, 10), (0, 10)] (loopOp x y (y.bits 10 10))
def opRep (x : OpCtx) (y : Syl) : Eff := ctlOp y [(15, 5)] (repOp x (x.c.sreg (y.bits 15 5)))
def opRepi (x : OpCtx) (y : Syl) : Eff := ctlOp y [(0, 13)] (repOp x (y.bits 0 13))
def opFence (_ : OpCtx) (y : Syl) : Eff := ctlOp y [] { ctl := .fence }
def opDone (x : OpCtx) (y : Syl) : Eff :=
  ctlOp y [] (x.foldOnly (x.fwOnly (if x.c.sh then Eff.illegal else { ctl := .done })))
def opTrap (x : OpCtx) (y : Syl) : Eff := ctlGuarded x y [(0, 8)] { ctl := .trap (y.bits 0 8) }
/-- RFE: PRIV_OP at TK; a return to TK is illegal on a control core, and a return to level 3 anywhere (R190, R222). -/
def opRfe (x : OpCtx) (y : Syl) : Eff :=
  ctlOp y [] (if x.c.pl = 2 then Eff.raise 4 else
    let goal := bitsOf (x.c.getCr (if x.c.pl = 0 then 0x21 else 0x11)) 0 2
    if goal = 3 ∨ (x.control ∧ goal = 2) then Eff.illegal else { ctl := .rfe })
def opSignal (x : OpCtx) (y : Syl) : Eff := ctlOp y [(0, 3)] (x.foldOnly (x.fwOnly { ctl := .signal (y.bits 0 3) }))
def opViol (x : OpCtx) (y : Syl) : Eff :=
  ctlOp y [(0, 8)] (x.fwOnly (if y.bits 0 8 < 1 ∨ 5 < y.bits 0 8 then Eff.illegal else { ctl := .viol (y.bits 0 8) }))

/-! ### Control registers -/

/-- Whether a number names a control register (R189, R223, R301). -/
def crExists (control : Bool) (n : Nat) : Bool :=
  decide (n ≤ 8) || (decide (0x10 ≤ n) && decide (n ≤ 0x15)) || (decide (0x18 ≤ n) && decide (n ≤ 0x1B))
    || (decide (0x20 ≤ n) && decide (n ≤ 0x27))
    || (control && ((decide (0x40 ≤ n) && decide (n ≤ 0x43)) || n == 0x48 || (decide (0x50 ≤ n) && decide (n ≤ 0x6F))))

/-- The least privileged level that may use a control register: group T 2, group K 1, group F 0 (R189). The cache actions name no
group: every level of a control core may use them. -/
def crLevel (n : Nat) : Nat := if n ≤ 8 ∨ (0x40 ≤ n ∧ n ≤ 0x43) then 2 else if n ≤ 0x1B then 1 else 0

/-- What MFC reads: TCYC and TICKNO follow time, CORE_ID the core, and a control core's VXIDX and TK windows read 0 (R221). -/
def OpCtx.readCr (x : OpCtx) (n : Nat) : Nat :=
  if n = 1 then (if x.control then x.n - 128 else x.n % 8 + x.n / 8 * 256)
  else if n = 2 then x.tcyc
  else if n = 3 then x.tickno
  else if x.control ∧ (n = 0x14 ∨ (0x18 ≤ n ∧ n ≤ 0x1B)) then 0
  else if 0x40 ≤ n ∧ n ≤ 0x43 then 0
  else x.c.getCr n

/-- The bits of a control register that MTC changes at a level (R189, R240). -/
def crMask (control : Bool) (pl n : Nat) : Nat :=
  if n = 0 then (if pl = 0 then 0xF4 else if pl = 1 then 0xD4 else 0xC0)
  else if 1 ≤ n ∧ n ≤ 3 then 0
  else if n = 7 then 0xFF03
  else if n = 0x12 ∨ n = 0x22 then 0
  else if n = 0x14 then (if control then 0 else 0x833F)
  else if 0x18 ≤ n ∧ n ≤ 0x1B then (if control then 0 else 0xC03FFFFF003FFFFF)
  else if n = 0x25 ∨ n = 0x26 then 0xF
  else if n = 0x27 then 0x3FFF
  else if n = 0x48 then 3
  else if 0x50 ≤ n ∧ n ≤ 0x6F then (if n % 2 = 0 then 0x0000FFFFFFFFF000 else 0x8000FFFFFFFFF03F)
  else ones 64

/-- A control register that the loop hardware owns while a loop runs (R240). -/
def crLoop (n : Nat) : Bool := decide (4 ≤ n) && decide (n ≤ 8)

def opMfc (x : OpCtx) (y : Syl) : Eff :=
  ctlOp y [(15, 5), (0, 8)]
    (let n := y.bits 0 8
     if !crExists x.control n then Eff.illegal
     else if crLevel n < x.c.pl then Eff.raise 4
     else { writes := x.toS y.d 1 (x.readCr n) })

/-- MTC: IPEND is cleared where ones are written, and a cache register acts on a line (R189, R301). -/
def opMtc (x : OpCtx) (y : Syl) : Eff :=
  ctlOp y [(10, 5), (0, 8)]
    (let n := y.bits 0 8
     let v := x.c.sreg y.a
     if !crExists x.control n then Eff.illegal
     else if crLevel n < x.c.pl then Eff.raise 4
     else if x.c.la && crLoop n then Eff.illegal
     else if 0x40 ≤ n ∧ n ≤ 0x43 then { ctl := .cache n (v % 2 ^ 48) }
     else if n = 0x26 then { writes := [⟨1, .cr n, 0, v % 16⟩] }
     else { writes := [⟨1, .cr n, v, crMask x.control x.c.pl n⟩] })

/-! ### The command queue (R239, R245, R247) -/

def opAcq (x : OpCtx) (y : Syl) : Eff :=
  ctlOp y [(11, 4), (8, 2), (0, 4)] (x.foldOnly { ctl := .acq (x.c.preg (y.bits 11 4) % 2 ^ 48) (y.bits 8 2) (y.bits 0 4) })
def opAcwait (x : OpCtx) (y : Syl) : Eff := ctlOp y [(0, 4)] (x.foldOnly { ctl := .acwait (y.bits 0 4) })

/-- The tags of a core in a state, one bit each. -/
def Core.tagsIn (c : Core) (st : Nat) : Nat :=
  ofLanes 1 ((List.range 16).map fun t => if SMap.get zeroNat c.tags t = st then 1 else 0)

/-- The tags as ACPOLL samples them at X1: an ACQ of one of the 4 bundles before has not come to RT then (R242, R247). -/
def Core.sampled (c : Core) : Core := { c with tags := c.acqs.foldl (fun m a => SMap.set zeroNat m a.tag a.old) c.tags }

/-- The status that ACPOLL reads (R247). -/
def OpCtx.accStatus (x : OpCtx) : Nat :=
  x.c.sampled.tagsIn 1 + 2 ^ 16 * x.c.sampled.tagsIn 2 + 2 ^ 48 * bitsOf x.enable 0 4 + 2 ^ 52 * bitsOf x.enable 8 4 + 2 ^ 56 * bitsOf x.enable 16 4

def opAcpoll (x : OpCtx) (y : Syl) : Eff := ctlOp y [(15, 5)] (x.foldOnly { writes := x.toS y.d 1 x.accStatus })

/-! ### Every syllable -/

/-- The class of a syllable for the limits of R225: scalar, vector, memory or extension. -/
inductive OpClass where
  | scalar
  | vector
  | load
  | store
  /-- VACSL and VACSH: a vector operation and a store. -/
  | acs
  | ext
  deriving DecidableEq, Repr

/-- The class of a command that is a syllable. -/
def opClass : Instr → Option OpClass
  | .ext _ _ _ => some .ext
  | .add _ | .sub _ | .and _ | .or _ | .xor _ | .andn _ | .shl _ | .shr _
  | .sar _ | .min _ | .max _ | .minu _ | .maxu _ | .abs _ | .clz _ | .popc _
  | .mul _ | .mulh _ | .mulq _ | .mov _ | .sext _ | .cmpeq _ | .cmplt _ | .cmpltu _
  | .cmple _ | .addi _ | .andi _ | .ori _ | .xori _ | .shli _ | .shri _ | .sari _
  | .sarri _ | .muli _ | .movi _ | .cmpeqi _ | .cmplti _ | .cmpltui _ | .addpi _ | .addp _
  | .movps _ | .movsp _ | .movks _ | .movsk _ | .qand _ | .qor _ | .qxor _ | .qandn _
  | .qnot _ | .qfroms _ | .qtos _ | .qseti _ | .nop _ | .br _ | .call _ | .jr _
  | .loop _ | .loopi _ | .rep _ | .repi _ | .fence _ | .done _ | .trap _ | .rfe _
  | .signal _ | .viol _ | .mfc _ | .mtc _ | .acq _ | .acwait _ | .acpoll _ => some .scalar
  | .vadd _ | .vsub _ | .vmin _ | .vmax _ | .vabs _ | .vneg _ | .vand _ | .vor _
  | .vxor _ | .vshl _ | .vshr _ | .vcmpeq _ | .vcmplt _ | .vsel _ | .vperm _ | .vsplat _
  | .vext _ | .vconj _ | .vswapiq _ | .vpack _ | .vunpkl _ | .vunpkh _ | .vmov _ | .vmul _
  | .vcmul _ | .vcmulc _ | .vmac _ | .vmsu _ | .vcmac _ | .vcmacc _ | .vcmag _ | .vaclr _
  | .vrd _ => some .vector
  | .ldb _ | .ldbu _ | .ldh _ | .ldhu _ | .ldw _ | .ldwu _ | .ldd _ | .ldp _
  | .vld _ | .vldw _ => some .load
  | .stb _ | .sth _ | .stw _ | .std _ | .stp _ | .vst _ | .vstw _ => some .store
  | .vacsl _ | .vacsh _ => some .acs
  | _ => none

/-- What an operation does when its bundle issues. -/
def opEff (x : OpCtx) : Instr → Eff
  | .add y => opAdd x y
  | .sub y => opSub x y
  | .and y => opAnd x y
  | .or y => opOr x y
  | .xor y => opXor x y
  | .andn y => opAndn x y
  | .shl y => opShl x y
  | .shr y => opShr x y
  | .sar y => opSar x y
  | .min y => opMin x y
  | .max y => opMax x y
  | .minu y => opMinu x y
  | .maxu y => opMaxu x y
  | .abs y => opAbs x y
  | .clz y => opClz x y
  | .popc y => opPopc x y
  | .mul y => opMul x y
  | .mulh y => opMulh x y
  | .mulq y => opMulq x y
  | .mov y => opMov x y
  | .sext y => opSext x y
  | .cmpeq y => opCmpeq x y
  | .cmplt y => opCmplt x y
  | .cmpltu y => opCmpltu x y
  | .cmple y => opCmple x y
  | .addi y => opAddi x y
  | .andi y => opAndi x y
  | .ori y => opOri x y
  | .xori y => opXori x y
  | .shli y => opShli x y
  | .shri y => opShri x y
  | .sari y => opSari x y
  | .sarri y => opSarri x y
  | .muli y => opMuli x y
  | .movi y => opMovi x y
  | .cmpeqi y => opCmpeqi x y
  | .cmplti y => opCmplti x y
  | .cmpltui y => opCmpltui x y
  | .addpi y => opAddpi x y
  | .addp y => opAddp x y
  | .movps y => opMovps x y
  | .movsp y => opMovsp x y
  | .movks y => opMovks x y
  | .movsk y => opMovsk x y
  | .qand y => opQand x y
  | .qor y => opQor x y
  | .qxor y => opQxor x y
  | .qandn y => opQandn x y
  | .qnot y => opQnot x y
  | .qfroms y => opQfroms x y
  | .qtos y => opQtos x y
  | .qseti y => opQseti x y
  | .ldb y => opLdb x y
  | .ldbu y => opLdbu x y
  | .ldh y => opLdh x y
  | .ldhu y => opLdhu x y
  | .ldw y => opLdw x y
  | .ldwu y => opLdwu x y
  | .ldd y => opLdd x y
  | .ldp y => opLdp x y
  | .vld y => opVld x y
  | .vldw y => opVldw x y
  | .stb y => opStb x y
  | .sth y => opSth x y
  | .stw y => opStw x y
  | .std y => opStd x y
  | .stp y => opStp x y
  | .vst y => opVst x y
  | .vstw y => opVstw x y
  | .vadd y => opVadd x y
  | .vsub y => opVsub x y
  | .vmin y => opVmin x y
  | .vmax y => opVmax x y
  | .vabs y => opVabs x y
  | .vneg y => opVneg x y
  | .vand y => opVand x y
  | .vor y => opVor x y
  | .vxor y => opVxor x y
  | .vshl y => opVshl x y
  | .vshr y => opVshr x y
  | .vcmpeq y => opVcmpeq x y
  | .vcmplt y => opVcmplt x y
  | .vsel y => opVsel x y
  | .vperm y => opVperm x y
  | .vsplat y => opVsplat x y
  | .vext y => opVext x y
  | .vconj y => opVconj x y
  | .vswapiq y => opVswapiq x y
  | .vpack y => opVpack x y
  | .vunpkl y => opVunpkl x y
  | .vunpkh y => opVunpkh x y
  | .vmov y => opVmov x y
  | .vmul y => opVmul x y
  | .vcmul y => opVcmul x y
  | .vcmulc y => opVcmulc x y
  | .vmac y => opVmac x y
  | .vmsu y => opVmsu x y
  | .vcmac y => opVcmac x y
  | .vcmacc y => opVcmacc x y
  | .vcmag y => opVcmag x y
  | .vaclr y => opVaclr x y
  | .vrd y => opVrd x y
  | .vacsl y => opVacsl x y
  | .vacsh y => opVacsh x y
  | .nop y => opNop x y
  | .br y => opBr x y
  | .call y => opCall x y
  | .jr y => opJr x y
  | .loop y => opLoop x y
  | .loopi y => opLoopi x y
  | .rep y => opRep x y
  | .repi y => opRepi x y
  | .fence y => opFence x y
  | .done y => opDone x y
  | .trap y => opTrap x y
  | .rfe y => opRfe x y
  | .signal y => opSignal x y
  | .viol y => opViol x y
  | .mfc y => opMfc x y
  | .mtc y => opMtc x y
  | .acq y => opAcq x y
  | .acwait y => opAcwait x y
  | .acpoll y => opAcpoll x y
  | _ => Eff.none

/-- Whether a control core has an operation (R221). -/
def controlHas (i : Instr) : Bool :=
  match opClass i, i with
  | _, .vld _ => false
  | _, .vldw _ => false
  | _, .vst _ => false
  | _, .vstw _ => false
  | some .vector, _ => false
  | some .acs, _ => false
  | _, _ => true

/-- Whether a syllable is a control transfer (R230). -/
def isTransfer : Instr → Bool
  | .br _ | .call _ | .jr _ | .loop _ | .loopi _ | .rep _ | .repi _ | .rfe _ | .trap _ | .done _ => true
  | _ => false

/-- Whether a syllable is a branch. -/
def isBranch : Instr → Bool
  | .br _ | .call _ | .jr _ => true
  | _ => false

/-- Whether a syllable may not stand in a repeated bundle (R208). -/
def notRepeated : Instr → Bool
  | .br _ | .call _ | .jr _ | .loop _ | .loopi _ | .rep _ | .repi _ | .fence _ | .done _ | .trap _ | .rfe _ | .mtc _ | .acq _
  | .acwait _ | .acpoll _ => true
  | _ => false

/-- Whether an extension syllable may follow a syllable (R228): group 1, ADDPI and QSETI. -/
def takesExt : Instr → Bool
  | .addi _ | .andi _ | .ori _ | .xori _ | .shli _ | .shri _ | .sari _ | .sarri _ | .muli _ | .movi _ | .cmpeqi _ | .cmplti _
  | .cmpltui _ | .addpi _ | .qseti _ => true
  | _ => false

end Sys2Proof.Machine
end

