-- ==== Sys2Proof/Machine/Accel.lean ====
section
/-!
DEFINITION. The accelerators of a Fold (R241 to R259): the checks of a command, its operand regions, and what each operation writes. A
result that the spec gives to a tolerance is its exact value and a free slack within the tolerance.
-/
namespace Sys2Proof.Machine

/-! ### Commands (R250, R253, R256 to R258) -/

/-- A field of a command. -/
def accField (d : List Byte) (o n : Nat) : Nat := leAt d o n

/-- Whether bytes outside some fields, each an offset and a length, are 0. -/
def accRsvd (d : List Byte) (fs : List (Nat × Nat)) : Bool :=
  (List.range 64).any fun i => !(fs.any fun f => decide (f.1 ≤ i) && decide (i < f.1 + f.2)) && d.getD i 0 != 0

/-- Whether OP is not defined for the unit, or a CFLAGS or RSVD bit is not 0 (BAD_OP). -/
def accBadOp (unit : Nat) (d : List Byte) : Bool :=
  let op := accField d 0 1
  let high (o : Nat) : Bool := accField d (o + 6) 2 != 0
  decide (1 < accField d 1 1) || (match unit with
    | 0 => decide (op < 1) || decide (4 < op) || decide (7 < accField d 9 1) || high 0x10 || high 0x18 || high 0x20 || high 0x28
        || accRsvd d [(0, 2), (8, 7), (0x10, 48)]
    | 1 => decide (op < 1) || decide (2 < op) || high 0x10 || high 0x18 || accRsvd d [(0, 2), (8, 4), (0x10, 0x18)]
    | 2 => decide (op < 1) || decide (4 < op) || high 0x20 || accRsvd d [(0, 2), (8, 18), (0x20, 8)]
        || (if op ≤ 2 then decide (2 ^ 31 ≤ accField d 8 4)
            else if op = 3 then decide (2 ^ 13 ≤ accField d 8 4) || decide (2 ^ 13 ≤ accField d 12 4) else decide (32 ≤ accField d 8 4))
    | _ => op != 1 || high 0x10 || high 0x18 || accRsvd d [(0, 2), (8, 8), (0x10, 16)] || decide (1 < accField d 9 1))

/-- Whether a field lies outside its stated range (BAD_FIELD). -/
def accBadField (unit : Nat) (d : List Byte) : Bool :=
  let op := accField d 0 1
  match unit with
  | 0 =>
    let n := accField d 8 1
    let fl := accField d 9 1
    let m := accField d 10 2
    let ein := signedOf 8 (accField d 12 1)
    decide (n < 1) || decide (32 < n) || (match op with
      | 1 => fl != 0 || decide (m < 1) || decide (256 < m) || accField d 12 2 != 0 || decide (31 < accField d 14 1)
          || accField d 0x18 8 != 0 || accField d 0x28 8 != 0 || accField d 0x34 4 != 0
      | 2 => decide (1 < fl) || m != 0 || decide (ein < -64) || decide (63 < ein) || accField d 13 1 != 0 || accField d 0x18 8 != 0
          || accField d 0x34 4 != 0 || accField d 0x3C 4 != 0
      | 3 => decide (m < 1) || decide (64 < m) || decide (ein < -64) || decide (63 < ein) || accField d 0x28 8 != 0
          || accField d 0x3C 4 != 0
      | _ => fl.testBit 1 || decide (m < 1) || decide (64 < m) || decide (ein < -64) || decide (63 < ein) || accField d 0x3C 4 != 0)
  | 1 =>
    let n := accField d 8 2
    let sh := signedOf 8 (accField d 11 1)
    n == 0 || n % 12 != 0 || decide (3276 < n) || !smooth (n / 12) || decide (accField d 10 1 < 1) || decide (64 < accField d 10 1)
      || decide (sh < -8) || decide (8 < sh) || decide (accField d 0x20 4 < 4 * n) || decide (accField d 0x24 4 < 4 * n)
  | 2 =>
    let len := accField d 0x10 4
    let p0 := accField d 8 4
    let p1 := accField d 12 4
    let cs := accField d 0x16 2
    let div := accField d 0x18 2
    let shift := decide (div < 1) || decide (4096 < div) || decide (div ≤ cs)
    match op with
    | 1 => decide (2 ^ 31 ≤ p1) || decide (len < 1) || decide (65536 < len) || accField d 0x14 2 != 0 || cs != 0 || div != 0
    | 2 => decide (2 ^ 31 ≤ p1) || decide (len < 1) || decide (8192 < len) || cs != 0 || div != 0
    | 3 => !isPrime p0 || decide (4093 < p0) || decide (p1 < 1) || decide (p0 ≤ p1) || decide (len < 1) || decide (8192 < len) || shift
    | _ => decide (29 < p0) || !([6, 12, 18, 24, 30].contains p1) || len != p1 || shift
  | _ =>
    let mode := accField d 8 1
    let a := accField d 10 2
    let e := accField d 12 2
    match mode with
    | 0 => decide (a < 12) || decide (1013 < a) || decide (e < a + 11) || decide (8192 < e) || accField d 14 2 != 0
    | 1 => accField d 9 1 != 0 || decide (a < 12) || decide (140 < a) || !([108, 216, 432, 864, 1728].contains e)
    | 2 => accField d 9 1 != 0 || a != 32 || e != 864 || accField d 14 2 != 0
    | _ => true

/-! ### Operand regions (R249) -/

/-- An operand region: the byte ranges of its rows, its alignment, and whether the command writes it. -/
structure Region where
  out : Bool
  addr : Nat
  /-- Rows, their distance and their length in bytes. -/
  rows : Nat
  stride : Nat
  len : Nat
  align : Nat
  deriving DecidableEq, Repr

/-- The regions of a command, in the order of its address fields. -/
def accRegions (unit : Nat) (d : List Byte) : List Region :=
  let op := accField d 0 1
  match unit with
  | 0 =>
    let n := accField d 8 1
    let k := accField d 10 2
    let osz := if (accField d 9 1).testBit 0 then 4 else 8
    let bsz := if (accField d 9 1).testBit 2 then 8 else 4
    let a : Region := if op = 1 then ⟨false, accField d 0x10 8, k, accField d 0x30 4, 4 * n, 4⟩
      else ⟨false, accField d 0x10 8, n, accField d 0x30 4, 8 * n, 8⟩
    let b : List Region := if op ≥ 3 then [⟨false, accField d 0x18 8, n, accField d 0x34 4, bsz * k, bsz⟩] else []
    let o : Region := ⟨true, accField d 0x20 8, n, accField d 0x38 4, (if op ≥ 3 then osz * k else osz * n), osz⟩
    let g : List Region := if (op = 2 ∨ op = 4) ∧ accField d 0x28 8 ≠ 0 then [⟨true, accField d 0x28 8, 1, 0, 8, 1⟩] else []
    [a] ++ b ++ [o] ++ g
  | 1 =>
    let n := accField d 8 2
    [⟨false, accField d 0x10 8, accField d 10 1, accField d 0x20 4, 4 * n, 4⟩,
     ⟨true, accField d 0x18 8, accField d 10 1, accField d 0x24 4, 4 * n, 4⟩]
  | 2 =>
    let len := accField d 0x10 4
    if op = 1 then [⟨true, accField d 0x20 8, 1, 0, ceilDiv len 8, 1⟩] else [⟨true, accField d 0x20 8, 1, 0, 4 * len, 4⟩]
  | _ => [⟨false, accField d 0x10 8, 1, 0, accField d 12 2, 1⟩, ⟨true, accField d 0x18 8, 1, 0, 8 + ceilDiv (accField d 10 2) 8, 1⟩]

/-- The byte ranges of a region: start and length of each row. -/
def Region.ranges (r : Region) : List (Nat × Nat) := (List.range r.rows).map fun i => (r.addr + i * r.stride, r.len)

/-- Whether a region lies in Pasture memory. -/
def Region.pasture (r : Region) : Bool :=
  r.ranges.all fun x => decide (pastureBase ≤ x.1) && decide (x.1 + x.2 ≤ pastureBase + pastureSize)

/-- Whether a region lies in the data memory of Fold core `n`'s Fold, an input also in the mailboxes. -/
def Region.ownFold (r : Region) (n : Nat) : Bool := r.ranges.all fun x => (ownMemory n r.out x.1 x.2).isSome

/-- Whether a region breaks R249. -/
def Region.bad (r : Region) (n : Nat) : Bool :=
  !(r.pasture || r.ownFold n) || r.addr % r.align != 0 || r.stride % r.align != 0

/-- Whether a region breaks the TK rules of R243. -/
def Region.tkBad (r : Region) (c : Core) (n unit enable : Nat) : Bool :=
  if r.pasture then !enable.testBit (16 + unit)
  else !r.ranges.all fun x => c.tkRange r.out ((foldOffset n x.1).getD 0) x.2

/-- Where a region's bytes really lie: the two forms of a Fold address name the same byte. -/
def realAddr (n a : Nat) : Nat := match foldOffset n a with
  | some o => foldAddr (n / 8) o
  | none => a

/-- Whether two regions share a byte. -/
def Region.meets (a b : Region) (n : Nat) : Bool :=
  a.ranges.any fun x => b.ranges.any fun y =>
    decide (realAddr n x.1 < realAddr n y.1 + y.2) && decide (realAddr n y.1 < realAddr n x.1 + x.2)

/-- The first output region that overlaps another region of the command; the DFU works in place (R256). -/
def accOverlap (unit : Nat) (d : List Byte) (n : Nat) (rs : List Region) : Option Region :=
  if unit = 1 ∧ accField d 0x10 8 = accField d 0x18 8 ∧ accField d 0x20 4 = accField d 0x24 4 then none
  else (rs.zipIdx.find? fun r => r.1.out && rs.zipIdx.any fun o => o.2 != r.2 && r.1.meets o.1 n).map (·.1)

/-- The first check of R243 that a command fails once it has been read: code and address. -/
def accRefusal (c : Core) (n p unit tag enable : Nat) (d : List Byte) : Option (Nat × Nat) :=
  let allowed := c.pl = 0 ∨ (c.pl = 1 ∧ enable.testBit unit) ∨ (c.pl = 2 ∧ enable.testBit (8 + unit))
  let rs := accRegions unit d
  if ¬ allowed then some (2, p)
  else if SMap.get zeroNat c.tags tag = 1 then some (3, p)
  else if accBadOp unit d then some (4, p)
  else if accBadField unit d then some (5, p)
  else match rs.find? fun r => r.bad n with
    | some r => some (6, r.addr)
    | none => match if c.pl = 2 then rs.find? fun r => r.tkBad c n unit enable else none with
      | some r => some (7, r.addr)
      | none => (accOverlap unit d n rs).map fun r => (8, r.addr)

/-- Whether [P] is no place for a command (CMD_PLACE). -/
def accBadPlace (c : Core) (n p : Nat) : Bool :=
  p % 64 != 0 || (match ownMemory n false p 64 with
    | some o => c.pl == 2 && !c.tkRange false o 64
    | none => true)

/-! ### Serving commands (R251) -/

/-- The command that a unit of a Fold serves: one that has run, else the earliest commit, the lower core first; none on a Fold whose
clock has stopped. -/
def State.accHead (s : State) (f unit : Nat) : Option AccCmd :=
  if s.unitDead 0 f then none else
  let mine := s.dsp.cmds.filter fun c => c.fold == f && c.unit == unit
  match mine.find? (·.ran) with
  | some c => some c
  | none => mine.foldl (fun m c => match m with
      | some b => if c.commit < b.commit ∨ (c.commit = b.commit ∧ c.core < b.core) then some c else some b
      | none => some c) none

/-- What names a pending command. -/
def AccCmd.same (a b : AccCmd) : Bool := a.fold == b.fold && a.core == b.core && a.tag == b.tag

/-- The command's output has been written. -/
def State.accRan (s : State) (c : AccCmd) : State :=
  { s with dsp := { s.dsp with cmds := s.dsp.cmds.map fun (o : AccCmd) => if o.same c then { o with ran := true } else o } }

/-- Rows of a region read: the bytes of each. -/
def State.accRead (s : State) (c : AccCmd) : List (Nat × Nat) → (Option (Nat × Reply)) × List (List Byte) × State
  | [] => (none, [], s)
  | (a, len) :: rest =>
    let r := s.agentRead c.fold (realAddr (8 * c.fold) a) len
    if r.1.status ≠ stOk then (some (a, r.1), [], r.2) else
      let t := State.accRead r.2 c rest
      (t.1, r.1.data :: t.2.1, t.2.2)

/-- Rows written. The errors that the memories met act as R294 sets out; they are no fault of the command (R243). -/
def State.accWrite (s : State) (c : AccCmd) (rows : List (Nat × List Byte)) : State :=
  rows.foldl (fun t row =>
    let r := t.agentWrite c.fold (realAddr (8 * c.fold) row.1) row.2
    r.2.uncorrectables r.1.errs none) s

/-- A read of a command that failed: an uncorrectable error in the Fold's own memory is a fault of the Fold (R220, R243); elsewhere the
work of the release is lost (R442). -/
def State.accReadFault (s : State) (c : AccCmd) (a : Nat) (r : Reply) : State :=
  if r.errs.any fun m => unitOfGroup m.group == some (0, c.fold) then s.uncorrectables r.errs none
  else s.engineFault ⟨0, c.fold, c.core⟩ 0 a r

/-- The command in service on a unit, when it is of operation `op`: `work` gives the rows that it writes from the rows that it read. -/
def State.accRun (s : State) (f unit op : Nat)
    (work : List Byte → List (List (List Byte)) → State → List (Nat × List Byte) × State) : State :=
  match s.accHead f unit with
  | none => s
  | some c =>
    if c.ran ∨ accField c.bytes 0 1 ≠ op then s else
      let ins := (accRegions unit c.bytes).filter fun r => !r.out
      let rd := s.accRead c (ins.flatMap Region.ranges)
      match rd.1 with
      | some e => rd.2.2.accReadFault c e.1 e.2
      | none =>
        let rows := ins.foldl (fun (a : List (List (List Byte)) × List (List Byte)) r => (a.1 ++ [a.2.take r.rows], a.2.drop r.rows))
          ([], rd.2.1)
        let w := work c.bytes rows.1 rd.2.2
        (w.2.accWrite c w.1).accRan c

/-- The rows of the output region with their bytes. -/
def outRows (unit : Nat) (d : List Byte) (rows : List (List Byte)) : List (Nat × List Byte) :=
  match (accRegions unit d).find? (·.out) with
  | some r => (r.ranges.zip rows).map fun p => (p.1.1, p.2)
  | none => []

/-- Free rows for the output region. -/
def State.freeRows (s : State) (unit : Nat) (d : List Byte) : List (Nat × List Byte) × State :=
  match (accRegions unit d).find? (·.out) with
  | some r =>
    let v := s.drawBytes (r.rows * r.len)
    (r.ranges.zipIdx.map fun p => (p.1.1, slice v.1 (p.2 * r.len) r.len), v.2)
  | none => ([], s)

/-! ### MXU (R254, R255) -/

/-- An element of the Gram matrix on or below the diagonal. -/
def gramLow (a : List (List Cplx)) (sh reg i j : Nat) : Cplx :=
  let sum := (a.map fun row => (row.getD i Cplx.zero).conj.mul (row.getD j Cplx.zero)).foldl Cplx.add Cplx.zero
  let g := sum.map fun v => satS 32 (roundShift v sh)
  if i = j then ⟨satS 32 (g.re + reg), g.im⟩ else g

/-- An element of the Gram matrix: Hermitian bit for bit. DESIGN CHOICE (log 12): the formula rounds the elements below the diagonal, and
those above it mirror them. -/
def gramAt (a : List (List Cplx)) (sh reg i j : Nat) : Cplx :=
  if j ≤ i then gramLow a sh reg i j else (gramLow a sh reg j i).conj.map (satS 32)

/-- A C32 element, and one of a C32 row. -/
def c32Bytes (z : Cplx) : List Byte := leBytes 4 (unsignedOf 32 z.re) ++ leBytes 4 (unsignedOf 32 z.im)
def c32Element (row : List Byte) (j : Nat) : Cplx := ⟨signedOf 32 (leAt row (8 * j) 4), signedOf 32 (leAt row (8 * j + 4) 4)⟩

/-- GRAM. -/
def State.accGram (s : State) (f : Nat) : State :=
  s.accRun f 0 1 fun d ins t =>
    let n := accField d 8 1
    let a := ((ins.headD []).map cplxList)
    (outRows 0 d ((List.range n).map fun i => (List.range n).flatMap fun j => c32Bytes (gramAt a (accField d 14 1) (accField d 0x3C 4) i j)), t)

/-- A matrix operand whose elements carry a signed exponent: C32, or C16. -/
def matrixOf (rows : List (List Byte)) (cols : Nat) (wide : Bool) (exponent : Int) : CMat :=
  CMat.build rows.length cols fun i j =>
    let row := rows.getD i []
    (if wide then (c32Element row j).rat else ((cplxList row).getD j Cplx.zero).rat).smul (twoPow exponent)

/-- The slack of an element of a column whose largest magnitude squared is `m`: at most 2^-20 of that magnitude, from 48 free bits. -/
def columnSlack (m : Rat) (bits : Nat) : CRat :=
  let part (o : Nat) : Rat := mkRat (signedOf 24 (bitsOf bits o 24)) (2 ^ 23)
  let z : CRat := ⟨part 0, part 24⟩
  if 1 < z.normSq then CRat.zero else z.smul (sqrtQ m * mkRat 1 (2 ^ 20))

/-- A matrix written by the MXU: each element off its exact value by a slack, rounded half to even and saturated (R254). `exact` names the
elements that have no slack, `real` those whose imaginary part is 0. -/
def State.mxuRows (s : State) (d : List Byte) (x : CMat) (rows cols : Nat) (exact_ real : Nat → Nat → Bool) : List (List Byte) × State :=
  let narrow := (accField d 9 1).testBit 0
  let w := if narrow then 16 else 32
  let down := twoPow (-(signedOf 8 (accField d 14 1)))
  let v := s.draw (48 * rows * cols)
  let peak := ((List.range cols).map fun j => (x.col rows j).foldl (fun m z => max m z.normSq) 0).toArray
  ((List.range rows).map fun i => (List.range cols).flatMap fun j =>
    let slack := if exact_ i j then CRat.zero else columnSlack (peak.getD j 0) (bitsOf v.1 (48 * (cols * i + j)) 48)
    let z := ((x.get i j).add slack).smul down
    let out (r : Rat) : List Byte := leBytes (w / 8) (unsignedOf w (satS w (roundEven r)))
    out z.re ++ out (if real i j then 0 else z.im), v.2)

/-- The factors of the matrix in A: a pivot that is 0 or negative gives way to 2^EIN (R255). -/
def accFactors (d : List Byte) (rows : List (List Byte)) : Ldl :=
  let n := accField d 8 1
  let e := signedOf 8 (accField d 12 1)
  ldl (matrixOf rows n true e) n (twoPow e)

/-- The pivot report: one more than the first pivot replaced, and how many were (R255). -/
def pivotReport (d : List Byte) (bad : List Nat) : List (Nat × List Byte) :=
  if accField d 0x28 8 = 0 then [] else
    [(accField d 0x28 8, leBytes 1 (match bad with | [] => 0 | i :: _ => i + 1) ++ leBytes 1 bad.length ++ List.replicate 6 0)]

/-- CHOL: L = the unit triangle's columns times the square roots of the pivots. -/
def State.accChol (s : State) (f : Nat) : State :=
  s.accRun f 0 2 fun d ins t =>
    let n := accField d 8 1
    let g := accFactors d (ins.headD [])
    let l := CMat.build n n fun i j => if i < j then CRat.zero else (g.at i j).smul (sqrtQ (g.pivots.getD j 0))
    let v := t.mxuRows d l n n (fun i j => decide (i < j)) fun i j => i == j
    (outRows 0 d v.1 ++ pivotReport d g.replaced, v.2)

/-- TRSV. With a 0 on the diagonal the equation has no one solution, and the output is free. -/
def State.accTrsv (s : State) (f : Nat) : State :=
  s.accRun f 0 3 fun d ins t =>
    let n := accField d 8 1
    let k := accField d 10 2
    let l := matrixOf (ins.headD []) n true (signedOf 8 (accField d 12 1))
    let b := matrixOf (ins.getD 1 []) k ((accField d 9 1).testBit 2) (signedOf 8 (accField d 13 1))
    if (List.range n).any fun i => (l.get i i).normSq == 0 then t.freeRows 0 d
    else
      let col (j : Nat) : List CRat :=
        if (accField d 9 1).testBit 1 then upperSolve l.get n (b.col n j) else lowerSolve l.get n (b.col n j)
      let v := t.mxuRows d (CMat.ofCols ((List.range k).map col) n) n k (fun _ _ => false) fun _ _ => false
      (outRows 0 d v.1, v.2)

/-- SOLVE. -/
def State.accSolve (s : State) (f : Nat) : State :=
  s.accRun f 0 4 fun d ins t =>
    let n := accField d 8 1
    let k := accField d 10 2
    let g := accFactors d (ins.headD [])
    let b := matrixOf (ins.getD 1 []) k ((accField d 9 1).testBit 2) (signedOf 8 (accField d 13 1))
    let v := t.mxuRows d (CMat.ofCols ((List.range k).map fun j => g.solve n (b.col n j)) n) n k (fun _ _ => false) fun _ _ => false
    (outRows 0 d v.1 ++ pivotReport d g.replaced, v.2)

/-! ### DFU (R256) -/

/-- DFT and IDFT: each component within 2 LSB of the formula. -/
def State.accDft (s : State) (f : Nat) (inverse : Bool) : State :=
  s.accRun f 1 (if inverse then 2 else 1) fun d ins t =>
    let r := (ins.headD []).foldl (fun (acc : List (List Byte) × State) row =>
      let y := acc.2.slacken 2 (dft inverse (accField d 8 2) (signedOf 8 (accField d 11 1)) (cplxList row))
      (acc.1 ++ [cplxBytes y.1], y.2)) ([], t)
    (outRows 1 d r.1, r.2)

/-! ### SQU (R257) -/

/-- GOLD_BITS. -/
def State.accGoldBits (s : State) (f : Nat) : State :=
  s.accRun f 2 1 fun d _ t => (outRows 2 d [packBits (goldBits (accField d 8 4) (accField d 12 4) (accField d 0x10 4))], t)

/-- Samples of a sequence, each component within 1 LSB of its rounded value. -/
def State.accSamples (s : State) (d : List Byte) (xs : List Cplx) : List (Nat × List Byte) × State :=
  let v := s.slacken 1 xs
  (outRows 2 d [cplxBytes v.1], v.2)

/-- GOLD_QPSK. -/
def State.accGoldQpsk (s : State) (f : Nat) : State :=
  s.accRun f 2 2 fun d _ t =>
    let len := accField d 0x10 4
    let bits := (goldBits (accField d 8 4) (accField d 12 4) (2 * len)).toArray
    let part (i : Nat) : Int := scaledLevel (accField d 0x14 2) (bitSign (bits.getD i false)) 2
    t.accSamples d ((List.range len).map fun i => (⟨part (2 * i), part (2 * i + 1)⟩ : Cplx).sat16)

/-- ZC. -/
def State.accZc (s : State) (f : Nat) : State :=
  s.accRun f 2 3 fun d _ t =>
    let p := accField d 8 4
    let div := accField d 0x18 2
    t.accSamples d ((List.range (accField d 0x10 4)).map fun n =>
      let m := n % p
      (unitTurn ((2 * p * accField d 0x16 2 * n : Nat) - (div * accField d 12 4 * (m * (m + 1)) : Nat)) (2 * div * p)).scaled (accField d 0x14 2))

/-- LOWPAPR. -/
def State.accLowpapr (s : State) (f : Nat) : State :=
  s.accRun f 2 4 fun d _ t =>
    t.accSamples d ((List.range (accField d 0x10 4)).map fun n =>
      let a := shiftedSequence (accField d 8 4) 0 (accField d 12 4) (accField d 0x16 2) (accField d 0x18 2) n
      (unitTurn a.num a.den).scaled (accField d 0x14 2))

/-! ### PLU (R258, R259) -/

/-- DECODE: the result word and the payload. -/
def State.accDecode (s : State) (f : Nat) : State :=
  s.accRun f 3 1 fun d ins t =>
    let mode := accField d 8 1
    let a := accField d 10 2
    let e := accField d 12 2
    let llrs := ((ins.headD []).headD []).map fun (b : Byte) => b.toInt
    let code := if mode = 0 then polarUci a e ((accField d 9 1).testBit 0) else polarDown a e
    let o := code.decode (mode == 1) (accField d 14 2) llrs
    (outRows 3 d [leBytes 4 ((if o.ok then 1 else 0) + 2 * o.path) ++ leBytes 4 (min o.metric (2 ^ 32 - 1)) ++ packMsb o.payload], t)

/-! ### Commands -/

/-- GRAM. -/
def execGram (fold : Fin 16) (s : State) : Out := working (fun t => t.accGram fold) s
/-- CHOL. -/
def execChol (fold : Fin 16) (s : State) : Out := working (fun t => t.accChol fold) s
/-- TRSV. -/
def execTrsv (fold : Fin 16) (s : State) : Out := working (fun t => t.accTrsv fold) s
/-- SOLVE. -/
def execSolve (fold : Fin 16) (s : State) : Out := working (fun t => t.accSolve fold) s
/-- DFT. -/
def execDft (fold : Fin 16) (s : State) : Out := working (fun t => t.accDft fold false) s
/-- IDFT. -/
def execIdft (fold : Fin 16) (s : State) : Out := working (fun t => t.accDft fold true) s
/-- GOLD_BITS. -/
def execGoldBits (fold : Fin 16) (s : State) : Out := working (fun t => t.accGoldBits fold) s
/-- GOLD_QPSK. -/
def execGoldQpsk (fold : Fin 16) (s : State) : Out := working (fun t => t.accGoldQpsk fold) s
/-- ZC. -/
def execZc (fold : Fin 16) (s : State) : Out := working (fun t => t.accZc fold) s
/-- LOWPAPR. -/
def execLowpapr (fold : Fin 16) (s : State) : Out := working (fun t => t.accLowpapr fold) s
/-- DECODE. -/
def execDecode (fold : Fin 16) (s : State) : Out := working (fun t => t.accDecode fold) s

end Sys2Proof.Machine
end

