-- ==== Sys2Proof/Machine/Almanac.lean ====
section
/-!
DEFINITION. The almanac at work: binding, sparing and shedding (R33 to R36, R51, R451), loads (R43 to R47), arming and pool swaps
(R48, R49, R54), the start of the active almanac (R431) and the swap (R50 to R53).
-/
namespace Sys2Proof.Machine

/-! ### The map and the fallow list -/

/-- A logical engine bound to a unit, or unbound. -/
def State.bind (s : State) (n : Nat) (u : Option (Nat × Nat)) : State :=
  match u with
  | some x => s.wr (.ALM_EMAP n) (BitVec.ofNat 64 (2 ^ 28 * (x.1 % 16) + x.2 % 256))
  | none => (s.setFld (.ALM_EMAP n) Fld.ALM_EMAP_UNBOUND 1).setFld (.ALM_EMAP n) Fld.ALM_EMAP_PHYS 0

/-- The fallow list in use. -/
def State.fallow (s : State) : List (Nat × Nat) :=
  (List.range 16).filterMap fun m =>
    if s.fld (.ALM_FALLOW m) Fld.ALM_FALLOW_VALID = 1 then
      some (s.fld (.ALM_FALLOW m) Fld.ALM_FALLOW_CLASS, s.fld (.ALM_FALLOW m) Fld.ALM_FALLOW_PHYS) else none

/-- The fallow list replaced. -/
def State.setFallow (s : State) (l : List (Nat × Nat)) : State :=
  (List.range 16).foldl (fun t m => t.wr (.ALM_FALLOW m) (match l[m]? with
    | some u => BitVec.ofNat 64 (0x8000 + u.1 % 16 * 256 + u.2 % 256)
    | none => 0)) s

/-- The calendar index of the edge that edge events act at. -/
def State.edgeIndex (s : State) : Nat := indexOf s.activeK s.edgePos

/-- A logical engine bound to a replacement (R33, R451). -/
def State.remap (s : State) (n : Nat) (old new : Nat × Nat) : State :=
  let s1 := (s.bind n (some new)).setFallow (s.fallow.filter fun f => f != new)
  let s2 := { s1 with alm := { s1.alm with
    domainAlias := s1.alm.domainAlias ++ [(domainOfUnit old.1 old.2, domainOfUnit new.1 new.2)] } }
  (s2.bump .ALM_STATS Fld.ALM_STATS_REMAPS).record
    { code := 0x90, cls := old.1, phys := old.2, logical := some n, detail := new.2 }

/-- The logical engines bound to one of some units, in ascending order, with that unit. -/
def State.boundTo (s : State) (us : List (Nat × Nat)) : List (Nat × (Nat × Nat)) :=
  (List.range s.mapLen).filterMap fun n => match s.bound n with
    | some u => if us.contains u then some (n, u) else none
    | none => none

/-- The cells dropped by the shed list. -/
def State.dropped (s : State) : List Nat := s.alm.shedCells

/-- Whether a logical engine has releases left for surviving cells (R36). -/
def State.hasWork (s : State) (n : Nat) : Bool :=
  (calendarReleases s.active).any fun r => relLogical r.2 == n && !s.dropped.contains (relCell r.2)

/-- Cells dropped at an edge (R36, R450): their state, and the requests for slots that begin at or after it. -/
def State.dropCells (s : State) (cells : List Nat) : State :=
  let pos := s.edgePos
  let s1 := cells.foldl (fun t c => if t.cellState c = 0 then t else t.setCellState c 3 pos) s
  let s2 := { s1 with alm := { s1.alm with shedCells := s1.alm.shedCells ++ cells } }
  s2.completeWhere (fun q => cells.contains q.cell && decide (posDiff q.start pos ≥ 0)) 7 0

/-- Number of dead logical engines of a class with no replacement (R36). -/
def State.lossOf (s : State) (cls : Nat) : Nat := (s.alm.losses.filter fun l => l.2 == cls).length

/-- The depth of the shed for the losses so far (R36). -/
def State.shedDepth (s : State) : Nat :=
  let img := s.active
  ((List.range 6).map fun c =>
    if s.lossOf c = 0 then 0 else match shedRecord img c (s.lossOf c) with
      | some r => bitsOf r 48 8
      | none => (shedCells img).length).foldl max 0

/-- A dead logical engine gets a donor, if its record has one; without one it is left unbound, which is recorded once (R36, R451). -/
def State.donate (s : State) (n cls : Nat) : State :=
  let donors := match shedRecord s.active cls (s.lossOf cls) with
    | some r => shedDonors r
    | none => []
  let units := donors.filterMap s.bound
  match (if s.hasWork n then units.find? fun u => !s.unitDead u.1 u.2 && !s.alm.donors.contains u else none), s.bound n with
  | some u, _ => { (s.bind n (some u)) with alm := { s.alm with donors := s.alm.donors ++ [u] } }
  | none, some old => (s.bind n none).record { code := 0x92, cls := old.1, phys := old.2, logical := some n }
  | none, none => s

/-- Cells are shed and donors bound; `lost` are the logical engines that this edge leaves without a unit (R36). Every dead logical engine
that has none is tried again, in ascending order. -/
def State.shed (s : State) (lost : List (Nat × Nat)) : State :=
  if lost = [] then s else
    let s0 := { s with alm := { s.alm with losses := (s.alm.losses ++ lost).eraseDups } }
    let old := s.fld .ALM_SHED Fld.ALM_SHED_DEPTH
    let depth := max old s0.shedDepth
    let s1 := if depth ≤ old then s0 else
      ((s0.dropCells (((shedCells s.active).take depth).drop old)).setFld .ALM_SHED Fld.ALM_SHED_DEPTH depth).record
        { code := 0x91, cls := 12, phys := 0, detail := depth }
    let bare := (List.range s.mapLen).filterMap fun n =>
      s0.alm.losses.find? fun l => l.1 == n && (lost.contains l || (s.bound n).isNone)
    bare.foldl (fun t l => t.donate l.1 l.2) s1

/-- Whether the power override of an armed swap is due at the edge at hand (R50). -/
def State.overrideDue (s : State) : Bool :=
  match s.alm.swap with
  | some w => !s.continuing && !w.override_ && s.edgePos == posAdd (posOf w.frame 0) (-64)
  | none => false

/-- The planned state of a domain at the edge at hand, the override of R50 included, for the eligibility of fallow units (R33). -/
def State.plannedToBind (s : State) (d : Nat) : Nat := if s.overrideDue then 0 else s.plannedNow d

/-- One logical engine of a dead unit rebound, or added to the losses (R33). -/
def State.rebindOne (acc : State × List (Nat × Nat)) (b : Nat × (Nat × Nat)) : State × List (Nat × Nat) :=
  let s := acc.1
  match eligibleFallow (fun u => s.unitDead u.1 u.2) s.plannedToBind b.2.1 s.fallow with
  | some f =>
    let t := s.remap b.1 b.2 f
    ({ t with alm := { t.alm with losses := t.alm.losses.filter fun l => l.1 != b.1 } }, acc.2)
  | none => (s, acc.2 ++ [(b.1, b.2.1)])

/-- REBIND at an edge: units marked dead since the last one (R33, R36). DESIGN CHOICE (log 14): what cannot be rebound is shed at the same
edge. -/
def State.rebindAt (s : State) : State :=
  let due := s.alm.rebindDue
  if due = [] then s else
    let s0 := { s with alm := { s.alm with rebindDue := [] } }
    let s1 := s0.setFallow (s0.fallow.filter fun u => !s0.unitDead u.1 u.2)
    let lostAgain := s1.boundTo due
    let r := lostAgain.foldl State.rebindOne (s1, [])
    (r.1.shed r.2).refreshRails 3

/-! ### Return and barring at an edge (R34, R456, R457) -/

/-- RESULT of FLT_UNIT_STATUS. -/
def State.unitResult (s : State) (n : Nat) : State := s.setFld .FLT_UNIT_STATUS Fld.FLT_UNIT_STATUS_RESULT n

/-- A unit whose RETURN was written joins the end of the fallow list (R34, R456). -/
def State.returnUnit (s : State) (u : Nat × Nat) : State :=
  if s.unitState u.1 u.2 ≠ 5 then s
  else if s.fallow.length ≥ 16 then s.unitResult 5
  else
    let s0 := if u.1 = 1 then s.clearLines u.2 else if u.1 = 0 then s.loadEnable u.2 else s
    let s1 := (s0.setUnitState u.1 u.2 0).setFallow (s0.fallow ++ [u])
    let s2 := { s1 with flt := { s1.flt with returned := (s1.flt.returned.filter fun x => x != u) ++ [u] } }
    (s2.refreshDead (niOfUnit u.1 u.2)).record { code := 0x93, cls := u.1, phys := u.2 }

/-- The units whose RETURN waits for this edge. -/
def State.returnUnits (s : State) : State :=
  s.flt.returning.foldl State.returnUnit { s with flt := { s.flt with returning := [] } }

/-- The units whose remap table is full are barred at an edge (R457). -/
def State.barUnits (s : State) : State :=
  s.flt.barDue.foldl (fun t u =>
    if t.unitState u.1 u.2 = 6 then t else
      let d := t.discard (onUnit u.1 u.2) false
      (d.1.outOfService u.1 u.2 6)) { s with flt := { s.flt with barDue := [] } }

/-! ### Loads (R43 to R47) -/

/-- ALM_LOAD_STATUS of a load that has ended (R45, R56). -/
def State.endLoad (s : State) (code section_ offset : Nat) : State :=
  let s1 := { s with alm := { s.alm with load := none } }
  (s1.wr .ALM_LOAD_STATUS (BitVec.ofNat 64 (2 ^ 56 * (code % 256) + 2 ^ 52 * (section_ % 16) + 2 ^ 24 * (offset % 2 ^ 24) + 2))).almEvent

/-- STATE of the shadow set. -/
def State.shadowState (s : State) (n : Nat) : State := s.setFld .ALM_SHADOW_INFO Fld.ALM_SHADOW_INFO_STATE n

/-- ALM_CTRL.START (R43). DESIGN CHOICE (log 14): it is ignored while a load is BUSY, and clears DONE, CODE, SECTION and OFFSET. -/
def State.startLoad (s : State) : State :=
  if s.alm.load.isSome then s
  else if s.alm.swap.isSome then s.endLoad 0x13 0 0
  else
    let ld : Load := ⟨s.fld .ALM_LOAD_SRC Fld.ALM_LOAD_SRC_ADDR, s.fld .ALM_LOAD_LEN Fld.ALM_LOAD_LEN_LEN,
      s.fld .ALM_FW_SRC Fld.ALM_FW_SRC_ADDR, s.fld .ALM_FW_LEN Fld.ALM_FW_LEN_LEN⟩
    ({ s with alm := { s.alm with load := some ld, stagedFw := none } }.shadowState 1).wr .ALM_LOAD_STATUS 1

/-- ALM_CTRL.ABORT (R43). -/
def State.abortLoad (s : State) : State :=
  if s.alm.load.isNone then s else (s.shadowState 3).endLoad 0x14 0 0

/-- Bytes read for a load in pieces of 256 bytes; the offset of the piece that fails. -/
def State.readImage (s : State) (addr : Nat) : Nat → Nat → Nat → Option Nat × List Byte × State
  | 0, _, _ => (none, [], s)
  | fuel + 1, off, len =>
    if len ≤ off then (none, [], s) else
      let n := min 256 (len - off)
      let r := s.agentRead niDrover (addr + off) n
      if r.1.status ≠ stOk then (some off, [], r.2.replyErrors r.1 none) else
        let rest := State.readImage r.2 addr fuel (off + n) len
        (rest.1, r.1.data ++ rest.2.1, rest.2.2)

/-- Device address of a firmware bank (R430). -/
def bankAddr (b : Nat) : Nat := 0x0C0000 * b

/-- Header fields of an image shown in the INFO and BUILD registers (R56). -/
def State.showInfo (s : State) (info build : Reg) (img : List Byte) (state : Nat) : State :=
  (s.wr info (BitVec.ofNat 64 (2 ^ 32 * leAt img 8 4 + 2 ^ 24 * leAt img 0xF 1 + 2 ^ 16 * leAt img 0xE 1 + state % 4))).wr build
    (BitVec.ofNat 64 (imgBuild img))

/-- The substitutions of R46 in the shadow copy of the map. -/
def State.shadowMapOf (s : State) (img : List Byte) : List Nat :=
  (s.loadMap img).map fun u => match u with
    | some x => 2 ^ 28 * x.1 + x.2
    | none => 2 ^ 32

/-- The words that a load writes into the shadow set take fresh codewords, or the flips that MEM_INJECT has armed for one of them (R310). -/
def State.loadWords (s : State) (len : Nat) : State :=
  let g := 53 + (1 - s.activeSet)
  let w := s.fld .MEM_INJECT Fld.MEM_INJECT_WORD
  let s1 := { s with ecc := { s.ecc with flips := s.ecc.flips.filter fun p => p.1 / 2 ^ 21 != g } }
  if (s.injected g w).isSome ∧ 8 * w < len then s1.freshWord g w else s1

/-- An image that has passed every check becomes the shadow set (R44, R46). -/
def State.acceptShadow (s : State) (img fw : List Byte) (fwLen : Nat) : State :=
  let s1 := (s.setShadow img).showInfo .ALM_SHADOW_INFO .ALM_SHADOW_BUILD img 2
  let s2 := { s1 with
    alm := { s1.alm with shadowMap := s.shadowMapOf img, stagedFw := if fwLen = 0 then none else some (leAt fw 8 4) } }.loadWords
      img.length
  if fwLen = 0 then s2 else
    let w := s2.agentWrite niDrover (bankAddr (1 - s.fld .SYS_CTRL Fld.SYS_CTRL_FW_BANK)) (slice fw 0x40 (leAt fw 0x0C 4))
    w.2.replyErrors w.1 none

/-- ALMANAC_LOAD_COMPLETE: the images are read and checked, and the load ends (R45). DESIGN CHOICE (log 14): SECTION 0xF for a SOURCE_ERROR
of the almanac image. -/
def State.completeLoad (s : State) : State :=
  match s.alm.load with
  | none => s
  | some ld =>
    let a := s.readImage ld.src (ld.len / 256 + 2) 0 ld.len
    match a.1 with
    | some off => (a.2.2.shadowState 3).endLoad 0x15 0xF off
    | none =>
      let early := a.2.2.checkImage a.2.1 ld.len
      let f := a.2.2.readImage ld.fwSrc (ld.fwLen / 256 + 2) 0 ld.fwLen
      match early, f.1 with
      | some e, _ => (a.2.2.shadowState 3).endLoad e.code e.section_ e.offset
      | none, some off => (f.2.2.shadowState 3).endLoad 0x15 0xE off
      | none, none =>
        match f.2.2.checkLoad a.2.1 ld.len f.2.1 ld.fwLen with
        | some e => (f.2.2.shadowState 3).endLoad e.code e.section_ e.offset
        | none => (f.2.2.acceptShadow a.2.1 f.2.1 ld.fwLen).endLoad 0 0 0

/-! ### Arming (R48, R49, R54) -/

/-- CODE of ALM_SWAP_STATUS. -/
def State.swapCode (s : State) (n : Nat) : State := s.setFld .ALM_SWAP_STATUS Fld.ALM_SWAP_STATUS_CODE n

/-- The first condition of R48 that refuses an arm for frame `f`. DESIGN CHOICE (log 14): ALREADY_ARMED is tried first, then the others in
the order of their codes. -/
def State.armRefusal (s : State) (f : Nat) (pool : Bool) : Option Nat :=
  let quick := leAt s.shadow 0xF 1 % 2 == 1
  let boundary := decide (f % (max 1 (max (imgK s.shadow) s.activeK)) = 0)
  let d := (f + 2 ^ 20 - s.frame) % 2 ^ 20
  let fail (bad : Bool) (c : Nat) : Option Nat := if bad then some c else none
  List.findSome? id [fail s.alm.swap.isSome 0x28, fail (s.fld .ALM_SHADOW_INFO Fld.ALM_SHADOW_INFO_STATE != 2) 0x20,
    fail (!quick && !boundary) 0x21, fail (decide (d < 2) || decide (65536 < d) || (pool && decide (d < 20))) 0x22,
    fail (quick && !boundary && !s.continuing) 0x23]

/-- Whether this device's groups run the Burlos version that the shadow's fabric records need (R54, R55). -/
def State.poolVersions (s : State) : Bool :=
  (secRecords s.shadow 6 8).all fun w =>
    let g := bitsOf w 51 5
    let ver := s.fld (.FAB_GRP g) Fld.FAB_GRP_RUN_MAJ * 256 + s.fld (.FAB_GRP g) Fld.FAB_GRP_RUN_MIN
    decide (leAt s.shadow 0xC 1 * 256 + leAt s.shadow 0xD 1 ≤ ver)

/-- A swap armed for frame `f`; `nak` where this device, itself a member, does not agree (R54). -/
def State.armAt (s : State) (f : Nat) (pool arming : Bool) (from_ : Nat) (members : Word) (nak : Bool) : State :=
  let w : Swap := ⟨f, pool, arming, from_, members, 0, nak, false⟩
  ({ s with alm := { s.alm with swap := some w } }.swapCode 0).setFld .ALM_SWAP_STATUS Fld.ALM_SWAP_STATUS_ARMED 1

/-- The other members of a pool swap. -/
def State.otherMembers (s : State) (m : Word) : List Nat := (List.range 64).filter fun a => m.toNat.testBit a && a != s.fabAddr

/-- ALM_SWAP_CTRL.ARM, alone or with POOL (R48, R54). -/
def State.armSwap (s : State) (pool : Bool) : State :=
  let f := s.fld .ALM_SWAP_FRAME Fld.ALM_SWAP_FRAME_FRAME
  match s.armRefusal f pool with
  | some c => s.swapCode c
  | none =>
    let m := s.rd .ALM_SWAP_GROUP
    let s1 := s.armAt f pool pool s.fabAddr m (pool && !s.poolVersions)
    if pool then
      (s.otherMembers m).foldl (fun t a => t.sendMsg (.device a) 0x10 0 (leBytes 4 f ++ leBytes 8 (imgBuild s.shadow))) s1
    else s1

/-- An armed swap ended without taking place; the power override ends with it (R49, R50). -/
def State.endArm (s : State) : State :=
  let s1 := { s with alm := { s.alm with swap := none } }
  let s2 := (s1.setFld .ALM_SWAP_STATUS Fld.ALM_SWAP_STATUS_ARMED 0).setFld .ALM_SWAP_STATUS Fld.ALM_SWAP_STATUS_COMMITTED 0
  if s.powerOverride then ((List.range 69).foldl (fun t d => t.planDomain d) s2).refreshRails 3 else s2

/-- ALM_SWAP_CTRL.DISARM (R49). COMMITTED of a pool swap that stands before its commit point does not forbid it. -/
def State.disarm (s : State) : State :=
  match s.alm.swap with
  | none => s
  | some w =>
    let past := decide (posDiff s.nextPos (posOf w.frame 0) > 0)
      || (s.nextPos == posOf w.frame 0 && decide (11000 ≤ s.tm.cycle))
    if past then s.swapCode 0x27 else s.endArm

/-- A swap cancelled by Yalis, with its record (R47, R54). -/
def State.cancelSwap (s : State) (code : Nat) : State :=
  if s.alm.swap.isNone then s else
    (((s.endArm.swapCode code).setFld .ALM_SWAP_STATUS Fld.ALM_SWAP_STATUS_FAILED 1).record
      { code := 0x80, cls := 12, phys := 0, detail := code }).almEvent

/-- An uncorrectable error in the shadow set (R47): the shadow is INVALID and an armed swap is disarmed, with the template fetched for
its tick. -/
def State.shadowLost (s : State) : State :=
  let fetched := match s.alm.swap with
    | some w => s.drv.nextIdx.isSome && s.nextPos == posOf w.frame 0
    | none => false
  let s1 := (s.shadowState 3).cancelSwap 0x24
  if fetched then { s1 with drv := { s1.drv with next := [], nextIdx := none } } else s1

/-- An error in an almanac set: the group, 53 or 54, tells which (R47, R286). -/
def State.almanacEcc (s : State) (g : Nat) : State := if g = 53 + (1 - s.activeSet) then s.shadowLost else s

/-! ### The power override (R50) -/

/-- SWAP_POWER_OVERRIDE: at tick S − 64 of a fresh swap. -/
def State.overridePower (s : State) : State :=
  match s.alm.swap with
  | none => s
  | some w =>
    if s.continuing || w.override_ || s.edgePos != posAdd (posOf w.frame 0) (-64) then s else
      let s1 := { s with alm := { s.alm with swap := some { w with override_ := true } } }
      ((List.range 69).foldl (fun t d => t.setPlanned d 0 false) s1).refreshRails 3

/-! ### Installing an almanac (R50 to R53, R84, R431) -/

/-- The units in SERVICE that an image neither binds nor lists, in the order in which they returned (R456). -/
def State.leftOver (s : State) (img : List Byte) : List (Nat × Nat) :=
  s.flt.returned.filter fun u => s.unitState u.1 u.2 == 0 && !(imgMap img).contains u && !(imgFallow img).contains u

/-- Engine map and fallow list of the active image at an edge, with the dead units of that edge replaced (R51, R53, R456). -/
def State.installMap (s : State) : State :=
  let img := s.active
  let s0 := { s with alm := { s.alm with
    shedCells := [], losses := [], donors := [], rebindDue := [], domainAlias := [] } }.setFld .ALM_SHED Fld.ALM_SHED_DEPTH 0
  let map := imgMap img
  let s1 := (List.range 80).foldl (fun t n => if n < map.length then t.bind n map[n]? else t.wr (.ALM_EMAP n) 0) s0
  let own := (imgFallow img).filter fun u => !s.unitDead u.1 u.2
  let s2 := s1.setFallow ((own ++ s.leftOver img).take 16)
  let dead := map.filter fun u => s.unitDead u.1 u.2
  let r := (s2.boundTo dead).foldl State.rebindOne (s2, [])
  r.1.shed r.2

/-- Cell states under a new almanac (R84). -/
def State.installCells (s : State) (fresh : Bool) : State :=
  (List.range 128).foldl (fun t c =>
    let cfg := t.cellCfg c
    let st := t.cellState c
    let start := if cfgStandby cfg then 2 else 1
    let new := if !cfgServed cfg then 0 else if fresh || st == 0 || st == 3 then start else st
    if st = new then t else t.setCellState c new t.edgePos) s

/-- DRV_CELLCFG takes the configuration written for the almanac (R85). -/
def State.copyCellCfg (s : State) : State :=
  (List.range 16).foldl (fun t i => t.wr (.DRV_CELLCFG i) (t.rd (.DRV_CELLCFG_SH i))) s

/-- Every Fold exchanges its program halves (R185, R248). -/
def State.swapHalves (s : State) : State :=
  (List.range 16).foldl (fun t n =>
    let half := 1 - SMap.get zeroNat t.dsp.half n
    { t with dsp := { t.dsp with half := SMap.set zeroNat t.dsp.half n half } }.loadEnable n) s

/-- Offset from tick 0 of this second of the edge that edge events act at. -/
def State.edgeOffset (s : State) : Nat := if s.atEdge then s.tm.tick else s.tm.tick + 1

/-- Everything that comes from the almanac now in the active set, at an edge. -/
def State.install (s : State) (fresh : Bool) : State :=
  let s1 := s.copyCellCfg.showInfo .ALM_ACTIVE_INFO .ALM_ACTIVE_BUILD s.active s.activeSet
  let s2 := (s1.installCells fresh).installMap
  let s3 := (s2.loadTimers s.edgeOffset s2.edgeIndex).swapWindows s.edgePos
  ((List.range 69).foldl (fun t d =>
    t.setPlanned d (t.plannedAt d t.edgeIndex) false) s3).refreshRails 3

/-- Whether a memory group has failed its self-test (R295). -/
def State.groupFailed (s : State) (g : Nat) : Bool := s.fld (.MEM_GRP g) Fld.MEM_GRP_FAILED == 1

/-- Whether the Drover starts the active almanac at a position (R431, R295). -/
def State.startsAt (s : State) (pos : Nat) : Bool :=
  !s.bit .SYS_READY 6 && !s.groupFailed 53 && !s.groupFailed 54 && s.locked && s.bit .SYS_READY 2 && decide (0 < s.activeK) && pos % 1120 == 0 && pos / 1120 % s.activeK == 0

/-- ALMANAC_START at an edge (R85, R431). -/
def State.startAlmanac (s : State) : State :=
  if !s.startsAt s.edgePos then s else
    (s.setReadyBits [6, 7] true).install true

/-! ### Firmware restart (R430) -/

/-- A control core at offset 0 of the firmware bank in use. -/
def State.restartControl (s : State) (c : Nat) : State := s.setCore (128 + c) Core.reset

/-- The control cores restart in the other bank with the firmware staged by the load. -/
def State.restartFirmware (s : State) : State :=
  match s.alm.stagedFw with
  | none => s
  | some v =>
    let s1 := { s with alm := { s.alm with fwVersion := v, stagedFw := none }, flt := { s.flt with shepFrozen := [] } }
    (List.range 8).foldl State.restartControl
      (s1.setFld .SYS_CTRL Fld.SYS_CTRL_FW_BANK (1 - s.fld .SYS_CTRL Fld.SYS_CTRL_FW_BANK))

/-! ### Software Move transfers at a swap (R303) -/

/-- Software transfers stopped on the engines that the new almanac binds or lists, and channels served on those that it leaves free. -/
def State.abortMoves (s : State) : State :=
  let owned := (imgMap s.active ++ imgFallow s.active).filter fun u => u.1 == 5
  (List.range 8).foldl (fun t e =>
    if owned.contains (5, e) then (List.range 16).foldl (fun u h => u.movSwapAbort e h) t else t.movServe e) s

/-! ### The swap (R50 to R53) -/

/-- Requests that a fresh swap supersedes: those for slots before S with releases planned at or after it under the old almanac
(R52). -/
def State.superseded (s : State) (pos : Nat) (q : Request) : Bool :=
  decide (posDiff q.start pos < 0) &&
    match lastFillLag s.active (s.slotLen q.cell) q.start q.cell q.dir q.replay with
    | some l => decide (posDiff (posAdd q.start l) pos ≥ 0)
    | none => false

/-- A swap at the edge of tick S. -/
def State.swapNow (s : State) (w : Swap) : State :=
  let pos := s.edgePos
  let fresh := !s.continuing
  let s1 := if fresh then (s.completeWhere (s.superseded pos) 6 0x13).mapStore fun (q : Request) =>
      if posDiff q.start pos < 0 then { q with planOver := true } else q
    else s
  let old := s1.active
  let s2 := s1.setFld .ALM_ACTIVE_INFO Fld.ALM_ACTIVE_INFO_STATE (1 - s1.activeSet)
  let s3 := { s2 with alm := { s2.alm with swap := none } }.swapHalves
  let s4 := (s3.setFld .ALM_SWAP_STATUS Fld.ALM_SWAP_STATUS_ARMED 0).setFld .ALM_SWAP_STATUS Fld.ALM_SWAP_STATUS_COMMITTED 0
  let s5 := (if s.almRuns then s4 else s4.setReadyBits [6, 7] true).install fresh
  let s6 := s5.showInfo .ALM_SHADOW_INFO .ALM_SHADOW_BUILD old 2
  let s7 := { s6 with alm := { s6.alm with shadowMap := (imgMap old).map fun (u : Nat × Nat) => 2 ^ 28 * u.1 + u.2 } }
  let s8 := s7.completeWhere (fun q => decide (posDiff q.start pos ≥ 0) && !cfgServed (s7.cellCfg q.cell)) 2 0x03
  let gone := s8.drv.cmds.filter fun (c : CellCmd) => decide (posDiff (posOf c.frame 0) pos ≥ 0) && !cfgServed (s8.cellCfg c.cell)
  let s9 := { s8 with drv := { s8.drv with cmds := s8.drv.cmds.filter fun (c : CellCmd) => !gone.contains c } }
  let s10 := gone.foldl (fun (t : State) (c : CellCmd) => match c.peer with
    | some d => t.sendCellResult d c.token 2
    | none => t.postCmd c 2 0x03) s9
  let s11 := s10.abortMoves.restartFirmware
  let s12 := (s11.setFld .ALM_SWAP_STATUS Fld.ALM_SWAP_STATUS_LAST_FRAME w.frame).setFld .ALM_SWAP_STATUS
    Fld.ALM_SWAP_STATUS_SWAPPED 1
  (s12.bump .ALM_STATS Fld.ALM_STATS_SWAPS).almEvent

/-- SWAP at an edge: an armed swap whose tick S it is. -/
def State.swapAt (s : State) : State :=
  match s.alm.swap with
  | some w => if s.edgePos = posOf w.frame 0 then s.swapNow w else s
  | none => s

/-! ### Pool swaps (R54, R55) -/

/-- SWAP_ANNOUNCE received (R54). A refusal carries the code of R48, or NOT_VALID where the builds or versions do not agree. -/
def State.announced (s : State) (h : Word) (f build : Nat) : State :=
  let code := match s.armRefusal f true with
    | some c => some c
    | none => if imgBuild s.shadow != build || !s.poolVersions then some 0x20 else none
  match code with
  | some c => s.sendMsg (.reverse h) 0x12 0 (leBytes 4 f ++ leBytes 1 c)
  | none => (s.armAt f true false (segSrc h) 0 false).sendMsg (.reverse h) 0x11 0 (leBytes 4 f)

/-- SWAP_ACK and SWAP_NAK received by the arming device. -/
def State.poolAnswer (s : State) (from_ frame : Nat) (ack : Bool) : State :=
  match s.alm.swap with
  | some w =>
    if w.arming ∧ w.frame = frame ∧ w.members.toNat.testBit from_ then
      { s with alm := { s.alm with swap := some (if ack then { w with acks := w.acks ||| BitVec.ofNat 64 (2 ^ from_) }
        else { w with nak := true }) } }
    else s
  | none => s

/-- SWAP_COMMIT received by a member. -/
def State.poolCommit (s : State) (from_ frame : Nat) : State :=
  match s.alm.swap with
  | some w => if w.pool ∧ !w.arming ∧ w.from_ = from_ ∧ w.frame = frame then s.setFld .ALM_SWAP_STATUS Fld.ALM_SWAP_STATUS_COMMITTED 1 else s
  | none => s

/-- SWAP_CANCEL received by a member: its swap is disarmed with POOL_NAK. -/
def State.poolCancel (s : State) (from_ frame : Nat) : State :=
  match s.alm.swap with
  | some w => if w.pool ∧ !w.arming ∧ w.from_ = from_ ∧ w.frame = frame then s.cancelSwap 0x25 else s
  | none => s

/-- POOL_SWAP_DECISION at frame F − 10 (R54). -/
def State.poolDecide (s : State) : State :=
  match s.alm.swap with
  | some w =>
    if w.pool ∧ w.arming ∧ s.edgePos = posOf (w.frame + 2 ^ 20 - 10) 0
        ∧ s.fld .ALM_SWAP_STATUS Fld.ALM_SWAP_STATUS_COMMITTED = 0 then
      let others := s.otherMembers w.members
      let all := !w.nak && others.all fun a => w.acks.toNat.testBit a
      let s1 := others.foldl (fun t a => t.sendMsg (.device a) (if all then 0x13 else 0x14) 0 (leBytes 4 w.frame)) s
      if all then s1.setFld .ALM_SWAP_STATUS Fld.ALM_SWAP_STATUS_COMMITTED 1 else s1.cancelSwap 0x25
    else s
  | none => s

/-- POOL_NO_COMMIT at frame F − 2 (R54). -/
def State.poolTimeout (s : State) : State :=
  match s.alm.swap with
  | some w =>
    if w.pool ∧ !w.arming ∧ s.edgePos = posOf (w.frame + 2 ^ 20 - 2) 0
        ∧ s.fld .ALM_SWAP_STATUS Fld.ALM_SWAP_STATUS_COMMITTED = 0 then s.cancelSwap 0x26
    else s
  | none => s

/-! ### Commands -/

/-- Whether the edge at hand is tick S of an armed swap. -/
def State.swapDue (s : State) : Bool :=
  match s.alm.swap with
  | some w => s.edgePos == posOf w.frame 0
  | none => false

/-- Whether the edge at hand lies `back` frames before F of a pool swap that this device armed, or is a member of. -/
def State.poolDue (s : State) (back : Nat) (arming : Bool) : Bool :=
  match s.alm.swap with
  | some w => w.pool && w.arming == arming && s.edgePos == posOf (w.frame + 2 ^ 20 - back) 0
  | none => false

/-- ALM_CTRL_START. -/
def execAlmCtrlStart (s : State) : Out := running (State.startLoad) s
/-- ALM_CTRL_ABORT. -/
def execAlmCtrlAbort (s : State) : Out := running (State.abortLoad) s
/-- ALM_STAT_CLR. -/
def execAlmStatClr (s : State) : Out := running (fun t => t.wr .ALM_STATS 0) s
/-- ALMANAC_LOAD_COMPLETE. -/
def execAlmanacLoadComplete (s : State) : Out := working (State.completeLoad) s
/-- ALM_SWAP_ARM. -/
def execAlmSwapArm (s : State) : Out := running (fun t => t.armSwap false) s
/-- ALM_SWAP_POOL_ARM. -/
def execAlmSwapPoolArm (s : State) : Out := running (fun t => t.armSwap true) s
/-- ALM_SWAP_DISARM. -/
def execAlmSwapDisarm (s : State) : Out := running (State.disarm) s
/-- SWAP_POWER_OVERRIDE. -/
def execSwapPowerOverride (s : State) : Out := running (fun t => t.edgeIf t.overrideDue State.overridePower) s
/-- SWAP. -/
def execSwap (s : State) : Out := running (fun t => t.edgeIf t.swapDue State.swapAt) s
/-- POOL_SWAP_DECISION. -/
def execPoolSwapDecision (s : State) : Out := running (fun t => t.edgeIf (t.poolDue 10 true) State.poolDecide) s
/-- POOL_NO_COMMIT. -/
def execPoolNoCommit (s : State) : Out := running (fun t => t.edgeIf (t.poolDue 2 false) State.poolTimeout) s
/-- REBIND. -/
def execRebind (s : State) : Out := running (fun t => t.edgeIf (t.alm.rebindDue != []) State.rebindAt) s
/-- ALMANAC_START. -/
def execAlmanacStart (s : State) : Out := running (fun t => t.edgeIf (t.startsAt t.edgePos) State.startAlmanac) s

end Sys2Proof.Machine
end

