-- ==== Sys2Proof/Machine/Fabric.lean ====
section
/-!
DEFINITION. The fabric NI (R334 to R347): segments in positions of a group, credits, transit, reassembly, remote requests and what a
remote device asks of this one.
-/
namespace Sys2Proof.Machine

/-- The NI of the fabric. -/
def niFabric : Nat := 74

/-- The segments of the transmit queue changed. -/
def State.setTxq (s : State) (q : List FabSeg) : State := { s with fab := { s.fab with txq := q } }

/-- The event of FAB_CTRL (R356). -/
def State.fabEvent (s : State) : State :=
  s.msixIf (s.fld .FAB_CTRL Fld.FAB_CTRL_EVT_EN == 1) (s.fld .FAB_CTRL Fld.FAB_CTRL_VECTOR)

/-- The state at device time `t`: now where it has come, this tick's cycle where it comes in this tick, and otherwise none. -/
def State.reachTime (s : State) (t : Word) : Option State :=
  if dtDiff t s.now ≤ 0 then some s
  else
    let c := s.cyclesTo t + 1
    if 0 ≤ c ∧ c < 14000 then some (s.passTo c.toNat) else none

/-! ### Positions sent (R336, R340, R341) -/

/-- The buffer that a segment in transit took is free again (R341). -/
def State.freeBuffer (s : State) (g : Nat) : State :=
  { s with fab := { s.fab with freed := SMap.set zeroNat s.fab.freed g (SMap.get zeroNat s.fab.freed g + 1) } }

/-- A segment that leaves the queue for whatever reason gives back its buffer. -/
def State.release_ (s : State) (q : FabSeg) : State :=
  match q.transit with
  | some g => if segKind q.hdr = segGt then s else s.freeBuffer g
  | none => s

/-- The first segment of the queue that meets a condition taken out. -/
def State.takeSeg (s : State) (p : FabSeg → Bool) : Option (FabSeg × State) :=
  match s.fab.txq.find? p with
  | none => none
  | some q => some (q, s.setTxq (s.fab.txq.erase q))

/-- The guaranteed flow that owns a position of a group in a quarter of the tick: destination and flow (R38, R340). -/
def State.positionOwner (s : State) (g quarter pos : Nat) : Option (Nat × Nat) :=
  ((s.fabRecords g).find? fun w =>
    let first := bitsOf w 41 8
    let period := bitsOf w 28 5
    bitsOf w 49 2 == quarter && decide (first ≤ pos) && decide ((pos - first) / max 1 period < bitsOf w 33 8)
      && (if period = 0 then pos == first else (pos - first) % period == 0)).map fun w => (bitsOf w 22 6, bitsOf w 10 12)

/-- Whether a segment is the guaranteed one that a position waits for. -/
def gtSegment (g : Nat) (owner : Nat × Nat) (q : FabSeg) : Bool :=
  q.group == g && segKind q.hdr == segGt && segDst q.hdr == owner.1 && segFlow q.hdr == owner.2

/-- The source whose best-effort segment goes next on a group: round robin (R340). -/
def State.nextSource (s : State) (g : Nat) : Option Nat :=
  let srcs := (s.fab.txq.filter fun q => q.group == g && segKind q.hdr == segBe).map fun q => segSrc q.hdr
  let last := SMap.get zeroNat s.fab.lastSrc g
  ((List.range 64).map fun i => (last + 1 + i) % 64).find? fun a => srcs.contains a

/-- A segment whose transmission costs a credit (R341). -/
def State.spendCredit (s : State) (g : Nat) : State :=
  s.setFld (.FAB_GRP g) Fld.FAB_GRP_CREDITS (s.fld (.FAB_GRP g) Fld.FAB_GRP_CREDITS - 1)

/-- The segment that leaves in a position: the guaranteed one of its owner, else control, else best effort. -/
def State.segmentFor (s : State) (g quarter pos : Nat) : Option (FabSeg × State) :=
  let gt := match s.positionOwner g quarter pos with
    | some o => s.takeSeg (gtSegment g o)
    | none => none
  match gt with
  | some r => some r
  | none =>
    if s.fld (.FAB_GRP g) Fld.FAB_GRP_CREDITS = 0 then none
    else match s.takeSeg fun q => q.group == g && segKind q.hdr == segMsg with
      | some r => some (r.1, r.2.spendCredit g)
      | none => match s.nextSource g with
        | none => none
        | some a => match s.takeSeg fun q => q.group == g && segKind q.hdr == segBe && segSrc q.hdr == a with
          | some r => some (r.1, { r.2.spendCredit g with
              fab := { (r.2.spendCredit g).fab with lastSrc := SMap.set zeroNat r.2.fab.lastSrc g a } })
          | none => none

/-- The bytes of a segment: header, payload filled up to the group's width with bytes that the spec leaves open, and CRC-32 (R336). -/
def State.segmentBytes (s : State) (q : FabSeg) : List Byte × State :=
  let pad := s.drawBytes (s.segCap q.group - q.payload.length)
  let body := leBytes 8 q.hdr.toNat ++ q.payload ++ pad.1
  (body ++ leBytes 4 (crc32 body), pad.2)

/-- What a group's position carries: a segment, or zeros (R336). -/
def State.takePosition (s : State) (g quarter pos : Nat) : List Byte × State :=
  if !s.inService g then (List.replicate (32 * (s.lanesOfGroup g).length) 0, s)
  else match s.segmentFor g quarter pos with
    | none => (List.replicate (32 * (s.lanesOfGroup g).length) 0, s)
    | some (q, s1) => ((s1.release_ q).fabCount cntTxSeg).segmentBytes q

/-- The positions of a frame of a group. -/
def State.takePositions (s : State) (g quarter : Nat) : List Nat → List (List Byte) × State
  | [] => ([], s)
  | p :: ps =>
    let a := s.takePosition g quarter p
    let b := a.2.takePositions g quarter ps
    (a.1 :: b.1, b.2)

/-- Guaranteed segments offered at positions that a half-rate frame lacks: dropped; how many (R313). -/
def State.dropNoPos (s : State) (g quarter : Nat) : List Nat → Nat × State
  | [] => (0, s)
  | p :: ps =>
    let r := match s.positionOwner g quarter p with
      | some o => match s.takeSeg (gtSegment g o) with
        | some x => (1, x.2.release_ x.1)
        | none => (0, s)
      | none => (0, s)
    let t := r.2.dropNoPos g quarter ps
    (r.1 + t.1, t.2)

/-- Frames that a transit segment may wait (R341, R356). -/
def State.beHold (s : State) : Nat := max 1 (s.fld .FAB_CFG Fld.FAB_CFG_BE_HOLD)

/-- Whether a transit segment has waited as long as it may (R341). -/
def State.holdOver (s : State) (g : Nat) (q : FabSeg) : Bool :=
  q.group == g && q.transit.isSome && segKind q.hdr != segGt && decide (s.beHold ≤ q.age)

/-- BE_HOLD_EXPIRY on a group. -/
def State.expireTransit (s : State) (g : Nat) : State :=
  let gone := s.fab.txq.filter (s.holdOver g)
  gone.foldl (fun t q => (t.release_ q).fabCount cntBeDrop) (s.setTxq (s.fab.txq.filter fun q => !s.holdOver g q))

/-- A frame of a group has started: what still waits for it is one frame older. -/
def State.ageSegments (s : State) (g : Nat) : State :=
  s.setTxq (s.fab.txq.map fun q => if q.group = g then { q with age := q.age + 1 } else q)

/-! ### Failure of remote requests (R345) -/

/-- FAB_ERR_LAST (R356). -/
def State.fabErr (s : State) (code ftag dev srcNi group : Nat) : State :=
  s.wr .FAB_ERR_LAST (BitVec.ofNat 64
    (2 ^ 56 * code + 2 ^ 48 * (ftag % 256) + 2 ^ 42 * (dev % 64) + 2 ^ 35 * (srcNi % 128) + 2 ^ 30 * (group % 32) + 2 ^ 29))

/-- Device field and OFFSET of a remote address (R334). -/
def remoteDev (a : Nat) : Nat := bitsOf a 41 6
def remoteOffset (a : Nat) : Nat := bitsOf a 0 41

/-- FAB_CFG.TIMEOUT as device time (R356). -/
def State.fabTimeout (s : State) : Word := BitVec.ofNat 64 (65536 * (1000 * s.fld .FAB_CFG Fld.FAB_CFG_TIMEOUT))

/-- An outstanding request fails. -/
def State.failRequest (s : State) (r : FabReq) (code : Nat) : State :=
  let dev := remoteDev r.pkt.addr.toNat
  let s1 := { s with fab := { s.fab with
    reqs := s.fab.reqs.filter fun x => x.tag != r.tag
    gen := SMap.set zeroNat s.fab.gen r.tag (1 - r.gen)
    quarantine := s.fab.quarantine ++ [(r.tag, s.now + s.fabTimeout)] } }
  let s2 := s1.record { code := code, cls := 10, phys := r.group, addr := r.pkt.addr.toNat, detail := r.tag + dev * 256 }
  let s3 := (s2.fabErr code r.tag dev r.pkt.src.toNat r.group).fabCount (if code = 0x40 then cntTimeouts else cntLinkDown)
  s3.respond r.pkt stIsolated []

/-- The lowest free tag (R344). -/
def State.freeTag (s : State) : Option Nat :=
  (List.range 256).find? fun t => !(s.fab.reqs.any fun r => r.tag == t) && !(s.fab.quarantine.any fun q => q.1 == t)

/-- A remote request answered at once. -/
def State.refuseRemote (s : State) (p : Packet) (status : Nat) : State := s.respond p status []

/-- REMOTE_REQUEST_SEND: the first waiting request sent (R344). -/
def State.sendRequest (s : State) : State :=
  match s.fab.waiting with
  | [] => s
  | p :: rest =>
    let dev := remoteDev p.addr.toNat
    let route := s.rd (.FAB_ROUTE dev)
    let s0 := { s with fab := { s.fab with waiting := rest } }
    if Fld.FAB_ROUTE_VALID.get route = 0 then s0.refuseRemote p stDecode
    else
      let g := hopOf (Fld.FAB_ROUTE_ROUTE.get route) 0
      let flow := 32 * p.src.toNat + p.ridx.toNat % 32
      let kind := if p.ch = 0 ∧ s.hasRecord g dev flow then segGt else segBe
      let send (t : State) (gen tag : Nat) : State :=
        t.sendTransaction kind dev flow (Fld.FAB_ROUTE_NHOPS.get route) (Fld.FAB_ROUTE_ROUTE.get route)
          (leBytes 16 (transHead (remoteOffset p.addr.toNat) p.type.toNat 0 gen tag p.len.toNat 0 0) ++ p.data)
      if p.type.toNat = pktWrite then send s0 0 0
      else match s.freeTag with
        | none => s
        | some tag =>
          let gen := SMap.get zeroNat s.fab.gen tag
          let r : FabReq := ⟨tag, gen, p, g, s.now⟩
          if s.inService g then
            send { s0 with fab := { s0.fab with reqs := s0.fab.reqs ++ [r] } } gen tag
          else s0.failRequest r 0x41

/-- FAB_TIMEOUT of a tag (R345). -/
def State.timeoutTag (s : State) (tag : Nat) : State :=
  match s.fab.reqs.find? fun r => r.tag == tag with
  | none => s
  | some r => match s.reachTime (r.sent + s.fabTimeout) with
    | some s1 => s1.failRequest r 0x40
    | none => s

/-- TAG_QUARANTINE_END (R345). -/
def State.endQuarantine (s : State) (tag : Nat) : State :=
  match s.fab.quarantine.find? fun q => q.1 == tag with
  | none => s
  | some q => match s.reachTime q.2 with
    | some s1 => { s1 with fab := { s1.fab with quarantine := s1.fab.quarantine.filter fun x => x.1 != tag } }
    | none => s

/-! ### Service of remote accesses (R335) -/

/-- Whether a byte offset may be reached through the fabric (R335). -/
def State.remoteOk (s : State) (a : Nat) : Bool :=
  match s.place a with
  | .sram g w => (decide (17 ≤ g) && decide (g ≤ 40)) || (decide (1 ≤ g) && decide (g ≤ 16) && decide (w * 8 < 0x3FFE00))
  | .ddr _ _ => true
  | _ => false

/-- An access made on behalf of a remote device, or of this one under the same rules: STATUS and the bytes read. -/
def State.remoteAccess (s : State) (type offset n : Nat) (data : List Byte) : Nat × List Byte × State :=
  if !s.remoteOk offset ∨ !s.remoteOk (offset + n - 1) then (stDecode, [], s)
  else if type = pktRead then
    let r := s.agentRead niFabric offset n
    (r.1.status, r.1.data, r.2.replyErrors r.1 none)
  else
    let r := s.agentWrite niFabric offset data
    (r.1.status, [], r.2.replyErrors r.1 none)

/-- A request packet that has reached NI 74 (R335, R344, R345). -/
def State.fabricRequest (s : State) (p : Packet) : State :=
  let dev := remoteDev p.addr.toNat
  if dev = s.fabAddr then
    let r := s.remoteAccess p.type.toNat (remoteOffset p.addr.toNat) (p.len.toNat + 1) p.data
    r.2.2.respond p r.1 r.2.1
  else if s.fld (.FAB_ROUTE dev) Fld.FAB_ROUTE_VALID = 0 then s.refuseRemote p stDecode
  else { s with fab := { s.fab with waiting := s.fab.waiting ++ [p] } }

/-! ### Transactions received (R339, R342, R344) -/

/-- A response sent along the reverse of a route (R339, R340). -/
def State.sendResponse (s : State) (h : Word) (tr status ld : Nat) (data : List Byte) : State :=
  let r := reverseRoute h
  let kind := if s.hasRecord (hopOf r.2 0) (segSrc h) (segFlow h) then segGt else segBe
  let type := if trType tr = pktRead then pktReadResp else pktWriteResp
  s.sendTransaction kind (segSrc h) (segFlow h) r.1 r.2
    (leBytes 16 (transHead (trOffset tr) type status (trGen tr) (trFtag tr) (data.length - 1) 0 ld) ++ data)

/-- A remote device's request served. -/
def State.serveTransaction (s : State) (h : Word) (tr : Nat) (data : List Byte) : State :=
  let r := s.remoteAccess (trType tr) (trOffset tr) (trLen tr + 1) data
  if trType tr = pktWrite then r.2.2 else r.2.2.sendResponse h tr r.1 0 r.2.1

/-- A response completes the request whose tag and generation it carries (R344, R345). -/
def State.answerRequest (s : State) (tr : Nat) (data : List Byte) : State :=
  match s.fab.reqs.find? fun r => r.tag == trFtag tr && r.gen == trGen tr with
  | none => s.fabCount cntLateResp
  | some r =>
    if trLd tr then s.failRequest r 0x41
    else ({ s with fab := { s.fab with reqs := s.fab.reqs.filter fun x => x.tag != r.tag } }).respond r.pkt (trStatus tr) data

/-- A control message written to the FAB_RX ring (R348, R356). -/
def State.receiveMsg (s : State) (h : Word) (bytes : List Byte) : State :=
  if !msgTypes.contains (trMsg (leAt bytes 0 16)) then s.fabCount cntMsgUnknown
  else
    let entry (phase : Nat) : List Byte :=
      leBytes 8 h.toNat ++ slice bytes 0 16 ++ leBytes 1 phase ++ List.replicate 39 0 ++ bytes.drop 16
    match s.pushRing niFabric .FAB_RX_BASE .FAB_RX_CFG .FAB_RX_DB .FAB_RX_PI 4160 entry with
    | some s1 => s1
    | none => s.fabCount cntRxMsgDrop

/-- Data bytes that a transaction carries after its header (R337). -/
def trBytes (tr : Nat) : Nat :=
  if trType tr = pktWrite ∨ trType tr = pktWriteAck ∨ trType tr = pktMsg ∨ (trType tr = pktReadResp ∧ trStatus tr = stOk)
  then trLen tr + 1 else 0

/-- A whole transaction acted on. -/
def State.receiveTransaction (s : State) (h : Word) (bytes : List Byte) : State :=
  let tr := leAt bytes 0 16
  if bytes.length ≠ 16 + trBytes tr then s.fabCount cntReasmDrop
  else
    let data := bytes.drop 16
    if trType tr ≤ pktWriteAck then s.serveTransaction h tr data
    else if trType tr ≤ pktWriteResp then s.answerRequest tr data
    else if trType tr = pktMsg then s.receiveMsg h bytes
    else s

/-! ### Segments received -/

/-- The transactions being reassembled changed. -/
def State.setPartials (s : State) (l : List Partial) : State := { s with fab := { s.fab with partials := l } }

/-- A transit request that finds the next group out of service: dropped, and answered with LD = 1 where it expects an answer (R345). -/
def State.transitDown (s : State) (h : Word) (payload : List Byte) : State :=
  let tr := leAt payload 0 16
  if segKind h = segMsg ∨ !segFirst h then s
  else if trType tr = pktRead ∨ trType tr = pktWriteAck then s.sendResponse h tr stIsolated 1 []
  else s

/-- A segment forwarded as transit (R339, R340, R347); `h` carries the advanced HOP, and `back` the route so far as a header that has
arrived here. -/
def State.forward (s : State) (g : Nat) (h : Word) (payload : List Byte) : State :=
  let out := hopOf (segRoute h) (segHop h)
  let back := BitVec.ofNat 64 (setBitsOf h.toNat 31 2 (segHop h - 1))
  let gt := segKind h == segGt
  if !s.inService out then
    (if gt then s else s.freeBuffer g).transitDown back payload
  else if segKind h = segMsg ∧ segFirst h ∧ !msgTypes.contains (trMsg (leAt payload 0 16)) then
    (s.fabCount cntMsgUnknown).freeBuffer g
  else if s.segCap out < segLen h then (if gt then s else s.freeBuffer g).fabCount cntBeDrop
  else
    let keep := gt && s.hasRecord out (segDst h) (segFlow h)
    let h1 : Word := if gt && !keep then BitVec.ofNat 64 (setBitsOf h.toNat 60 4 segBe) else h
    let s1 := if gt && !keep then s.fabCount cntFabGtMiss else s
    s1.setTxq (s1.fab.txq ++ [(⟨out, h1, payload.take (s1.segCap out), some g, 0⟩ : FabSeg)])

/-- A segment that has arrived at its device (R339, R342). -/
def State.arrive (s : State) (g : Nat) (h : Word) (payload : List Byte) : State :=
  let mine (p : Partial) : Bool := p.src == segSrc h && p.flow == segFlow h
  let used := payload.take (segLen h)
  let others := s.fab.partials.filter fun p => !mine p
  if segFirst h then
    let s1 := if s.fab.partials.any mine then (s.fabCount cntReasmDrop).setPartials others else s
    let type := trType (leAt payload 0 16)
    if (type ≤ pktWriteAck ∨ type = pktMsg) ∧ segDst h ≠ s.fabAddr then s1.fabCount cntMisdeliver
    else if segLast h then s1.receiveTransaction h used
    else s1.setPartials (others ++ [(⟨segSrc h, segFlow h, g, h, used⟩ : Partial)])
  else match s.fab.partials.find? mine with
    | none => if segLast h then s.fabCount cntReasmDrop else s
    | some p =>
      if segLast h then (s.setPartials others).receiveTransaction p.hdr (p.bytes ++ used)
      else s.setPartials (others ++ [{ p with bytes := p.bytes ++ used }])

/-- A segment received on a group (R336, R339). -/
def State.receiveSegment (s : State) (g : Nat) (bytes : List Byte) : State :=
  let s1 := s.fabCount cntRxSeg
  let n := bytes.length - 4
  if crc32 (bytes.take n) ≠ leAt bytes n 4 then s1.fabCount cntSegCrc
  else
    let h : Word := BitVec.ofNat 64 (leAt bytes 0 8)
    if segKind h = 0 ∨ 3 < segKind h ∨ 3 < segHop h then s1
    else
      let hop := segHop h
      let route := setBitsOf (segRoute h) (5 * hop) 5 g
      let h1 : Word := BitVec.ofNat 64 (setBitsOf (setBitsOf h.toNat 11 20 route) 33 3 (hop + 1))
      let payload := (bytes.take n).drop 8
      if segNhops h < hop + 1 then
        (if segKind h = segGt then s1 else s1.freeBuffer g).arrive g h1 payload
      else s1.forward g h1 payload

/-- SEGMENT_RECEIVE: the oldest position of a group that has not been taken. -/
def State.takeInbox (s : State) (g : Nat) : State :=
  match s.fab.inbox.find? fun p => p.1 == g with
  | none => s
  | some p => ({ s with fab := { s.fab with inbox := s.fab.inbox.erase p } }).receiveSegment g p.2

/-! ### Messages of firmware (R348, R356) -/

/-- FAB_MSG_TX: the message at ADDR sent along the route of its header image. -/
def State.writeMsgTx (s : State) (v : Word) : State :=
  let s1 := s.wrAccess .FAB_MSG_TX v
  if Fld.FAB_MSG_TX_GO.get v = 0 then s1
  else
    let a := s1.fld .FAB_MSG_TX Fld.FAB_MSG_TX_ADDR
    let head := s1.agentRead niFabric a 24
    let s2 := head.2.replyErrors head.1 none
    if head.1.status ≠ stOk then s2
    else
      let h : Word := BitVec.ofNat 64 (leAt head.1.data 0 8)
      let tr := leAt head.1.data 8 16
      let body := s2.agentRead niFabric (a + 24) (trLen tr + 1)
      let s3 := body.2.replyErrors body.1 none
      if body.1.status ≠ stOk ∨ !msgTypes.contains (trMsg tr) then s3
      else s3.sendTransaction (segKind h) (segDst h) (segFlow h) (segNhops h) (segRoute h) (leBytes 16 tr ++ body.1.data)

end Sys2Proof.Machine
end

