-- ==== Sys2Proof/Machine/Muster.lean ====
section
/-!
DEFINITION. The muster (R349 to R355), and groups entering and leaving service (R346).
-/
namespace Sys2Proof.Machine

/-- The muster changed. -/
def State.mapMuster (s : State) (f : Muster → Muster) : State := { s with fab := { s.fab with mus := f s.fab.mus } }

/-- FAB_MUSTER.STATE values. -/
def musIdle : Nat := 0
def musCollect : Nat := 1
def musAssign : Nat := 2
def musWait : Nat := 3
def musBackoff : Nat := 4

/-- State of the muster. -/
def State.musState (s : State) : Nat := s.fld .FAB_MUSTER Fld.FAB_MUSTER_STATE

/-- State of the muster replaced. -/
def State.setMusState (s : State) (n : Nat) : State := s.setFld .FAB_MUSTER Fld.FAB_MUSTER_STATE n

/-- The muster number in use. -/
def State.musNumber (s : State) : Nat := s.fld .FAB_MUSTER Fld.FAB_MUSTER_NUMBER

/-- Milliseconds of device time. -/
def msUnits (n : Nat) : Word := BitVec.ofNat 64 (65536000000 * n)

/-! ### Messages -/

/-- M, and the bytes after it. -/
def msgM (p : List Byte) : Nat := leAt p 0 4
def msgUid (p : List Byte) : Nat := leAt p 4 8

/-- The LINKS report of this device: the groups in service (R348, R349). -/
def State.ownReport (s : State) : LinkReport :=
  { uid := s.uid
    addr := s.fabAddr + s.fld .FAB_ADDR Fld.FAB_ADDR_PRIOR_VALID * 64 + s.fld .FAB_ADDR Fld.FAB_ADDR_LONE * 128
    prior := s.fld .FAB_ADDR Fld.FAB_ADDR_PRIOR
    major := s.fld .ALM_ID Fld.ALM_ID_BURLOS_MAJ
    minor := s.fld .ALM_ID Fld.ALM_ID_BURLOS_MIN
    links := s.groupsInService.map fun g =>
      { peer := s.rd (.DRL_GRP_PEER_UID g), own := g, other := s.fld (.DRL_GRP_PEER g) Fld.DRL_GRP_PEER_LINK
        width := (s.lanesOfGroup g).length - 1 + s.fld (.DRL_GRP_CFG g) Fld.DRL_GRP_CFG_RATE * 16
        minor := s.fld (.FAB_GRP g) Fld.FAB_GRP_RUN_MIN } }

/-- A report as the payload of MUSTER_LINKS after M. -/
def LinkReport.bytes (r : LinkReport) : List Byte :=
  leBytes 8 r.uid.toNat ++ leBytes 1 r.addr ++ leBytes 1 r.prior ++ leBytes 1 r.major ++ leBytes 1 r.minor
    ++ leBytes 1 r.links.length
    ++ r.links.flatMap fun l => leBytes 8 l.peer.toNat ++ leBytes 1 l.own ++ leBytes 1 l.other ++ leBytes 1 l.width ++ leBytes 1 l.minor

/-- A report read from a MUSTER_LINKS message. -/
def reportOf (p : List Byte) : LinkReport :=
  { uid := BitVec.ofNat 64 (leAt p 4 8), addr := leAt p 12 1, prior := leAt p 13 1, major := leAt p 14 1, minor := leAt p 15 1
    links := (List.range (min 32 (leAt p 16 1))).map fun i =>
      let o := 17 + 12 * i
      { peer := BitVec.ofNat 64 (leAt p o 8), own := leAt p (o + 8) 1, other := leAt p (o + 9) 1, width := leAt p (o + 10) 1
        minor := leAt p (o + 11) 1 } }

/-- A flooded message of the muster taken if it is the first copy of its type, M and UID, and relayed over the groups of this muster
other than the one on which it came (R348, R349). -/
def State.relay (s : State) (h : Word) (type m uid : Nat) (p : List Byte) : Bool × State :=
  if s.fab.mus.copies.contains (type, m, uid) then (false, s)
  else
    let s1 := s.mapMuster fun x => { x with copies := x.copies ++ [(type, m, uid)] }
    (true, s1.flood (s1.fab.mus.listed.filter fun g => g != arrivalGroup h) type m (p.drop 4))

/-! ### Topology, addresses and routes (R350 to R352) -/

/-- Whether a link is listed at both its ends. -/
def linkBoth (rs : List LinkReport) (a : LinkReport) (l : LinkRec) : Bool :=
  rs.any fun b => b.uid == l.peer && b.links.any fun k => k.peer == a.uid && k.own == l.other && k.other == l.own

/-- Hops from a device in ascending group order: group and peer. -/
def hopsFrom (rs : List LinkReport) (a : Word) : List (Nat × Word) :=
  match rs.find? fun r => r.uid == a with
  | none => []
  | some r => (List.range 32).filterMap fun g =>
    (r.links.find? fun l => l.own == g && linkBoth rs r l).map fun l => (g, l.peer)

/-- The lowest route of `n` hops between two devices. -/
def routeLen (rs : List LinkReport) : Nat → Word → Word → Option (List Nat)
  | 0, a, b => if a = b then some [] else none
  | n + 1, a, b => (hopsFrom rs a).findSome? fun h => (routeLen rs n h.2 b).map fun r => h.1 :: r

/-- The route with the fewest hops, up to 4, and among those the lowest (R352). -/
def routeBetween (rs : List LinkReport) (a b : Word) : Option (List Nat) :=
  [1, 2, 3, 4].findSome? fun n => routeLen rs n a b

/-- The lowest UID of a set. -/
def lowestUid (rs : List LinkReport) : Word := rs.foldl (fun m r => if r.uid.toNat < m.toNat then r.uid else m) (BitVec.allOnes 64)

/-- Whether every peer named in a set has its own report (R350). -/
def setClosed (rs : List LinkReport) : Bool := rs.all fun r => r.links.all fun l => rs.any fun o => o.uid == l.peer

/-- The address that a device brings with it (R351 step 1). -/
def claimOf (r : LinkReport) : Option Nat :=
  if bitsOf r.addr 7 1 = 0 then some (r.addr % 64) else if bitsOf r.addr 6 1 = 1 then some (r.prior % 64) else none

/-- Reports in ascending UID. -/
def byUid (rs : List LinkReport) : List LinkReport := rs.mergeSort fun a b => decide (a.uid.toNat ≤ b.uid.toNat)

/-- Addresses kept: the lowest UID of those that claim one keeps it. -/
def keptAddresses : List LinkReport → List Nat → List (Word × Nat)
  | [], _ => []
  | r :: rs, taken => match claimOf r with
    | some a => if taken.contains a then keptAddresses rs taken else (r.uid, a) :: keptAddresses rs (a :: taken)
    | none => keptAddresses rs taken

/-- Addresses given: each remaining device takes the lowest free one. -/
def givenAddresses (kept : List (Word × Nat)) : List LinkReport → List Nat → List (Word × Option Nat)
  | [], _ => []
  | r :: rs, taken => match kept.find? fun k => k.1 == r.uid with
    | some k => (r.uid, some k.2) :: givenAddresses kept rs taken
    | none => match (List.range 64).find? fun a => !taken.contains a with
      | some a => (r.uid, some a) :: givenAddresses kept rs (a :: taken)
      | none => (r.uid, none) :: givenAddresses kept rs taken

/-- The addresses of a closed set (R351). -/
def addressesOf (rs : List LinkReport) : List (Word × Option Nat) :=
  let kept := keptAddresses (byUid rs) []
  givenAddresses kept (byUid rs) (kept.map fun k => k.2)

/-- A route entry as MUSTER_ASSIGN carries it: bits [31:0] of FAB_ROUTE, with VALID in bit 31. -/
def routeEntry (r : Option (List Nat)) : Nat :=
  match r with
  | some hs => 2 ^ 31 + 2 ^ 22 * (hs.length - 1) + routeOf hs
  | none => 0

/-- Everything that a coordinator assigns (R351, R352). -/
def assignsOf (rs : List LinkReport) : List Assign :=
  let addrs := addressesOf rs
  addrs.map fun d =>
    { uid := d.1, addr := d.2
      routes := (List.range 64).map fun a =>
        match addrs.find? fun e => e.2 == some a && e.1 != d.1 with
        | some e => routeEntry (routeBetween rs d.1 e.1)
        | none => 0 }

/-! ### Starting and ending a muster -/

/-- The tables staged by a muster discarded (R354). -/
def State.discardStaged (s : State) : State :=
  ((List.range 64).foldl (fun t a => t.wr (.FAB_ROUTE_SH a) 0) s).wr .FAB_EPOCH 0
    |>.mapMuster fun x => { x with held := 0 }

/-- A muster of number `m` entered: this device's LINKS lists the groups in service now (R349). -/
def State.enterMuster (s : State) (m : Nat) : State :=
  let s1 := (s.setFld .FAB_MUSTER Fld.FAB_MUSTER_NUMBER m).setMusState musCollect
  s1.mapMuster fun x => { x with
    seen := max x.seen m, reports := [s1.ownReport], listed := s1.groupsInService, assigns := [], epoch := 0, acked := [],
    started := s1.now, again := false, copies := (x.copies.filter fun c => c.2.1 == m) ++ [(2, m, s1.uid.toNat)] }

/-- A LONE device (R355). -/
def State.becomeLone (s : State) : State :=
  let lone := s.fld .FAB_ADDR Fld.FAB_ADDR_LONE == 1
  let s1 := if lone then s else
    ((s.setFld .FAB_ADDR Fld.FAB_ADDR_PRIOR s.fabAddr).setFld .FAB_ADDR Fld.FAB_ADDR_PRIOR_VALID 1).setFld .FAB_ADDR
      Fld.FAB_ADDR_ADDR 0
  let s2 := (s1.setFld .FAB_ADDR Fld.FAB_ADDR_LONE 1).setFld .FAB_ADDR Fld.FAB_ADDR_COORD 0
  (List.range 64).foldl (fun t a => t.wr (.FAB_ROUTE a) 0) s2

/-- A muster has completed (R353, R354). -/
def State.completeMuster (s : State) (next : Nat) : State :=
  ((s.setFld .FAB_MUSTER Fld.FAB_MUSTER_ABORTS 0).setMusState next).mapMuster fun x => { x with lastDone := s.now }

/-- Everything that a coordinator sends out once its set is closed (R352). EPOCH lies 448 ticks after the last moment at which the
muster can complete, so that it keeps its distance from DONE whenever that comes. -/
def State.coordinate (s : State) : State :=
  let rs := s.fab.mus.reports
  let as := assignsOf rs
  let same := as == s.fab.mus.last && s.fld .FAB_ADDR Fld.FAB_ADDR_LONE == 0
  let limit := dtDiff (s.fab.mus.started + msUnits 5) (s.timeAt 0)
  let ticks := (limit * 7 / 4096000000).toNat + 2 + 448
  let t := s.tm.tick + ticks
  let epoch := if same then 0 else
    (s.tm.secDT + BitVec.ofNat 64 (unitsPerSecond * (t / ticksPerSecond) + edgeUnits (t % ticksPerSecond))).toNat
  let s1 := (s.setMusState musAssign).mapMuster fun x => { x with assigns := as, epoch := epoch }
  as.foldl (fun u a =>
    let payload := leBytes 8 a.uid.toNat ++ leBytes 1 (a.addr.getD 0xFF) ++ [0, 0, 0] ++ leBytes 8 epoch
      ++ a.routes.flatMap fun r => leBytes 4 r
    if a.uid = s.uid then u else
      match routeBetween rs s.uid a.uid, rs.find? fun r => r.uid == a.uid with
      | some hs, some r => u.sendMsg (.routed (r.addr % 64) (hs.length - 1) (routeOf hs)) 3 s.musNumber payload
      | _, _ => u) s1

/-- An assignment staged (R352). -/
def State.stageAssign (s : State) (addr epoch : Nat) (routes : List Nat) : State :=
  let s1 := routes.zipIdx.foldl (fun t p => t.wr (.FAB_ROUTE_SH p.2)
    (BitVec.ofNat 64 (2 ^ 63 * bitsOf p.1 31 1 + 2 ^ 22 * bitsOf p.1 22 2 + p.1 % 2 ^ 20))) s
  let s2 := if addr < 64 then
      ((s1.setFld .FAB_ADDR Fld.FAB_ADDR_STAGED addr).setFld .FAB_ADDR Fld.FAB_ADDR_STAGED_LONE 0).setFld .FAB_ADDR
        Fld.FAB_ADDR_EXCLUDED 0
    else (s1.setFld .FAB_ADDR Fld.FAB_ADDR_STAGED_LONE 1).setFld .FAB_ADDR Fld.FAB_ADDR_EXCLUDED 1
  s2.wr .FAB_EPOCH (BitVec.ofNat 64 epoch)

/-- What this device's own groups contribute to the topology (R350). -/
def State.ownTopology (s : State) : List Nat :=
  (hopsFrom s.fab.mus.reports s.uid).map fun h => h.1

/-- A DONE taken (R352, R353). -/
def State.takeDone (s : State) (coord epoch : Nat) (pool : List Nat) : State :=
  let moves := pool.zipIdx.any fun p => (s.rd (.FAB_POOL p.2)).toNat != p.1
  let s1 := pool.zipIdx.foldl (fun t p => t.wr (.FAB_POOL p.2) (BitVec.ofNat 64 p.1)) s
  let s2 := s1.setFld .FAB_ADDR Fld.FAB_ADDR_COORD (if coord = s.uid.toNat then 1 else 0)
  let s3 := s2.mapMuster fun x => { x with
    held := epoch, topology := s2.ownTopology, poolMoves := moves
    last := if coord = s.uid.toNat then x.assigns else [] }
  s3.completeMuster (if epoch = 0 then musIdle else musWait)

/-- The pool of a list of assignments: UIDs by address. -/
def poolOf (as : List Assign) : List Nat :=
  (List.range 64).map fun a => match as.find? fun d => d.addr == some a with
    | some d => d.uid.toNat
    | none => 0

/-- The coordinator's acknowledgements: when all are in, it floods MUSTER_DONE (R352). -/
def State.acknowledge (s : State) (uid : Nat) : State :=
  let s1 := s.mapMuster fun x => { x with acked := (x.acked ++ [uid]).eraseDups }
  let m := s1.fab.mus
  if m.assigns.all fun a => m.acked.contains a.uid.toNat then
    let pool := poolOf m.assigns
    let payload := leBytes 8 s.uid.toNat ++ leBytes 8 m.epoch ++ pool.flatMap fun u => leBytes 8 u
    ((s1.mapMuster fun x => { x with copies := x.copies ++ [(5, s.musNumber, s.uid.toNat)] }).flood m.listed 5 s.musNumber
      payload).takeDone s.uid.toNat m.epoch pool
  else s1

/-- The set of reports looked at: when it is closed, the muster goes on (R350, R355). -/
def State.checkSet (s : State) : State :=
  let m := s.fab.mus
  if s.musState ≠ musCollect ∨ !setClosed m.reports then s
  else if m.reports.length = 1 then s.becomeLone.completeMuster musIdle
  else if lowestUid m.reports = s.uid then
    let s1 := s.coordinate
    match s1.fab.mus.assigns.find? fun a => a.uid == s.uid with
    | some a => (s1.stageAssign (a.addr.getD 0xFF) s1.fab.mus.epoch a.routes).acknowledge s.uid.toNat
    | none => s1
  else s.setMusState musAssign

/-- A muster started: MUSTER_CALL and this device's LINKS flooded (R349). -/
def State.startMuster (s : State) : State :=
  let m := (max s.fab.mus.seen s.musNumber + 1) % 2 ^ 32
  let s1 := s.enterMuster m
  let s2 := s1.mapMuster fun x => { x with copies := x.copies ++ [(1, m, s.uid.toNat)] }
  let s3 := s2.flood s2.fab.mus.listed 1 m (leBytes 8 s.uid.toNat)
  (s3.flood s3.fab.mus.listed 2 m s3.ownReport.bytes).checkSet

/-- A muster that saw a group enter service is followed by the next one (R354). -/
def State.againIf (s : State) : State := if s.fab.mus.again ∧ (s.musState = musIdle ∨ s.musState = musWait) then s.startMuster else s

/-- A muster aborted: the staged tables are discarded unless they belong to the muster before; the device that saw the event starts
again, after a back-off from the third abort on (R354). -/
def State.abortMuster (s : State) (saw : Bool) : State :=
  let kept := s.musState == musCollect && s.fab.mus.held != 0 && (s.rd .FAB_EPOCH).toNat == s.fab.mus.held
  let s1 := if kept then s else s.discardStaged
  let s2 := (s1.bump .FAB_MUSTER Fld.FAB_MUSTER_ABORTS).setMusState (if kept then musWait else musIdle)
  if !saw then s2.againIf
  else
    let s3 := (s2.mapMuster fun x => { x with copies := x.copies ++ [(6, s.musNumber, s.uid.toNat)] }).flood s.fab.mus.listed 6
      s.musNumber (leBytes 8 s.uid.toNat)
    let n := s3.fld .FAB_MUSTER Fld.FAB_MUSTER_ABORTS
    if n < 3 then s3.startMuster
    else (s3.setMusState musBackoff).mapMuster fun x => { x with
      backoff := s3.now + msUnits (10 * 2 ^ (min (n - 3) 2)) }

/-! ### Groups in service (R346) -/

/-- A group has entered or left service. -/
def State.groupEvent (s : State) (g : Nat) (left : Bool) : State :=
  let st := s.musState
  if st = musBackoff then s
  else if st = musIdle ∨ (st = musWait ∧ !left) then s.startMuster
  else if left then if s.fab.mus.listed.contains g then s.abortMuster true else s
  else s.mapMuster fun x => { x with again := true }

/-- A group leaves service: requests, reassembly and waiting segments that depend on it end (R342, R345). -/
def State.leaveService (s : State) (g : Nat) : State :=
  let s1 := (s.setFld (.FAB_GRP g) Fld.FAB_GRP_IN_SERVICE 0)
  let lost := s.fab.partials.filter fun p => p.group == g
  let s2 := (s1.setPartials (s1.fab.partials.filter fun p => p.group != g)).fabCount cntReasmDrop lost.length
  let gone := s2.fab.txq.filter fun q => q.group == g
  let s3 := s2.setTxq (s2.fab.txq.filter fun q => q.group != g)
  let s4 := gone.foldl (fun t q =>
    match q.transit with
    | some _ => (t.release_ q).transitDown (BitVec.ofNat 64 (setBitsOf q.hdr.toNat 31 2 (segHop q.hdr - 1))) q.payload
    | none =>
      let type := trType (leAt q.payload 0 16)
      if segFirst q.hdr && !(type == pktRead || type == pktWriteAck) then t.fabCount cntLinkDown else t) s3
  (s4.fab.reqs.filter fun r => r.group == g).foldl (fun t r => t.failRequest r 0x41) s4

/-- A group judged after a change of DOWN or of its beacon (R346). -/
def State.judgeGroup (s : State) (g : Nat) : State :=
  let down := s.fld (.DRL_GRP_STATUS g) Fld.DRL_GRP_STATUS_DOWN == 1
  let serving := s.inService g
  let refused := s.fld (.FAB_GRP g) Fld.FAB_GRP_REFUSED == 1
  let changed (t : State) : State := (t.setFld (.FAB_GRP g) Fld.FAB_GRP_CHANGE 1).fabEvent
  if down then
    if serving then (changed (s.leaveService g)).groupEvent g true
    else if refused then changed (s.setFld (.FAB_GRP g) Fld.FAB_GRP_REFUSED 0)
    else s
  else if serving || refused || s.fld (.DRL_GRP_PEER g) Fld.DRL_GRP_PEER_VALID == 0 then s
  else
    let maj := s.fld (.DRL_GRP_STATUS g) Fld.DRL_GRP_STATUS_VER_MAJ
    let min_ := s.fld (.DRL_GRP_STATUS g) Fld.DRL_GRP_STATUS_VER_MIN
    if maj ≠ s.fld .ALM_ID Fld.ALM_ID_BURLOS_MAJ then
      changed (((s.setFld (.FAB_GRP g) Fld.FAB_GRP_REFUSED 1).record { code := 0x42, cls := 10, phys := g }).fabErr 0x42 0
        (s.fld (.DRL_GRP_PEER g) Fld.DRL_GRP_PEER_ADDR) 0 g)
    else
      let s1 := (s.setFld (.FAB_GRP g) Fld.FAB_GRP_RUN_MAJ maj).setFld (.FAB_GRP g) Fld.FAB_GRP_RUN_MIN
        (min min_ (s.fld .ALM_ID Fld.ALM_ID_BURLOS_MIN))
      let s2 := (s1.setFld (.FAB_GRP g) Fld.FAB_GRP_CREDITS 64).setFld (.FAB_GRP g) Fld.FAB_GRP_IN_SERVICE 1
      (changed { s2 with fab := { s2.fab with freed := SMap.set zeroNat s2.fab.freed g 0 } }).groupEvent g false

/-! ### Messages received -/

/-- MUSTER_CALL (R349). -/
def State.takeCall (s : State) (h : Word) (p : List Byte) : State :=
  let m := msgM p
  if m < s.musNumber then s
  else if m = s.musNumber then (s.relay h 1 m (msgUid p) p).2
  else
    let s1 := s.enterMuster m
    let s2 := (s1.relay h 1 m (msgUid p) p).2
    (s2.flood s2.fab.mus.listed 2 m s2.ownReport.bytes).checkSet

/-- MUSTER_LINKS (R350). -/
def State.takeLinks (s : State) (h : Word) (p : List Byte) : State :=
  if msgM p ≠ s.musNumber ∨ s.musState = musIdle ∨ s.musState = musBackoff then s
  else
    let r := s.relay h 2 (msgM p) (msgUid p) p
    if r.1 then (r.2.mapMuster fun x => { x with reports := x.reports ++ [reportOf p] }).checkSet else r.2

/-- MUSTER_ASSIGN: staged and acknowledged (R352). -/
def State.takeAssign (s : State) (h : Word) (p : List Byte) : State :=
  if msgM p ≠ s.musNumber ∨ msgUid p ≠ s.uid.toNat ∨ (s.musState ≠ musCollect ∧ s.musState ≠ musAssign) then s
  else
    let routes := (List.range 64).map fun a => leAt p (24 + 4 * a) 4
    (((s.stageAssign (leAt p 12 1) (leAt p 16 8) routes).setMusState musAssign)).sendMsg (.reverse h) 4 (msgM p)
      (leBytes 8 s.uid.toNat)

/-- MUSTER_ACK at the coordinator (R352). -/
def State.takeAck (s : State) (p : List Byte) : State :=
  if msgM p ≠ s.musNumber ∨ s.musState ≠ musAssign ∨ s.fab.mus.assigns = [] then s
  else (s.acknowledge (msgUid p)).againIf

/-- MUSTER_DONE (R352, R353). -/
def State.takeDoneMsg (s : State) (h : Word) (p : List Byte) : State :=
  if msgM p ≠ s.musNumber ∨ (s.musState ≠ musCollect ∧ s.musState ≠ musAssign) then s
  else
    let r := s.relay h 5 (msgM p) (msgUid p) p
    let epoch := leAt p 12 8
    if !r.1 then s
    else if epoch ≠ 0 ∧ dtDiff (BitVec.ofNat 64 epoch) s.now < 0 then r.2.startMuster
    else (r.2.takeDone (msgUid p) epoch ((List.range 64).map fun a => leAt p (20 + 8 * a) 8)).againIf

/-- MUSTER_ABORT (R354). -/
def State.takeAbort (s : State) (h : Word) (p : List Byte) : State :=
  if msgM p ≠ s.musNumber ∨ s.musState = musIdle ∨ s.musState = musBackoff then s
  else
    let r := s.relay h 6 (msgM p) (msgUid p) p
    if r.1 then r.2.abortMuster false else s

/-! ### Timers and the epoch -/

/-- MUSTER_TIMEOUT (R354). -/
def State.timeoutMuster (s : State) : State :=
  if s.musState ≠ musCollect ∧ s.musState ≠ musAssign then s
  else match s.reachTime (s.fab.mus.started + msUnits 5) with
    | some t => t.abortMuster true
    | none => s

/-- MUSTER_BACKOFF_END (R354). -/
def State.endBackoff (s : State) : State :=
  if s.musState ≠ musBackoff then s
  else match s.reachTime s.fab.mus.backoff with
    | some t => t.startMuster
    | none => s

/-- MUSTER_PERIODIC_CALL (R349). -/
def State.periodicCall (s : State) : State :=
  if s.musState ≠ musIdle then s
  else match s.reachTime (s.fab.mus.lastDone + msUnits (if s.fld .FAB_ADDR Fld.FAB_ADDR_COORD = 1 then 1000 else 2500)) with
    | some t => t.startMuster
    | none => s

/-- LONE_PROBE (R355). -/
def State.loneProbe (s : State) : State :=
  if s.fld .FAB_ADDR Fld.FAB_ADDR_LONE = 0 ∨ s.groupsInService = [] ∨ s.musState ≠ musIdle then s
  else match s.reachTime (s.fab.mus.lastProbe + msUnits 10) with
    | some t => (t.mapMuster fun x => { x with lastProbe := t.now }).startMuster
    | none => s

/-- Device time of the edge that edge events act at. -/
def State.edgeTime (s : State) : Word := if s.atEdge then s.timeAt 0 else s.timeAt 14000

/-- Whether an armed swap has passed its commit point at an edge: the edge is its own. -/
def State.swapCommitted (s : State) : Bool :=
  match s.alm.swap with
  | some w => s.edgePos == posOf w.frame 0
  | none => false

/-- Whether the EPOCH of the DONE that this device holds has come at the edge at hand (R353). -/
def State.epochDue (s : State) : Bool :=
  s.rd .FAB_EPOCH != 0 && (s.rd .FAB_EPOCH).toNat == s.fab.mus.held && decide (dtDiff s.edgeTime (s.rd .FAB_EPOCH) ≥ 0)

/-- MUSTER_EPOCH at an edge (R353). -/
def State.epochAt (s : State) : State :=
  if !s.epochDue then s
  else
    let s1 := (List.range 64).foldl (fun t a => t.wr (.FAB_ROUTE a) (t.rd (.FAB_ROUTE_SH a))) s
    let lone := s1.fld .FAB_ADDR Fld.FAB_ADDR_STAGED_LONE
    let s2 := (s1.setFld .FAB_ADDR Fld.FAB_ADDR_ADDR (if lone = 1 then 0 else s1.fld .FAB_ADDR Fld.FAB_ADDR_STAGED)).setFld .FAB_ADDR
      Fld.FAB_ADDR_LONE lone
    let s3 := (List.range 32).foldl (fun t g => t.setFld (.FAB_GRP g) Fld.FAB_GRP_MUSTERED
      (if s.fab.mus.topology.contains g then 1 else 0)) s2
    let s4 := (s3.wr .FAB_EPOCH 0).mapMuster fun x => { x with held := 0 }
    let s5 := if s4.musState = musWait then s4.setMusState musIdle else s4
    let pool := match s.alm.swap with
      | some w => w.pool
      | none => false
    (if s.fab.mus.poolMoves && pool && !s.swapCommitted then s5.cancelSwap 0x26 else s5).fabEvent

/-- A write of FAB_CTRL (R349, R356). -/
def State.writeFabCtrl (s : State) (v : Word) : State :=
  let s1 := s.wrAccess .FAB_CTRL v
  let s2 := if Fld.FAB_CTRL_STAT_CLR.get v = 1 then (List.range 14).foldl (fun t k => t.wr (.FAB_CNT k) 0) s1 else s1
  if Fld.FAB_CTRL_MUSTER.get v = 1 then s2.startMuster else s2

/-! ### The commands -/

/-- SEGMENT_RECEIVE. -/
def execSegmentReceive (g : Fin 32) (s : State) : Out := working (fun t => t.takeInbox g) s

/-- REMOTE_REQUEST_SEND. -/
def execRemoteRequestSend (s : State) : Out := running (fun t => t.sendRequest) s

/-- FAB_TIMEOUT. -/
def execFabTimeout (tag : BitVec 8) (s : State) : Out := running (fun t => t.timeoutTag tag.toNat) s

/-- TAG_QUARANTINE_END. -/
def execTagQuarantineEnd (tag : BitVec 8) (s : State) : Out := running (fun t => t.endQuarantine tag.toNat) s

/-- BE_HOLD_EXPIRY. -/
def execBeHoldExpiry (g : Fin 32) (s : State) : Out := running (fun t => t.expireTransit g) s

/-- FAB_MSG_TX. -/
def execFabMsgTx (v : BitVec 64) (s : State) : Out := working (fun t => t.writeMsgTx v) s

/-- FAB_RX_DB. -/
def execFabRxDb (v : BitVec 64) (s : State) : Out := running (fun t => t.wrAccess .FAB_RX_DB v) s

/-- MUSTER_CALL. -/
def execMusterCall (h : BitVec 64) (p : List Byte) (s : State) : Out := running (fun t => t.takeCall h p) s

/-- MUSTER_LINKS. -/
def execMusterLinks (h : BitVec 64) (p : List Byte) (s : State) : Out := running (fun t => t.takeLinks h p) s

/-- MUSTER_ASSIGN. -/
def execMusterAssign (h : BitVec 64) (p : List Byte) (s : State) : Out := running (fun t => t.takeAssign h p) s

/-- MUSTER_ACK. -/
def execMusterAck (p : List Byte) (s : State) : Out := running (fun t => t.takeAck p) s

/-- MUSTER_DONE. -/
def execMusterDone (h : BitVec 64) (p : List Byte) (s : State) : Out := running (fun t => t.takeDoneMsg h p) s

/-- MUSTER_ABORT. -/
def execMusterAbort (h : BitVec 64) (p : List Byte) (s : State) : Out := running (fun t => t.takeAbort h p) s

/-- MUSTER: a write of FAB_CTRL. -/
def execMuster (v : BitVec 64) (s : State) : Out := running (fun t => t.writeFabCtrl v) s

/-- MUSTER_EPOCH. -/
def execMusterEpoch (s : State) : Out := running (fun t => t.edgeIf t.epochDue State.epochAt) s

/-- MUSTER_TIMEOUT. -/
def execMusterTimeout (s : State) : Out := running (fun t => t.timeoutMuster) s

/-- MUSTER_BACKOFF_END. -/
def execMusterBackoffEnd (s : State) : Out := running (fun t => t.endBackoff) s

/-- MUSTER_PERIODIC_CALL. -/
def execMusterPeriodicCall (s : State) : Out := running (fun t => t.periodicCall) s

/-- LONE_PROBE. -/
def execLoneProbe (s : State) : Out := running (fun t => t.loneProbe) s

/-- SWAP_ANNOUNCE: F and TARUNO_BUILD. -/
def execSwapAnnounce (h : BitVec 64) (p : List Byte) (s : State) : Out :=
  running (fun t => t.announced h (leAt p 4 4 % 2 ^ 20) (leAt p 8 8)) s

/-- SWAP_ACK. -/
def execSwapAck (h : BitVec 64) (p : List Byte) (s : State) : Out := running (fun t => t.poolAnswer (segSrc h) (leAt p 4 4) true) s

/-- SWAP_NAK. -/
def execSwapNak (h : BitVec 64) (p : List Byte) (s : State) : Out := running (fun t => t.poolAnswer (segSrc h) (leAt p 4 4) false) s

/-- SWAP_COMMIT. -/
def execSwapCommit (h : BitVec 64) (p : List Byte) (s : State) : Out := running (fun t => t.poolCommit (segSrc h) (leAt p 4 4)) s

/-- SWAP_CANCEL. -/
def execSwapCancel (h : BitVec 64) (p : List Byte) (s : State) : Out := running (fun t => t.poolCancel (segSrc h) (leAt p 4 4)) s

/-- CELL_START: cell, EFF_FRAME and the source's request id. -/
def execCellStart (h : BitVec 64) (p : List Byte) (s : State) : Out :=
  running (fun t => t.acceptPeer h.toNat (leAt p 4 1 % 128) (leAt p 8 4 % 2 ^ 20) (leAt p 12 4)) s

/-- CELL_RESULT. -/
def execCellResult (p : List Byte) (s : State) : Out := running (fun t => t.cellResult (leAt p 4 4) (leAt p 8 1)) s

/-- FAB_STAT_CLR. -/
def execFabStatClr (s : State) : Out := running (fun t => (List.range 14).foldl (fun t k => t.wr (.FAB_CNT k) 0) t) s

end Sys2Proof.Machine
end

