-- ==== Sys2Proof/Machine/Serdes.lean ====
section
/-!
DEFINITION. Serial lanes (chapter 14): quads and their PLLs (R357 to R359), receivers and their adaptation (R361 to R364), transmit
taps (R365), loopbacks (R368) and test patterns (R369, R370).
-/
namespace Sys2Proof.Machine

/-- Whether a quad's logic is powered: its domain is ON or IDLE, or in a wake that has reached power-good. -/
def State.quadPowered (s : State) (q : Nat) : Bool :=
  !s.domFailed (25 + q) && (decide (s.domState (25 + q) ≤ 1) || match (s.dom (25 + q)).wake with
    | some w => w.good
    | none => false)

/-! ### Quads -/

/-- A quad set to come up (R359 step 1): ready, lock and failure are gone. -/
def State.startQuad (s : State) (q : Nat) : State :=
  ((s.setQuadReady q false).setQuad q Fld.SDS_QUAD_STATUS_LOCK false).setQuad q Fld.SDS_QUAD_STATUS_FAILED false

/-- Whether a write of RATE is ignored (R358). -/
def State.rateHeld (s : State) (q : Nat) : Bool :=
  (lanesOfQuad q).any fun l => s.laneInUse l || s.fld (.SDS_LANE_PRBS l) Fld.SDS_LANE_PRBS_GEN_EN == 1
    || s.fld (.SDS_LANE_PRBS l) Fld.SDS_LANE_PRBS_CHK_EN == 1 || s.lpbk l != 0

/-- A write of SDS_QUAD_CFG (R357 to R359). -/
def State.writeQuadCfg (s : State) (q : Nat) (v : Word) : State :=
  let rate := Fld.SDS_QUAD_CFG_RATE.get v
  if 5 ≤ rate ∨ s.rateHeld q then s
  else
    let s1 := s.wrAccess (.SDS_QUAD_CFG q) v
    if rate ≠ s.quadRate q ∨ s.quadIs q Fld.SDS_QUAD_STATUS_FAILED then s1.startQuad q else s1

/-- A quad's PLL locks (R359 step 2). -/
def State.lockPll (s : State) (q : Nat) : State :=
  if s.quadRate q = 0 ∨ !s.quadPowered q then s else s.setQuad q Fld.SDS_QUAD_STATUS_LOCK true

/-- Transmitter calibration ends (R359 step 4). -/
def State.readyQuad (s : State) (q : Nat) : State :=
  if s.quadRate q ≠ 0 ∧ s.quadPowered q ∧ s.quadIs q Fld.SDS_QUAD_STATUS_LOCK ∧ !s.quadIs q Fld.SDS_QUAD_STATUS_FAILED then
    s.setQuadReady q true else s

/-- A PLL that has not locked in time (R359), in a wake also the failure of the wake (R414). -/
def State.pllNoLock (s : State) (q : Nat) : State :=
  if s.quadRate q = 0 ∨ !s.quadPowered q ∨ s.quadIs q Fld.SDS_QUAD_STATUS_LOCK ∨ s.quadIs q Fld.SDS_QUAD_STATUS_FAILED then s
  else
    let s1 := s.setQuad q Fld.SDS_QUAD_STATUS_FAILED true
    match (s.dom (25 + q)).wake with
    | some w => if 2 ≤ w.from_ then s1.failDomain (25 + q) 0x32 (11, q) else s1.record { code := 0x32, cls := 11, phys := q }
    | none => s1.record { code := 0x32, cls := 11, phys := q }

/-- The PLL of a ready quad loses lock (R359). -/
def State.losePll (s : State) (q : Nat) : State :=
  if s.quadIs q Fld.SDS_QUAD_STATUS_READY then (s.setQuadReady q false).setQuad q Fld.SDS_QUAD_STATUS_LOCK false else s

/-! ### Receivers -/

/-- Adaptation of a lane starts or starts again (R362). -/
def State.startAdapt (s : State) (l : Nat) : State :=
  let s1 := s.setLane l Fld.SDS_LANE_STATUS_ADAPTED false
  { s1 with sds := { s1.sds with adapting := (s1.sds.adapting.filter fun x => x != l) ++ [l] } }

/-- SIGNAL of a lane (R361, R362). -/
def State.setSignal (s : State) (l : Nat) (present : Bool) : State :=
  if s.lpbk l = 2 ∨ s.laneIs l Fld.SDS_LANE_STATUS_SIGNAL = present then s
  else if present then
    let s1 := s.setLane l Fld.SDS_LANE_STATUS_SIGNAL true
    if s.quadIs (l / 4) Fld.SDS_QUAD_STATUS_READY then s1.startAdapt l else s1
  else s.dropLane l

/-- LOCK of a lane (R361, R362). -/
def State.setLock (s : State) (l : Nat) (tracking : Bool) : State :=
  if s.lpbk l = 2 then s
  else if tracking then
    if s.laneIs l Fld.SDS_LANE_STATUS_SIGNAL then s.setLane l Fld.SDS_LANE_STATUS_LOCK true else s
  else (s.setLane l Fld.SDS_LANE_STATUS_LOCK false).setLane l Fld.SDS_LANE_STATUS_ADAPTED false

/-- The figure of merit of an eye (R363). -/
def fomOf (h v : Nat) : Nat := h * v * 255 / 8192

/-- A measurement judged against FOM_MIN (R364). -/
def State.judgeFom (s : State) (l fom : Nat) : State :=
  let m := s.fld (.SDS_LANE_CFG l) Fld.SDS_LANE_CFG_FOM_MIN
  let low := if m ≠ 0 ∧ fom < m then SMap.get zeroNat s.sds.low l + 1 else 0
  let high := if m ≠ 0 ∧ m ≤ fom then SMap.get zeroNat s.sds.high l + 1 else 0
  let s1 := { s with sds := { s.sds with
    low := SMap.set zeroNat s.sds.low l (min 3 low), high := SMap.set zeroNat s.sds.high l (min 3 high) } }
  if m = 0 then s1
  else if 3 ≤ low then s1.setLane l Fld.SDS_LANE_STATUS_FOM_LOW true
  else if 3 ≤ high then s1.setLane l Fld.SDS_LANE_STATUS_FOM_LOW false
  else s1

/-- FOM, CTLE setting and taps of a lane. -/
def State.setEq (s : State) (l fom ctle taps : Nat) : State :=
  s.wr (.SDS_LANE_EQ l) (BitVec.ofNat 64 (2 ^ 56 * (fom % 256) + 2 ^ 52 * (ctle % 16) + taps % 2 ^ 51))

/-- Adaptation ends (R362 step 4). -/
def State.endAdapt (s : State) (l ctle taps h v : Nat) : State :=
  if !s.sds.adapting.contains l ∨ !s.laneIs l Fld.SDS_LANE_STATUS_SIGNAL ∨ !s.laneIs l Fld.SDS_LANE_STATUS_LOCK
      ∨ !s.quadIs (l / 4) Fld.SDS_QUAD_STATUS_READY then s
  else
    let setting := if s.fld (.SDS_LANE_CFG l) Fld.SDS_LANE_CFG_CTLE_MAN = 1 then
      s.fld (.SDS_LANE_CFG l) Fld.SDS_LANE_CFG_CTLE_FIX else ctle
    let s1 := { s with sds := { s.sds with adapting := s.sds.adapting.filter fun x => x != l } }
    ((s1.setEq l (fomOf h v) setting taps).setLane l Fld.SDS_LANE_STATUS_ADAPTED true).judgeFom l (fomOf h v)

/-- The measurement of every millisecond (R363, R364), with the taps as they have tracked (R362). -/
def State.measureFom (s : State) (l taps h v : Nat) : State :=
  if !s.laneIs l Fld.SDS_LANE_STATUS_ADAPTED ∨ s.lpbk l = 2 then s
  else
    let old := (s.rd (.SDS_LANE_EQ l)).toNat
    let now := if s.fld (.SDS_LANE_CFG l) Fld.SDS_LANE_CFG_DFE_FREEZE = 1 then old % 2 ^ 51 else taps
    (s.setEq l (fomOf h v) (bitsOf old 52 4) now).judgeFom l (fomOf h v)

/-! ### Configuration of a lane -/

/-- A write of SDS_LANE_CFG: a changed loopback and READAPT start adaptation (R362, R368). -/
def State.writeLaneCfg (s : State) (l : Nat) (v : Word) : State :=
  let old := s.lpbk l
  let s1 := s.wrAccess (.SDS_LANE_CFG l) v
  let new := s1.lpbk l
  if new = 2 ∧ old ≠ 2 then
    let s2 := ((s1.setLane l Fld.SDS_LANE_STATUS_SIGNAL true).setLane l Fld.SDS_LANE_STATUS_LOCK true).setLane l
      Fld.SDS_LANE_STATUS_ADAPTED true
    { s2.setFld (.SDS_LANE_EQ l) Fld.SDS_LANE_EQ_FOM 0 with
      sds := { s2.sds with adapting := s2.sds.adapting.filter fun x => x != l } }
  else if new = 2 then s1
  else if old = 2 then (s1.dropLane l).startAdapt l
  else if new ≠ old ∨ Fld.SDS_LANE_CFG_READAPT.get v = 1 then s1.startAdapt l
  else s1

/-- Whether transmit taps keep the limits of R365. -/
def ffeOk (v : Word) : Bool :=
  let tap (f : BitField) : Int := signedOf 6 (f.get v)
  let taps := [tap Fld.SDS_LANE_FFE_PRE2, tap Fld.SDS_LANE_FFE_PRE1, tap Fld.SDS_LANE_FFE_POST1, tap Fld.SDS_LANE_FFE_POST2]
  taps.all (fun t => decide (-31 ≤ t)) && decide (Fld.SDS_LANE_FFE_MAIN.get v + (taps.map Int.natAbs).sum ≤ 63)

/-- A write of SDS_LANE_FFE (R365). -/
def State.writeFfe (s : State) (l : Nat) (v : Word) : State :=
  if ffeOk v then s.wrAccess (.SDS_LANE_FFE l) v
  else s.setFld (.SDS_LANE_STATUS l) Fld.SDS_LANE_STATUS_FFE_REJECT 1

/-! ### Test patterns -/

/-- `n` mismatching bits counted by a locked checker (R370). -/
def State.countErrors (s : State) (l n : Nat) : State := s.bump (.SDS_LANE_PRBS_CNT l) Fld.SDS_LANE_PRBS_CNT_ERRORS n

/-- Whether a lane's checker, locked, watches the lane's own generator through a near-end loopback (R368, R370). -/
def State.ownChecker (s : State) (l : Nat) : Bool :=
  let p := s.rd (.SDS_LANE_PRBS l)
  (s.lpbk l == 1 || s.lpbk l == 2) && Fld.SDS_LANE_PRBS_CHK_LOCK.get p == 1
    && Fld.SDS_LANE_PRBS_CHK_PAT.get p == Fld.SDS_LANE_PRBS_GEN_PAT.get p
    && Fld.SDS_LANE_PRBS_CHK_INV.get p == Fld.SDS_LANE_PRBS_GEN_INV.get p

/-- A write of SDS_LANE_PRBS (R369, R370). -/
def State.writePrbs (s : State) (l : Nat) (v : Word) : State :=
  let was := s.fld (.SDS_LANE_PRBS l) Fld.SDS_LANE_PRBS_CHK_EN
  let s1 := s.wrAccess (.SDS_LANE_PRBS l) v
  let en := s1.fld (.SDS_LANE_PRBS l) Fld.SDS_LANE_PRBS_CHK_EN
  let s2 := if was = 0 ∧ en = 1 then s1.wr (.SDS_LANE_PRBS_CNT l) 0 else s1
  let s3 := if was ≠ en then s2.setFld (.SDS_LANE_PRBS l) Fld.SDS_LANE_PRBS_CHK_LOCK 0 else s2
  if Fld.SDS_LANE_PRBS_ERR_INJ.get v = 1 ∧ s3.fld (.SDS_LANE_PRBS l) Fld.SDS_LANE_PRBS_GEN_EN = 1 then
    let s4 := s3.emit (.prbsError l)
    if s4.ownChecker l then s4.countErrors l 1 else s4
  else s3

/-- The checker gains or loses lock, with the bits that have mismatched while it was locked (R370). -/
def State.checkerLock (s : State) (l : Nat) (lock : Bool) (mismatches : Nat) : State :=
  if s.fld (.SDS_LANE_PRBS l) Fld.SDS_LANE_PRBS_CHK_EN = 0 then s
  else
    let was := s.fld (.SDS_LANE_PRBS l) Fld.SDS_LANE_PRBS_CHK_LOCK == 1
    if was then
      if lock then s.countErrors l mismatches
      else ((s.countErrors l (max 32 mismatches)).bump (.SDS_LANE_PRBS_CNT l) Fld.SDS_LANE_PRBS_CNT_LOSSES).setFld
        (.SDS_LANE_PRBS l) Fld.SDS_LANE_PRBS_CHK_LOCK 0
    else if lock then s.setFld (.SDS_LANE_PRBS l) Fld.SDS_LANE_PRBS_CHK_LOCK 1
    else s

/-- SDS_CTRL.STAT_CLR (R372). -/
def State.clearSds (s : State) : State := (List.range 64).foldl (fun t l => t.wr (.SDS_LANE_PRBS_CNT l) 0) s

/-! ### The commands -/

/-- SDS_QUAD_CFG. -/
def execSdsQuadCfg (q : Fin 16) (v : BitVec 64) (s : State) : Out := running (fun t => t.writeQuadCfg q v) s

/-- PLL_LOCK. -/
def execPllLock (q : Fin 16) (s : State) : Out := running (fun t => t.lockPll q) s

/-- QUAD_READY. -/
def execQuadReady (q : Fin 16) (s : State) : Out := running (fun t => t.readyQuad q) s

/-- PLL_NO_LOCK. -/
def execPllNoLock (q : Fin 16) (s : State) : Out := running (fun t => t.pllNoLock q) s

/-- PLL_LOSS_OF_LOCK. -/
def execPllLossOfLock (q : Fin 16) (s : State) : Out := running (fun t => t.losePll q) s

/-- SIGNAL_CHANGE. -/
def execSignalChange (l : Fin 64) (present : Bool) (s : State) : Out := running (fun t => t.setSignal l present) s

/-- CDR_LOCK_CHANGE. -/
def execCdrLockChange (l : Fin 64) (tracking : Bool) (s : State) : Out := running (fun t => t.setLock l tracking) s

/-- ADAPTATION_COMPLETE. -/
def execAdaptationComplete (l : Fin 64) (ctle : BitVec 4) (taps : BitVec 51) (h : Fin 65) (v : Fin 129) (s : State) : Out :=
  running (fun t => t.endAdapt l ctle.toNat taps.toNat h v) s

/-- READAPT: a write of SDS_LANE_CFG. -/
def execReadapt (l : Fin 64) (v : BitVec 64) (s : State) : Out := running (fun t => t.writeLaneCfg l v) s

/-- LPBK: a write of SDS_LANE_CFG. -/
def execLpbk (l : Fin 64) (v : BitVec 64) (s : State) : Out := running (fun t => t.writeLaneCfg l v) s

/-- FOM_MEASUREMENT. -/
def execFomMeasurement (l : Fin 64) (taps : BitVec 51) (h : Fin 65) (v : Fin 129) (s : State) : Out :=
  running (fun t => t.measureFom l taps.toNat h v) s

/-- SDS_LANE_FFE. -/
def execSdsLaneFfe (l : Fin 64) (v : BitVec 64) (s : State) : Out := running (fun t => t.writeFfe l v) s

/-- ERR_INJ: a write of SDS_LANE_PRBS. -/
def execErrInj (l : Fin 64) (v : BitVec 64) (s : State) : Out := running (fun t => t.writePrbs l v) s

/-- CHK_EN: a write of SDS_LANE_PRBS. -/
def execChkEn (l : Fin 64) (v : BitVec 64) (s : State) : Out := running (fun t => t.writePrbs l v) s

/-- SDS_STAT_CLR. -/
def execSdsStatClr (s : State) : Out := running (fun t => t.clearSds) s

/-- PRBS_CHECKER_LOCK. -/
def execPrbsCheckerLock (l : Fin 64) (lock : Bool) (mismatches : BitVec 32) (s : State) : Out :=
  running (fun t => t.checkerLock l lock mismatches.toNat) s

end Sys2Proof.Machine
end

