-- ==== Sys2Proof/Machine/Drove.lean ====
section
/-!
DEFINITION. Drove links (chapter 12): the frame and its line code (R313 to R319), keys (R320), alignment and deskew (R321 to R324),
defects (R325 to R328) and performance monitoring (R329 to R333).
-/
namespace Sys2Proof.Machine

/-! ### Numbers of a frame (R313, R314) -/

/-- The alignment word. -/
def droveFaw : Nat := 0x3A6DC591E4B20F5C

/-- Payload blocks of a frame at a RATE. -/
def blocksOf (rate : Nat) : Nat := if rate = 1 then 120 else 242

/-- Line bits left for stuffs and fill, and the most stuffs. -/
def fillBits (rate : Nat) : Nat := if rate = 1 then 82 else 100
def mostStuffs (rate : Nat) : Nat := if rate = 1 then 78 else 96

/-- Frame bits of a frame. -/
def frameBits (rate : Nat) : Nat := 384 + 256 * blocksOf rate + 64

/-- RATE of a group. -/
def State.grpRate (s : State) (g : Nat) : Nat := s.fld (.DRL_GRP_CFG g) Fld.DRL_GRP_CFG_RATE

/-- Whether a group is enabled. -/
def State.grpOn (s : State) (g : Nat) : Bool := s.fld (.DRL_GRP_CFG g) Fld.DRL_GRP_CFG_ENABLE == 1

/-! ### Bits -/

/-- The number that bits spell, most significant first. -/
def bitsNat (bs : List Bool) : Nat := bs.foldl (fun n b => 2 * n + if b then 1 else 0) 0

/-- A 64-bit CRC taken one bit further (R316). -/
def crc64Bit (c : Nat) (b : Bool) : Nat :=
  let top := c.testBit 63
  let c1 := 2 * c % 2 ^ 64
  if top != b then c1 ^^^ 0x42F0E1EBA9EA3693 else c1

/-- The frame CRC of bits 64 to the last payload bit (R316). -/
def crc64 (bs : List Bool) : Nat := bs.foldl crc64Bit (2 ^ 64 - 1) ^^^ (2 ^ 64 - 1)

/-- BIP16 of the scrambled bits of a frame (R316): bit i of the result is the parity of the positions i mod 16. -/
def bip16 (bs : List Bool) : Nat :=
  (bs.foldl (fun (a : Nat × Nat) b => ((if b then a.1 ^^^ 2 ^ a.2 else a.1), (a.2 + 1) % 16)) (0, 0)).1

/-- The seed of the scrambler (R317). -/
def scrambleSeed (fn : Nat) (key : Option Nat) : Nat :=
  let s := fn ^^^ key.getD 0
  if s = 0 then 0x7FFFFFFF else s

/-- Bits XORed with the scrambler sequence from a state (R317). -/
def scrambleFrame : Nat → List Bool → List Bool
  | _, [] => []
  | st, b :: bs =>
    let c := st.testBit 28 != st.testBit 0
    (b != c) :: scrambleFrame (st / 2 + if c then 2 ^ 30 else 0) bs

/-! ### Line code (R318, R319) -/

/-- Frame bits from 64 on put on the line: the last bit and the length of its run, the stuffs used and the limit. The result has the
stuffs used, whether the limit was met, and the line bits in reverse. -/
def stuff (limit : Nat) : List Bool → Bool → Nat → Nat → Bool → List Bool → Nat × Bool × List Bool
  | [], _, _, n, ovf, acc => (n, ovf, acc)
  | b :: bs, last, run, n, ovf, acc =>
    let run1 := if b = last then run + 1 else 1
    if run1 = 40 ∧ !ovf then
      if n < limit then stuff limit bs (!b) 1 (n + 1) ovf ((!b) :: b :: acc)
      else stuff limit bs b run1 n true (b :: acc)
    else stuff limit bs b run1 n ovf (b :: acc)

/-- Fill bits after a line bit. -/
def fillAfter : Nat → Bool → List Bool
  | 0, _ => []
  | n + 1, last => (!last) :: fillAfter n (!last)

/-- The line bits of a frame given by its frame bits from 64 on, and whether it exceeded the limit. -/
def lineBits (rate : Nat) (bits : List Bool) : List Bool × Bool :=
  let r := stuff (mostStuffs rate) bits false 2 0 false []
  let body := r.2.2
  (msbBits 64 droveFaw ++ body.reverse ++ fillAfter (fillBits rate - r.1) (body.headD false), r.2.1)

/-- `need` frame bits taken from the line bits after the alignment word: the bits in reverse, and the count of frame bits before a stuff
violation, if there is one (R319). -/
def unstuff : List Bool → Nat → Bool → Nat → Option Nat → Nat → List Bool → List Bool × Option Nat
  | [], _, _, _, viol, _, acc => (acc, viol)
  | b :: bs, need, last, run, viol, got, acc =>
    if need = 0 then (acc, viol)
    else if run = 40 ∧ viol = none then
      if b = last then unstuff bs (need - 1) b 41 (some got) (got + 1) (b :: acc)
      else unstuff bs need b 1 viol got acc
    else unstuff bs (need - 1) b (if b = last then run + 1 else 1) viol (got + 1) (b :: acc)

/-! ### Registers of the block -/

/-- A counter of DRL_PM of a lane (R333). -/
def State.pmCount (s : State) (x k : Nat) (n : Nat := 1) : State := s.tally (.DRL_PM x k) n

/-- A counter of a lane that its group sums as well (R333). -/
def State.pmLane (s : State) (l : Nat) (g : Option Nat) (k : Nat) (n : Nat := 1) : State :=
  match g with
  | some g => (s.pmCount l k n).pmCount (64 + g) k n
  | none => s.pmCount l k n

def pmEf : Nat := 0
def pmBip : Nat := 1
def pmCrc : Nat := 2
def pmStuff : Nat := 3
def pmFaw : Nat := 4
def pmRxAis : Nat := 14
def pmKeyMiss : Nat := 15
def pmFnJump : Nat := 16
def pmStuffOvf : Nat := 17
def pmNoPos : Nat := 18

/-- The receiver of a lane. -/
def State.laneRx (s : State) (l : Nat) : LaneRx := SMap.get laneIdle s.drl.lanes l

/-- The receiver of a lane replaced. -/
def State.setLaneRx (s : State) (l : Nat) (r : LaneRx) : State :=
  { s with drl := { s.drl with lanes := SMap.set laneIdle s.drl.lanes l r } }

/-- A Drove group. -/
def State.grp (s : State) (g : Nat) : GrpSt := SMap.get grpIdle s.drl.grps g

/-- A Drove group replaced. -/
def State.setGrp (s : State) (g : Nat) (x : GrpSt) : State := { s with drl := { s.drl with grps := SMap.set grpIdle s.drl.grps g x } }

/-- Monitoring of a lane or group. -/
def State.pm (s : State) (x : Nat) : PmSt := SMap.get pmFresh s.drl.pm x

/-- Monitoring of a lane or group replaced. -/
def State.setPm (s : State) (x : Nat) (p : PmSt) : State := { s with drl := { s.drl with pm := SMap.set pmFresh s.drl.pm x p } }

/-- Alignment state of a lane: 0 HUNT, 1 PRESYNC, 2 SYNC. -/
def State.align (s : State) (l : Nat) : Nat := s.fld (.DRL_LANE_STATUS l) Fld.DRL_LANE_STATUS_ALIGN

/-! ### Defects (R325, R326, R328) -/

/-- The highest defect of a lane. -/
def State.laneDefect (s : State) (l : Nat) : Nat :=
  let r := s.laneRx l
  if r.los then 6 else if r.lol then 5 else if s.align l ≠ 2 then 4 else if r.rdi then 2 else if r.deg then 1 else 0

/-- The event of R328. -/
def State.drlEvent (s : State) : State :=
  s.msixIf (s.fld .DRL_CTRL Fld.DRL_CTRL_EVT_EN == 1) (s.fld .DRL_CTRL Fld.DRL_CTRL_VECTOR)

/-- DEFECT of a lane shown; `none` for a lane whose group is not enabled. -/
def State.showLane (s : State) (l : Nat) (on : Bool) : State :=
  let d := if on then s.laneDefect l else 0
  if s.fld (.DRL_LANE_STATUS l) Fld.DRL_LANE_STATUS_DEFECT = d then s
  else ((s.setFld (.DRL_LANE_STATUS l) Fld.DRL_LANE_STATUS_DEFECT d).setFld (.DRL_LANE_STATUS l) Fld.DRL_LANE_STATUS_CHANGE 1).drlEvent

/-- DEFECT and DOWN of a group and its lanes brought up to date, and what follows for the fabric (R326, R346). -/
def State.refreshGroup (s : State) (g : Nat) : State :=
  let on := s.grpOn g
  let s1 := (s.lanesOfGroup g).foldl (fun t l => t.showLane l on) s
  let d := if !on then 0 else
    max (if (s1.grp g).log then 3 else 0) ((s1.lanesOfGroup g).foldl (fun m l => max m (s1.laneDefect l)) 0)
  let down := if !on || decide (2 ≤ d) then 1 else 0
  let reg : Reg := .DRL_GRP_STATUS g
  let s2 := if s1.fld reg Fld.DRL_GRP_STATUS_DEFECT = d ∧ s1.fld reg Fld.DRL_GRP_STATUS_DOWN = down then s1
    else (((s1.setFld reg Fld.DRL_GRP_STATUS_DEFECT d).setFld reg Fld.DRL_GRP_STATUS_DOWN down).setFld reg
      Fld.DRL_GRP_STATUS_CHANGE 1).drlEvent
  s2.judgeGroup g

/-- KEY_HELD of a group: every lane holds the peer's key (R320). -/
def State.refreshKey (s : State) (g : Nat) : State :=
  let ls := s.lanesOfGroup g
  s.setFld (.DRL_GRP_STATUS g) Fld.DRL_GRP_STATUS_KEY_HELD
    (if ls != [] && ls.all fun l => (s.laneRx l).key.isSome then 1 else 0)

/-! ### Configuration (R312, R320) -/

/-- A non-zero key from the random source (R320). -/
def State.drawKey (s : State) : Nat × State :=
  let d := s.draw 31
  (if d.1 = 0 then 1 else d.1, d.2)

/-- A write of DRL_GRP_LANES (R312). -/
def State.writeGrpLanes (s : State) (g : Nat) (v : Word) : State :=
  let ls := (List.range 64).filter fun l => v.toNat.testBit l
  let taken := (List.range 32).any fun o => o != g && (s.rd (.DRL_GRP_LANES o) &&& v) != 0
  if s.grpOn g then s
  else if taken ∨ ls.any (fun l => s.laneUser l != 2) ∨ ls.length = 0 ∨ 16 < ls.length then
    s.setFld (.DRL_GRP_CFG g) Fld.DRL_GRP_CFG_MASK_REJECT 1
  else s.wrAccess (.DRL_GRP_LANES g) v

/-- A group enabled: a new key, and its lanes hunt (R320, R321). -/
def State.enableGroup (s : State) (g : Nat) : State :=
  let k := s.drawKey
  let ls := s.lanesOfGroup g
  let s1 := k.2.setGrp g { grpIdle g with key := k.1 }
  let s2 := ls.foldl (fun t l => (t.setLaneRx l (laneIdle l)).setFld (.DRL_LANE_STATUS l) Fld.DRL_LANE_STATUS_ALIGN 0) s1
  let s3 := (s2.setFld (.DRL_GRP_STATUS g) Fld.DRL_GRP_STATUS_KEY_ON 0).setFld (.DRL_GRP_PEER g) Fld.DRL_GRP_PEER_VALID 0
  (s3.refreshKey g).refreshGroup g

/-- A group taken out of use. -/
def State.disableGroup (s : State) (g : Nat) : State :=
  let ls := s.lanesOfGroup g
  let s1 := ls.foldl (fun t l => (t.setLaneRx l (laneIdle l)).setFld (.DRL_LANE_STATUS l) Fld.DRL_LANE_STATUS_ALIGN 0) (s.setGrp g (grpIdle g))
  (((s1.setFld (.DRL_GRP_STATUS g) Fld.DRL_GRP_STATUS_KEY_ON 0).refreshKey g)).refreshGroup g

/-- A write of DRL_GRP_CFG (R312, R320). -/
def State.writeGrpCfg (s : State) (g : Nat) (v : Word) : State :=
  let was := s.grpOn g
  let want := Fld.DRL_GRP_CFG_ENABLE.get v == 1
  let bad := want && !was && s.rd (.DRL_GRP_LANES g) == 0
  let v1 := if was then Fld.DRL_GRP_CFG_RATE.set v (s.grpRate g) else v
  let v2 := if bad then Fld.DRL_GRP_CFG_ENABLE.set v1 0 else v1
  let s1 := s.wrAccess (.DRL_GRP_CFG g) v2
  let s2 := if bad then s1.setFld (.DRL_GRP_CFG g) Fld.DRL_GRP_CFG_MASK_REJECT 1 else s1
  if want && !was && !bad then s2.enableGroup g
  else if was && !want then s2.disableGroup g
  else s2

/-! ### Transmission (R313 to R318) -/

/-- The quality level that a group sends: DNU where its recovered clock is the selected reference (R315). -/
def State.sentQl (s : State) (g : Nat) : Nat :=
  let sel := s.fld .TIM_STATUS Fld.TIM_STATUS_SEL_FREQ
  if (sel = 5 ∨ sel = 6) ∧ s.groupOfLane (s.rclk sel).1 = some g then 0xF else s.fld .TIM_STATUS Fld.TIM_STATUS_OUT_QL

/-- Whether a group sends RDI (R326, R327). -/
def State.sendsRdi (s : State) (g : Nat) : Bool :=
  s.fld (.DRL_GRP_CFG g) Fld.DRL_GRP_CFG_FORCE_RDI == 1 || decide (3 ≤ s.fld (.DRL_GRP_STATUS g) Fld.DRL_GRP_STATUS_DEFECT)

/-- Whether a group sends AIS (R327, R346). -/
def State.sendsAis (s : State) (g : Nat) : Bool :=
  s.fld (.DRL_GRP_CFG g) Fld.DRL_GRP_CFG_FORCE_AIS == 1 || s.fld (.FAB_GRP g) Fld.FAB_GRP_REFUSED == 1

/-- FRAME_NUM of the frame that starts in quarter `q` of this tick (R314). -/
def State.frameNum (s : State) (q : Nat) : Nat := (4 * s.absTick + q) % 2 ^ 31

/-- Frame bits 64 to 383 of lane `i` of a group (R314). -/
def State.frameHead (s : State) (g i fn credits : Nat) : List Bool :=
  let b (x : Bool) : Nat := if x then 1 else 0
  let ls := s.lanesOfGroup g
  let fields : List (Nat × Nat) :=
    [(31, fn), (1, s.fld (.DRL_GRP_STATUS g) Fld.DRL_GRP_STATUS_KEY_ON),
      (8, s.fld .ALM_ID Fld.ALM_ID_BURLOS_MAJ), (8, s.fld .ALM_ID Fld.ALM_ID_BURLOS_MIN),
      (4, s.sentQl g), (1, b (s.sendsRdi g)), (1, b (s.sendsAis g)),
      (1, s.fld (.DRL_GRP_STATUS g) Fld.DRL_GRP_STATUS_KEY_HELD), (1, 0),
      (4, i), (4, ls.length - 1), (16, SMap.get zeroNat s.drl.bipTx (ls.getD i 0)),
      (8, s.fabricProfile), (64, s.uid.toNat), (5, g),
      (1, s.fld .FAB_ADDR Fld.FAB_ADDR_LONE), (6, s.fabAddr), (31, (s.grp g).key),
      (16, credits), (109, 0)]
  fields.flatMap fun p => msbBits p.1 p.2

/-- The block of lane `i` at a position (R324). -/
def blockOf (i : Nat) (position : List Byte) : Nat := leNat ((position.drop (32 * i)).take 32)

/-- A lane's frame put on its line. -/
def State.sendLane (s : State) (g i lane fn credits : Nat) (positions : List (List Byte)) : State :=
  let rate := s.grpRate g
  let blocks := positions.flatMap fun p => msbBits 256 (if s.sendsAis g then 2 ^ 256 - 1 else blockOf i p)
  let plain := s.frameHead g i fn credits ++ blocks
  let whole := plain ++ msbBits 64 (crc64 plain)
  let key := if s.fld (.DRL_GRP_STATUS g) Fld.DRL_GRP_STATUS_KEY_ON = 1 then some (s.grp g).key else none
  let scrambled := scrambleFrame (scrambleSeed fn key) (whole.drop 32)
  let line := lineBits rate (whole.take 32 ++ scrambled)
  let s1 := { s with drl := { s.drl with bipTx := SMap.set zeroNat s.drl.bipTx lane (bip16 scrambled) } }
  let s2 := if line.2 then s1.pmCount lane pmStuffOvf else s1
  if s.laneSquelched lane (s.quadOn (lane / 4)) ∨ s.fld (.SDS_LANE_PRBS lane) Fld.SDS_LANE_PRBS_GEN_EN = 1 ∨ s.lpbk lane = 3 then s2
  else s2.emit (.drove lane line.1)

/-- DROVE_FRAME_TRANSMIT of a group: the frame of this quarter tick, or of the next when that one has been sent. -/
def State.transmitGroup (s : State) (g : Nat) : State :=
  if !s.grpOn g ∨ 14000 ≤ s.tm.cycle then s
  else
    let q0 := s.tm.cycle / 3500
    let q := if (s.grp g).sent = some (s.frameNum q0) then q0 + 1 else q0
    if 4 ≤ q then s
    else
      let s1 := s.passTo (3500 * q)
      let fn := s1.frameNum q
      let s2 := (s1.setGrp g { s1.grp g with sent := some fn }).expireTransit g
      let credits := SMap.get zeroNat s2.fab.freed g
      let s3 := { s2 with fab := { s2.fab with freed := SMap.set zeroNat s2.fab.freed g 0 } }
      let n := blocksOf (s3.grpRate g)
      let p := s3.takePositions g q (List.range n)
      let d := p.2.dropNoPos g q ((List.range (242 - n)).map (n + ·))
      let s4 := if d.1 = 0 then d.2 else d.2.pmCount (64 + g) pmNoPos d.1
      let s5 := (s3.lanesOfGroup g).zipIdx.foldl (fun t l => t.sendLane g l.2 l.1 fn (credits % 2 ^ 16) p.1) s4
      s5.ageSegments g

/-! ### Reception: one lane (R317, R319, R321, R322, R325) -/

/-- A frame as a lane finds it. -/
structure RxParse where
  fn : Nat
  keyOn : Bool
  /-- Bits 96 to 383, descrambled, as a number of 288 bits. -/
  fields : Nat
  blocks : List Nat
  crcOk : Bool
  viol : Option Nat
  miss : Bool
  bip : Nat
  deriving DecidableEq, Repr

/-- Bits of a list cut into blocks of 256. -/
def cutBlocks : Nat → List Bool → List Nat
  | 0, _ => []
  | n + 1, bs => bitsNat (bs.take 256) :: cutBlocks n (bs.drop 256)

/-- The line bits of a frame read, with the key that the lane holds. -/
def parseFrame (rate : Nat) (key : Option Nat) (line : List Bool) : RxParse :=
  let u := unstuff (line.drop 64) (frameBits rate - 64) false 2 none 0 []
  let bits := u.1.reverse
  let fn := bitsNat (bits.take 31)
  let keyOn := bits.getD 31 false
  let raw := bits.drop 32
  let clear := scrambleFrame (scrambleSeed fn (if keyOn then key else none)) raw
  let n := 288 + 256 * blocksOf rate
  let plain := clear.take n
  { fn := fn, keyOn := keyOn, fields := bitsNat (clear.take 288), blocks := cutBlocks (blocksOf rate) (plain.drop 288)
    crcOk := crc64 (bits.take 32 ++ plain) == bitsNat ((clear.drop n).take 64)
    viol := u.2, miss := keyOn && key.isNone, bip := bip16 raw }

/-- Field of frame bits `p` to `p + w − 1` (R314). -/
def rxField (fields p w : Nat) : Nat := bitsOf fields (384 - p - w) w

/-- Signal or lock of a lane judged at a boundary: the defect, and how long it has been absent (R325). -/
def judgeLoss (now : Bool) (was : Bool) (ok : Nat) : Bool × Nat :=
  if !now then (true, 0) else if was then (decide (ok + 1 < 16), ok + 1) else (false, 0)

/-- The alignment state after a boundary (R321): the state, correct words and errored words. -/
def alignNext (n m st good bad : Nat) (correct : Bool) : Nat × Nat × Nat :=
  match st with
  | 0 => if correct then (if n ≤ 1 then (2, 1, 0) else (1, 1, 0)) else (0, 0, 0)
  | 1 => if correct then (if n ≤ good + 1 then (2, good + 1, 0) else (1, good + 1, 0)) else (0, 0, 0)
  | _ => if correct then (2, good, 0) else if m ≤ bad + 1 then (0, 0, 0) else (2, good, bad + 1)

/-- RDI of a lane after an error-free frame (R325). -/
def rdiNext (r : LaneRx) (bit : Bool) : LaneRx :=
  if bit = r.rdi then { r with rdiRun := 0 }
  else if 3 ≤ r.rdiRun + 1 then { r with rdi := bit, rdiRun := 0 } else { r with rdiRun := r.rdiRun + 1 }

/-- DROVE_FRAME_RECEIVE up to the alignment state: signal, lock and the alignment word. -/
def State.alignLane (s : State) (l : Nat) (correct : Bool) : State :=
  let r := s.laneRx l
  let los := judgeLoss (s.userSignal l) r.los r.losOk
  let lol := judgeLoss (s.userLock l) r.lol r.lolOk
  let cleared := (r.los && !los.1) || (r.lol && !lol.1)
  let n := max 1 (s.fld .DRL_CFG Fld.DRL_CFG_N)
  let m := max 1 (s.fld .DRL_CFG Fld.DRL_CFG_M)
  let st := if cleared then 0 else s.align l
  let a := if s.quadIs (l / 4) Fld.SDS_QUAD_STATUS_READY then alignNext n m st r.good r.bad correct else (0, 0, 0)
  let gone := los.1 || lol.1 || a.1 != 2
  (s.setFld (.DRL_LANE_STATUS l) Fld.DRL_LANE_STATUS_ALIGN a.1).setLaneRx l { r with
    good := a.2.1, bad := a.2.2, los := los.1, losOk := los.2, lol := lol.1, lolOk := lol.2
    key := if gone then none else r.key, lastKey := if gone then none else r.lastKey
    bip := if a.1 = 2 then r.bip else none, fn := if a.1 = 2 then r.fn else none }

/-- The key of a frame compared with that of the frame before; `settled` says that every lane was in SYNC before (R320). -/
def keyNext (r : LaneRx) (p : RxParse) (settled : Bool) : LaneRx :=
  let key := rxField p.fields 228 31
  if !settled ∨ !p.crcOk ∨ p.viol.isSome then { r with lastKey := none }
  else { r with lastKey := some key, key := if r.lastKey = some key then some key else r.key }

/-- A frame of a lane in SYNC: counters, RDI and key (R317, R320, R322, R325, R333). -/
def State.takeFrame (s : State) (g l : Nat) (p : RxParse) (correct exact : Bool) (skew : Nat) : State :=
  let r := s.laneRx l
  let errorFree := correct && p.crcOk && p.viol.isNone && !p.miss
  let s1 := if r.fn.isSome ∧ r.fn ≠ some ((p.fn + 2 ^ 31 - 1) % 2 ^ 31) then s.pmCount l pmFnJump else s
  let s2 := if p.crcOk then s1 else s1.pmLane l (some g) pmCrc
  let s3 := if p.viol.isSome then s2.pmLane l (some g) pmStuff else s2
  let s4 := if p.miss then s3.pmLane l (some g) pmKeyMiss else s3
  let s5 := if errorFree ∧ rxField p.fields 117 1 = 1 then s4.pmLane l (some g) pmRxAis else s4
  let wrong := match r.bip with
    | some x => if p.viol.isNone && !p.miss then
        ((List.range 16).filter fun i => (x ^^^ rxField p.fields 128 16).testBit i).length else 0
    | none => 0
  let s6 := if wrong = 0 then s5 else s5.pmLane l (some g) pmBip wrong
  let r1 := keyNext { r with fn := some p.fn, bip := if p.viol.isNone then some p.bip else none } p (s.grp g).wasSync
  let r2 := if errorFree then rdiNext r1 (rxField p.fields 116 1 == 1) else { r1 with rdiRun := 0 }
  let s7 := s6.setLaneRx l r2
  let s8 := s7.setPm l { s7.pm l with bip := (s7.pm l).bip + wrong }
  let d := s8.laneDefect l
  let valid := if p.miss then 0 else match p.viol with
    | some v => (v + 64 - 384) / 256
    | none => p.blocks.length
  let f : LaneFrame :=
    { lane := l, sync := true, fn := p.fn, fields := p.fields, blocks := p.blocks, valid := valid
      errored := !exact || !p.crcOk || p.viol.isSome || p.miss || decide (d ≠ 0), errorFree := errorFree, skew := skew }
  s8.setGrp g { s8.grp g with held := (s8.grp g).held ++ [f] }

/-- A boundary of a lane that is not in SYNC. -/
def State.takeNothing (s : State) (g l skew : Nat) : State :=
  let f : LaneFrame :=
    { lane := l, sync := false, fn := 0, fields := 0, blocks := [], valid := 0, errored := true, errorFree := false, skew := skew }
  s.setGrp g { s.grp g with held := (s.grp g).held ++ [f] }

/-! ### Reception: the group (R320, R323 to R325) -/

/-- The condition of LOG on a frame of a group whose lanes are all in SYNC (R325). -/
def logCondition (ls : List Nat) (fs : List LaneFrame) : Bool :=
  match fs with
  | [] => false
  | f0 :: _ => fs.any fun f =>
      f.fn != f0.fn || decide (8192 < f.skew)
        || rxField f.fields 120 4 != (ls.findIdx fun l => l == f.lane) || rxField f.fields 124 4 != ls.length - 1
        || rxField f.fields 152 64 != rxField f0.fields 152 64 || rxField f.fields 216 5 != rxField f0.fields 216 5

/-- LOG after a frame (R325). -/
def logNext (x : GrpSt) (inSync cond : Bool) : GrpSt :=
  if !inSync then { x with logRun := 0 }
  else if cond = x.log then { x with logRun := 0 }
  else if 3 ≤ x.logRun + 1 then { x with log := cond, logRun := 0 } else { x with logRun := x.logRun + 1 }

/-- What an error-free frame tells of the peer (R332), and the answer to its KEY_ACK (R320). -/
def State.takePeer (s : State) (g : Nat) (f : LaneFrame) : State :=
  if !f.errorFree then s
  else
    let v (p w : Nat) : Nat := rxField f.fields p w
    let st : Reg := .DRL_GRP_STATUS g
    let s1 := (((s.setFld st Fld.DRL_GRP_STATUS_GT_MAP (v 144 8)).setFld st Fld.DRL_GRP_STATUS_VER_MAJ (v 96 8)).setFld st
      Fld.DRL_GRP_STATUS_VER_MIN (v 104 8)).setFld st Fld.DRL_GRP_STATUS_QL (v 112 4)
    let pr : Reg := .DRL_GRP_PEER g
    let s2 := (((s1.setFld pr Fld.DRL_GRP_PEER_VALID 1).setFld pr Fld.DRL_GRP_PEER_LINK (v 216 5)).setFld pr
      Fld.DRL_GRP_PEER_LONE (v 221 1)).setFld pr Fld.DRL_GRP_PEER_ADDR (v 222 6)
    let s3 := s2.wr (.DRL_GRP_PEER_UID g) (BitVec.ofNat 64 (v 152 64))
    if v 118 1 = 1 then s3.setFld st Fld.DRL_GRP_STATUS_KEY_ON 1
    else if s3.fld st Fld.DRL_GRP_STATUS_KEY_ON = 1 then
      let k := s3.drawKey
      (k.2.setGrp g { k.2.grp g with key := k.1 }).setFld st Fld.DRL_GRP_STATUS_KEY_ON 0
    else s3

/-- The bytes of a position from the blocks of the lanes in order (R324). -/
def positionBytes (fs : List LaneFrame) (b : Nat) : List Byte := fs.flatMap fun f => leBytes 32 (f.blocks.getD b 0)

/-- Positions handed to the fabric: those with the AIS marker are discarded and counted, empty ones ignored (R324, R336, R342). -/
def State.deliver (s : State) (g : Nat) (fs : List LaneFrame) (ais : Bool) : State :=
  let n := blocksOf (s.grpRate g)
  if !s.inService g then s
  else (List.range n).foldl (fun t b =>
    if ais || fs.any (fun f => decide (f.valid ≤ b) || rxField f.fields 117 1 == 1) then t.fabCount cntAisDrop
    else
      let bytes := positionBytes fs b
      if bytes.all fun x => x == 0 then t else { t with fab := { t.fab with inbox := t.fab.inbox ++ [(g, bytes)] } }) s

/-- Credits that a received frame returns (R341). -/
def State.takeCredits (s : State) (g : Nat) (f : LaneFrame) : State :=
  if f.errorFree ∧ s.inService g then s.bump (.FAB_GRP g) Fld.FAB_GRP_CREDITS (rxField f.fields 259 16) else s

/-- A frame of a group whose lanes have all delivered theirs. -/
def State.groupFrame (s : State) (g : Nat) : State :=
  let ls := s.lanesOfGroup g
  let fs := ls.filterMap fun l => (s.grp g).held.find? fun f => f.lane == l
  let inSync := fs.all fun f => f.sync
  let x := logNext (s.grp g) inSync (inSync && logCondition ls fs)
  let was := (s.grp g).log
  let s1 := s.setGrp g { x with held := [], wasSync := inSync }
  let s2 := if x.log && !was then ls.foldl (fun t l => t.setLaneRx l { t.laneRx l with key := none, lastKey := none }) s1 else s1
  let s3 := fs.foldl (fun t f => t.takePeer g f) s2
  let s4 := fs.foldl (fun t f => t.setFld (.DRL_LANE_STATUS f.lane) Fld.DRL_LANE_STATUS_SKEW (min 8192 f.skew)) s3
  let s5 := (s4.refreshKey g).refreshGroup g
  let d := s5.fld (.DRL_GRP_STATUS g) Fld.DRL_GRP_STATUS_DEFECT
  let s6 := if fs.any fun f => f.errored || x.log then s5.pmCount (64 + g) pmEf else s5
  let s7 := if d = 0 then s6 else s6.setPm (64 + g) { s6.pm (64 + g) with defect := true }
  let s8 := match fs with
    | f :: _ =>
      let t := s7.takeCredits g f
      if f.errorFree ∧ rxField f.fields 144 8 ≠ t.fabricProfile ∧ t.inService g then t.fabCount cntMapMismatch else t
    | [] => s7
  s8.deliver g fs (decide (3 ≤ d))

/-- The seconds that have ended counted before anything of a later one (R329, R330): see `endSecond`. -/
def State.receiveLane (s : State) (l : Nat) (line : List Bool) (skew : Nat) : State :=
  match s.groupOfLane l with
  | none => s
  | some g =>
    if !s.grpOn g ∨ (s.grp g).held.any (fun f => f.lane == l) then s
    else
      let off := ((List.range 64).filter fun i => line.getD i false != (msbBits 64 droveFaw).getD i false).length
      let correct := decide (off ≤ 2)
      let inHunt := s.align l == 0
      let s1 := s.alignLane l correct
      let s2 := if off = 0 ∨ inHunt then s1 else s1.pmLane l (some g) pmFaw
      let s3 := if s2.align l = 2 then
          s2.takeFrame g l (parseFrame (s2.grpRate g) (s2.laneRx l).key line) correct (off == 0) skew
        else s2.takeNothing g l skew
      let errored := ((s3.grp g).held.find? fun f => f.lane == l).elim false fun f => f.errored
      let s4 := if errored then s3.pmCount l pmEf else s3
      let d := s4.laneDefect l
      let s5 := if d = 0 then s4 else s4.setPm l { s4.pm l with defect := true, higher := (s4.pm l).higher || decide (2 ≤ d) }
      if (s5.lanesOfGroup g).all fun x => (s5.grp g).held.any fun f => f.lane == x then s5.groupFrame g
      else (s5.refreshKey g).refreshGroup g

/-! ### Performance monitoring (R329 to R331) -/

/-- A count of a period changed, where the period still stands: `k` is 5 for ES, 6 for SES and 7 for UAS. -/
def State.pmPeriod (s : State) (x k : Nat) (at_ : PmSec) (add : Bool) : State :=
  let f (t : State) (c : Nat) : State := t.wr (.DRL_PM x c) (if add then t.rd (.DRL_PM x c) + 1 else t.rd (.DRL_PM x c) - 1)
  let s1 := if at_.p15 = s.drl.p15 then f s k else if at_.p15 + 1 = s.drl.p15 then f s (k + 3) else s
  if at_.p24 = s.drl.p24 then f s1 (k + 6) else s1

/-- The register of UNAVAIL of a lane or group. -/
def unavailOf (x : Nat) : Reg × BitField :=
  if x < 64 then (.DRL_LANE_STATUS x, Fld.DRL_LANE_STATUS_UNAVAIL) else (.DRL_GRP_STATUS (x - 64), Fld.DRL_GRP_STATUS_UNAVAIL)

/-- A second of a lane or group counted (R330). -/
def State.countSecond (s : State) (x : Nat) : State :=
  let p := s.pm x
  let ef := (s.rd (.DRL_PM x pmEf)).toNat
  let ses := decide (134400 ≤ ef) || p.defect
  let es := decide (0 < ef) || ses
  let now : PmSec := ⟨es, s.drl.p15, s.drl.p24⟩
  let u := unavailOf x
  let s0 := s.wr (.DRL_PM x pmEf) 0
  let put (t : State) (run : List PmSec) : State := t.setPm x { p with defect := false, higher := false, bip := 0, run := run }
  if s.fld u.1 u.2 = 0 then
    if !ses then put (if es then s0.pmPeriod x 5 now true else s0) []
    else if p.run.length < 9 then put ((s0.pmPeriod x 5 now true).pmPeriod x 6 now true) (now :: p.run)
    else
      let s1 := p.run.foldl (fun t r => ((t.pmPeriod x 5 r false).pmPeriod x 6 r false).pmPeriod x 7 r true) s0
      put ((s1.pmPeriod x 7 now true).setFld u.1 u.2 1) []
  else
    if ses then put (s0.pmPeriod x 7 now true) []
    else if p.run.length < 9 then put (s0.pmPeriod x 7 now true) (now :: p.run)
    else
      let s1 := (now :: p.run).foldl (fun t r => if r.es then t.pmPeriod x 5 r true else t) s0
      put ((p.run.foldl (fun t r => t.pmPeriod x 7 r false) s1).setFld u.1 u.2 0) []

/-- DEG of a lane at the end of a second (R325). -/
def State.judgeDeg (s : State) (l : Nat) : State :=
  let p := s.pm l
  let r := s.laneRx l
  if p.higher then s
  else
    let bad := decide (s.fld .DRL_CFG Fld.DRL_CFG_DEG_THR < p.bip)
    let n := max 2 (min 10 (s.fld .DRL_CFG Fld.DRL_CFG_DEG_M))
    if bad = r.deg then s.setLaneRx l { r with degRun := 0 }
    else if n ≤ r.degRun + 1 then s.setLaneRx l { r with deg := bad, degRun := 0 }
    else s.setLaneRx l { r with degRun := r.degRun + 1 }

/-- PM_SECOND_END: the second that has ended counted for every enabled group and its lanes. -/
def State.endSecond (s : State) : State :=
  if !s.drl.secDue then s
  else
    let gs := (List.range 32).filter fun g => s.grpOn g
    let s1 := { s with drl := { s.drl with secDue := false } }
    gs.foldl (fun t g =>
      let t1 := (t.lanesOfGroup g).foldl (fun u l => (u.judgeDeg l).countSecond l) t
      (t1.countSecond (64 + g)).refreshGroup g) s1

/-- PM_PERIOD_END: the periods that have ended (R331). -/
def State.endPeriod (s : State) : State :=
  let s0 := if s.drl.due15 || s.drl.due24 then s.endSecond else s
  let s1 := if !s0.drl.due15 then s0 else
    let t := (List.range 96).foldl (fun t x => [5, 6, 7].foldl (fun u k =>
      (u.wr (.DRL_PM x (k + 3)) (u.rd (.DRL_PM x k))).wr (.DRL_PM x k) 0) t) s0
    { t with drl := { t.drl with due15 := false, p15 := t.drl.p15 + 1 } }
  if !s1.drl.due24 then s1 else
    let t := (List.range 96).foldl (fun t x => [11, 12, 13].foldl (fun u k => u.wr (.DRL_PM x k) 0) t) s1
    { t with drl := { t.drl with due24 := false, p24 := t.drl.p24 + 1 } }

/-- A second of device time has begun at an edge: the one before is due to be counted, and the periods that end with it (R331). -/
def State.secondBegins (s : State) : State :=
  let s0 := s.endPeriod.endSecond
  let n := if s.bit .SYS_READY 4 then s.tm.tod else s.tm.secDT.toNat / unitsPerSecond
  { s0 with drl := { s0.drl with secDue := true, due15 := n % 900 == 0, due24 := n % 86400 == 0 } }

/-- DRL_CTRL.STAT_CLR (R332). -/
def State.clearDrl (s : State) : State :=
  (List.range 96).foldl (fun t x => (List.range 19).foldl (fun u k => u.wr (.DRL_PM x k) 0) t) s

/-! ### The commands -/

/-- DRL_GRP_LANES. -/
def execDrlGrpLanes (g : Fin 32) (v : BitVec 64) (s : State) : Out := running (fun t => t.writeGrpLanes g v) s

/-- DRL_GRP_CFG. -/
def execDrlGrpCfg (g : Fin 32) (v : BitVec 64) (s : State) : Out := running (fun t => t.writeGrpCfg g v) s

/-- DROVE_FRAME_TRANSMIT. -/
def execDroveFrameTransmit (g : Fin 32) (s : State) : Out := running (fun t => t.transmitGroup g) s

/-- DROVE_FRAME_RECEIVE. -/
def execDroveFrameReceive (l : Fin 64) (line : List Bool) (skew : BitVec 16) (s : State) : Out :=
  running (fun t => t.endPeriod.endSecond.receiveLane l line skew.toNat) s

/-- PM_SECOND_END. -/
def execPmSecondEnd (s : State) : Out := running (fun t => t.endSecond) s

/-- PM_PERIOD_END. -/
def execPmPeriodEnd (s : State) : Out := running (fun t => t.endPeriod) s

/-- DRL_STAT_CLR. -/
def execDrlStatClr (s : State) : Out := running (fun t => t.clearDrl) s

end Sys2Proof.Machine
end

