-- ==== Sys2Proof/Machine/DspCore.lean ====
section
/-!
DEFINITION. What happens to the registers of a DSP core as its bundles issue: results in flight (R195 to R197), the shadow set (R212),
entries and returns (R211, R213, R224), loops and repeats (R206 to R208), the memory protection of a control core (R223), and the rules
that a bundle as a whole must keep (R197, R225, R228, R230).
-/
namespace Sys2Proof.Machine

/-! ### Results in flight -/

/-- A result lands in its register. -/
def Core.land (c : Core) (p : Pend) : Core :=
  let put (f : SMap Nat) (i : Nat) : SMap Nat := SMap.set zeroNat f i (merge (SMap.get zeroNat f i) p.val p.mask)
  match p.dst with
  | .s n => { c with s := put c.s n }
  | .p n => { c with p := put c.p n }
  | .k n => { c with k := put c.k n }
  | .q n => if n = 0 then c else { c with q := put c.q n }
  | .v n => { c with v := put c.v n }
  | .va n => { c with vaSeen := put c.vaSeen n }
  | .cr n => c.setCr n (merge (c.getCr n) p.val p.mask)
  | .s2 n => { c with s2 := put c.s2 n }
  | .p2 n => { c with p2 := put c.p2 n }
  | .q2 n => { c with q2 := put c.q2 n }

/-- Every result in flight lands, in the order of issue, at an interrupt, exception or debug halt: a write issued later stands (R196,
R197). -/
def Core.landAll (c : Core) : Core :=
  c.flight.foldl (fun k f => k.land { f.pend with mask := f.pend.mask ^^^ (f.pend.mask &&& f.past) }) { c with flight := [] }

/-- Results in flight as others land that were issued later: the bits that those write are noted. -/
def markOver : List Flying → List Flying
  | [] => []
  | f :: fs =>
    let later := fs.filter fun g => g.pend.left == 0 && g.pend.dst == f.pend.dst
    { f with past := later.foldl (fun m g => m ||| g.pend.mask) f.past } :: markOver fs

/-- One more bundle has issued: results whose latency is over land, and an earlier-issued write that lands later stands (R195, R197). -/
def Core.advance (c : Core) : Core :=
  let fl : List Flying := c.flight.map fun f => { f with pend := { f.pend with left := f.pend.left - 1 } }
  (fl.filter fun f => f.pend.left == 0).foldl (fun k f => k.land f.pend)
    { c with flight := (markOver fl).filter fun f => f.pend.left != 0
             acqs := (c.acqs.map fun a => { a with left := a.left - 1 }).filter fun a => a.left != 0 }

/-! ### Shadow set -/

/-- The first `k` registers of two files exchanged. -/
def swapLow (k : Nat) (a b : SMap Nat) : SMap Nat × SMap Nat :=
  ((List.range k).foldl (fun m i => SMap.set zeroNat m i (SMap.get zeroNat b i)) a,
   (List.range k).foldl (fun m i => SMap.set zeroNat m i (SMap.get zeroNat a i)) b)

/-- The name of a register once the sets are exchanged. -/
def Dst.exchanged : Dst → Dst
  | .s n => if n < 16 then .s2 n else .s n
  | .p n => if n < 8 then .p2 n else .p n
  | .q n => .q2 n
  | .s2 n => .s n
  | .p2 n => .p n
  | .q2 n => .q n
  | d => d

/-- S0–S15, P0–P7 and Q1–Q7 exchanged with the other set (R212); a result in flight keeps its register. -/
def Core.swapSet (c : Core) : Core :=
  let s := swapLow 16 c.s c.s2
  let p := swapLow 8 c.p c.p2
  let q := swapLow 8 c.q c.q2
  { c with s := s.1, s2 := s.2, p := p.1, p2 := p.2, q := q.1, q2 := q.2
           flight := c.flight.map fun f => { f with pend := { f.pend with dst := f.pend.dst.exchanged } } }

/-! ### Entries and returns -/

/-- Entry to FW or KN (R211, R212): results in flight land, the state is saved, and the core continues at an entry of its image. -/
def Core.enter (c : Core) (fw : Bool) (epc cause addr entry : Nat) : Core :=
  let c1 := c.landAll
  let st := c1.status
  let b := if fw then 0x20 else 0x10
  let c2 := (((c1.setCr b epc).setCr (b + 1) st).setCr (b + 2) cause).setCr (b + 3) addr
  let st1 := setBitsOf (setBitsOf (setBitsOf st 0 3 (if fw then 0 else 1)) 8 2 0) (if fw then 5 else 4) 1 1
  let c3 := if c1.sh then c2 else c2.swapSet
  { c3.setCr 0 (setBitsOf st1 3 1 1) with pc := entry, bundle := [], resume := false, loopDue := false, acqs := [] }

/-- RFE (R213, R214): STATUS and the register set are restored, and the core continues at EPC, all as RFE's own bundle reads them (`old`,
R195); results in flight stay in flight (R196). VXIDX.VALID is taken by the bundle that issues again at TK. -/
def Core.leave (c old : Core) : Core :=
  let b := if old.pl = 0 then 0x20 else 0x10
  let st : Nat := old.getCr (b + 1) % 2 ^ 10
  let c2 := if st.testBit 3 == c.sh then c else c.swapSet
  let c3 : Core := { c2.setCr 0 st with pc := old.getCr b / 4 * 4, acqs := [] }
  if st % 4 = 2 ∧ (old.getCr 0x14).testBit 15 then { c3.setCr 0x14 (setBitsOf (c3.getCr 0x14) 15 1 0) with resume := true } else c3

/-! ### Loops and repeats -/

/-- What the core does when the bundle at LEA has completed (R206); a control core rotates the S file only (R221). -/
def Core.loopEnd (c : Core) (control : Bool) : Core :=
  if !c.loopDue then c else
    let lc := (c.getCr 4 + 2 ^ 64 - 1) % 2 ^ 64
    let r := c.getCr 7
    let r1 := if r.testBit 0 then setBitsOf r 8 4 (bitsOf r 8 4 + 1) else r
    let r2 := if r.testBit 1 && !control then setBitsOf r1 12 4 (bitsOf r1 12 4 + 1) else r1
    let c1 := { (c.setCr 4 lc).setCr 7 r2 with loopDue := false }
    if lc ≠ 0 then { c1 with pc := c.getCr 5 / 4 * 4 } else c1.setStatus 8 1 0

/-- A taken branch: one that leaves the loop ends it (R206). It loses 3 bundle slots (R195). -/
def Core.jump (c : Core) (t : Nat) : Core :=
  let c1 := { c with pc := t, acqs := (c.acqs.map fun a => { a with left := a.left - 3 }).filter fun a => a.left != 0 }
  if c.la && !(decide (c.getCr 5 ≤ t) && decide (t ≤ c.getCr 6)) then (c1.setStatus 8 1 0).setCr 4 0 else c1

/-- LOOP with a count other than 0 (R206); `start` is the bundle after it. -/
def Core.startLoop (c : Core) (count start last : Nat) : Core :=
  let r := setBitsOf (c.getCr 7) 8 8 0
  ((((c.setCr 4 count).setCr 5 start).setCr 6 last).setCr 7 r).setStatus 8 1 1

/-- REP with a count other than 0 (R208). -/
def Core.startRep (c : Core) (count : Nat) : Core := (c.setCr 8 count).setStatus 9 1 1

/-- One issue of a repeated bundle at `pc` (R208): the last one leaves it. -/
def Core.repeated (c : Core) (pc nextPc : Nat) : Core :=
  let n := c.getCr 8 - 1
  let c1 := c.setCr 8 n
  if n = 0 then { c1.setStatus 9 1 0 with pc := nextPc } else { c1 with pc := pc }

/-! ### Bundles -/

/-- Whether a bundle has all its syllables: one with STOP, or four. -/
def bundleFull (l : List Instr) : Bool :=
  decide (4 ≤ l.length) || l.any fun i => match sylOf i with
    | some y => y.stop
    | none => false

/-- The extension that the syllable at `k` takes (R228). -/
def extAt (l : List Instr) (k : Nat) : Option (BitVec 28) :=
  match l[k]?, l[k + 1]? with
  | some i, some (.ext _ _ hi) => if takesExt i then some hi else none
  | _, _ => none

/-- Number of syllables of a bundle up to the one at `k` whose class is listed. -/
def countClass (l : List Instr) (k : Nat) (cs : List OpClass) : Nat :=
  ((l.take (k + 1)).filter fun i => match opClass i with
    | some c => cs.contains c
    | none => false).length

/-- Number of syllables up to the one at `k` that meet `p`. -/
def countOps (l : List Instr) (k : Nat) (p : Instr → Bool) : Nat := ((l.take (k + 1)).filter p).length

/-- Whether a syllable is a memory operation, performed or guarded off (R225). -/
def isMemory (i : Instr) : Bool :=
  match opClass i with
  | some .load | some .store | some .acs => true
  | _ => false

/-- Whether a syllable's word has a reserved OPC (R230). -/
def isReserved (i : Instr) : Bool :=
  match sylOf i with
  | some y => y.rsv.isSome
  | none => false

/-- Whether a syllable is an ACQ. -/
def isAcq : Instr → Bool
  | .acq _ => true
  | _ => false

/-- Whether the syllable at `k` breaks a rule of the bundle's form (R206, R208, R221, R225, R228, R230). -/
def Core.breaksForm (c : Core) (control : Bool) (l : List Instr) (k : Nat) : Bool :=
  match l[k]? with
  | none => false
  | some i =>
    let above (cs : List OpClass) (n : Nat) : Bool :=
      (match opClass i with
        | some x => cs.contains x
        | none => false) && decide (n < countClass l k cs)
    let badExt := opClass i == some .ext && (match k with
      | 0 => true
      | j + 1 => match l[j]? with
        | some p => !takesExt p
        | none => true)
    let noStop := k == 3 && (match sylOf i with
      | some y => !y.stop
      | none => true)
    isReserved i || badExt || noStop || above [.scalar] 2 || above [.vector, .acs] 1 || above [.load, .store, .acs] 2 || above [.store, .acs] 1
      || (isTransfer i && decide (1 < countOps l k isTransfer)) || (isAcq i && decide (1 < countOps l k isAcq))
      || (control && !controlHas i) || (c.ra && notRepeated i) || (c.la && decide (c.pc = c.getCr 6) && isBranch i)

/-- The registers that an operation writes (R197). -/
def Eff.targets (e : Eff) : List Dst :=
  e.writes.map (·.dst)
    ++ (match e.mem with
      | some m => (if m.store then [] else [m.dst]) ++ (match m.post with
        | some p => [.p p.1]
        | Option.none => [])
      | Option.none => [])
    ++ (match e.ctl with
      | .loop n _ => if n = 0 then [] else [.cr 4, .cr 5, .cr 6, .cr 7]
      | .rep n => if n = 0 then [] else [.cr 8]
      | .rfe => [.cr 0]
      | _ => [])

/-- Whether an operation of a bundle writes a register that an earlier operation of it writes (R197). -/
def clashes (before : List Eff) (e : Eff) : Bool :=
  let seen := before.flatMap Eff.targets
  e.targets.any fun d => seen.contains d

/-! ### Memory protection of a control core (R223) -/

/-- Whether an access is allowed; `kind` is 0 for a load, 1 for a store, 2 for a fetch. -/
def Core.mpuAllows (c : Core) (kind a len : Nat) : Bool :=
  let ctl := c.getCr 0x48
  let fw := c.pl == 0
  !ctl.testBit 0 || (fw && !ctl.testBit 1) || (List.range 16).any fun r =>
    let base := c.getCr (0x50 + 2 * r)
    let attr := c.getCr (0x51 + 2 * r)
    attr.testBit 63 && attr.testBit (kind + if fw then 3 else 0) && decide (4096 * bitsOf base 12 36 ≤ a)
      && decide (a + len ≤ 4096 * bitsOf attr 12 36)

/-- The checks of a memory operation of a control core: alignment, then the memory protection unit. -/
def Core.checkControl (c : Core) (m : MemOp) : MemCheck :=
  if m.addr % m.size ≠ 0 then .exc 2 m.addr 0
  else if m.elems ≠ [] ∧ !c.mpuAllows (if m.store then 1 else 0) m.addr m.size then .viol m.addr else .ok

/-! ### What an issuing bundle finds -/

/-- What stops an operation of a bundle. -/
inductive SlotStop where
  | none
  /-- An exception: code, address, and for WINDOW_FAULT the first faulting element. -/
  | exc (code addr elem : Nat)
  /-- ACCESS_VIOLATION. -/
  | viol (addr : Nat)
  deriving DecidableEq, Repr

/-- What a syllable of a bundle comes to. -/
structure Slot where
  eff : Eff
  stop : SlotStop
  deriving DecidableEq, Repr

/-- The memory operation of a bundle that issues again after WINDOW_FAULT (R214): `first` when it is the first one. -/
def Core.resumed (c : Core) (first : Bool) (m : MemOp) : MemOp :=
  if !c.resume then m else
    let x := c.getCr 0x14
    if first && x.testBit 9 then { m with elems := [] }
    else if x.testBit 8 == first then m else { m with elems := m.elems.filter fun i => decide (bitsOf x 0 6 ≤ i) }

/-- The outcome of the syllable at `k`, the effects of those before it being `before`. -/
def OpCtx.slot (x : OpCtx) (l : List Instr) (before : List Slot) (k : Nat) (i : Instr) : Slot :=
  let e0 := opEff { x with ext := extAt l k } i
  let first := !(l.take k).any isMemory
  let e := { e0 with mem := e0.mem.map (x.c.resumed first) }
  if x.c.breaksForm x.control l k then ⟨Eff.none, .exc 3 0 0⟩
  else if e.exc ≠ 0 then ⟨Eff.none, .exc e.exc e.addr 0⟩
  else if clashes (before.map (·.eff)) e then ⟨Eff.none, .exc 3 0 0⟩
  else
    let found : SlotStop := match e.mem with
      | some m => match (if x.control then x.c.checkControl m else x.checkMem m) with
        | .ok => .none
        | .exc a b n => .exc a b n
        | .viol a => .viol a
      | none => SlotStop.none
    match found with
    | .none => match e.ctl with
      | .trap n => ⟨e, .exc 6 n 0⟩
      | .cache _ a => if x.c.mpuAllows 1 (a / 64 * 64) 64 then ⟨e, .none⟩ else ⟨e, .viol a⟩
      | _ => ⟨e, .none⟩
    | f => ⟨e, f⟩

/-- The outcomes of the syllables of a bundle, in order. -/
def OpCtx.slots (x : OpCtx) (l : List Instr) : List Slot :=
  l.zipIdx.foldl (fun acc p => acc ++ [x.slot l acc p.2 p.1]) []

/-- The lowest syllable that something stops (R209). -/
def firstStop (sl : List Slot) : Option (Nat × SlotStop) :=
  (sl.zipIdx.find? fun p => p.1.stop != .none).map fun p => (p.2, p.1.stop)

/-- The ACQ of a bundle: its syllable, address, unit and tag. -/
def acqOf (sl : List Slot) : Option (Nat × Nat × Nat × Nat) :=
  sl.zipIdx.findSome? fun p => match p.1.eff.ctl with
    | .acq a u t => some (p.2, a, u, t)
    | _ => none

/-- Whether ACWAIT holds the bundle (R245). -/
def Core.waits (c : Core) (sl : List Slot) : Bool :=
  sl.any fun p => match p.eff.ctl with
    | .acwait t => SMap.get zeroNat c.tags t == 1
    | _ => false

/-- Whether a bundle stores anything. -/
def storesIn (sl : List Slot) : Bool :=
  sl.any fun p => match p.eff.mem with
    | some m => m.store && m.elems != []
    | none => false

/-- Whether a bundle has an ACWAIT, which has held it until every earlier ACQ was committed (R245). -/
def hasWait (sl : List Slot) : Bool :=
  sl.any fun p => match p.eff.ctl with
    | .acwait _ => true
    | _ => false

end Sys2Proof.Machine
end

