-- ==== Sys2Proof/Machine/Tick.lean ====
section
/-!
DEFINITION. The tick: the fetch of the next template (R57), the guard (R15, R273), releases at their edge (R58 to R60), and what
follows from the active almanac at a tick edge.
-/
namespace Sys2Proof.Machine

/-! ### TEMPLATE_FETCH -/

/-- Where the template of the next tick comes from: the set, its image, and the calendar index; `none` while no almanac runs. -/
structure Fetch where
  set_ : Nat
  img : List Byte
  idx : Nat
  /-- First position of the tick. -/
  pos : Nat
  /-- The tick is S of an armed swap. -/
  atSwap : Bool
  deriving DecidableEq, Repr

/-- The position of the next tick after a step that takes effect at its edge (R57). -/
def State.steppedPos (s : State) : Nat :=
  match s.tm.step with
  | some t => posAdd s.nextPos t.k
  | none => s.nextPos

/-- The template to fetch for the next tick; without the shadow set when `noSwap`. -/
def State.fetchPlan (s : State) (noSwap : Bool) : Option Fetch :=
  let pos := s.steppedPos
  let swap := match s.alm.swap with
    | some w => pos == posOf w.frame 0 && !noSwap
    | none => false
  if swap then some ⟨1 - s.activeSet, s.shadow, indexOf (imgK s.shadow) pos, pos, true⟩
  else if s.almRuns || s.startsAt pos || s.dbg.restart == some pos then some ⟨s.activeSet, s.active, indexOf s.activeK pos, pos, false⟩
  else none

/-- The words of almanac memory that a fetch reads: calendar entry, template offset, and the template (R26, R28). -/
def Fetch.words (f : Fetch) : List Nat :=
  let t := calendarAt f.img f.idx
  let lo := templateOff f.img t
  let hi := lo + 16 + 16 * templateCount f.img t
  [(secOff f.img 0 + 2 * f.idx) / 8, (secOff f.img 1 + 4 * t) / 8] ++ (List.range (ceilDiv hi 8 - lo / 8)).map fun i => lo / 8 + i

/-- The first word of a fetch that is uncorrectable. -/
def State.fetchError (s : State) (f : Fetch) : Option Nat :=
  f.words.find? fun w => match checkWord (s.flips (53 + f.set_) w) with
    | .uncorrectable _ => true
    | _ => false

/-- The checks of the words that a fetch reads. -/
def State.checkFetch (s : State) (f : Fetch) : State :=
  f.words.foldl (fun t w => match checkWord (t.flips (53 + f.set_) w) with
    | .clean _ => t
    | .corrected _ syn => t.noteCorrected (53 + f.set_) w syn
    | .uncorrectable syn => t.noteUncorrectable (53 + f.set_) w syn) s

/-- The request that a release fills from, if one is held that was accepted before core cycle 11,000 of the tick (R57). DESIGN CHOICE (log 9):
the engine's class says which of the slot's two requests it is; FOLD and MOV take the uplink request first. -/
def State.fillOf (s : State) (f : Fetch) (w : Nat) : Option Nat :=
  if !relFill w then none else
    let cfg := if f.atSwap then s.cellCfgSh (relCell w) else s.cellCfg (relCell w)
    let len := cfgSlotLen cfg
    let start := slotNamed len f.pos (relSlotOfs w)
    let held := s.drv.store.filter fun q => q.cell == relCell w && q.start == start && q.replay == relReplay w
      && decide (q.taken < 14000 * s.absTick + 11000)
    let used := held.filter fun q => match q.entries[relFillIndex w]? with
      | some e => entKind e != 0
      | none => false
    let pick (l : List Request) : Option Request := match l.find? (fun (q : Request) => q.dir == 1) with
      | some q => some q
      | none => l.head?
    (match fillDir (relClass f.img w) with
      | some d => used.find? fun (q : Request) => q.dir == d
      | none => pick used).map fun (q : Request) => q.id

/-- A fetched release. -/
def State.fetched (s : State) (f : Fetch) (r : Nat × Nat) : Release :=
  let e := mapEntry f.img (relLogical r.2)
  { idx := r.1, word := r.2, calIdx := f.idx, req := s.fillOf f r.2, staged := 0, status := .filled, eng := ⟨e.1, e.2, relCore r.2⟩
    arrival := 0, ran := false }

/-- The fetch of a template. -/
def State.loadTemplate (s : State) (f : Fetch) : State :=
  let s1 := s.checkFetch f
  let rels := (templateReleases f.img (calendarAt f.img f.idx)).map (s1.fetched f)
  { s1 with drv := { s1.drv with next := rels, nextIdx := some f.idx } }

/-- The fetch at core cycle 11,000 for the next tick. An uncorrectable error in the shadow set there cancels the swap (R47). -/
def State.fetchNext (s : State) : State :=
  match s.fetchPlan false with
  | none => { s with drv := { s.drv with next := [], nextIdx := none } }
  | some f =>
    if f.atSwap && (s.fetchError f).isSome then
      let s1 := ((s.checkFetch f).shadowState 3).cancelSwap 0x24
      match s1.fetchPlan true with
      | some g => s1.loadTemplate g
      | none => { s1 with drv := { s1.drv with next := [], nextIdx := none } }
    else
      let s1 := s.loadTemplate f
      if f.atSwap then s1.setFld .ALM_SWAP_STATUS Fld.ALM_SWAP_STATUS_COMMITTED 1 else s1

/-- TEMPLATE_FETCH. -/
def State.fetchAt (s : State) : State :=
  if s.drv.nextIdx.isSome || decide (s.tm.cycle > 11000) then s else (s.fetchNext).passTo 11000

/-- COMMIT_POINT: the swap of the next tick can no longer be cancelled (R49). -/
def State.commitAt (s : State) : State :=
  match s.alm.swap with
  | some w =>
    if s.nextPos = posOf w.frame 0 ∧ s.tm.cycle ≤ 11000 then
      (s.passTo 11000).setFld .ALM_SWAP_STATUS Fld.ALM_SWAP_STATUS_COMMITTED 1
    else s
  | none => s

/-! ### GUARD_TIME_START -/

/-- Core cycle 13,300: guaranteed flits still in the network go on as best effort (R15, R273). -/
def State.guardAt (s : State) : State := (s.passTo 13300).demote 13300

/-! ### Releases at their edge -/

/-- Whether a release is suppressed at its tick (R58), as are the releases in later ticks of a request that a discard has touched (R446). -/
def State.suppressed (s : State) (r : Release) : Bool :=
  let cell := relCell r.word
  let since := SMap.get zeroNat s.drv.cellSince cell
  let req := r.req.bind s.request
  let early := match req with
    | some q => decide (posDiff q.start since < 0)
    | none => false
  let lost := match req with
    | some q => q.discarded.isSome
    | none => false
  !cfgServed (s.cellCfg cell) || (relFill r.word && (req.isNone || lost))
    || ((s.cellState cell == 2 || s.cellState cell == 3) && !early)

/-- A release brought into force at its tick: the physical unit bound at the edge, and its fate (R58 to R60). -/
def State.release (s : State) (r : Release) : Release :=
  let unit := s.bound (relLogical r.word)
  let eng := match unit with
    | some u => (⟨u.1, u.2, if u.1 = 0 then relCore r.word else 0⟩ : Eng)
    | none => r.eng
  let st := if s.suppressed r then RelStatus.suppressed
    else if relDepEn r.word then .held else .queued
  let staged := match r.req with
    | some id => if relFill r.word then (Config.entryAddr id (relFillIndex r.word)).toNat else 0
    | none => 0
  { r with eng := eng, status := st, staged := staged, arrival := r.idx / 8 }

/-- Releases whose logical engine has no unit are discarded and counted (R59, R451). -/
def State.discardUnbound (s : State) : State :=
  let gone (r : Release) : Bool := (s.bound (relLogical r.word)).isNone
  let n := (s.drv.rels.filter fun r => r.live && gone r).length
  if n = 0 then s else ((s.discard gone false).1).bump .FLT_STATS Fld.FLT_STATS_UNBOUND_DISCARD n

/-- The releases of an uncorrectable template are discarded (R47). -/
def State.discardTemplate (s : State) (idx : Nat) : State :=
  let f : Fetch := ⟨s.activeSet, s.active, idx, s.pos, false⟩
  match s.fetchError f with
  | none => s
  | some w =>
    let d := s.discard (fun _ => true) false
    d.1.record { code := 0x10, cls := 8, phys := 53 + s.activeSet, addr := wordAddr (53 + s.activeSet) w, detail := 53 + s.activeSet
                 requests := d.2.1, releases := d.2.2 }

/-- The releases fetched for this tick enter their queues (R57 to R60). -/
def State.releaseTick (s : State) : State :=
  let rels := s.drv.next.map s.release
  let empty := (rels.filter fun r => r.status == .suppressed && relFill r.word).length
  let idx := s.drv.nextIdx
  let s1 := { s with drv := { s.drv with rels := rels, next := [], nextIdx := none, accepts := 64 } }
  let s2 := if empty = 0 then s1 else s1.bump .DRV_STATS_B Fld.DRV_STATS_B_EMPTY_FILL empty
  let s3 := match idx with
    | some i => s2.discardTemplate i
    | none => s2
  s3.discardUnbound.settle

/-- RELEASE_COMPLETE on a fixed-function engine or a Fold core: the release in service, once its operation has had its effect. -/
def State.completeOn (s : State) (e : Eng) : State :=
  match s.drv.rels.find? fun r => r.status == .inService && r.eng == e && r.ran with
  | some r => s.finish r
  | none => s

/-! ### Commands -/

/-- GUARD_TIME_START. -/
def execGuardTimeStart (s : State) : Out := running (State.guardAt) s
/-- TEMPLATE_FETCH. -/
def execTemplateFetch (s : State) : Out := running (State.fetchAt) s
/-- COMMIT_POINT. -/
def execCommitPoint (s : State) : Out := running (State.commitAt) s
/-- RELEASE_COMPLETE. -/
def execReleaseComplete (e : EngRef) (s : State) : Out := running (fun t => t.completeOn ⟨e.cls, e.phys, e.core⟩) s

end Sys2Proof.Machine
end

