-- ==== Sys2Proof/Machine/Upkeep.lean ====
section
/-!
DEFINITION. Upkeep of memories, network and units: the scrubber (R297 to R299), self-test and initialisation (R295, R296), isolation
and route tables as registers reach them (R266, R280 to R282, R285), and the return of units to service (R455 to R457).
-/
namespace Sys2Proof.Machine

/-! ### Scrubber -/

/-- Words, or lines of 64 bytes of a DDR channel, that a scrub pass of a group walks (R297, R298). -/
def State.scrubSpan (s : State) (g : Nat) : Nat := if g < 60 then groupWords g else s.ddrSize (g - 60) / 64

/-- Words per tick of a group: MEM_SCRUB_RATE, or 4,096 for a unit that is being restored (R298, R299). -/
def State.scrubRate (s : State) (g : Nat) : Nat :=
  let f (b : BitField) : Nat := s.fld .MEM_SCRUB_RATE b
  if (match unitOfGroup g with | some u => s.unitState u.1 u.2 == 4 | none => false) then 4096
  else if g = 0 then f Fld.MEM_SCRUB_RATE_SHEP else if g ≤ 16 then f Fld.MEM_SCRUB_RATE_FOLD
  else if g ≤ 40 then f Fld.MEM_SCRUB_RATE_PASTURE else if g ≤ 52 then f Fld.MEM_SCRUB_RATE_MCE
  else if g ≤ 54 then f Fld.MEM_SCRUB_RATE_ALM else if g ≤ 58 then f Fld.MEM_SCRUB_RATE_PRACH
  else if g = 59 then 0 else f Fld.MEM_SCRUB_RATE_DDR

/-- Whether the scrubber runs a group: its domain is ON and its memory is initialised (R298). -/
def State.scrubbed (s : State) (g : Nat) : Bool :=
  s.domOpen (domainOfGroup g) && !s.ecc.initDue.contains g && s.bit .SYS_READY 5

/-- A word read, corrected and written back (R297, R288). -/
def State.scrubSram (s : State) (g w : Nat) : State :=
  match checkWord (s.flips g w) with
  | .clean _ => s
  | .corrected wrong syn =>
    let a := wordAddr g w
    let s1 := if g ≤ 52 then
        { s with mem := s.mem.writeLE a 8 (s.mem.readLE a 8 ^^^ wrong) } else s
    (s1.setFlips g w 0).noteCorrected g w syn
  | .uncorrectable syn =>
    ((s.noteUncorrectable g w syn).uncorrectable ⟨g, wordAddr g w, false⟩ none).almanacEcc g

/-- Device address of a line of a DDR channel (R287). -/
def lineAddr (c l : Nat) : Nat :=
  let o := 64 * l
  let hi := o / 256
  let low := (c ^^^ 1024 * hi / 4096) % 4
  ddrBase + 1024 * hi + low * 256 + o % 256

/-- A DDR line read, corrected and written back (R297, R290). -/
def State.scrubDdr (s : State) (c l : Nat) : State :=
  match checkLine (SMap.get zeroNat s.ecc.ddrFlips (lineKey c l)) with
  | some (left, some d) =>
    let s1 := { s with ecc := { s.ecc with ddrFlips := SMap.set zeroNat s.ecc.ddrFlips (lineKey c l) left } }
    (s1.setFld (.MEM_DDR_DEV c) ⟨6 * d, 6⟩ (satAdd 63 (s.fld (.MEM_DDR_DEV c) ⟨6 * d, 6⟩) 1)).eccLast false (60 + c) d (lineAddr c l)
  | some (_, none) => s
  | none => (s.eccLast true (60 + c) 0 (lineAddr c l)).uncorrectable ⟨60 + c, lineAddr c l, false⟩ none

/-- One word or line of a group. -/
def State.scrubOne (s : State) (g w : Nat) : State := if g < 60 then s.scrubSram g w else s.scrubDdr (g - 60) w

/-- The words of a group from `lo` up to `hi` whose arrays hold flipped bits. -/
def State.flawed (s : State) (g lo hi : Nat) : List Nat :=
  let keys := if g < 60 then
      (s.ecc.flips.filter fun p => p.1 / 2 ^ 21 == g).map fun p => p.1 % 2 ^ 21
    else (s.ecc.ddrFlips.filter fun p => p.1 / 2 ^ 28 == g - 60).map fun p => p.1 % 2 ^ 28
  keys.filter fun w => decide (lo ≤ w) && decide (w < hi)

/-- Scrub passes that every group and channel has completed (R310). -/
def State.showPasses (s : State) : State :=
  let all := ((List.range 59) ++ [60, 61, 62, 63]).map fun g => SMap.get zeroNat s.ecc.passes g
  s.setFld .MEM_SCRUB_STAT Fld.MEM_SCRUB_STAT_PASSES (min (2 ^ 32 - 1) ((all.min?).getD 0))

/-- The end of a scrub pass of a group (R291, R310). -/
def State.endPass (s : State) (g : Nat) : State :=
  let older := s.ecc.track.map fun (t : Track) => if t.group = g then { t with age := t.age + 1 } else t
  { s with ecc := { s.ecc with
    passes := SMap.set zeroNat s.ecc.passes g (SMap.get zeroNat s.ecc.passes g + 1)
    track := older.filter fun t => !(t.group == g && decide (2 ≤ t.age)) } }.showPasses

/-- The next `n` words of a group scrubbed; words without flipped bits have nothing to correct. -/
def State.scrubWords (s : State) (g n : Nat) : State :=
  let span := s.scrubSpan g
  let lo := SMap.get zeroNat s.ecc.pos g
  let hi := min span (lo + n)
  let s1 := (s.flawed g lo hi).foldl (fun t w => t.scrubOne g w) s
  let s2 := { s1 with ecc := { s1.ecc with pos := SMap.set zeroNat s1.ecc.pos g (if hi = span then 0 else hi) } }
  let s3 := if hi = span then s2.endPass g else s2
  if lo + n ≤ span then s3 else
    let rest := min span (lo + n - span)
    let s4 := (s3.flawed g 0 rest).foldl (fun t w => t.scrubOne g w) s3
    { s4 with ecc := { s4.ecc with pos := SMap.set zeroNat s4.ecc.pos g rest } }

/-- SCRUB_WORD: the next word of a group, within its rate for the tick. -/
def State.scrubNext (s : State) (g : Nat) : State :=
  let done := SMap.get zeroNat s.ecc.done g
  if !s.scrubbed g || decide (s.scrubRate g ≤ done) then s else
    { s with ecc := { s.ecc with done := SMap.set zeroNat s.ecc.done g (done + 1) } }.scrubWords g 1

/-- The words that the scrubber still owes when a tick ends (R298). -/
def State.scrubTick (s : State) : State :=
  let s1 := (List.range 64).foldl (fun t g =>
    let owed := t.scrubRate g - SMap.get zeroNat t.ecc.done g
    if owed = 0 || !t.scrubbed g then t else t.scrubWords g owed) s
  { s1 with ecc := { s1.ecc with done := [] } }

/-- MEM_CTRL.STAT_CLR (R310). -/
def State.clearMem (s : State) : State :=
  let s1 := (List.range 60).foldl (fun t g =>
    ((t.setFld (.MEM_GRP g) Fld.MEM_GRP_CORR 0).setFld (.MEM_GRP g) Fld.MEM_GRP_UNCORR 0).setFld (.MEM_GRP g)
      Fld.MEM_GRP_PARTIAL_DROP 0) s
  let s2 := (List.range 4).foldl (fun t c => t.wr (.MEM_DDR_DEV c) 0) s1
  { s2 with ecc := { s2.ecc with passes := [] } }.wr .MEM_SCRUB_STAT 0

/-! ### Self-test and initialisation -/

/-- A checker fails its self-test (R295): the unit that owns the memory is dead. -/
def State.selftestFail (s : State) (g : Nat) : State :=
  let s1 := if g < 60 then s.setFld (.MEM_GRP g) Fld.MEM_GRP_FAILED 1 else s
  match unitOfGroup g with
  | some u => s1.markDead u.1 u.2 0x21 0 0 u.1 u.2 false
  | none => s1.record { code := 0x21, cls := if g < 60 then 8 else 9, phys := if g < 60 then g else g - 60 }

/-- MEMORY_INIT_COMPLETE: the memory holds zeros and its ready bit sets, or its checker has failed (R295, R296). A DDR channel whose
contents survived the reset is not written. -/
def State.initDone (s : State) (g : Nat) (ok : Bool) : State :=
  if !s.ecc.initDue.contains g then s else
    let s1 := { s with ecc := { s.ecc with initDue := s.ecc.initDue.filter fun x => x != g } }
    if !ok then s1.selftestFail g
    else if g < 59 then ((s1.zeroGroup g).setFld (.MEM_GRP g) Fld.MEM_GRP_FAILED 0).raiseReady (domainOfGroup g)
    else if g = 59 then [20, 21, 22, 23, 24].foldl (fun t d => t.raiseReady d) s1
    else
      let kept := s.fld (.MEM_DDR_CFG (g - 60)) Fld.MEM_DDR_CFG_INIT_DONE = 1
      ((if kept then s1 else s1.zeroGroup g).setFld (.MEM_DDR_CFG (g - 60)) Fld.MEM_DDR_CFG_INIT_DONE 1).raiseReady
        (domainOfGroup g)

/-! ### The network's registers -/

/-- A write of NOC_ISOLATE[i] (R280): each 1 isolates an NI, whose router then absorbs what is addressed to it. -/
def State.writeIsolate (s : State) (i : Nat) (v : Word) : State :=
  let nis := ((List.range 64).map (64 * i + ·)).filter fun n => decide (n < 79) && v.toNat.testBit (n % 64)
  nis.foldl (fun t n => t.setIsolated n true) s

/-- A write of NOC_RELEASE[i] (R282): each 1 ends an isolation unless the unit is still dead or frozen or its domain failed. -/
def State.writeRelease (s : State) (i : Nat) (v : Word) : State :=
  let nis := ((List.range 64).map (64 * i + ·)).filter fun n => decide (n < 79) && v.toNat.testBit (n % 64)
  nis.foldl (fun t n => if t.niDead n then t else t.setIsolated n false) s

/-- Bits of NOC_RT_DATA that a write reaches before the boot lock (R285). -/
def rtMask : Word := 0x80FF0007FFFFFFFF

/-- A write of NOC_RT_DATA (R266, R285, R421). -/
def State.writeRtData (s : State) (v : Word) : State :=
  (if s.locked || decide (79 ≤ s.rtAddr.1) then s else s.setRtEntry s.rtAddr.1 s.rtAddr.2 (v &&& rtMask)).rtAdvance

/-- NOC_CTRL.STAT_CLR (R285). -/
def State.clearNoc (s : State) : State :=
  (List.range 240).foldl (fun t l => t.wr (.NOC_LINK l) 0) ((List.range 6).foldl (fun t k => t.wr (.NOC_CNT k) 0) s)

/-! ### Return to service -/

/-- Flag BUSY of FLT_UNIT_STATUS. -/
def State.unitBusy (s : State) (b : Bool) : State := s.setFld .FLT_UNIT_STATUS Fld.FLT_UNIT_STATUS_BUSY (if b then 1 else 0)

/-- Memory group of a unit, if it has one of its own. -/
def groupOfUnit (u : Nat × Nat) : Option Nat := (List.range 59).find? fun g => unitOfGroup g == some u

/-- Clock and state of a unit reset (R456 step 1). -/
def State.resetUnit (s : State) (cls phys : Nat) : State :=
  let s1 := s.setFrozenFlag cls phys false
  match cls with
  | 1 => s1.clearLines phys
  | 0 => (List.range 8).foldl (fun t c => t.setCore (coreNo phys c) Core.reset)
      { s1 with dsp := { s1.dsp with cmds := s1.dsp.cmds.filter fun c => c.fold != phys } }
  | 4 => { s1 with pra := { s1.pra with banks := s1.pra.banks.filter fun b => b.eng != phys } }
  | 5 => s1.movReset phys
  | _ => s1

/-- OP RESET of FLT_UNIT_CTRL (R443, R456, R457). -/
def State.opReset (s : State) (cls phys : Nat) : State :=
  if cls = 6 then
    if s.flt.shepFrozen.contains phys then
      ({ s with flt := { s.flt with shepFrozen := s.flt.shepFrozen.filter fun c => c != phys } }.restartControl phys).unitResult 0
    else s.unitResult 2
  else if !unitOk cls phys then s.unitResult 2
  else
    let st := s.unitState cls phys
    if st = 6 then s.unitResult 3
    else if st = 4 then s.unitResult 1
    else if st = 1 ∨ st = 2 then ((s.resetUnit cls phys).setUnitState cls phys 3).unitResult 0
    else s.unitResult 2

/-- OP RESTORE (R456): self-test, initialisation and scrub begin. -/
def State.opRestore (s : State) (cls phys : Nat) : State :=
  let st := s.unitState cls phys
  if !unitOk cls phys then s.unitResult 2
  else if st = 6 then s.unitResult 3
  else if st = 4 then s.unitResult 1
  else if st ≠ 3 then s.unitResult 2
  else if s.domFailed (domainOfUnit cls phys) then s.unitResult 6
  else
    let s1 := ((s.setUnitState cls phys 4).unitResult 0).unitBusy true
    let s2 := match groupOfUnit (cls, phys) with
      | some g => { s1.zeroGroup g with ecc := { (s1.zeroGroup g).ecc with pos := SMap.set zeroNat (s1.zeroGroup g).ecc.pos g 0 } }
      | none => s1
    if cls = 1 then s2.clearLines phys else s2

/-- RESTORE_COMPLETE (R456): the unit is RESTORED, or dead again with SELFTEST_FAIL. -/
def State.restoreDone (s : State) (cls phys : Nat) (ok : Bool) : State :=
  if s.unitState cls phys ≠ 4 ∨ !unitOk cls phys then s else
    let s1 := s.unitBusy false
    if ok then
      let s2 := match groupOfUnit (cls, phys) with
        | some g => s1.setFld (.MEM_GRP g) Fld.MEM_GRP_FAILED 0
        | none => s1
      let s3 := if cls = 0 then s2.loadEnable phys else s2
      (s3.setUnitState cls phys 5).refreshDead (niOfUnit cls phys)
    else
      match groupOfUnit (cls, phys) with
      | some g => s1.selftestFail g
      | none => s1.markDead cls phys 0x21 0 0 cls phys false

/-- OP RETURN (R456): the unit joins the fallow list at the next tick edge. -/
def State.opReturn (s : State) (cls phys : Nat) : State :=
  let st := s.unitState cls phys
  if !unitOk cls phys then s.unitResult 2
  else if st = 6 then s.unitResult 3
  else if st = 4 ∨ s.flt.returning.contains (cls, phys) then s.unitResult 1
  else if st ≠ 5 then s.unitResult 2
  else if s.isolated (niOfUnit cls phys) then s.unitResult 4
  else if s.fallow.length ≥ 16 then s.unitResult 5
  else ({ s with flt := { s.flt with returning := s.flt.returning ++ [(cls, phys)] } }.unitResult 0)

/-- A write of FLT_UNIT_CTRL (R456, R458). -/
def State.writeUnitCtrl (s : State) (v : Word) : State :=
  let s1 := s.wrAccess .FLT_UNIT_CTRL v
  let cls := Fld.FLT_UNIT_CTRL_CLASS.get v
  let phys := Fld.FLT_UNIT_CTRL_PHYS.get v
  match Fld.FLT_UNIT_CTRL_OP.get v with
  | 1 => s1.opReset cls phys
  | 2 => s1.opRestore cls phys
  | 3 => s1.opReturn cls phys
  | _ => s1

/-- The word that names an operation and a unit in FLT_UNIT_CTRL (R458). -/
def unitOp (op cls phys : Nat) : Word := BitVec.ofNat 64 (2 ^ 13 * op + 2 ^ 8 * phys + cls)

/-- A write of FLT_STATUS (R454, R458): CONSUME records, and OVERFLOW by its access code. -/
def State.writeFltStatus (s : State) (v : Word) : State :=
  let s1 := s.wrAccess .FLT_STATUS v
  s1.setFld .FLT_STATUS Fld.FLT_STATUS_COUNT
    (s.fld .FLT_STATUS Fld.FLT_STATUS_COUNT - Fld.FLT_STATUS_CONSUME.get v)

/-! ### Commands -/

/-- NOC_ISOLATE. -/
def execNocIsolate (n : Fin 2) (v : BitVec 64) (s : State) : Out := running (·.writeIsolate n v) s
/-- NOC_RELEASE. -/
def execNocRelease (n : Fin 2) (v : BitVec 64) (s : State) : Out := running (·.writeRelease n v) s
/-- NOC_RT_DATA_READ: the word at NOC_RT_ADDR is read, and the address advances. -/
def execNocRtDataRead (s : State) : Out := running (·.rtAdvance) s
/-- NOC_RT_DATA_WRITE. -/
def execNocRtDataWrite (v : BitVec 64) (s : State) : Out := running (·.writeRtData v) s
/-- NOC_STAT_CLR. -/
def execNocStatClr (s : State) : Out := running (·.clearNoc) s
/-- SCRUB_WORD. -/
def execScrubWord (g : Fin 64) (s : State) : Out := running (·.scrubNext g) s
/-- MEMORY_INIT_COMPLETE. -/
def execMemoryInitComplete (g : Fin 64) (ok : Bool) (s : State) : Out := running (·.initDone g ok) s
/-- MEM_STAT_CLR. -/
def execMemStatClr (s : State) : Out := running (·.clearMem) s
/-- A unit's internal checker reports a fault: UNIT_HW_FAULT, or an uncorrectable error in the unit's own memory of group 59, with a
syndrome that the spec leaves open (R294, R442). -/
def State.checkerFault (s : State) (cls phys : Nat) (sram : Bool) : State :=
  if !unitOk cls phys then s
  else if sram then
    let d := s.draw 8
    (d.2.noteUncorrectable 59 0 d.1).markDead cls phys 0x10 0 59 cls phys false
  else s.markDead cls phys 0x20 0 0 cls phys false

/-- UNIT_HW_FAULT. -/
def execUnitHwFault (cls : Fin 6) (phys : Fin 32) (sram : Bool) (s : State) : Out := running (fun t => t.checkerFault cls phys sram) s
/-- FLT_RESET. -/
def execFltReset (cls : Fin 7) (phys : Fin 32) (s : State) : Out := running (·.writeUnitCtrl (unitOp 1 cls phys)) s
/-- FLT_RESTORE. -/
def execFltRestore (cls : Fin 6) (phys : Fin 32) (s : State) : Out := running (·.writeUnitCtrl (unitOp 2 cls phys)) s
/-- RESTORE_COMPLETE. -/
def execRestoreComplete (cls : Fin 6) (phys : Fin 32) (ok : Bool) (s : State) : Out := running (·.restoreDone cls phys ok) s
/-- FLT_RETURN. -/
def execFltReturn (cls : Fin 6) (phys : Fin 32) (s : State) : Out := running (·.writeUnitCtrl (unitOp 3 cls phys)) s
/-- UNIT_RETURNED. -/
def execUnitReturned (s : State) : Out := running (fun t => t.edgeIf (t.flt.returning != []) State.returnUnits) s
/-- UNIT_BARRED. -/
def execUnitBarred (s : State) : Out := running (fun t => t.edgeIf (t.flt.barDue != []) State.barUnits) s
/-- CONSUME. -/
def execConsume (n : BitVec 8) (s : State) : Out :=
  running (·.writeFltStatus (BitVec.ofNat 64 (2 ^ 32 * n.toNat))) s
/-- FLT_STAT_CLR. -/
def execFltStatClr (s : State) : Out := running (fun t => t.wr .FLT_STATS 0) s

end Sys2Proof.Machine
end

