-- ==== Sys2Proof/Machine/Startup.lean ====
section
/-!
DEFINITION. Start-up and the host interface (chapter 17): resets, the boot image and its checks, resource claims and bare mode, the
PCI Express endpoint with its configuration space, and the status port.
-/
namespace Sys2Proof.Machine

/-! ### Resets (R419) -/

/-- POWER_ON_RESET: everything, AON included; what depends on AON power alone stays as that power has it (R431). -/
def State.powerOn (s : State) : State :=
  let r := { State.reset with pending := s.pending, freeCtr := s.freeCtr, out := s.out }
  (r.setBit .SYS_READY 41 (s.bit .SYS_READY 41)).setBit .SYS_READY 43 (s.bit .SYS_READY 43)

/-- Whether a register lies in AON, so that a device reset keeps it (R402, R419): Bellwether, power controller, Crook port, status
port. -/
def aonRegister (off : Nat) : Bool := off / 0x10000 == 7 || off / 0x10000 == 1 || off / 0x10000 == 15 || off / 0x10000 == 17

/-- The bits of SYS_READY that only a power-on reset or a loss of AON power clears (R431): BELL, TOD, TICK, STATUS_PORT, UART, DBG. -/
def aonReady : List Nat := [3, 4, 5, 41, 42, 43]

/-- Units whose state outlives a device reset: barred ones (R457), and those of a FAILED domain, which are dead (R414). -/
def State.keepUnits (s old : State) : State :=
  (List.range 6).foldl (fun t c => (List.range (classSize c)).foldl (fun u p =>
    let v := if old.unitState c p = 6 then 6 else if old.domFailed (domainOfUnit c p) then 2 else 0
    if v = 0 then u else ((u.setUnitState c p v).setIsolated (niOfUnit c p) true).refreshDead (niOfUnit c p)) t) s

/-- The groups whose memories a device reset initialises: all but those of a domain that is OFF. -/
def State.resetGroups (s : State) : List Nat := (List.range 64).filter fun g => s.domUsable (domainOfGroup g)

/-- DEVICE_RESET (R419): everything outside AON; the boot image is read again. -/
def State.deviceReset (s : State) : State :=
  let r := State.reset
  let s1 := { r with
    pending := s.pending
    freeCtr := s.freeCtr
    out := s.out
    regs := s.regs.filter fun p => aonRegister p.1
    mem := s.mem.filter fun c => decide (ddrBase ≤ c.1)
    ecc := { r.ecc with
      ddrFlips := s.ecc.ddrFlips, remap := s.ecc.remap, full := s.ecc.full, stamp := s.ecc.stamp, initDue := s.resetGroups }
    tm := { s.tm with gpio := r.tm.gpio, gpioPulse := [] }
    pwr := s.pwr
    sys := { r.sys with fuses := s.sys.fuses, booting := some false, spCopy := s.sys.spCopy, spLatch := s.sys.spLatch }
    dbg := { s.dbg with restart := none } }
  let s2 := aonReady.foldl (fun t n => t.setBit .SYS_READY n (s.bit .SYS_READY n)) s1
  let s3 := (List.range 60).foldl (fun t g => t.setFld (.MEM_GRP g) Fld.MEM_GRP_REMAP_USED
    (s.fld (.MEM_GRP g) Fld.MEM_GRP_REMAP_USED)) s2
  let s4 := (List.range 4).foldl (fun t c => t.setFld (.MEM_DDR_CFG c) Fld.MEM_DDR_CFG_INIT_DONE
    (s.fld (.MEM_DDR_CFG c) Fld.MEM_DDR_CFG_INIT_DONE)) s3
  let s5 := (s4.setFld .HST_STATUS Fld.HST_STATUS_RESETS (s.fld .HST_STATUS Fld.HST_STATUS_RESETS)).setFld .DBG_STATUS
    Fld.DBG_STATUS_RESTART_PENDING 0
  let s6 := (List.range 16).foldl State.loadEnable s5
  s6.keepUnits s

/-- BOOT_LOCK (R421, R431): from then on every RWL field ignores writes, and SHEP and FAB are set. -/
def State.setBootLock (s : State) : State :=
  if s.locked then s else
    let s1 := s.setFld .SYS_CTRL Fld.SYS_CTRL_BOOT_LOCK 1
    s1.setReadyBits (if s1.groupFailed 0 then [40] else [1, 40]) true

/-- A write of SYS_CTRL (R419, R421, R431, R438). -/
def State.writeSysCtrl (s : State) (v : Word) : State :=
  if Fld.SYS_CTRL_RESET.get v = 1 ∧ Fld.SYS_CTRL_KEY.get v = 0x5EED then s.deviceReset else
    let s1 := if Fld.SYS_CTRL_BOOT_LOCK.get v = 1 then s.setBootLock else s
    if Fld.SYS_CTRL_FH_READY.get v = 1 then (s1.setFld .SYS_CTRL Fld.SYS_CTRL_FH_READY 1).setReadyBit 39 true else s1

/-! ### Power on, clocks (R388, R431) -/

/-- AON_POWER_GOOD, 1 µs after VDD_AON and VDD_IO are good. -/
def State.aonGood (s : State) : State := s.setReadyBits [41, 43] true

/-- AON_POWER_LOSS. -/
def State.aonLost (s : State) : State := s.setReadyBits [41, 43] false

/-- PWRON_N_RELEASE: fuses are sensed. -/
def State.pwronReleased (s : State) : State := { s with sys := { s.sys with fuses := true } }

/-- DCO_FREERUN_START (R388): the DCO drives the system reference in FREERUN, and device time counts. -/
def State.dcoStarts (s : State) : State :=
  if !s.sys.fuses || s.bit .SYS_READY 3 then s else (s.setFld .TIM_STATUS Fld.TIM_STATUS_STATE 0).setReadyBit 3 true

/-- SYSTEM_PLL_LOCK (R10, R388, R431, R295): tick edges reach the engines, memories begin self-test and initialisation, and the boot
reader starts. -/
def State.pllLocks (s : State) : State :=
  if !s.bit .SYS_READY 3 || s.bit .SYS_READY 5 then s else
    let s1 := (s.setReadyBit 5 true).setReadyBit 42 true
    let s2 := (List.range 64).foldl State.beginInit s1
    { s2 with sys := { s2.sys with booting := some false } }

/-! ### The boot image (R423 to R428) -/

/-- Directory entry `i`: TYPE, LEN, OFFSET, CRC and DEST. -/
structure BootSec where
  idx : Nat
  type : Nat
  len : Nat
  off : Nat
  crc : Nat
  dest : Nat
  deriving DecidableEq, Repr

/-- Bytes of a list from an offset on. -/
def bytesAt (img : List Byte) (off len : Nat) : List Byte :=
  let b := (img.drop off).take len
  b ++ List.replicate (len - b.length) 0

/-- The directory of an image. -/
def bootSections (img : List Byte) : List BootSec :=
  (List.range (min 32 (leAt img 6 2))).map fun i =>
    let o := 0x40 + 24 * i
    ⟨i, leAt img o 1, leAt img (o + 4) 4, leAt img (o + 8) 4, leAt img (o + 0xC) 4, leAt img (o + 0x10) 8⟩

/-- The bytes of a section. -/
def BootSec.bytes (d : BootSec) (img : List Byte) : List Byte := bytesAt img d.off d.len

/-- IMAGE_LEN. -/
def bootLen (img : List Byte) : Nat := leAt img 8 4

/-- A refusal: the code of R428 and the directory entry. -/
structure BootErr where
  code : Nat
  sec : Nat
  deriving DecidableEq, Repr

/-- A refusal when a check fails. -/
def bootFail (bad : Bool) (code sec : Nat) : Option BootErr := if bad then some ⟨code, sec⟩ else none

/-- MAGIC and FORMAT. -/
def bootMagic (img : List Byte) : Option BootErr :=
  bootFail (leAt img 0 4 != 0x594C4254 || leAt img 4 2 != 1) 0x03 0

/-- Whether two sections overlap. -/
def bootOverlap (a b : BootSec) : Bool :=
  a.idx != b.idx && decide (a.off < b.off + b.len) && decide (b.off < a.off + a.len)

/-- Header and directory: HDR_CRC, IMAGE_LEN, SECTIONS, the layout of the sections, and the sections that must be there once. -/
def bootHeader (img : List Byte) : Option BootErr :=
  let ds := bootSections img
  let n := leAt img 6 2
  let once (t : Nat) : Bool := (ds.filter fun d => d.type == t).length != 1
  List.findSome? id
    ([bootFail (crc32 (bytesAt img 0 0x3FC) != leAt img 0x3FC 4 || decide (268435456 < bootLen img) || decide (bootLen img < 1024)
        || n == 0 || decide (32 < n)) 0x04 0]
      ++ ds.map (fun d => bootFail (d.off % 64 != 0 || decide (d.off < 1024) || decide (bootLen img < d.off + d.len)
          || ds.any fun e => decide (e.idx < d.idx) && bootOverlap d e) 0x04 d.idx)
      ++ [bootFail (once 1 || once 2 || once 3 || once 5) 0x04 0])

/-- CRC of each section. -/
def bootCrc (img : List Byte) : Option BootErr :=
  (bootSections img).findSome? fun d => bootFail (crc32 (d.bytes img) != d.crc) 0x05 d.idx

/-- Authentication (R425). -/
def bootAuth (img : List Byte) : Option BootErr :=
  let sig := leAt img 0x10 4
  bootFail (Config.fuseAuthReq && (sig % 8 != 0 || bootLen img != sig + 196
    || !signatureGood (bytesAt img 0 sig) (bytesAt img sig 196))) 0x06 0

/-- Whether `len` bytes at `dest` lie in Shepherd memory. -/
def inShepherd (dest len : Nat) : Bool := decide (dest + len ≤ 0x200000)

/-- Whether `len` bytes at `dest` lie in Pasture memory. -/
def inPasture (dest len : Nat) : Bool := decide (pastureBase ≤ dest) && decide (dest + len ≤ pastureBase + pastureSize)

/-- Whether `len` bytes at `dest` lie in populated DDR. -/
def State.inDdr (s : State) (dest len : Nat) : Bool :=
  decide (ddrBase ≤ dest) && decide (dest + len ≤ ddrBase + 4 * s.ddrSize 0)

/-- Whether a section breaks R424. -/
def State.badDest (s : State) (ds : List BootSec) (d : BootSec) : Bool :=
  let again := ds.any fun e => e.type == d.type && decide (e.idx < d.idx)
  match d.type with
  | 1 => decide (0xC0000 < d.len)
  | 2 => decide (0x80000 < d.len)
  | 3 => decide (0x800000 < d.len)
  | 4 => decide (0x800000 < d.len) || again
  | 5 => decide (2048 * 8 < d.len) || !inShepherd d.dest d.len
  | 6 => decide (65536 * 16 < d.len) || !inShepherd d.dest d.len
  | 7 => d.len != 8 || again
  | 8 => !(inShepherd d.dest d.len || inPasture d.dest d.len || s.inDdr d.dest d.len)
  | _ => true

/-- Types and destinations (R424). -/
def State.bootDest (s : State) (img : List Byte) : Option BootErr :=
  (bootSections img).findSome? fun d => bootFail (s.badDest (bootSections img) d) 0x07 d.idx

/-! ### Claims (R427, R474) -/

/-- The functions that a ball offers: FUNC and OWNER. -/
def ballOffers (ball func owner : Nat) : Bool :=
  if 2603 ≤ ball ∧ ball ≤ 2607 then func == 0 && owner == 3
  else if 2608 ≤ ball ∧ ball ≤ 2617 then func == 0 && owner == 4
  else if 2654 ≤ ball ∧ ball ≤ 2683 then func == 0 && (owner == 5 || owner == 6)
  else if ball = 2684 ∨ ball = 2685 then (func == 0 && (owner == 5 || owner == 6)) || (func == 1 && owner == 7)
  else false

/-- KIND, INDEX and OWNER of a claim record. -/
def claimKind (r : Nat) : Nat := bitsOf r 60 4
def claimIndex (r : Nat) : Nat := bitsOf r 48 12
def claimOwner (r : Nat) : Nat := bitsOf r 40 8

/-- Whether a claim record is refused by itself. -/
def badClaim (r : Nat) : Bool :=
  let o := claimOwner r
  decide (o < 1) || decide (7 < o) || match claimKind r with
    | 0 => decide (2703 < claimIndex r) || bitsOf r 4 2 == 3 || !ballOffers (claimIndex r) (bitsOf r 0 4) o
    | 1 => decide (63 < claimIndex r)
    | 2 => decide (31 < claimIndex r)
    | _ => true

/-- Whether two records of a list name the same KIND and INDEX. -/
def claimsRepeat : List Nat → Bool
  | [] => false
  | r :: rs => (rs.any fun o => o / 2 ^ 48 == r / 2 ^ 48) || claimsRepeat rs

/-- The claim records of an image. -/
def bootClaims (img : List Byte) : List Nat :=
  match (bootSections img).find? fun d => d.type == 5 with
  | some d => (List.range (d.len / 8)).map fun i => leNat (bytesAt img (d.off + 8 * i) 8)
  | none => []

/-- Claims of an image. -/
def bootClaimCheck (img : List Byte) : Option BootErr :=
  let sec := ((bootSections img).find? fun d => d.type == 5).map (·.idx)
  bootFail ((bootClaims img).any badClaim || claimsRepeat (bootClaims img)) 0x08 (sec.getD 0)

/-! ### Accepting and refusing -/

/-- The sections of a type. -/
def sectionsOf (img : List Byte) (t : Nat) : List BootSec := (bootSections img).filter fun d => d.type == t

/-- FABRIC_ID (R424). -/
def State.applyFabricId (s : State) (img : List Byte) : State :=
  (sectionsOf img 7).foldl (fun t d =>
    let v := leNat (d.bytes img)
    (((t.setFld .FAB_ADDR Fld.FAB_ADDR_PRIOR (bitsOf v 0 6)).setFld .FAB_ADDR Fld.FAB_ADDR_PRIOR_VALID (bitsOf v 6 1)).setFld .ALM_ID
      Fld.ALM_ID_BURLOS_MAJ (bitsOf v 8 8)).setFld .ALM_ID Fld.ALM_ID_BURLOS_MIN (bitsOf v 16 8)) s

/-- Bytes stored by the boot reader. -/
def State.bootStore (s : State) (addr : Nat) (bs : List Byte) : State := (s.writeMem addr (bs.length + 1) bs).1

/-- FW, FOLD, CLAIMS, REGS and DATA sections copied to their destinations (R424). -/
def State.copySection (s : State) (img : List Byte) (d : BootSec) : State :=
  match d.type with
  | 1 => s.bootStore (bankAddr 0) (d.bytes img)
  | 2 => (List.range 16).foldl (fun t n => t.bootStore (foldAddr n 0x800000) (d.bytes img)) s
  | 5 => s.bootStore d.dest (d.bytes img)
  | 6 => s.bootStore d.dest (d.bytes img)
  | 8 => s.bootStore d.dest (d.bytes img)
  | _ => s

/-- The active almanac of an accepted image. -/
def State.bootActive (s : State) (img : List Byte) : State :=
  (sectionsOf img 3).foldl (fun t d =>
    let a := d.bytes img
    ({ t with alm := { t.alm with set0 := a } }.setFld .ALM_ACTIVE_INFO Fld.ALM_ACTIVE_INFO_STATE 0).showInfo .ALM_ACTIVE_INFO
      .ALM_ACTIVE_BUILD a 0) s

/-- The shadow almanac of an accepted image: VALID, or INVALID when it fails R45 (R428). -/
def State.bootShadow (s : State) (img : List Byte) (fwVersion : Nat) : State :=
  (sectionsOf img 4).foldl (fun t d =>
    let a := d.bytes img
    match firstErr [t.checkImage a d.len, t.checkLate a fwVersion] with
    | some _ => t.shadowState 3
    | none => t.acceptShadow a [] 0) s

/-- USER of every lane from the LANE claims (R357, R427). -/
def State.claimLanes (s : State) (cs : List Nat) : State :=
  (cs.filter fun r => claimKind r == 1).foldl (fun t r =>
    t.setFld (.SDS_LANE_STATUS (claimIndex r)) Fld.SDS_LANE_STATUS_USER (if claimOwner r ≤ 2 then claimOwner r else 0)) s

/-- What SYS_BOOT_STATUS shows of a boot. -/
def State.showBoot (s : State) (code sec : Nat) (bare signed fromHost : Bool) (fw : Nat) : State :=
  let b (x : Bool) : Nat := if x then 1 else 0
  s.wr .SYS_BOOT_STATUS (BitVec.ofNat 64 (2 ^ 56 * code + 2 ^ 51 * (sec % 32) + 2 ^ 50 * b bare + 2 ^ 49 * b signed
    + 2 ^ 48 * b fromHost + fw % 2 ^ 32))

/-- An image refused: bare mode (R428, R429). -/
def State.bootRefused (s : State) (e : BootErr) (fromHost : Bool) : State :=
  let signed := Config.fuseAuthReq && decide (7 ≤ e.code)
  { s with sys := { s.sys with booting := none } }.showBoot e.code e.sec true signed fromHost 0

/-- An image accepted (R424, R427, R430, R431): the pin map is applied and the control cores start. -/
def State.bootAccepted (s : State) (img : List Byte) (fromHost : Bool) : State :=
  let cs := bootClaims img
  let fw := leAt img 0xC 4
  let s1 := (bootSections img).foldl (fun t d => t.copySection img d) (s.applyFabricId img)
  let s2 := { s1 with alm := { s1.alm with fwVersion := fw } }.bootActive img
  let s3 := (s2.bootShadow img fw).claimLanes cs
  let s4 := { s3 with sys := { s3.sys with claims := cs, booting := none, pinMap := true } }
  let s5 := (s4.showBoot 0 0 false Config.fuseAuthReq fromHost fw).setReadyBit 2 true
  let s6 := (List.range 8).foldl State.restartControl (s5.setFld .SYS_ALARM Fld.SYS_ALARM_BOOT 0)
  (List.range 16).foldl (fun t n => (t.loadEnable n).raiseReady n) s6

/-- The almanac check of an image: ALM_LOAD_STATUS then holds the code (R428). -/
def State.bootAlmanac (s : State) (img : List Byte) : Option (BootErr × LoadErr) :=
  (sectionsOf img 3).findSome? fun d =>
    (firstErr [(s.applyFabricId img).checkImage (d.bytes img) d.len,
      (s.applyFabricId img).checkLate (d.bytes img) (leAt img 0xC 4)]).map fun e => (⟨0x09, d.idx⟩, e)

/-- The checks of R428 in their order, and what follows. -/
def State.bootImage (s : State) (img : List Byte) (fromHost : Bool) : State :=
  match List.findSome? id [bootMagic img, bootHeader img, bootCrc img, bootAuth img, s.bootDest img, bootClaimCheck img] with
  | some e => s.bootRefused e fromHost
  | none =>
    match s.bootAlmanac img with
    | some (e, l) => (s.endLoad l.code l.section_ l.offset).bootRefused e fromHost
    | none => s.bootAccepted img fromHost

/-- The DDR channels that a section's destination touches. -/
def channelsOf (dest len : Nat) : List Nat :=
  ((List.range (min 9 (ceilDiv len 256 + 1))).map fun i => ddrChannel (dest - ddrBase + 256 * i)).eraseDups

/-- Whether the reader can finish: on-chip memories are initialised, and every DDR channel that a section goes to is ready (R424). -/
def State.bootCanFinish (s : State) (img : List Byte) : Bool :=
  !(s.ecc.initDue.any fun g => decide (g < 60))
    && (bootSections img).all fun d => !(d.type == 8 && s.inDdr d.dest d.len)
      || (channelsOf d.dest d.len).all fun c => s.bit .SYS_READY (34 + c)

/-- A host-supplied image as it stands in memory at SYS_BOOT_SRC; `none` where it cannot be read (R429). The reader's errors count as
those of any master (R291, R294). -/
def State.hostImage (s : State) : Option (List Byte) × State :=
  let a := s.fld .SYS_BOOT_SRC Fld.SYS_BOOT_SRC_ADDR
  let head := s.readMem a 1025 1024
  match head.1 with
  | none => (none, head.2.1.uncorrectables head.2.2 none)
  | some h =>
    if bootLen h ≤ 268435456 then
      let r := head.2.1.readMem (a + 1024) (bootLen h + 1) (max 1024 (bootLen h) - 1024)
      (r.1.map fun b => h ++ b, r.2.1.uncorrectables r.2.2 none)
    else (some h, head.2.1)

/-- A host-supplied image processed at the same checks, when the reader can finish (R429). -/
def State.bootFromHost (s : State) : State :=
  let s1 := { s with sys := { s.sys with booting := some true } }
  match s1.hostImage with
  | (none, t) => t.bootRefused ⟨0x02, 0⟩ true
  | (some img, t) => if t.bootCanFinish img then t.bootImage img true else s1

/-- BOOT_READ_COMPLETE: the flash's image, or one in memory whose reader waited. -/
def State.bootReadDone (s : State) (img : List Byte) : State :=
  match s.sys.booting with
  | none => s
  | some true => s.bootFromHost
  | some false => if s.bootCanFinish img then s.bootImage img false else s

/-- A flash that cannot be read (R422, R428). -/
def State.bootFlashFails (s : State) (code sec : Nat) : State :=
  if s.sys.booting = some false then s.bootRefused ⟨code, sec⟩ false else s

/-- A write of SYS_BOOT_CTRL.GO (R429): outside bare mode it is ignored. -/
def State.bootGo (s : State) : State :=
  if s.fld .SYS_BOOT_STATUS Fld.SYS_BOOT_STATUS_BARE = 1 ∧ s.sys.booting = none then s.bootFromHost else s

/-! ### PCI Express endpoint (R433, R434, R485) -/

/-- Whether the endpoint answers configuration requests with success. -/
def State.pcieReady (s : State) : Bool := s.bit .SYS_READY 0

/-- A host read that failed: the master's answer, counted (R434, R485). -/
def State.failHostRead (s : State) (p : Packet) (status : Nat) : State :=
  (s.bump .HST_STATS Fld.HST_STATS_RD_FAIL).respond p status []

/-- Every outstanding host read answered ISOLATED (R434). -/
def State.failHostReads (s : State) : State :=
  s.sys.hostReads.foldl (fun t p => t.failHostRead p stIsolated) { s with sys := { s.sys with hostReads := [] } }

/-- A PCI Express reset (R419). -/
def State.resetPcie (s : State) : State :=
  let s1 := s.wr .HST_STATUS (Fld.HST_STATUS_RESETS.set 0 (satAdd (2 ^ 32 - 1) (s.fld .HST_STATUS Fld.HST_STATUS_RESETS) 1))
  let s2 := (List.range 64).foldl (fun t v => (t.wr (.HST_MSIX_ADDR v) (regReset (Reg.off (.HST_MSIX_ADDR v)))).wr (.HST_MSIX_CTRL v)
    (regReset (Reg.off (.HST_MSIX_CTRL v)))) s1
  let s3 := { s2 with sys := { s2.sys with pcieInReset := true, pcieCfg := [], barHeld := [] } }
  ((s3.wr .HST_PBA 0).setReadyBit 0 false).failHostReads

/-- PCIE_READY. -/
def State.pcieStarts (s : State) : State :=
  if !s.sys.fuses then s else { s with sys := { s.sys with pcieInReset := false } }.setReadyBit 0 true

/-- PCIE_LINK_CHANGE (R434, R440). -/
def State.linkChange (s : State) (up : Bool) (speed width : Nat) : State :=
  if !s.sys.fuses then s else
    let s1 := if s.linkUp = up then s else s.setFld .HST_STATUS Fld.HST_STATUS_CHANGE 1
    let s2 := ((s1.setFld .HST_STATUS Fld.HST_STATUS_LINK_UP (if up then 1 else 0)).setFld .HST_STATUS Fld.HST_STATUS_SPEED
      (if up then speed else 0)).setFld .HST_STATUS Fld.HST_STATUS_WIDTH (if up then width else 0)
    if up then s2 else s2.failHostReads

/-- What the endpoint fixes in configuration space (R433), by byte: identities, class code, header type, the sizes of the BARs, and
what is not implemented. The mask says which bits a write reaches. -/
def cfgFixed (o : Nat) : Option (Byte × Byte) :=
  let b (v : Nat) (mask : Nat) : Option (Byte × Byte) := some (BitVec.ofNat 8 v, BitVec.ofNat 8 mask)
  if o < 2 then b (Config.fuseVid.toNat / 256 ^ o) 0
  else if o < 4 then b (Config.fuseDid.toNat / 256 ^ (o - 2)) 0
  else if o = 8 then b Config.fuseRevision.toNat 0
  else if o = 9 ∨ o = 0xA ∨ o = 0xE then b 0 0
  else if o = 0xB then b 0x12 0
  else if o = 0x10 then b 4 0
  else if o = 0x11 ∨ o = 0x12 then b 0 0
  else if o = 0x18 then b 0xC 0
  else if 0x19 ≤ o ∧ o ≤ 0x1B then b 0 0
  else if o = 0x1C then b 0 0xE0
  else if (0x20 ≤ o ∧ o < 0x28) ∨ (0x30 ≤ o ∧ o < 0x34) ∨ o = 0x3D then b 0 0
  else if 0x2C ≤ o ∧ o < 0x2E then b (Config.fuseSsvid.toNat / 256 ^ (o - 0x2C)) 0
  else if 0x2E ≤ o ∧ o < 0x30 then b (Config.fuseSsid.toNat / 256 ^ (o - 0x2E)) 0
  else if (0x13 ≤ o ∧ o < 0x18) ∨ (0x1D ≤ o ∧ o < 0x20) then b 0 0xFF
  else none

/-- What configuration space reads as before anything is written. -/
def cfgDefault (o : Nat) : Byte := match cfgFixed o with
  | some f => f.1
  | none => Config.configByte o

/-- A byte of configuration space. -/
def State.cfgByte (s : State) (o : Nat) : Byte := SMap.get cfgDefault s.sys.pcieCfg o

/-- A byte of configuration space written. -/
def State.writeCfgByte (s : State) (o : Nat) (v : Byte) : State :=
  let mask := match cfgFixed o with
    | some f => f.2
    | none => 0xFF
  { s with sys := { s.sys with pcieCfg := SMap.set cfgDefault s.sys.pcieCfg o ((s.cfgByte o &&& ~~~mask) ||| (v &&& mask)) } }

/-- CONFIGURATION_REQUEST (R433): 32 bits at an aligned offset. -/
def State.configRequest (s : State) (write : Bool) (offset v : Nat) : State :=
  if !s.linkUp then s
  else if !s.pcieReady then s.emit .hostRetry
  else
    let o := offset / 4 * 4
    if write then ((List.range 4).foldl (fun t i => t.writeCfgByte (o + i) (BitVec.ofNat 8 (v / 256 ^ i))) s).emit
      (.hostCompletion true [])
    else s.emit (.hostCompletion true ((List.range 4).map fun i => s.cfgByte (o + i)))

/-- Whether BAR accesses are served: the link is up, the endpoint is ready, and the device is not in D3hot (R433). -/
def State.barServed (s : State) : Bool :=
  s.linkUp && s.pcieReady && (s.cfgByte Config.pmcsrOffset).toNat % 4 != 3

/-- The outstanding host read `i` removed. -/
def State.takeHostRead (s : State) (i : Nat) : Option Packet × State :=
  match s.sys.hostReads[i]? with
  | none => (none, s)
  | some p => (some p, { s with sys := { s.sys with hostReads := s.sys.hostReads.eraseIdx i } })

/-- PCIE_READ_COMPLETION (R485): status 0 success, 1 Unsupported Request, 2 Completer Abort, 3 poisoned. -/
def State.hostReadDone (s : State) (i status : Nat) (data : List Byte) : State :=
  match s.takeHostRead i with
  | (none, t) => t
  | (some p, t) =>
    if status = 0 then t.respond p stOk (bytesAt data 0 (p.len.toNat + 1))
    else t.failHostRead p (if status = 1 then stDecode else if status = 2 then stRefused else stEcc)

/-- COMPLETION_TIMEOUT (R485). -/
def State.hostReadTimeout (s : State) (i : Nat) : State :=
  match s.takeHostRead i with
  | (none, t) => t
  | (some p, t) => t.failHostRead p stIsolated

/-! ### Status port (R435 to R437, R439) -/

/-- The status words copied at each tick edge, by address (R436). -/
def State.statusWords (s : State) : List (Nat × Nat) :=
  let boot := s.fld .SYS_BOOT_STATUS Fld.SYS_BOOT_STATUS_CODE + 2 ^ 8 * s.fld .SYS_BOOT_STATUS Fld.SYS_BOOT_STATUS_BARE
    + 2 ^ 9 * s.fld .SYS_CTRL Fld.SYS_CTRL_BOOT_LOCK + 2 ^ 10 * s.fld .PWR_MODE Fld.PWR_MODE_MODE
    + 2 ^ 12 * s.fld .TIM_STATUS Fld.TIM_STATUS_STATE + 2 ^ 16 * (s.flt.lastCode % 256) + 2 ^ 24 * (s.flt.total % 256)
  let doms (w : Nat) : Nat := ((List.range 16).map fun j =>
    if 16 * w + j < 69 then 4 ^ j * s.fld (.PWR_DOM (16 * w + j)) Fld.PWR_DOM_STATE else 0).sum
  [(0x0004, boot), (0x0006, s.tm.tod % 2 ^ 32), (0x0008, s.tm.tick), (0x000A, s.frame),
    (0x000C, s.fld .SYS_THERM Fld.SYS_THERM_TEMP + 2 ^ 16 * s.acked 0),
    (0x000E, s.acked 1 + 2 ^ 10 * s.fld .FAB_ADDR Fld.FAB_ADDR_ADDR + 2 ^ 16 * s.fld .FAB_ADDR Fld.FAB_ADDR_LONE),
    (0x0010, s.uid.toNat % 2 ^ 32), (0x0012, s.uid.toNat / 2 ^ 32), (0x0014, s.alm.fwVersion % 2 ^ 32),
    (0x0016, s.fld .ALM_ACTIVE_INFO Fld.ALM_ACTIVE_INFO_ALM_VERSION)]
    ++ ((List.range 5).map fun w => (0x0020 + 2 * w, doms w))
    ++ (List.range 256).map fun i => (0x0100 + 2 * i, s.fld (.STP_FW i) Fld.STP_FW_DATA)

/-- STATUS_TABLE_COPY (R436). -/
def State.copyStatus (s : State) : State :=
  { s with sys := { s.sys with spCopy := s.statusWords.foldl (fun m p => SMap.set zeroNat m p.1 p.2) [] } }

/-- STATUS_PORT_READ (R435, R436). -/
def State.statusRead (s : State) (a : Nat) : State :=
  if !s.bit .SYS_READY 41 then s
  else if a = 0 then
    { s with sys := { s.sys with spLatch := some ((s.rd .SYS_READY).toNat / 2 ^ 32) } }.emit
      (.statusPort ((s.rd .SYS_READY).toNat % 2 ^ 32))
  else if a = 2 then
    { s with sys := { s.sys with spLatch := none } }.emit (.statusPort (s.sys.spLatch.getD ((s.rd .SYS_READY).toNat / 2 ^ 32)))
  else s.emit (.statusPort (SMap.get zeroNat s.sys.spCopy a))

/-- STP_DB: a write of the status port (R437, R439). -/
def State.statusWrite (s : State) (a v : Nat) : State :=
  if !s.bit .SYS_READY 41 then s
  else if a < 0x8000 ∨ 0x8080 ≤ a ∨ a % 2 ≠ 0 ∨ s.fld .STP_CTRL Fld.STP_CTRL_WR_EN = 0 then
    s.bump .STP_STATUS Fld.STP_STATUS_BAD_WR
  else
    let i := (a - 0x8000) / 2
    let s1 := if s.bit .STP_DB_PEND i then s.setFld .STP_STATUS Fld.STP_STATUS_OVERRUN 1 else s
    ((s1.setFld (.STP_DB i) Fld.STP_DB_DATA v).setBit .STP_DB_PEND i true).shepIrq shepDoorbell i

/-! ### Temperature (R438) -/

/-- THERM_N from the hottest sensor and LIMIT, with 5 °C of hysteresis. -/
def State.judgeTherm (s : State) : State :=
  let t := signedOf 16 (s.fld .SYS_THERM Fld.SYS_THERM_TEMP)
  let l : Int := 8 * (s.fld .SYS_THERM Fld.SYS_THERM_LIMIT : Nat)
  if l ≤ t then s.setFld .SYS_ALARM Fld.SYS_ALARM_THERM 1
  else if t < l - 40 then s.setFld .SYS_ALARM Fld.SYS_ALARM_THERM 0
  else s

/-! ### Commands -/

/-- POWER_ON_RESET. -/
def execPowerOnReset (s : State) : Out := always State.powerOn s
/-- DEVICE_RESET: a write of SYS_CTRL with KEY and RESET. -/
def execDeviceReset (v : BitVec 64) (s : State) : Out := always (fun t => t.writeSysCtrl v) s
/-- PCIE_RESET. -/
def execPcieReset (s : State) : Out := always State.resetPcie s
/-- PCIE_READY. -/
def execPcieReady (s : State) : Out := running State.pcieStarts s
/-- PCIE_LINK_CHANGE. -/
def execPcieLinkChange (up : Bool) (speed : BitVec 3) (width : BitVec 4) (s : State) : Out :=
  running (·.linkChange up speed.toNat width.toNat) s
/-- PCIE_READ_COMPLETION. -/
def execPcieReadCompletion (n : Fin 256) (status : Fin 4) (data : List (BitVec 8)) (s : State) : Out :=
  running (·.hostReadDone n status data) s
/-- COMPLETION_TIMEOUT. -/
def execCompletionTimeout (n : Fin 256) (s : State) : Out := running (·.hostReadTimeout n) s
/-- BOOT_READ_COMPLETE. -/
def execBootReadComplete (image : List (BitVec 8)) (s : State) : Out := running (·.bootReadDone image) s
/-- NO_FLASH. -/
def execNoFlash (s : State) : Out := running (·.bootFlashFails 0x01 0) s
/-- FLASH_ERROR. -/
def execFlashError (section_ : Fin 32) (s : State) : Out := running (·.bootFlashFails 0x02 section_) s
/-- SYS_BOOT_GO. -/
def execSysBootGo (s : State) : Out := running State.bootGo s
/-- BOOT_LOCK: a write of SYS_CTRL. -/
def execBootLock (s : State) : Out := running (·.writeSysCtrl 1) s
/-- FH_READY: a write of SYS_CTRL. -/
def execFhReady (s : State) : Out := running (·.writeSysCtrl 4) s
/-- STATUS_PORT_READ. -/
def execStatusPortRead (addr : BitVec 16) (s : State) : Out := always (fun t => t.statusRead addr.toNat) s
/-- STP_DB. -/
def execStpDb (addr : BitVec 16) (v : BitVec 32) (s : State) : Out := always (fun t => t.statusWrite addr.toNat v.toNat) s
/-- THERM_CROSSING. -/
def execThermCrossing (temp : BitVec 16) (s : State) : Out :=
  always (fun t => (t.setFld .SYS_THERM Fld.SYS_THERM_TEMP temp.toNat).judgeTherm) s
/-- AON_POWER_GOOD. -/
def execAonPowerGood (s : State) : Out := always State.aonGood s
/-- AON_POWER_LOSS. -/
def execAonPowerLoss (s : State) : Out := always State.aonLost s
/-- PWRON_N_RELEASE. -/
def execPwronNRelease (s : State) : Out := always State.pwronReleased s
/-- DCO_FREERUN_START. -/
def execDcoFreerunStart (s : State) : Out := always State.dcoStarts s
/-- SYSTEM_PLL_LOCK. -/
def execSystemPllLock (s : State) : Out := always State.pllLocks s
/-- CONFIGURATION_REQUEST. -/
def execConfigurationRequest (write : Bool) (offset : BitVec 12) (v : BitVec 32) (s : State) : Out :=
  running (·.configRequest write offset.toNat v.toNat) s

end Sys2Proof.Machine
end

