-- ==== Sys2Proof/Machine/Debug.lean ====
section
/-!
DEFINITION. The Crook port (R459 to R467, R470): instructions, authorisation, halt, resume and restart, the core window and sleep
emulation; and the maintenance UART (R468, R469, R471). The port's accesses to registers and memory are in Bus.lean.
-/
namespace Sys2Proof.Machine

/-! ### TAP and authorisation -/

/-- Whether the TAP answers (R431 DBG). -/
def State.tapOn (s : State) : Bool := s.bit .SYS_READY 43

/-- An instruction of R459 selected, and what its data register then does. -/
def State.tap (s : State) (ir : Nat) (f : State → State) : State :=
  if s.tapOn then f { s with dbg := { s.dbg with ir := ir } } else s

/-- `w` bits captured, least significant first. -/
def State.capture (s : State) (w v : Nat) : State := s.emit (.tdo ((List.range w).map fun i => v.testBit i))

/-- The single 0 bit of BYPASS. -/
def State.bypassed (s : State) : State := s.capture 1 0

/-- IDCODE (R459). -/
def idcodeWord : Nat :=
  1 + 2 ^ 12 * 0x6402 + 2 * Config.fuseManufacturer.toNat + 2 ^ 28 * (Config.fuseRevision.toNat % 16)

/-- Whether a lockout runs (R461). -/
def State.lockedOut (s : State) : Bool := match s.dbg.lockEnd with
  | some e => decide (dtDiff s.now e < 0)
  | none => false

/-- Capture-DR of NONCE (R460, R461). -/
def State.drawNonce (s : State) : State :=
  if s.lockedOut then s.capture 256 0 else
    let n := s.drawBytes 32
    { n.2 with dbg := { n.2.dbg with nonce := some n.1 } }.capture 256 (leNat n.1)

/-- Attachment (R460, R467): SLEEP and OFF domains wake to IDLE. -/
def State.attach (s : State) : State :=
  let s1 := (s.setFld .DBG_ATTACH Fld.DBG_ATTACH_ATTACHED 1).setFld .DBG_AUTH_STAT Fld.DBG_AUTH_STAT_FAILS 0
  (List.range 69).foldl (fun t d =>
    if t.fld (.PWR_DOM d) Fld.PWR_DOM_STATE ≥ 2 ∧ t.fld (.PWR_DOM d) Fld.PWR_DOM_EMULATED = 0 ∧ !t.domFailed d
        ∧ (t.dom d).entry.isNone ∧ (t.dom d).wake.isNone then t.startWake d 1 2 else t)
    { s1 with dbg := { s1.dbg with lockEnd := none } }

/-- A failed authorisation (R461). -/
def State.authFailed (s : State) : State :=
  let n := satAdd 255 (s.fld .DBG_AUTH_STAT Fld.DBG_AUTH_STAT_FAILS) 1
  let s1 := s.setFld .DBG_AUTH_STAT Fld.DBG_AUTH_STAT_FAILS n
  if n < 3 then s1 else
    let e := s1.now + BitVec.ofNat 64 (unitsPerSecond * min 65536 (2 ^ (n - 3)))
    { s1 with dbg := { s1.dbg with lockEnd := some e } }.record { code := 0x60, cls := 13, phys := 0 }

/-- Update-DR of AUTH (R460, R461). -/
def State.authorise (s : State) (mac : List Byte) : State :=
  if s.lockedOut then s else
    let good := Config.fuseDebugKey != 0 && match s.dbg.nonce with
      | some n => hmacGood n mac
      | none => false
    let s1 := { s with dbg := { s.dbg with nonce := none } }
    if good then s1.attach else s1.authFailed

/-- LOCKOUT_END (R461): device time reaches the end of the lockout. -/
def State.endLockout (s : State) : State :=
  match s.dbg.lockEnd with
  | none => s
  | some e => match s.reachTime e with
    | some t => { t with dbg := { t.dbg with lockEnd := none } }
    | none => s

/-- Attachment ended (R462, R467): emulated domains enter their planned states at the next tick edge. -/
def State.endAttach (s : State) : State :=
  if !s.attached then s else
    let s1 := s.setFld .DBG_ATTACH Fld.DBG_ATTACH_ATTACHED 0
    { s1 with pwr := { s1.pwr with emulEnd := true } }

/-- RESUME requested (R465): the clocks restart at the next tick edge. -/
def State.requestResume (s : State) : State :=
  if !s.halted then s else
    { s with dbg := { s.dbg with resume := true }, tm := { s.tm with cycle := min 14000 (s.tm.cycle + 1) } }

/-- DETACH, or Test-Logic-Reset: a halted device resumes first (R462). -/
def State.detachNow (s : State) : State :=
  if !s.attached then s
  else if s.halted then { s.requestResume with dbg := { s.requestResume.dbg with detach := true } }
  else s.endAttach

/-- HALT (R464): fC and fA stop at the next core cycle that 4 divides. -/
def State.haltNow (s : State) : State :=
  if !s.attached || s.halted then s else
    let s1 := { s with tm := { s.tm with cycle := min 14000 ((s.tm.cycle / 4 + 1) * 4) } }
    (s1.setFld .DBG_STATUS Fld.DBG_STATUS_HALTED 1).bump .DBG_STATUS Fld.DBG_STATUS_HALTS

/-- A write of DBG_CTRL by the Crook port (R464, R470). -/
def State.writeDbgCtrl (s : State) (v : Word) : State :=
  let s1 := if Fld.DBG_CTRL_HALT.get v = 1 then s.haltNow else s
  let s2 := if Fld.DBG_CTRL_RESUME.get v = 1 then s1.requestResume else s1
  if Fld.DBG_CTRL_DETACH.get v = 1 then s2.detachNow else s2

/-! ### Restart (R465) -/

/-- The frame of restart tick R for a restart at position `pos`: the first whose frame_count is a multiple of CYCLE_K and which begins at
least 2 ticks later. -/
def restartFrame (k pos : Nat) : Nat :=
  let f := ceilDiv (pos + 2) 1120
  let g := ceilDiv f (max 1 k) * max 1 k
  if g < 2 ^ 20 then g else 0

/-- Engine queues emptied, and every release dropped with no freeze and no record; the requests that the releases touch. Results in flight
land (R196). -/
def State.dropWork (s : State) : State × List Nat :=
  let ids := ((s.drv.rels.filter Release.live).flatMap s.touched).eraseDups
  let s1 := s.drv.rels.foldl (fun t r => t.markBusy r false) s
  let s2 := { s1 with
    drv := { s1.drv with rels := [], next := [], nextIdx := none }
    fh := { s1.fh with wins := [] }
    pra := { s1.pra with banks := [] } }
  let s3 := (List.range 128).foldl (fun t n => t.mapCore n Core.landAll) s2
  ((List.range 16).foldl State.restartFold s3, ids)

/-- Drove groups that have lost their lines align again. -/
def State.realign (s : State) : State :=
  ((List.range 32).filter fun g => s.grpOn g).foldl (fun t g =>
    let u := (t.lanesOfGroup g).foldl (fun v l =>
      (v.setLaneRx l (laneIdle l)).setFld (.DRL_LANE_STATUS l) Fld.DRL_LANE_STATUS_ALIGN 0) t
    ((u.setGrp g { u.grp g with log := false, logRun := 0, wasSync := false, held := [] }).refreshKey g).refreshGroup g) s

/-- Firing timers of firmware whose time passed while the device was halted fire late. -/
def State.lateTimers (s : State) : State :=
  [6, 7].foldl (fun t i =>
    if t.fld (.TIM_EVT_CTRL i) Fld.TIM_EVT_CTRL_ARM = 1 ∧ dtDiff t.now (t.rd (.TIM_EVT_CMP i)) ≥ 0 then
      t.armTimer i t.tm.tick t.tm.cycle else t) s

/-- RESUME_RESTART at edge E. -/
def State.resumeAt (s : State) : State :=
  if !s.halted || !s.dbg.resume then s else
    let s0 := { s with tm := { s.tm with cycle := if s.tm.cycle = 0 then 0 else 14000 } }
    let runs := s.bit .SYS_READY 6
    let f := restartFrame s.activeK s0.edgePos
    let s1 := { s0.setFld .DBG_STATUS Fld.DBG_STATUS_HALTED 0 with dbg := { s0.dbg with resume := false, detach := false } }
    let w := s1.resetPcie.dropWork
    let s2 := w.1.completeWhere (fun q => decide (posDiff q.start (posOf f 0) < 0) || w.2.contains q.id) 4 0
    let s3 := s2.realign.lateTimers
    let s4 := match s3.alm.swap with
      | some a => if posDiff (posOf a.frame 0) (posOf f 0) < 0 then s3.cancelSwap 0x22 else s3
      | none => s3
    let s5 := if runs then
        { (s4.setFld .DBG_STATUS Fld.DBG_STATUS_RESTART_PENDING 1).setFld .DBG_STATUS Fld.DBG_STATUS_RESTART_FRAME f with
          dbg := { s4.dbg with restart := some (posOf f 0) } }
      else (List.range 69).foldl (fun t d => t.aim d) s4
    if s.dbg.detach then s5.endAttach else s5

/-- Whether restart tick R begins at the edge at hand. -/
def State.restartDue (s : State) : Bool := s.dbg.restart == some s.edgePos

/-- ALMANAC_RESTART at tick R: the almanac runs as from a cycle boundary. -/
def State.restartAlmanac (s : State) : State :=
  if !s.restartDue then s else
    let s1 := { s.setFld .DBG_STATUS Fld.DBG_STATUS_RESTART_PENDING 0 with dbg := { s.dbg with restart := none } }
    let s2 := (s1.loadTimers s1.edgeOffset s1.edgeIndex).swapWindows s1.edgePos
    (List.range 69).foldl (fun t d => t.aim d) s2.resolveAt.effectAt

/-- SLEEP_EMULATION_END (R467): each emulated domain is IDLE and runs a real entry into its planned state. -/
def State.endEmulation (s : State) : State :=
  if !s.pwr.emulEnd then s else
    (List.range 69).foldl (fun t d =>
      if t.fld (.PWR_DOM d) Fld.PWR_DOM_EMULATED = 1 then
        (((t.setFld (.PWR_DOM d) Fld.PWR_DOM_EMULATED 0).setFld (.PWR_DOM d) Fld.PWR_DOM_STATE 1).domChange d).aim d
      else t) { s with pwr := { s.pwr with emulEnd := false } }

/-! ### Core window (R466) -/

/-- The core that DBG_CORE_SEL names. -/
def State.windowCore (s : State) : Nat :=
  let c := s.fld .DBG_CORE_SEL Fld.DBG_CORE_SEL_CORE
  if s.fld .DBG_CORE_SEL Fld.DBG_CORE_SEL_SHEP = 1 then 128 + c
  else coreNo (s.fld .DBG_CORE_SEL Fld.DBG_CORE_SEL_FOLD) c

/-- Index of a window offset in an array of 64-bit words. -/
def winIndex (off base count : Nat) : Option Nat := arrayIndex off base 8 count

/-- A control register as the window shows it. -/
def State.windowCr (s : State) (n k : Nat) : Nat :=
  if !crExists (decide (128 ≤ n)) k then 0 else
    ({ c := s.core n, n := n, ext := none, pc := 0, nextPc := 0, tcyc := min 13999 s.tm.cycle, tickno := s.calIndex
       enable := 0 } : OpCtx).readCr k

/-- A word of the core window while Yalis is halted. -/
def State.readWindow (s : State) (off : Nat) : Nat :=
  let n := s.windowCore
  let c := s.core n
  let m (f : SMap Nat) (i : Nat) : Nat := SMap.get zeroNat f i
  if let some i := winIndex off 0 32 then m c.s i
  else if let some i := winIndex off 0x100 16 then m c.p i
  else if off = 0x200 then c.pc
  else if let some i := winIndex off 0x400 128 then s.windowCr n i
  else if 128 ≤ n then 0
  else if let some i := winIndex off 0x180 8 then m c.k i
  else if let some i := winIndex off 0x1C0 8 then c.qreg i
  else if let some i := winIndex off 0x280 16 then m c.s2 i
  else if let some i := winIndex off 0x300 8 then m c.p2 i
  else if let some i := winIndex off 0x348 7 then m c.q2 (i + 1)
  else if let some i := winIndex off 0x800 256 then bitsOf (m c.v (i / 8)) (64 * (i % 8)) 64
  else if let some i := winIndex off 0x1000 128 then bitsOf (m c.vaSeen (i / 32)) (40 * (i % 32)) 40
  else 0

/-- Bits of a control register that the window writes. -/
def windowMask (control : Bool) (k : Nat) : Nat :=
  if k = 0 then 0x3FF else if k = 0x12 ∨ k = 0x22 then 0xFFFF else crMask control 0 k

/-- A core after a write of its window. -/
def Core.writeWindow (c : Core) (control : Bool) (off v : Nat) : Core :=
  let put (f : SMap Nat) (i x : Nat) : SMap Nat := SMap.set zeroNat f i x
  if let some i := winIndex off 0 32 then { c with s := put c.s i v }
  else if let some i := winIndex off 0x100 16 then { c with p := put c.p i v }
  else if off = 0x200 then { c with pc := v, bundle := [] }
  else if let some i := winIndex off 0x400 128 then
    if crExists control i then c.setCr i (merge (c.getCr i) v (windowMask control i)) else c
  else if control then c
  else if let some i := winIndex off 0x180 8 then { c with k := put c.k i v }
  else if let some i := winIndex off 0x1C0 8 then if i = 0 then c else { c with q := put c.q i (v % 2 ^ 32) }
  else if let some i := winIndex off 0x280 16 then { c with s2 := put c.s2 i v }
  else if let some i := winIndex off 0x300 8 then { c with p2 := put c.p2 i v }
  else if let some i := winIndex off 0x348 7 then { c with q2 := put c.q2 (i + 1) (v % 2 ^ 32) }
  else if let some i := winIndex off 0x800 256 then
    { c with v := put c.v (i / 8) (setBitsOf (SMap.get zeroNat c.v (i / 8)) (64 * (i % 8)) 64 v) }
  else if let some i := winIndex off 0x1000 128 then
    let x := setBitsOf (SMap.get zeroNat c.vaSeen (i / 32)) (40 * (i % 32)) 40 v
    { c with va := put c.va (i / 32) x, vaSeen := put c.vaSeen (i / 32) x }
  else c

/-- A write of the core window while Yalis is halted. -/
def State.writeWindow (s : State) (off v : Nat) : State :=
  s.mapCore s.windowCore fun c => c.writeWindow (decide (128 ≤ s.windowCore)) off v

/-! ### Maintenance UART -/

/-- An interrupt of the UART (R471 UART_IRQ). -/
def State.uartIrq (s : State) : State :=
  if s.fld .UART_IRQ Fld.UART_IRQ_TARGET = 1 then s.shepIrq shepUart 0 else s.msix (s.fld .UART_IRQ Fld.UART_IRQ_VECTOR)

/-- The configuration in effect (R468): a written one waits until the transmitter is idle. -/
def State.uartCfgNow (s : State) : Word := s.uart.cfg.getD (s.rd .UART_CFG)

/-- Whether the UART runs: ready and enabled (R431, R471). -/
def State.uartOn (s : State) : Bool := s.bit .SYS_READY 42 && Fld.UART_CFG_EN.get s.uartCfgNow == 1

/-- Whether characters carry an even parity bit. -/
def State.uartParity (s : State) : Bool := Fld.UART_CFG_PARITY.get s.uartCfgNow == 1

/-- Even parity of a character: the exclusive or of its bits. -/
def evenParity (c : Nat) : Bool := (List.range 8).foldl (fun b i => b ^^ c.testBit i) false

/-- A write of UART_TX: into the shifter when that is free, else queued, or lost (R471). -/
def State.uartSend (s : State) (c : Nat) : State :=
  if !s.uartOn then s
  else if s.uartIdle then { s with uart := { s.uart with shift := some (c % 256) } }
  else if s.uart.tx.length < 64 then { s with uart := { s.uart with tx := s.uart.tx ++ [c % 256] } }
  else s.setFld .UART_STATUS Fld.UART_STATUS_TX_LOST 1

/-- UART_TX_EMPTY: the last queued character has been shifted out. -/
def State.uartDrain (s : State) : State :=
  if s.uartIdle then s else
    let cs := s.uart.shift.toList ++ s.uart.tx
    let s1 := cs.foldl (fun t c => t.emit (.uart c (if t.uartParity then some (evenParity c) else none))) s
    let s2 := { s1 with uart := { s1.uart with tx := [], shift := none, cfg := none } }
    if s.fld .UART_IRQ Fld.UART_IRQ_TX_EN = 1 then s2.uartIrq else s2

/-- UART_RX_CHARACTER (R469): what the receiver's samples read. -/
def State.uartReceive (s : State) (data : Nat) (parity stop : Bool) : State :=
  if !s.uartOn then s else
    let brk := data == 0 && !stop && (!s.uartParity || !parity)
    let pe := s.uartParity && parity != evenParity data
    let n (b : Bool) (k : Nat) : Nat := if b then 2 ^ k else 0
    let entry := n brk 10 + n (!stop) 9 + n pe 8 + data % 256
    let s1 := if brk then s.setFld .UART_STATUS Fld.UART_STATUS_BREAK 1 else s
    if 64 ≤ s.uart.rx.length then s1.setFld .UART_STATUS Fld.UART_STATUS_OVERRUN 1 else
      let s2 := { s1 with uart := { s1.uart with rx := s1.uart.rx ++ [entry] } }
      if s.uart.rx.isEmpty && s.fld .UART_IRQ Fld.UART_IRQ_RX_EN == 1 then s2.uartIrq else s2

/-- A write of UART_CFG (R468): a divisor below the lowest is ignored; a busy transmitter finishes under the old configuration. -/
def State.writeUartCfg (s : State) (v : Word) : State :=
  if Fld.UART_CFG_DIV.get v * 256 + Fld.UART_CFG_FRAC.get v < 32 * 256 + 171 then s
  else if s.uartIdle then s.wrAccess .UART_CFG v
  else { s.wrAccess .UART_CFG v with uart := { s.uart with cfg := some s.uartCfgNow } }

/-- A write of UART_IRQ: RX_EN set while a character waits raises the interrupt. -/
def State.writeUartIrq (s : State) (v : Word) : State :=
  let s1 := s.wrAccess .UART_IRQ v
  if s.fld .UART_IRQ Fld.UART_IRQ_RX_EN = 0 ∧ s1.fld .UART_IRQ Fld.UART_IRQ_RX_EN = 1 ∧ !s.uart.rx.isEmpty then s1.uartIrq else s1

/-! ### Commands -/

/-- TEST_LOGIC_RESET: IDCODE is selected and attachment ends. -/
def execTestLogicReset (s : State) : Out := always (fun t => t.tap 2 State.detachNow) s
/-- EXTEST: the cells that the boundary register drives, or BYPASS while no debugger is attached. -/
def execExtest (cells : List Bool) (s : State) : Out :=
  always (fun t => t.tap 0 fun t => if t.attached then { t with dbg := { t.dbg with cells := cells.take Config.boundaryCells } } else t.bypassed) s
/-- SAMPLE: the levels that the boundary cells capture. -/
def execSample (s : State) : Out :=
  always (fun t => t.tap 1 fun t => let d := t.draw Config.boundaryCells; d.2.capture Config.boundaryCells d.1) s
/-- IDCODE. -/
def execIdcode (s : State) : Out := always (fun t => t.tap 2 fun t => t.capture 32 idcodeWord) s
/-- BYPASS. -/
def execBypass (s : State) : Out := always (fun t => t.tap 0xFF State.bypassed) s
/-- NONCE. -/
def execNonce (s : State) : Out := always (fun t => t.tap 0x10 State.drawNonce) s
/-- AUTH. -/
def execAuth (mac : BitVec 256) (s : State) : Out := always (fun t => t.tap 0x11 fun t => t.authorise (leBytes 32 mac.toNat)) s
/-- LOCKOUT_END. -/
def execLockoutEnd (s : State) : Out := always State.endLockout s
/-- HALT: DBG_CTRL.HALT written by the Crook port. -/
def execHalt (s : State) : Out := always (fun t => if t.attached then t.writeDbgCtrl 1 else t) s
/-- RESUME: DBG_CTRL.RESUME written by the Crook port. -/
def execResume (s : State) : Out := always (fun t => if t.attached then t.writeDbgCtrl 2 else t) s
/-- RESUME_RESTART. -/
def execResumeRestart (s : State) : Out := always State.resumeAt s
/-- ALMANAC_RESTART. -/
def execAlmanacRestart (s : State) : Out := running (fun t => t.edgeIf t.restartDue State.restartAlmanac) s
/-- DETACH: DBG_CTRL.DETACH written by the Crook port. -/
def execDetach (s : State) : Out := always (fun t => if t.attached then t.writeDbgCtrl 4 else t) s
/-- SLEEP_EMULATION_END. -/
def execSleepEmulationEnd (s : State) : Out := running (fun t => t.edgeIf t.pwr.emulEnd State.endEmulation) s
/-- UART_TX. -/
def execUartTx (v : BitVec 64) (s : State) : Out := running (·.uartSend (v.toNat % 256)) s
/-- UART_RX_CHARACTER. -/
def execUartRxCharacter (data : BitVec 8) (parity stop : Bool) (s : State) : Out := running (·.uartReceive data.toNat parity stop) s
/-- UART_RX. -/
def execUartRx (s : State) : Out := running (fun t => t.uartRead.2) s
/-- UART_CFG. -/
def execUartCfg (v : BitVec 64) (s : State) : Out := running (·.writeUartCfg v) s
/-- UART_TX_EMPTY. -/
def execUartTxEmpty (s : State) : Out := running State.uartDrain s

end Sys2Proof.Machine
end

