-- ==== Sys2Proof/Machine/Prach.lean ====
section
/-!
DEFINITION. The PRACH search engines (R141 to R151): the checks of their releases, power-delay profiles, banks, detection and report
rings. How profile words, metrics, powers and timings are rounded is free (log 12).
-/
namespace Sys2Proof.Machine

/-- The NI of the PRACH search engines (R262). -/
def niPrach : Nat := 57

/-- A field of a PRA_CELL entry. -/
def State.praA (s : State) (i : Nat) (f : BitField) : Nat := s.fld (.PRA_CELL_A i) f

/-- Whether a FORMAT pair is one of R141. -/
def praFormats (f0 f1 : Nat) : Bool :=
  decide (f0 ≤ 12) && (f1 == 15 || (f0 == 4 && f1 == 7) || (f0 == 5 && f1 == 8) || (f0 == 6 && f1 == 9))

/-- Whether an entry is valid for a format select (R141, R151). -/
def State.praOk (s : State) (i sel : Nat) : Bool :=
  let f0 := s.praA i Fld.PRA_CELL_A_FORMAT0
  let f1 := s.praA i Fld.PRA_CELL_A_FORMAT1
  s.praA i Fld.PRA_CELL_A_VALID == 1 && praFormats f0 f1 && !(sel == 1 && f1 == 15) && decide (s.praA i Fld.PRA_CELL_A_SCS ≤ 5)
    && decide (s.praA i Fld.PRA_CELL_A_ROOT ≤ (if f0 ≤ 3 then 837 else 137))
    && decide (1 ≤ s.praA i Fld.PRA_CELL_A_NROOT) && decide (s.praA i Fld.PRA_CELL_A_NROOT ≤ 64)
    && decide (1 ≤ s.fld (.PRA_CELL_B i) Fld.PRA_CELL_B_ANT) && decide (s.fld (.PRA_CELL_B i) Fld.PRA_CELL_B_ANT ≤ 64)

/-- The format value in force for a format select. -/
def State.praFormat (s : State) (i sel : Nat) : Nat :=
  s.praA i (if sel = 1 then Fld.PRA_CELL_A_FORMAT1 else Fld.PRA_CELL_A_FORMAT0)

/-- N_CS from NCS_CFG, for formats 0 to 2, format 3 and the short formats (TS 38.211 tables 6.3.3.1-5 to 6.3.3.1-7). -/
def praNcs (format cfg : Nat) : Nat :=
  (if format ≤ 2 then [0, 13, 15, 18, 22, 26, 32, 38, 46, 59, 76, 93, 119, 167, 279, 419]
   else if format = 3 then [0, 13, 26, 33, 38, 41, 49, 55, 64, 76, 93, 119, 139, 209, 279, 419]
   else [0, 2, 4, 6, 8, 10, 12, 13, 15, 17, 19, 23, 27, 34, 46, 69]).getD cfg 0

/-- Sequence length L of a format (R141). -/
def praLength (format : Nat) : Nat := if format ≤ 3 then 839 else 139

/-- Repetitions n_seq of a format (R141). -/
def praRepetitions (format : Nat) : Nat := ([1, 2, 4, 4, 2, 4, 6, 2, 4, 6, 12, 1, 4] : List Nat).getD format 1

/-- N_pdp, the profile samples of a root (R144). -/
def praPdp (format : Nat) : Nat := if format ≤ 3 then 1024 else 256

/-- Cyclic shifts of a root: floor(L / N_CS), or 1 (R142). -/
def State.praShifts (s : State) (i sel : Nat) : Nat :=
  let f := s.praFormat i sel
  let n := praNcs f (s.praA i Fld.PRA_CELL_A_NCS_CFG)
  if n = 0 then 1 else praLength f / n

/-- How many preambles an entry searches (R142). -/
def State.praPreambles (s : State) (i sel : Nat) : Nat := min 64 (s.praA i Fld.PRA_CELL_A_NROOT * s.praShifts i sel)

/-- The physical root u of the n-th root of an entry, logical roots taken cyclically (TS 38.211 clause 6.3.3.1). -/
def State.praRoot (s : State) (i sel n : Nat) : Nat :=
  let logical := s.praA i Fld.PRA_CELL_A_ROOT + n
  if s.praFormat i sel ≤ 3 then (Config.prachLongRoot (logical % 838)).toNat
  else let k := logical % 138; if k % 2 = 0 then k / 2 + 1 else 138 - k / 2

/-- exp(2πj · m / n) for m from 0 to n − 1, in units of 2 ^ -96. -/
def turns (n : Nat) : Array Cplx := ((List.range n).map fun (m : Nat) => unitTurn (m : Int) n).toArray

/-- The transform of the sequence of root `u` and length `l` without cyclic shift, in units of 2 ^ -96 (TS 38.211 clause 6.3.3.1). -/
def rootSpectrum (u l : Nat) : List Cplx :=
  let w := turns l
  let at_ (k : Nat) : Cplx := w.getD ((l - k % l) % l) Cplx.zero
  let x := ((List.range l).map fun m => at_ (u * (m * (m + 1) / 2))).toArray
  (List.range l).map fun n =>
    ((List.range l).foldl (fun (a : Cplx) m => a.add ((x.getD m Cplx.zero).mul (at_ (m * n)))) Cplx.zero).map (· / 2 ^ 96)

/-- The power-delay profile of frequency-domain samples against a root, in samples squared. -/
def delayProfile (u l npdp : Nat) (ys : List Cplx) : List Rat :=
  let z := ((ys.zip (rootSpectrum u l)).map fun p => p.1.mul p.2.conj).toArray
  let w := turns npdp
  (List.range npdp).map fun m =>
    let v := (List.range l).foldl (fun (a : Cplx) n => a.add ((z.getD n Cplx.zero).mul (w.getD (n * m % npdp) Cplx.zero))) Cplx.zero
    mkRat (v.re * v.re + v.im * v.im) (2 ^ 384)

/-- The release in service on a PRACH engine for an OP_CODE, when its ARG passes R143; an ARG that does not freezes the engine. -/
def State.startPrach (s : State) (e op : Nat) : Option Release × State :=
  let s := s.whenServed 4 e 0 0
  match s.serving 4 e 0 0 with
  | none => (none, s)
  | some r =>
    let a := relArg r.word
    let i := bitsOf a 0 6
    if r.ran || relOp r.word != op then (none, s)
    else if bitsOf a 23 9 ≠ 0 ∨ !s.praOk i (bitsOf a 9 1)
        ∨ (op = 1 ∧ s.fld (.PRA_CELL_B i) Fld.PRA_CELL_B_ANT < bitsOf a 10 6 + bitsOf a 16 6 + 1) ∨ (op = 2 ∧ bitsOf a 10 13 ≠ 0) then
      (none, s.freeze 4 e 4 0 0)
    else (some r, s)

/-- First position of the occasion's symbol: the PRACH occurrence of the cell that closed last, else the release's own slot (R143). -/
def State.praOccasion (s : State) (r : Release) (cell : Nat) : Nat :=
  match SMap.get zeroNat s.fh.closed cell with
  | n + 1 => n
  | 0 => slotNamed (s.slotLen cell) s.pos (relSlotOfs r.word)

/-- The PRACH eAxC of an antenna of an entry, if the table has a matching one (R146, R149). -/
def State.praEaxc (s : State) (i ant : Nat) : Option Nat :=
  let n := s.praA i Fld.PRA_CELL_A_EAXC_BASE + ant
  if 1024 ≤ n ∨ s.eaxc n Fld.FHL_EAXC_VALID = 0 ∨ s.eaxc n Fld.FHL_EAXC_KIND ≠ 1
      ∨ s.eaxc n Fld.FHL_EAXC_CELL ≠ s.praA i Fld.PRA_CELL_A_CELL ∨ s.eaxc n Fld.FHL_EAXC_ANT ≠ ant then none else some n

/-- The symbol occurrences of an occasion's repetitions: n_seq of them, the governing window's the last (DESIGN CHOICE, log 12). -/
def State.praOccurrences (s : State) (i sel occ : Nat) : List Nat :=
  (List.range (praRepetitions (s.praFormat i sel))).map fun (k : Nat) =>
    posAdd occ (-((k * s.symLen (s.praA i Fld.PRA_CELL_A_CELL) : Nat) : Int))

/-- Whether some PRB of an antenna of an entry is missing at an occasion (R106, R146). -/
def State.praMissing (s : State) (i sel occ ant : Nat) : Bool :=
  match s.praEaxc i ant with
  | none => true
  | some n => (s.praOccurrences i sel occ).any fun o =>
      (List.range (s.eaxc n Fld.FHL_EAXC_NPRB)).any fun p => !(s.presence n o).testBit p

/-- RE `k` of an eAxC's PRACH PRBs at a symbol occurrence: zero where the PRB is missing. -/
def State.praSample (s : State) (n occ k : Nat) : Cplx :=
  if (s.presence n occ).testBit (k / 12) then
    let xs := SMap.get (fun _ => []) s.fh.prach (1024 * presenceKey n occ + k / 12)
    ⟨xs.getD (2 * (k % 12)) 0, xs.getD (2 * (k % 12) + 1) 0⟩
  else Cplx.zero

/-- The PRACH samples of an antenna with their repetitions summed: the sequence elements of an FDM occasion, whose NUM_PRBC PRBs follow
those of the occasions before it (DESIGN CHOICE, log 12). -/
def State.praAntenna (s : State) (i fdm sel occ n : Nat) : List Cplx :=
  let first := 12 * (fdm * s.fld (.PRA_CELL_C i) Fld.PRA_CELL_C_NUM_PRBC) + (Config.prachFirstRe (s.rd .ALM_ACTIVE_BUILD) i).toNat
  (List.range (praLength (s.praFormat i sel))).map fun k =>
    ((s.praOccurrences i sel occ).map fun o => s.praSample n o (first + k)).foldl Cplx.add Cplx.zero

/-- The profile of an entry's roots from one antenna's samples, root after root. -/
def State.praProfile (s : State) (i sel : Nat) (ys : List Cplx) : List Rat :=
  let f := s.praFormat i sel
  (List.range (s.praA i Fld.PRA_CELL_A_NROOT)).flatMap fun n =>
    (delayProfile (s.praRoot i sel n) (praLength f) (praPdp f) ys).map fun v => v * twoPow (-(Config.prachShift f : Int))

/-- Profiles of antennas added to a bank's words, which saturate at 32 bits. -/
def State.praAdd (s : State) (i fdm sel occ : Nat) (words : List Nat) : List Nat → List Nat × State
  | [] => (words, s)
  | ant :: ants => match s.praEaxc i ant with
    | none => State.praAdd s i fdm sel occ words ants
    | some n =>
      let z := s.roundFree (s.praProfile i sel (s.praAntenna i fdm sel occ n))
      State.praAdd z.2 i fdm sel occ ((words.zip z.1).map fun p => min (2 ^ 32 - 1) (p.1 + p.2.toNat)) ants

/-- The memory group of a PRACH engine (R286). -/
def prachGroup (e : Nat) : Nat := 55 + e

/-- The words of a bank's memory read through their code, two words of the profile to each (R288, R294): the error of the first that
cannot be corrected, or the profile. -/
def State.bankRead (s : State) (g base : Nat) (profile : Array Nat) : List Nat → Option MemErr × List Nat × State
  | [] => (none, [], s)
  | i :: is =>
    let w := (base + i) % groupWords g
    let data := profile.getD (2 * i) 0 % 2 ^ 32 + 2 ^ 32 * (profile.getD (2 * i + 1) 0 % 2 ^ 32)
    let go (wrong : Nat) (u : State) : Option MemErr × List Nat × State :=
      let rest := State.bankRead u g base profile is
      (rest.1, [(data ^^^ wrong) % 2 ^ 32, (data ^^^ wrong) / 2 ^ 32] ++ rest.2.1, rest.2.2)
    match checkWord (s.flips g w) with
    | .clean wrong => go wrong s
    | .corrected wrong syn => go wrong (s.noteCorrected g w syn)
    | .uncorrectable syn => (some ⟨g, wordAddr g w, false⟩, [], s.noteUncorrectable g w syn)

/-- A bank of engine `e` read from memory. -/
def State.readBank (s : State) (e : Nat) (b : Bank) : Option MemErr × List Nat × State :=
  s.bankRead (prachGroup e) (Config.prachBank (s.rd .ALM_ACTIVE_BUILD) b.entry b.fdm b.sel).toNat b.profile.toArray
    (List.range (ceilDiv b.profile.length 2))

/-- What engine `e` has of a profile: a bank read from memory, or `size` words of zero. -/
def State.heldBank (s : State) (e size : Nat) : Option Bank → Option MemErr × List Nat × State
  | some b => s.readBank e b
  | none => (none, List.replicate size 0, s)

/-- A bank of engine `e` written to memory, word by word (R294). -/
def State.writeBank (s : State) (e : Nat) (b : Bank) : State :=
  let base := (Config.prachBank (s.rd .ALM_ACTIVE_BUILD) b.entry b.fdm b.sel).toNat
  (List.range (ceilDiv b.profile.length 2)).foldl (fun t i => t.freshWord (prachGroup e) ((base + i) % groupWords (prachGroup e))) s

/-- ACCUM on PRACH engine `e` (R143). -/
def State.praAccum (s : State) (e : Nat) : State :=
  match s.startPrach e 1 with
  | (none, t) => t
  | (some r, t) =>
    let a := relArg r.word
    let i := bitsOf a 0 6
    let occ := t.praOccasion r (t.praA i Fld.PRA_CELL_A_CELL)
    let ants := (List.range (bitsOf a 16 6 + 1)).map fun k => bitsOf a 10 6 + k
    let old := if bitsOf a 22 1 = 1 then none else t.pra.banks.find? fun b => b.key == bankKey r
    let bits := ants.foldl (fun m k => if m.testBit k then m else m + 2 ^ k) ((old.map (·.ants)).getD 0)
    let sel := bitsOf a 9 1
    let miss := ants.any (t.praMissing i sel occ) || (old.map (·.missing)).getD false
    let size := t.praA i Fld.PRA_CELL_A_NROOT * praPdp (t.praFormat i sel)
    let held := t.heldBank e size old
    match held.1 with
    | some x => held.2.2.uncorrectables [x] none
    | none =>
      let pr := held.2.2.praAdd i (bitsOf a 6 3) sel occ held.2.1 ants
      let b : Bank := { eng := e, entry := i, fdm := bitsOf a 6 3, sel := sel, ants := bits, missing := miss, occ := occ, profile := pr.1 }
      let u := pr.2.writeBank e b
      { u with pra := { u.pra with banks := (u.pra.banks.filter fun (x : Bank) => x.key != bankKey r) ++ [b] } }.markRan r

/-- The 32 bytes of a record without PHASE and TIME (R147). -/
def praBytes (peak degraded : Bool) (cell occId index format level timing power : Nat) : List Byte :=
  leBytes 1 (if peak then 1 else 0) ++ leBytes 1 (if degraded then 2 else 0) ++ leBytes 2 cell ++ leBytes 4 occId ++ leBytes 1 index
    ++ leBytes 1 format ++ leBytes 2 level ++ leBytes 4 timing ++ leBytes 2 power ++ List.replicate 14 0

/-- The greatest tenth of a dB, from -2,048, at which 10 ^ (n / 100) is at most a / b. -/
def tenthDb (a b : Nat) : Int :=
  (((List.range 4096).filter fun (k : Nat) => powLe b a 100 (2048 - (k : Int))).length : Nat) - 2049

/-- A ratio in tenths of a dB, rounded down or up; free where it has no logarithm. -/
def State.ratioDb (s : State) (a b : Nat) : Int × State :=
  let v := s.draw 16
  if a = 0 ∨ b = 0 then (signedOf 16 v.1, v.2) else
    let n := tenthDb a b
    (n + (if v.1.testBit 0 ∧ !(powLe a b 100 n && powLe b a 100 (-n)) then 1 else 0), v.2)

/-- The positions of a preamble's cyclic-shift window in the profile of its root: a sequence of shift C_v that arrives after d samples
peaks at (d − C_v) · N_pdp / L. The window's rounding is a DESIGN CHOICE (log 12). -/
def State.praWindow (s : State) (i sel shift : Nat) : Nat × Nat :=
  let f := s.praFormat i sel
  let ncs := praNcs f (s.praA i Fld.PRA_CELL_A_NCS_CFG)
  let n := praPdp f
  if ncs = 0 then (0, n) else ((n - shift * ncs * n / praLength f % n) % n, max 1 (ncs * n / praLength f))

/-- Tc in the length of a sequence, by SCS code. -/
def praSpan (scs : Nat) : Nat := ([1572864, 393216, 131072, 65536, 32768, 16384] : List Nat).getD scs 0

/-- TIMING of a peak at place `d` of its window, refined by a parabola through three profile samples (R146); free where it falls outside
20 bits. -/
def State.praTiming (s : State) (i sel d a b c : Nat) : Nat × State :=
  let v := s.draw 21
  let den : Int := 2 * ((a : Int) - 2 * b + c)
  let fine : Rat := if den = 0 then 0 else mkRat ((a : Int) - c) 1 / (den : Rat)
  let t : Rat := ((d : Rat) + fine) * (praSpan (s.praA i Fld.PRA_CELL_A_SCS) : Nat) / (praPdp (s.praFormat i sel) : Nat)
  let n := t.floor + (if t.den ≠ 1 ∧ v.1.testBit 20 then 1 else 0)
  (if n < 0 ∨ 2 ^ 20 ≤ n then v.1 % 2 ^ 20 else n.toNat, v.2)

/-- What a bank shows of a preamble: the place of the peak in its window, and the profile samples before it, at it and after it. -/
def State.praPeak (s : State) (i sel : Nat) (profile : Array Nat) (p : Nat) : Nat × Nat × Nat × Nat :=
  let n := praPdp (s.praFormat i sel)
  let root := p / s.praShifts i sel
  let w := s.praWindow i sel (p % s.praShifts i sel)
  let at_ (m : Nat) : Nat := profile.getD (root * n + m % n) 0
  let best := (List.range w.2).foldl (fun (m : Nat) d => if at_ (w.1 + m) < at_ (w.1 + d) then d else m) 0
  (best, at_ (w.1 + best + n - 1), at_ (w.1 + best), at_ (w.1 + best + 1))

/-- The preambles of a bank judged in turn: one is reported when its METRIC is at least THRESH (R146). The noise is `sum` / `count`. -/
def State.praPeaks (s : State) (e i sel : Nat) (profile : Array Nat) (sum count : Nat) (rec : Nat → Nat → Nat → Nat → PraRec) :
    List Nat → List PraRec × State
  | [] => ([], s)
  | p :: ps =>
    let k := s.praPeak i sel profile p
    let metric := s.ratioDb (k.2.2.1 * count) sum
    let timing := metric.2.praTiming i sel k.1 k.2.1 k.2.2.1 k.2.2.2
    let power := timing.2.ratioDb k.2.2.1 (Config.prachFull (s.praFormat i sel) + 1)
    let rest := State.praPeaks power.2 e i sel profile sum count rec ps
    ((if (s.fld (.PRA_CELL_B i) Fld.PRA_CELL_B_THRESH : Int) ≤ metric.1 then
      [rec p (unsignedOf 16 metric.1) timing.1 (unsignedOf 16 power.1)] else []) ++ rest.1, rest.2)

/-- DETECT on PRACH engine `e` (R143, R146, R147). -/
def State.praDetect (s : State) (e : Nat) : State :=
  match s.startPrach e 2 with
  | (none, t) => t
  | (some r, t) =>
    let a := relArg r.word
    let i := bitsOf a 0 6
    let sel := bitsOf a 9 1
    let cell := t.praA i Fld.PRA_CELL_A_CELL
    let occ := t.praOccasion r cell
    let bank := t.pra.banks.find? fun b => b.key == bankKey r
    let ants := (bank.map (·.ants)).getD 0
    let degraded := (bank.map (·.missing)).getD true
      || (List.range (t.fld (.PRA_CELL_B i) Fld.PRA_CELL_B_ANT)).any fun k => !ants.testBit k
    let ring := t.praA i Fld.PRA_CELL_A_RING
    let occId := occ / 1120 % 2 ^ 20 + 2 ^ 20 * (occ % 1120 / t.slotLen cell % 128) + 2 ^ 27 * bitsOf a 6 3
    let format := t.praFormat i sel
    let held := t.heldBank e 0 bank
    match held.1 with
    | some x => held.2.2.uncorrectables [x] none
    | none =>
      let profile := held.2.1.toArray
      let size := t.praA i Fld.PRA_CELL_A_NROOT * praPdp format
      let sum := profile.foldl (· + ·) 0
      let pk := held.2.2.praPeaks e i sel profile sum size (fun p metric timing power =>
        ⟨e, ring, true, praBytes true degraded cell occId p format metric timing power⟩) (List.range (t.praPreambles i sel))
      let noise := pk.2.ratioDb sum (size * (Config.prachFull format + 1))
      let last : PraRec := ⟨e, ring, false, praBytes false degraded cell occId pk.1.length format (unsignedOf 16 noise.1) 0 0⟩
      { noise.2 with pra := { banks := noise.2.pra.banks.filter fun (x : Bank) => x.key != bankKey r
                              posts := noise.2.pra.posts ++ pk.1 ++ [last] } }.markRan r

/-- One record posted to its report ring, or dropped and counted (R147, R148). -/
def State.praPost (s : State) (p : PraRec) : State :=
  let r := p.ring
  let size := 2 ^ s.fld (.PRA_RING_CFG r) Fld.PRA_RING_CFG_LOG2_SIZE
  let pi := s.fld (.PRA_RING_PI r) Fld.PRA_RING_PI_INDEX
  let held := (pi + 2 ^ 16 - s.fld (.PRA_RING_DB r) Fld.PRA_RING_DB_INDEX) % 2 ^ 16
  if s.fld (.PRA_RING_CFG r) Fld.PRA_RING_CFG_ENABLE = 0 ∨ size ≤ held then s.bump (.PRA_STATS r) Fld.PRA_STATS_DROPS else
    let phase := s.fld (.PRA_RING_PI r) Fld.PRA_RING_PI_PHASE
    let flags := leAt p.bytes 1 1 + phase
    let bytes := slice p.bytes 0 1 ++ leBytes 1 flags ++ slice p.bytes 2 22 ++ leBytes 8 s.now.toNat
    let s1 := s.write70 niPrach ((s.rd (.PRA_RING_BASE r)).toNat + pi % size * 32) bytes
    let s2 := s1.setFld (.PRA_RING_PI r) Fld.PRA_RING_PI_INDEX ((pi + 1) % 2 ^ 16)
    let s3 := if (pi + 1) % size = 0 then s2.setFld (.PRA_RING_PI r) Fld.PRA_RING_PI_PHASE (1 - phase) else s2
    let s4 := if p.peak then s3.bump (.PRA_STATS r) Fld.PRA_STATS_PEAKS else s3
    s4.countRecord (16 + r) (s.fld (.PRA_RING_CFG r) Fld.PRA_RING_CFG_VECTOR) (s.fld (.PRA_RING_CFG r) Fld.PRA_RING_CFG_COAL_TICKS)
      (s.fld (.PRA_RING_CFG r) Fld.PRA_RING_CFG_COAL_COUNT)

/-- The records of engine `e` that wait are posted. -/
def State.praRecords (s : State) (e : Nat) : State :=
  let mine := s.pra.posts.filter fun p => p.eng == e
  mine.foldl (fun t p => t.praPost p) { s with pra := { s.pra with posts := s.pra.posts.filter fun (p : PraRec) => p.eng != e } }

/-- A write of PRA_RING_CFG (R151). -/
def State.writePraCfg (s : State) (r : Nat) (v : Word) : State :=
  let size := Fld.PRA_RING_CFG_LOG2_SIZE.get v
  if size < 4 ∨ 12 < size then s else
    let s1 := s.wrAccess (.PRA_RING_CFG r) v
    if s.fld (.PRA_RING_CFG r) Fld.PRA_RING_CFG_ENABLE = 0 ∧ Fld.PRA_RING_CFG_ENABLE.get v = 1 then
      let s2 := ((s1.setFld (.PRA_RING_DB r) Fld.PRA_RING_DB_INDEX 0).setFld (.PRA_RING_PI r) Fld.PRA_RING_PI_INDEX 0).setFld
        (.PRA_RING_PI r) Fld.PRA_RING_PI_PHASE 1
      { s2 with drv := { s2.drv with coal := SMap.set (fun _ => (0, 0)) s2.drv.coal (16 + r) (0, 0) } }
    else s1

/-- STAT_CLR of PRA_CTRL (R151). -/
def State.clearPra (s : State) : State := (List.range 4).foldl (fun t r => t.wr (.PRA_STATS r) 0) s

/-! ### Commands -/

/-- ACCUM. -/
def execAccum (e : Fin 4) (s : State) : Out := running (fun t => t.praAccum e) s
/-- DETECT. -/
def execDetect (e : Fin 4) (s : State) : Out := running (fun t => t.praDetect e) s
/-- PRA_RECORD_POST. -/
def execPraRecordPost (e : Fin 4) (s : State) : Out := running (fun t => t.praRecords e) s
/-- PRA_RING_DB. -/
def execPraRingDb (r : Fin 4) (v : BitVec 64) (s : State) : Out := running (fun t => t.wrAccess (.PRA_RING_DB r) v) s
/-- PRA_RING_CFG. -/
def execPraRingCfg (r : Fin 4) (v : BitVec 64) (s : State) : Out := running (fun t => t.writePraCfg r v) s
/-- PRA_STAT_CLR. -/
def execPraStatClr (s : State) : Out := running (State.clearPra) s

end Sys2Proof.Machine
end

