-- ==== Sys2Proof/Machine/RegIf.lean ====
section
/-!
DEFINITION. The register space (R5 to R9, R284): what a write does to each register and what a read answers, with the operations that
registers start, and writes of several master ports in one core cycle.
-/
namespace Sys2Proof.Machine

/-! ### Writes -/

/-- A bit of a value written. -/
def wrote (f : BitField) (v : Word) : Bool := f.get v == 1

/-- A step taken when a written bit asks for it. -/
def State.onBit (s : State) (f : BitField) (v : Word) (g : State → State) : State := if wrote f v then g s else s

/-- A write of ALM_CTRL (R43, R56). -/
def State.writeAlmCtrl (s : State) (v : Word) : State :=
  ((s.onBit Fld.ALM_CTRL_STAT_CLR v fun t => t.wr .ALM_STATS 0).onBit Fld.ALM_CTRL_ABORT v State.abortLoad).onBit Fld.ALM_CTRL_START v
    State.startLoad

/-- A write of ALM_SWAP_CTRL (R48, R49). -/
def State.writeSwapCtrl (s : State) (v : Word) : State :=
  (s.onBit Fld.ALM_SWAP_CTRL_DISARM v State.disarm).onBit Fld.ALM_SWAP_CTRL_ARM v fun t => t.armSwap (wrote Fld.ALM_SWAP_CTRL_POOL v)

/-- A write of MEM_DDR_CFG: SIZE 3 is ignored (R287). -/
def State.writeDdrCfg (s : State) (c : Nat) (v : Word) : State :=
  if Fld.MEM_DDR_CFG_SIZE.get v = 3 then s else s.wrAccess (.MEM_DDR_CFG c) v

/-- PWR_CTRL.STAT_CLR (R418). -/
def State.clearPwr (s : State) : State := s.wr .PWR_STATS 0

/-- A write of SYS_THERM (R5, R438): the register takes what is written, and THERM_N is judged afresh. -/
def State.writeTherm (s : State) (v : Word) : State := (s.wrAccess .SYS_THERM v).judgeTherm

/-- A write of an MSI-X table entry: a vector that was pending is posted when its mask is cleared (R433). -/
def State.writeMsixCtrl (s : State) (i : Nat) (v : Word) : State :=
  let s1 := s.wrAccess (.HST_MSIX_CTRL i) v
  if s1.fld (.HST_MSIX_CTRL i) Fld.HST_MSIX_CTRL_MASK = 0 ∧ s1.bit .HST_PBA i then (s1.setBit .HST_PBA i false).msix i else s1

/-- A write of ALM_SWAP_FRAME: ignored while a swap is armed (R48, R56). -/
def State.writeSwapFrame (s : State) (v : Word) : State :=
  if s.fld .ALM_SWAP_STATUS Fld.ALM_SWAP_STATUS_ARMED = 1 then s else s.wrAccess .ALM_SWAP_FRAME v

/-- A write of TIM_STEP_ARM (R389): DISARM prevails over ARM. -/
def State.writeStepArm (s : State) (v : Word) : State :=
  (s.wrAccess .TIM_STEP_ARM v).onBit Fld.TIM_STEP_ARM_DISARM v fun t => t.setFld .TIM_STEP_ARM Fld.TIM_STEP_ARM_ARM 0

/-- A write of a register by a master port of R284. A register with no behaviour of its own takes the value that its access codes let
through (R5). -/
def State.regWrite (s : State) (port : Nat) (r : Reg) (v : Word) : State :=
  match r with
  | .ALM_CTRL => s.writeAlmCtrl v
  | .ALM_SWAP_CTRL => s.writeSwapCtrl v
  | .ALM_SWAP_FRAME => s.writeSwapFrame v
  | .DRV_CTRL => s.onBit Fld.DRV_CTRL_STAT_CLR v State.clearDrv
  | .DRV_RQ_CFG q => s.writeRqCfg q v
  | .DRV_RQ_DB q => s.writeRqDb q v
  | .DRV_CQ_CFG q => s.writeCqCfg q v
  | .FHL_CTRL => (s.wrAccess .FHL_CTRL v).onBit Fld.FHL_CTRL_STAT_CLR v State.clearFhl
  | .FHL_DLY_CTRL => s.writeDlyCtrl v
  | .FHL_PORT_CFG p => s.writePort p v
  | .MCE_CTRL => s.onBit Fld.MCE_CTRL_STAT_CLR v State.clearMce
  | .PRA_CTRL => s.onBit Fld.PRA_CTRL_STAT_CLR v State.clearPra
  | .PRA_RING_CFG i => s.writePraCfg i v
  | .DEC_CTRL => s.onBit Fld.DEC_CTRL_STAT_CLR v State.clearDec
  | .NOC_CTRL => s.onBit Fld.NOC_CTRL_STAT_CLR v State.clearNoc
  | .NOC_RT_DATA => s.writeRtData v
  | .NOC_ISOLATE i => s.writeIsolate i v
  | .NOC_RELEASE i => s.writeRelease i v
  | .MEM_CTRL => s.onBit Fld.MEM_CTRL_STAT_CLR v State.clearMem
  | .MEM_DDR_CFG c => s.writeDdrCfg c v
  | .MOV_CTRL => s.onBit Fld.MOV_CTRL_STAT_CLR v State.clearMov
  | .MOV_CH_CFG e h => s.writeMovCfg e h v
  | .MOV_CH_SRC e h => s.writeShadow (.MOV_CH_SRC e h) e h v
  | .MOV_CH_DST e h => s.writeShadow (.MOV_CH_DST e h) e h v
  | .MOV_CH_XFER e h => s.writeXfer e h v
  | .MOV_CH_RING e h => s.writeRing e h v
  | .DRL_CTRL => (s.wrAccess .DRL_CTRL v).onBit Fld.DRL_CTRL_STAT_CLR v State.clearDrl
  | .DRL_GRP_CFG g => s.writeGrpCfg g v
  | .DRL_GRP_LANES g => s.writeGrpLanes g v
  | .FAB_CTRL => s.writeFabCtrl v
  | .FAB_MSG_TX => s.writeMsgTx v
  | .FAB_RX_CFG => s.writeRingCfg .FAB_RX_CFG v
  | .SDS_CTRL => (s.wrAccess .SDS_CTRL v).onBit Fld.SDS_CTRL_STAT_CLR v State.clearSds
  | .SDS_QUAD_CFG q => s.writeQuadCfg q v
  | .SDS_LANE_CFG l => s.writeLaneCfg l v
  | .SDS_LANE_FFE l => s.writeFfe l v
  | .SDS_LANE_PRBS l => s.writePrbs l v
  | .TIM_CTRL => (s.wrAccess .TIM_CTRL v).onBit Fld.TIM_CTRL_STAT_CLR v State.clearTim
  | .TIM_CFG => s.writeTimCfg v
  | .TIM_STEP_ARM => s.writeStepArm v
  | .TIM_VREF_SUB => s.commitSample v
  | .TIM_RX_CFG => s.writeRingCfg .TIM_RX_CFG v
  | .TIM_TX_CFG => s.writeRingCfg .TIM_TX_CFG v
  | .TIM_REF_CFG i => s.writeRefCfg i v
  | .TIM_OUT_STEP o => s.addOutStep o v
  | .TIM_EVT_CMP n => s.writeEvtCmp n v
  | .TIM_EVT_CTRL n => s.writeEvtCtrl n v
  | .PWR_CTRL => (s.wrAccess .PWR_CTRL v).onBit Fld.PWR_CTRL_STAT_CLR v State.clearPwr
  | .PWR_AVS_CFG i => (s.wrAccess (.PWR_AVS_CFG i) v).refreshRails 3
  | .PWR_FORCE_ON i => s.writeForceOn i v
  | .PWR_DOM_CFG d => s.writeDomCfg d v
  | .SYS_CTRL => s.writeSysCtrl v
  | .SYS_BOOT_CTRL => s.onBit Fld.SYS_BOOT_CTRL_GO v State.bootGo
  | .SYS_THERM => s.writeTherm v
  | .HST_MSIX_CTRL i => s.writeMsixCtrl i v
  | .FLT_CTRL => (s.wrAccess .FLT_CTRL v).onBit Fld.FLT_CTRL_STAT_CLR v fun t => t.wr .FLT_STATS 0
  | .FLT_STATUS => s.writeFltStatus v
  | .FLT_UNIT_CTRL => s.writeUnitCtrl v
  | .DBG_CTRL => if port = 0 then s.writeDbgCtrl v else s
  | .UART_CFG => s.writeUartCfg v
  | .UART_TX => s.uartSend (v.toNat % 256)
  | .UART_IRQ => s.writeUartIrq v
  | r => s.wrAccess r v

/-! ### Reads -/

/-! ### Addresses -/

/-- Offset in the core window of a BAR0 offset, when it lies there (R470). -/
def coreWindow (off : Nat) : Option Nat := if 0x0F2000 ≤ off ∧ off < 0x0F4000 then some (off - 0x0F2000) else none

/-- A full-width write at a BAR0 offset (R7, R9): an offset that names no register ignores it. -/
def State.writeAt (s : State) (port off : Nat) (v : Word) : State :=
  match coreWindow off with
  | some w => if s.halted then s.writeWindow w v.toNat else s
  | none => match regAt off with
    | some r => s.regWrite port r v
    | none => s

/-- A full-width read at a BAR0 offset (R7, R9): an offset that names no register reads 0. -/
def State.readAt (s : State) (off : Nat) : Word × State :=
  match coreWindow off with
  | some w => (if s.halted then BitVec.ofNat 64 (s.readWindow w) else 0, s)
  | none => match regAt off with
    | some r => s.regRead r
    | none => (0, s)

/-- Bytes written to the register space (R7): an aligned access of 8 bytes acts, and an aligned one of 4 bytes on the MSI-X table and
PBA, whose other half keeps what it holds; every other access changes nothing. -/
def State.regBytes (s : State) (port off : Nat) (bs : List Byte) : State :=
  if bs.length = 8 ∧ off % 8 = 0 then s.writeAt port off (BitVec.ofNat 64 (leNat bs))
  else if bs.length = 4 ∧ off % 4 = 0 ∧ msixArea off then
    s.writeAt port (off / 8 * 8)
      (BitVec.ofNat 64 (setBitsOf (s.readAt (off / 8 * 8)).1.toNat (off % 8 * 8) 32 (leNat bs)))
  else s

/-- Bytes read from the register space (R7): as `regBytes`; an access of another width or alignment reads 0. -/
def State.regRange (s : State) (off n : Nat) : List Byte × State :=
  if n = 8 ∧ off % 8 = 0 then
    let r := s.readAt off
    (leBytes 8 r.1.toNat, r.2)
  else if n = 4 ∧ off % 4 = 0 ∧ msixArea off then
    (leBytes 4 (bitsOf (s.readAt (off / 8 * 8)).1.toNat (off % 8 * 8) 32), s)
  else (List.replicate n 0, s)

/-! ### Writes of one core cycle (R284) -/

/-- Whether a write reaches a register: an access of its full width at an address that names one (R7). -/
def fullWidth (w : RegWrite) : Bool :=
  decide (regBase ≤ w.addr.toNat)
    && (w.data.length == 8 && w.addr.toNat % 8 == 0
        && ((regAt (w.addr.toNat - regBase)).isSome || (coreWindow (w.addr.toNat - regBase)).isSome)
      || w.data.length == 4 && w.addr.toNat % 4 == 0 && msixArea (w.addr.toNat - regBase))

/-- The lowest register address that two or more ports write, with a mask of those ports. -/
def collision (ws : List RegWrite) : Option (Nat × Nat) :=
  let full := ws.filter fullWidth
  let at_ (a : Nat) : List Nat := ((full.filter fun w => w.addr.toNat == a).map fun w => w.port.val).eraseDups
  let hit := (full.map fun w => w.addr.toNat).filter fun a => decide (2 ≤ (at_ a).length)
  hit.min?.map fun a => (a, ((at_ a).map (2 ^ ·)).sum)

/-- SYS_COLLIDE after the writes of a core cycle. -/
def State.latchCollision (s : State) (ws : List RegWrite) : State :=
  match collision ws with
  | some (a, m) => s.wr .SYS_COLLIDE (BitVec.ofNat 64 (2 ^ 63 + 2 ^ 48 * m + a))
  | none => s

/-- The reads that fall in one core cycle with writes: each returns the value from before the writes. -/
def State.readsOf (s : State) (as : List Nat) : State :=
  as.foldl (fun t a =>
    let r : List Byte × State := if regBase ≤ a then t.regRange (a - regBase) 8 else ([], t)
    r.2.emit (.registerRead a (leNat r.1))) s

/-- The writes of one core cycle, in ascending port order; the last to an address stands. -/
def State.writesOf (s : State) (ws : List RegWrite) : State :=
  ([0, 1, 2, 3, 4].foldl (fun t p => (ws.filter fun w => w.port.val == p && fullWidth w).foldl (fun u w =>
    u.regBytes p (w.addr.toNat - regBase) w.data) t) s).latchCollision ws

end Sys2Proof.Machine
end

