-- ==== Sys2Proof/Machine/Bus.lean ====
section
/-!
DEFINITION. Accesses that reach registers as well as memory: packets at their targets (R264, R268, R278 to R280), the host's BAR
accesses (R302, R433), the Crook port's accesses (R463), the control cores' uncached accesses; and the commands of the power domains,
whose wakes let held packets go.
-/
namespace Sys2Proof.Machine

/-- Master port of the register space that an NI's accesses use (R284). -/
def portOfNi (ni : Nat) : Nat := if ni = 76 then 2 else if ni = 77 then 3 else 4

/-! ### Packets at their target -/

/-- Whether the memory behind a packet's target holds every byte that the packet names (R263, R286). -/
def State.ownsBytes (s : State) (p : Packet) : Bool :=
  let a := p.addr.toNat % 2 ^ 48
  !p.space && s.targetNi a == some p.dst.toNat && s.targetNi (a + p.len.toNat) == some p.dst.toNat

/-- A READ served by a memory (R264, R294). -/
def State.readAtTarget (s : State) (p : Packet) : State :=
  let n := p.len.toNat + 1
  if !s.ownsBytes p then s.respond p stDecode []
  else
    let r := s.readMem (p.addr.toNat % 2 ^ 48) (n + 1) n
    match r.1 with
    | some bytes => r.2.1.respond p stOk bytes
    | none => (r.2.1.uncorrectables r.2.2 none).respond p stEcc []

/-- A WRITE or WRITE_ACK served by a memory. -/
def State.writeAtTarget (s : State) (p : Packet) : State :=
  if !s.ownsBytes p then s.respond p stDecode []
  else
    let r := s.targetWrite (p.addr.toNat % 2 ^ 48) (bytesAt p.data 0 (p.len.toNat + 1))
    (r.2.uncorrectables r.1.errs none).respond p r.1.status []

/-- A request at NI 78, the register space (R7, R284). -/
def State.registersServe (s : State) (p : Packet) : State :=
  let off := p.addr.toNat % 2 ^ 48 - regBase
  if s.place (p.addr.toNat % 2 ^ 48) ≠ .reg then s.respond p stDecode []
  else if p.type.toNat = pktRead then
    let r := s.regRange off (p.len.toNat + 1)
    r.2.respond p stOk r.1
  else (s.regBytes (portOfNi p.src.toNat) off (bytesAt p.data 0 (p.len.toNat + 1))).respond p stOk []

/-- A request at NI 77, the PCI Express endpoint (R434, R485). -/
def State.hostServe (s : State) (p : Packet) : State :=
  if !p.space then s.respond p stDecode []
  else if p.type.toNat = pktRead then
    if !s.linkUp then s.failHostRead p stIsolated
    else { s with sys := { s.sys with hostReads := s.sys.hostReads ++ [p] } }.emit (.hostRead p.addr.toNat (p.len.toNat + 1))
  else (s.hostWrite p.addr.toNat (bytesAt p.data 0 (p.len.toNat + 1))).respond p stOk []

/-- A response at the NI of its master: a Move engine takes its transfer on; the others have their answers within their commands. -/
def State.takeResponse (s : State) (p : Packet) : State :=
  let n := p.dst.toNat
  if 58 ≤ n ∧ n ≤ 65 then s.movResponse (n - 58) p.tag.toNat p.status.toNat p.data else s

/-- A packet that its target NI takes. -/
def State.serveAt (s : State) (p : Packet) : State :=
  let n := p.dst.toNat
  if isResponse p then s.takeResponse p
  else if pktWriteAck < p.type.toNat then s
  else if n = 74 then s.fabricRequest p
  else if n = 77 then s.hostServe p
  else if n = 78 then s.registersServe p
  else if p.type.toNat = pktRead then s.readAtTarget p
  else s.writeAtTarget p

/-- The wakes that packets in front of ejection links ask for (R278). -/
def State.askWakes (s : State) : State :=
  s.noc.flight.zipIdx.foldl (fun t w =>
    if w.1.held ≠ 1 then t else
      let u := { t with noc := { t.noc with flight := t.noc.flight.set w.2 { w.1 with held := 2 } } }
      match w.1.eject with
      | some n => u.demandWake (domainOfNi n)
      | none => u) s

/-- Whether a packet is on its way: in the network, and not waiting for a wake. -/
def State.underway (s : State) (p : Packet) : Bool :=
  s.noc.flight.any fun w => w.pkt == p && (w.held == 0 || s.domOpen (domainOfNi p.dst.toNat))

/-- Core cycles pass until a packet arrives, while it is on its way. -/
def State.carry (p : Packet) : Nat → State → State
  | 0, s => s
  | fuel + 1, s =>
    if s.noc.arrived.contains p || !s.underway p || decide (13999 ≤ s.tm.cycle) then s
    else State.carry p fuel (s.passTo (s.tm.cycle + 1)).askWakes

/-- Whether a packet that has arrived is the next of its source, route entry and channel: its target applies those in order (R283). -/
def State.nextArrived (s : State) (p : Packet) : Bool :=
  (s.noc.arrived.find? fun q => q.src == p.src && q.ridx == p.ridx && q.ch == p.ch) == some p

/-- Whether a BAR2 write of the host is still in the network (R302). -/
def State.hostWriteHeld (s : State) : Bool :=
  (s.noc.flight.map (·.pkt) ++ s.noc.arrived).any fun p => p.src.toNat == 77 && !isResponse p && p.type.toNat != pktRead

/-- BAR0 writes forwarded once every earlier BAR2 write is acknowledged (R302). -/
def State.flushBar (s : State) : State :=
  if s.hostWriteHeld then s else
    s.sys.barHeld.foldl (fun t w => t.regBytes 3 w.1 w.2) { s with sys := { s.sys with barHeld := [] } }

/-- The core cycles that a packet may take within its command. -/
def carryMost : Nat := 512

/-- A packet: injected by its source where the network does not hold it, and brought to its target, which takes it once it has arrived.
One that waits, for a wake or behind other packets, stays where it is (log 10). -/
def State.deliverPacket (s : State) (p : Packet) : State :=
  let here := s.noc.arrived.contains p || s.noc.flight.any fun w => w.pkt == p
  let s1 := State.carry p carryMost (if here then s else s.inject p)
  if s1.nextArrived p then
    (s1.attempt fun t => ({ t with noc := { t.noc with arrived := t.noc.arrived.erase p } }).serveAt p).flushBar
  else s1

/-! ### The host's BARs (R433) -/

/-- Device address of a BAR2 offset; the rest of the BAR has none. -/
def bar2Addr (o : Nat) : Option Nat :=
  if o < 2 ^ 36 then some (ddrBase + o)
  else if o < 2 ^ 36 + pastureSize then some (pastureBase + (o - 2 ^ 36)) else none

/-- HOST_BAR_WRITE. -/
def State.barWrite (s : State) (bar2 : Bool) (o : Nat) (data : List Byte) : State :=
  if !s.barServed then s
  else if bar2 then
    match bar2Addr o with
    | none => s
    | some a =>
      let r := s.agentPost 77 a data
      r.2.replyErrors r.1 none
  else if s.hostWriteHeld then { s with sys := { s.sys with barHeld := s.sys.barHeld ++ [(o, data)] } }
  else s.regBytes 3 o data

/-- HOST_BAR_READ. -/
def State.barRead (s : State) (bar2 : Bool) (o n : Nat) : State :=
  if !s.barServed then s
  else if bar2 then
    match bar2Addr o with
    | none => s.emit (.hostCompletion true (List.replicate n 0))
    | some a =>
      let r := s.agentRead 77 a n
      (r.2.replyErrors r.1 none).emit (.hostCompletion (r.1.status == stOk) r.1.data)
  else
    let r := s.regRange o n
    r.2.emit (.hostCompletion true r.1)

/-! ### The Crook port's accesses (R463) -/

/-- STATUS values of R463. -/
def crookOk : Nat := 0
def crookBusy : Nat := 1
def crookNotHalted : Nat := 2
def crookDecode : Nat := 3
def crookEcc : Nat := 4
def crookLocked : Nat := 5

/-- The outcome of an access, for the next capture. -/
def State.crookResult (s : State) (data : Word) (status : Nat) : State :=
  { s with dbg := { s.dbg with access := none, result := (data, status) } }

/-- An access of the Crook port performed (R463): one aligned 64-bit access. DESIGN CHOICE (log 24): an ADDR that is no multiple of 8 names
the 8 bytes that hold it. A write that
R183 refuses is dropped, with a STATUS that the spec leaves open; an uncorrectable word that it meets is recorded as for one (R291,
R294). -/
def State.crookAccess (s : State) (c : CrookAcc) : State :=
  let a := 8 * (c.addr / 8)
  match s.place a with
  | .reg =>
    if c.write then (s.regBytes 0 (a - regBase) (leBytes 8 c.data.toNat)).crookResult 0 crookOk
    else
      let r := s.readAt (a - regBase)
      r.2.crookResult r.1 crookOk
  | .none => s.crookResult 0 crookDecode
  | .remote => s.crookResult 0 crookDecode
  | _ =>
    if !s.halted then s.crookResult 0 crookNotHalted
    else if c.write then
      if s.refuses a 8 then let d := s.draw 3; d.2.crookResult 0 d.1 else
      let r := s.targetWrite a (leBytes 8 c.data.toNat)
      (r.2.uncorrectables r.1.errs none).crookResult 0 (if r.1.status = stEcc then crookEcc else crookOk)
    else
      let r := s.readMem a 9 8
      match r.1 with
      | some bs => r.2.1.crookResult (BitVec.ofNat 64 (leNat bs)) crookOk
      | none => (r.2.1.uncorrectables r.2.2 none).crookResult 0 crookEcc

/-- ACCESS: the last access's result is captured, and Update-DR starts the next one. -/
def State.crookStart (s : State) (write : Bool) (addr : Nat) (data : Word) : State :=
  if !s.attached then s.bypassed
  else
    let shown (t : State) (st : Nat) : State :=
      t.capture 116 (2 ^ 52 * s.dbg.result.1.toNat + addr % 2 ^ 48 * 16 + (if write then 8 else 0) + st)
    if s.dbg.access.isSome then shown s crookBusy
    else shown { s with dbg := { s.dbg with access := some ⟨addr, write, data⟩ } } s.dbg.result.2

/-- ACCESS_COMPLETE. -/
def State.crookEnd (s : State) : State :=
  match s.dbg.access with
  | none => s
  | some c => if s.attached then s.crookAccess c else s.crookResult 0 crookLocked

/-! ### Uncached accesses of a control core (R222) -/

/-- A read of the network by the Shepherd complex, registers included. -/
def State.busRead (s : State) (a n : Nat) : Reply × State :=
  if s.place a = .reg then
    let r := s.regRange (a - regBase) n
    (⟨stOk, r.1, []⟩, r.2)
  else s.agentRead 76 a n

/-- A write of the network by the Shepherd complex, registers included. -/
def State.busWrite (s : State) (a : Nat) (bs : List Byte) : Reply × State :=
  if s.place a = .reg then (⟨stOk, [], []⟩, s.regBytes 2 (a - regBase) bs)
  else s.agentWrite 76 a bs

/-! ### Power domains -/

/-- POWER_PLAN_TRANSITION (R406): a record changes the domain's planned state at the tick edge. -/
def State.planDue (s : State) (d : Nat) : Bool :=
  s.dbg.restart.isNone && s.almRuns && s.fld (.PWR_DOM d) Fld.PWR_DOM_PLANNED != s.plannedNow d

/-- The planned state that the active almanac, or the override of a swap, names at the edge at hand (R50, R406). -/
def State.planAtEdge (s : State) (d : Nat) : State := s.setPlanned d (s.plannedNow d) false

/-- A wake from SLEEP or OFF that has power switched on and has not yet power-good, or that tests and initialises, can fail (R414). -/
def State.wakeFails (s : State) (d : Nat) : State :=
  match (s.dom d).wake with
  | some w => if w.switched ∧ 2 ≤ w.from_ then s.failDomain d 0x30 else s
  | none => s

/-- A lowering or wake that has run its course (R409, R413). -/
def State.wakeDone (s : State) (d : Nat) : State := if s.wakeReady d then s.endWake d else s

/-! ### Commands -/

/-- READ. -/
def execRead (p : Packet) (s : State) : Out := running (·.deliverPacket { p with type := 0 }) s
/-- WRITE. -/
def execWrite (p : Packet) (s : State) : Out := running (·.deliverPacket { p with type := 1 }) s
/-- WRITE_ACK. -/
def execWriteAck (p : Packet) (s : State) : Out := running (·.deliverPacket { p with type := 2 }) s
/-- READ_RESP. -/
def execReadResp (p : Packet) (s : State) : Out := running (·.deliverPacket { p with type := 3 }) s
/-- WRITE_RESP. -/
def execWriteResp (p : Packet) (s : State) : Out := running (·.deliverPacket { p with type := 4 }) s
/-- HOST_BAR_WRITE. -/
def execHostBarWrite (bar2 : Bool) (offset : BitVec 37) (data : List (BitVec 8)) (s : State) : Out :=
  running (fun t => (t.barWrite bar2 offset.toNat data).flushBar) s
/-- HOST_BAR_READ. -/
def execHostBarRead (bar2 : Bool) (offset : BitVec 37) (len : BitVec 13) (s : State) : Out :=
  working (·.barRead bar2 offset.toNat len.toNat) s
/-- REGISTER_WRITE: the writes of one core cycle, and the addresses of the reads that fall in it. While Yalis is halted, only the Crook
port's writes arrive (R463, R464). -/
def execRegisterWrite (ws : List RegWrite) (reads : List (BitVec 48)) (s : State) : Out :=
  always (fun t =>
    if t.halted then t.writesOf (ws.filter fun w => w.port.val == 0) else (t.readsOf (reads.map (·.toNat))).writesOf ws) s
/-- ACCESS. -/
def execAccess (write : Bool) (addr : BitVec 48) (data : BitVec 64) (s : State) : Out :=
  always (fun t => t.tap 0x12 fun t => t.crookStart write addr.toNat data) s
/-- ACCESS_COMPLETE. -/
def execAccessComplete (s : State) : Out := always State.crookEnd s
/-- POWER_PLAN_TRANSITION. -/
def execPowerPlanTransition (d : Fin 69) (s : State) : Out :=
  running (fun t => t.edgeIf (t.planDue d) (·.planAtEdge d)) s
/-- HANDSHAKE_REASK: an entry in progress goes on while Yalis is halted (R464). -/
def execHandshakeReask (d : Fin 69) (s : State) : Out := always (fun t => t.askDomain d) s
/-- ENTRY_COMPLETE. -/
def execEntryComplete (d : Fin 69) (s : State) : Out := always (fun t => t.endEntry d) s
/-- POWER_GOOD. -/
def execPowerGood (d : Fin 69) (s : State) : Out := always (fun t => t.powerGood d) s
/-- DOMAIN_WAKE_FAIL. -/
def execDomainWakeFail (d : Fin 69) (s : State) : Out := always (fun t => t.wakeFails d) s
/-- DOMAIN_WAKE_COMPLETE. -/
def execDomainWakeComplete (d : Fin 69) (s : State) : Out := always (fun t => t.wakeDone d) s
/-- AVS_EXCHANGE_START. -/
def execAvsExchangeStart (s : State) : Out := always State.startAvs s
/-- AVS_ACK. -/
def execAvsAck (s : State) : Out := always State.ackAvs s
/-- AVS_NO_ACK. -/
def execAvsNoAck (s : State) : Out := always State.noAckAvs s
/-- PWR_FORCE_ON. -/
def execPwrForceOn (n : Fin 2) (v : BitVec 64) (s : State) : Out := running (fun t => t.writeForceOn n v) s
/-- FW_STATE: a write of PWR_DOM_CFG. -/
def execFwState (d : Fin 69) (v : BitVec 64) (s : State) : Out := running (fun t => t.writeDomCfg d v) s
/-- CLEAR_FAIL: a write of PWR_DOM_CFG with that bit. -/
def execClearFail (d : Fin 69) (s : State) : Out :=
  running (fun t => t.writeDomCfg d (Fld.PWR_DOM_CFG_CLEAR_FAIL.set (t.rd (.PWR_DOM_CFG d)) 1)) s
/-- PWR_STAT_CLR. -/
def execPwrStatClr (s : State) : Out := running State.clearPwr s

end Sys2Proof.Machine
end

