-- ==== Sys2Proof/Machine/DspIssue.lean ====
section
/-!
DEFINITION. The issue of bundles: the memories, write buffers and caches of the cores (R183, R184, R217, R221, R222, R301), what a bundle
does when it issues (R195 to R208), exceptions and interrupts (R209 to R216, R224), and the command queue (R241 to R246).
-/
namespace Sys2Proof.Machine

/-! ### Cores -/

/-- Whether a number is that of a control core. -/
def isControl (n : Nat) : Bool := decide (128 ≤ n)

/-- Where a core's program lies: its Fold's active half, or the firmware bank in use (R183, R221). -/
def State.programBase (s : State) (n : Nat) : Nat :=
  if isControl n then bankAddr (s.fld .SYS_CTRL Fld.SYS_CTRL_FW_BANK)
  else foldAddr (n / 8) (0x800000 + 0x80000 * SMap.get zeroNat s.dsp.half (n / 8))

/-- Whether a core issues bundles: a Fold core with a release in service that has not executed DONE (R193), a control core out of reset
and not frozen (R429, R443). -/
def State.coreRuns (s : State) (n : Nat) : Bool :=
  if isControl n then s.bit .SYS_READY 2 && !s.flt.shepFrozen.contains (n - 128)
  else (s.serving 0 (n / 8) (n % 8) 0).isSome && !(s.core n).doneDue && !s.unitDead 0 (n / 8)

/-- Whether a core's clock runs: its write buffer drains and its interrupt bits are set. -/
def State.coreLives (s : State) (n : Nat) : Bool :=
  if isControl n then s.bit .SYS_READY 2 && !s.flt.shepFrozen.contains (n - 128) else !s.unitDead 0 (n / 8)

/-- A control core frozen with a violation: it stops alone (R223, R443). -/
def State.freezeControl (s : State) (c code addr : Nat) : State :=
  if s.flt.shepFrozen.contains c then s else
    { s with flt := { s.flt with shepFrozen := c :: s.flt.shepFrozen } }.record { code := code, cls := 6, phys := c, addr := addr }

/-- A violation of a core (R219, R224). -/
def State.freezeCore (s : State) (n code addr : Nat) : State :=
  if isControl n then s.freezeControl (n - 128) code addr else s.freeze 0 (n / 8) code (realAddr n addr) 0

/-- Syllables of the bundle at a program offset, by its STOP bits. -/
def State.bundleLen (s : State) (n off : Nat) : Nat :=
  ((List.range 4).find? fun (i : Nat) => (leAt (s.raw (s.programBase n + off + 4 * i) 4) 0 4).testBit 31).getD 3 + 1

/-- A set bit of IPEND (R216). -/
def State.pend (s : State) (n bit : Nat) : State := s.mapCore n fun c => c.setCr 0x26 (setBitsOf (c.getCr 0x26) bit 1 1)

/-! ### Caches of a control core (R301) -/

/-- Whether a control core's data cache caches an address. -/
def State.cacheable (s : State) (a : Nat) : Bool :=
  match s.place a with
  | .sram g _ => g == 0 || (decide (17 ≤ g) && decide (g ≤ 40))
  | .ddr _ _ => true
  | _ => false

/-- A line of a core's data cache. -/
def Core.line? (c : Core) (l : Nat) : Option CacheLine := (c.dcache.find? fun p => p.1 == l).map (·.2)

/-- A line discarded. -/
def Core.dropLine (c : Core) (l : Nat) : Core := { c with dcache := c.dcache.filter fun p => p.1 != l }

/-- A dirty line written back; an error response raises nothing at the core (R222). -/
def State.cleanLine (s : State) (n l : Nat) : State :=
  match (s.core n).line? l with
  | some x =>
    if !x.dirty then s else
      let r := s.agentWrite 76 (64 * l) x.bytes
      (r.2.replyErrors r.1 none).mapCore n fun c =>
        { c with dcache := c.dcache.map fun (p : Nat × CacheLine) => if p.1 = l then (l, { p.2 with dirty := false }) else p }
  | none => s

/-- Which line a fill replaces, if any, the spec leaves open. -/
def State.evictSome (s : State) (n : Nat) : State :=
  let f := s.drawBool
  let i := f.2.draw 32
  let lines := (s.core n).dcache
  match lines[i.1 % max 1 lines.length]? with
  | some p => if f.1 then (i.2.cleanLine n p.1).mapCore n fun c => c.dropLine p.1 else i.2
  | none => i.2

/-- A line in the data cache, read when it misses: the STATUS of the response. -/
def State.fillLine (s : State) (n l : Nat) : Nat × State :=
  if ((s.core n).line? l).isSome then (stOk, s) else
    let s1 := s.evictSome n
    let r := s1.agentRead 76 (64 * l) 64
    if r.1.status = stOk then
      (stOk, r.2.mapCore n fun c => { c with dcache := c.dcache ++ [(l, ⟨false, r.1.data⟩)] })
    else (r.1.status, r.2.replyErrors r.1 none)

/-- Bytes laid over others that begin at `o`. -/
def overlay (o : Nat) (bs : List Byte) (at_ : Nat) (new : List Byte) : List Byte :=
  bs.zipIdx.map fun p => if at_ ≤ o + p.2 ∧ o + p.2 < at_ + new.length then new.getD (o + p.2 - at_) 0 else p.1

/-- Bytes at `o` as a core sees them past its write buffer (R217). -/
def Core.forward (c : Core) (o : Nat) (bs : List Byte) : List Byte :=
  c.wbuf.foldl (fun x st => st.parts.foldl (fun y p => overlay o y p.1 p.2) x) bs

/-- A store performed in a control core's cache; a line gone meanwhile is read again. -/
def State.storeCached (s : State) (n a : Nat) (bs : List Byte) : State :=
  let l := a / 64
  let r := s.fillLine n l
  r.2.mapCore n fun c => { c with dcache := c.dcache.map fun (p : Nat × CacheLine) =>
    if p.1 = l then (l, ⟨true, overlay (64 * l) p.2.bytes a bs⟩) else p }

/-! ### Write buffer (R217, R218) -/

/-- The oldest store of a core's write buffer performed. -/
def State.drainOne (s : State) (n : Nat) : State :=
  match (s.core n).wbuf with
  | [] => s
  | st :: rest =>
    let s1 := s.mapCore n fun c => { c with wbuf := rest }
    st.parts.foldl (fun t p =>
      if isControl n then t.storeCached n p.1 p.2 else
        let w := t.writeMem (foldAddr (n / 8) p.1) (p.2.length + 1) p.2
        w.1.uncorrectables w.2 none) s1

/-- The whole write buffer performed. -/
def State.drainAll (s : State) (n : Nat) : State := (List.range (s.core n).wbuf.length).foldl (fun t _ => t.drainOne n) s

/-! ### Loads and stores of a bundle -/

/-- Parts that follow each other joined. -/
def joinParts (ps : List (Nat × List Byte)) : List (Nat × List Byte) :=
  ps.foldr (fun p acc => match acc with
    | (b, y) :: r => if p.1 + p.2.length = b then (p.1, p.2 ++ y) :: r else p :: acc
    | [] => [p]) []

/-- What a store writes, where element `i` lies at `at_ i`. -/
def MemOp.parts (m : MemOp) (at_ : Nat → Nat) : List (Nat × List Byte) :=
  joinParts (m.elems.map fun i => (at_ i, slice (leBytes m.size m.data) (i * m.elem) m.elem))

/-- Offset in its Fold's window at which an element of a Fold core's access lies. -/
def MemOp.offset (m : MemOp) (n i : Nat) : Nat := (foldOffset n (m.addr + i * m.elem)).getD 0

/-- The result of a load from the bytes of its elements. -/
def MemOp.result (m : MemOp) (bytes : Nat → List Byte) : Pend :=
  match m.dst with
  | .v n =>
    let at_ (i : Nat) : Nat := 2 ^ (8 * m.elem * i)
    ⟨3, .v n, (m.elems.map fun i => leNat (bytes i) * at_ i).sum, (m.elems.map fun i => ones (8 * m.elem) * at_ i).sum⟩
  | d =>
    let v := leNat (bytes 0)
    ⟨3, d, if m.signed then unsignedOf 64 (signedOf (8 * m.size) v) else v, ones 64⟩

/-- The 64-bit words of data memory that hold some elements, each read once (R199): words, and errors. -/
def State.foldWords (s : State) (f : Nat) : List Nat → List (Nat × List Byte) × List MemErr × State
  | [] => ([], [], s)
  | w :: ws =>
    let r := s.readMem (foldAddr f (8 * w)) 9 8
    let t := State.foldWords r.2.1 f ws
    ((w, r.1.getD []) :: t.1, r.2.2 ++ t.2.1, t.2.2)

/-- A load of a Fold core: its result, and the errors met (R220). -/
def State.loadFold (s : State) (n : Nat) (m : MemOp) : Option Pend × List MemErr × State :=
  if m.elems = [] then (none, [], s) else
    let words := (m.elems.flatMap fun i => [m.offset n i / 8, (m.offset n i + m.elem - 1) / 8]).eraseDups
    let r := s.foldWords (n / 8) words
    let byte (a : Nat) : Byte := match r.1.find? fun p => p.1 == a / 8 with
      | some p => p.2.getD (a % 8) 0
      | none => 0
    let bytes (i : Nat) : List Byte :=
      (s.core n).forward (m.offset n i) ((List.range m.elem).map fun j => byte (m.offset n i + j))
    (some (m.result bytes), r.2.1, r.2.2)

/-- A load of a control core (R222): its result, or the STATUS of an error response. -/
def State.loadControl (s : State) (n : Nat) (m : MemOp) : Option Pend × Nat × State :=
  if m.elems = [] then (none, stOk, s)
  else if s.cacheable m.addr then
    let r := s.fillLine n (m.addr / 64)
    if r.1 ≠ stOk then (none, r.1, r.2) else
      let line := match (r.2.core n).line? (m.addr / 64) with
        | some x => x.bytes
        | none => []
      let bs := (r.2.core n).forward m.addr (slice line (m.addr % 64) m.size)
      (some (m.result fun _ => bs), stOk, r.2)
  else
    let r := (s.drainAll n).busRead m.addr m.size
    if r.1.status = stOk then (some (m.result fun _ => r.1.data), stOk, r.2)
    else (none, r.1.status, r.2.replyErrors r.1 none)

/-- A store enters the write buffer, or on a control core leaves at once for an uncached address: the STATUS of the response. -/
def State.storeOp (s : State) (n : Nat) (m : MemOp) : Nat × State :=
  let put (t : State) (at_ : Nat → Nat) : State := t.mapCore n fun c => { c with wbuf := c.wbuf ++ [⟨m.parts at_⟩] }
  if m.elems = [] then (stOk, s)
  else if !isControl n then (stOk, put s (m.offset n))
  else if s.cacheable m.addr then
    let r := s.fillLine n (m.addr / 64)
    if r.1 = stOk then (stOk, put r.2 fun i => m.addr + i * m.elem) else r
  else
    let r := (s.drainAll n).busWrite m.addr (leBytes m.size m.data)
    (r.1.status, r.2.replyErrors r.1 none)

/-! ### Exceptions (R209 to R215) -/

/-- An exception of a core: it enters KN or FW, or freezes where FW cannot be entered (R211, R224). -/
def State.raiseAt (s : State) (n code addr slot blen epc : Nat) : State :=
  let c := s.core n
  let cause := code % 2 ^ 8 + 2 ^ 8 * (slot % 4) + 2 ^ 10 * c.pl + 2 ^ 12 * (blen % 2 ^ 4)
  if c.pl = 2 ∧ !c.exk then s.setCore n (c.enter false epc cause addr 0xC0)
  else if c.exf then s.freezeCore n 4 0
  else s.setCore n (c.enter true epc cause addr 0x40)

/-- VXIDX after a cause other than WINDOW_FAULT. -/
def State.dropResume (s : State) (n : Nat) : State := s.mapCore n fun c => c.setCr 0x14 (setBitsOf (c.getCr 0x14) 15 1 0)

/-- An exception that restarts its bundle (R215). -/
def State.fault (s : State) (n code addr slot : Nat) : State :=
  let c := s.core n
  (s.dropResume n).raiseAt n code addr slot c.bundle.length c.pc

/-- The memory operations of a bundle, in order. -/
def memOps (sl : List Slot) : List (Nat × MemOp) := sl.zipIdx.filterMap fun p => p.1.eff.mem.map fun m => (p.2, m)

/-- The elements of a memory operation below the first faulting one performed (R214). -/
def State.performPart (s : State) (n : Nat) (m : MemOp) : State :=
  if m.elems = [] then s
  else if m.store then (s.storeOp n m).2
  else
    let r := s.loadFold n m
    (match r.1 with
      | some p => r.2.2.mapCore n fun c => { c with flight := c.flight ++ [(⟨p, 0⟩ : Flying)] }
      | none => r.2.2).uncorrectables r.2.1 none

/-- WINDOW_FAULT at TK (R214): what is below the faulting element is performed, and VXIDX says where to resume. -/
def State.windowFault (s : State) (n : Nat) (sl : List Slot) (k addr elem : Nat) : State :=
  let c := s.core n
  let ops := memOps sl
  let mop := ((c.bundle.take k).filter isMemory).length
  let s1 := (ops.filter fun o => decide (o.1 ≤ k)).foldl (fun t o =>
    t.performPart n (if o.1 = k then { o.2 with elems := o.2.elems.filter fun i => decide (i < elem) } else o.2)) s
  let s2 := s1.mapCore n fun x => x.setCr 0x14 (2 ^ 15 + 2 ^ 9 * mop + 2 ^ 8 * mop + elem % 64)
  s2.raiseAt n 1 addr k c.bundle.length c.pc

/-! ### A bundle that issues -/

/-- The loads of a bundle: their results, the errors of a Fold's memory, and the slot, address and STATUS of the first error response; on a
control core one to a store counts too, and a store that meets none is performed later, when nothing stops the bundle (R209, R222). -/
def State.loads (s : State) (n : Nat) : List (Nat × MemOp) → List Pend × List MemErr × Option (Nat × Nat × Nat) × State
  | [] => ([], [], none, s)
  | (k, m) :: rest =>
    if m.store then
      let w := s.storeOp n m
      if isControl n ∧ w.1 ≠ stOk then ([], [], some (k, m.addr, w.1), w.2) else State.loads s n rest
    else if isControl n then
      let r := s.loadControl n m
      if r.2.1 ≠ stOk then ([], [], some (k, m.addr, r.2.1), r.2.2) else
        let t := State.loads r.2.2 n rest
        (r.1.toList ++ t.1, t.2.1, t.2.2.1, t.2.2.2)
    else
      let r := s.loadFold n m
      let t := State.loads r.2.2 n rest
      (r.1.toList ++ t.1, r.2.1 ++ t.2.1, t.2.2.1, t.2.2.2)

/-- The registers of a core once its bundle has issued: results enter flight or land, MACs chain (R195, R197), SAT is set (R204). -/
def Core.retire (c : Core) (control : Bool) (sl : List Slot) (loaded : List Pend) : Core :=
  let posts := (memOps sl).filterMap fun o => o.2.post.map fun p => (⟨1, .p p.1, p.2, ones 64⟩ : Pend)
  let chains := sl.filterMap fun p => p.eff.chain
  let macs := chains.map fun h => (⟨4, .va h.1, h.2.1, h.2.2⟩ : Pend)
  let fresh := sl.flatMap (fun p => p.eff.writes) ++ posts ++ loaded ++ macs
  let timed : List Flying := fresh.map fun (p : Pend) => ⟨if control then { p with left := 1 } else p, 0⟩
  let c1 := chains.foldl (fun (k : Core) h =>
    { k with va := SMap.set zeroNat k.va h.1 (merge (SMap.get zeroNat k.va h.1) h.2.1 h.2.2) }) c
  let c2 := { c1 with flight := c1.flight ++ timed, acqs := if hasWait sl then [] else c1.acqs }.advance
  if sl.any fun p => p.eff.sat then c2.setStatus 7 1 1 else c2

/-- Control actions of a bundle other than where it goes on. -/
def State.ctlAct (s : State) (n : Nat) : Ctl → State
  | .fence => s.mapCore n fun c => { c with fence := true }
  | .acwait t => s.mapCore n fun c => { c with tags := SMap.set zeroNat c.tags t 0 }
  | .signal k => s.pend (coreNo (n / 8) k) 3
  | .done => s.mapCore n fun c => { c with doneDue := true }
  | .cache r a =>
    let l := a / 64
    let d := s.drainAll n
    if r = 0x40 then d.cleanLine n l
    else if r = 0x41 then d.mapCore n fun c => c.dropLine l
    else if r = 0x42 then (d.cleanLine n l).mapCore n fun c => c.dropLine l
    else d.mapCore n fun c => { c with icache := c.icache.filter fun x => x != l }
  | .viol code => s.freezeCore n code 0
  | _ => s

/-- Whether an offset lies outside what a core fetches from: on a Fold core, its program half (R219, R240). A control core fetches wherever
its protection unit lets it (R221, R223). -/
def outsideProgram (n off : Nat) : Bool := !isControl n && decide (0x80000 ≤ off)

/-- Where a core goes on after the bundle that lay from `pc` to `nextPc`, whose operations read `old` (R206, R208, R213). -/
def State.goesOn (s : State) (n : Nat) (old : Core) (pc nextPc : Nat) (ctl : Ctl) : State :=
  let c := s.core n
  let ended (k : Core) : Core := if k.la ∧ pc = k.getCr 6 then { k with loopDue := true } else k
  match ctl with
  | .jump t =>
    if !isControl n ∧ (t < 0 ∨ (0x80000 : Int) ≤ t) then s.freezeCore n 2 (unsignedOf 48 ((s.programBase n : Int) + t))
    else s.setCore n (c.jump (unsignedOf 48 t))
  | .loop count last =>
    if count = 0 then s.setCore n { c with pc := last + 4 * s.bundleLen n last }
    else s.setCore n { c.startLoop count nextPc last with pc := nextPc }
  | .rep count =>
    if count = 0 then
      let k := { c with pc := nextPc + 4 * s.bundleLen n nextPc }
      s.setCore n (if k.la ∧ nextPc = k.getCr 6 then { k with loopDue := true } else k)
    else s.setCore n { c.startRep count with pc := nextPc }
  | .rfe =>
    let k := c.leave old
    if outsideProgram n k.pc then (s.setCore n k).freezeCore n 2 ((s.programBase n + k.pc) % 2 ^ 48) else s.setCore n k
  | _ =>
    if c.ra then
      let k := c.repeated pc nextPc
      s.setCore n (if k.ra then k else ended k)
    else s.setCore n (ended { c with pc := nextPc })

/-- The control transfer of a bundle, if it has one. -/
def transferOf (sl : List Slot) : Ctl :=
  (sl.findSome? fun p => match p.eff.ctl with
    | .jump t => some (Ctl.jump t)
    | .loop a b => some (Ctl.loop a b)
    | .rep a => some (Ctl.rep a)
    | .rfe => some Ctl.rfe
    | _ => none).getD .next

/-- BUS_ERROR: the slot, address and STATUS of an error response (R222). -/
def State.busError (s : State) (n : Nat) (e : Nat × Nat × Nat) : State := s.fault n 8 (e.2.1 + 2 ^ 56 * e.2.2) e.1

/-- A bundle that nothing stops, with what follows its completion, and what follows an error response to a control core. An error of a
Fold's memory is a fault of the Fold (R220). -/
def State.commit (s : State) (n : Nat) (sl : List Slot) (after : State → State) (bus : Nat × Nat × Nat → State → State) : State :=
  let c := s.core n
  let nextPc := c.pc + 4 * c.bundle.length
  let ld := s.loads n (memOps sl)
  match ld.2.2.1 with
  | some e => bus e ld.2.2.2
  | none =>
    if ld.2.1 ≠ [] then ld.2.2.2.uncorrectables ld.2.1 none else
      let st : Nat × Nat × Nat × State := match (memOps sl).find? fun o => o.2.store with
        | some o => let w := ld.2.2.2.storeOp n o.2; (w.1, o.1, o.2.addr, w.2)
        | none => (stOk, 0, 0, ld.2.2.2)
      if st.1 ≠ stOk then bus (st.2.1, st.2.2.1, st.1) st.2.2.2 else
        let s1 := st.2.2.2.mapCore n fun k =>
          { k.retire (isControl n) sl ld.1 with bundle := [], resume := false, fence := false, lastPc := c.pc }
        let s2 := sl.foldl (fun t p => t.ctlAct n p.eff.ctl) s1
        if !s2.coreLives n then s2 else
          let s3 := s2.goesOn n c c.pc nextPc (transferOf sl)
          if s3.coreLives n then after s3 else s3

/-- LOOP_END (R206). -/
def State.loopEndAt (s : State) (n : Nat) : State :=
  if (s.core n).loopDue then s.mapCore n fun c => c.loopEnd (isControl n) else s

/-- The operations of a bundle as it issues. -/
def State.slotsOf (s : State) (n : Nat) : List Slot :=
  let c := s.core n
  ({ c := c, n := n, ext := none, pc := c.pc, nextPc := c.pc + 4 * c.bundle.length, tcyc := min 13999 s.tm.cycle
     tickno := s.calIndex, enable := if isControl n then 0 else SMap.get zeroNat s.dsp.enable (n / 8) } : OpCtx).slots c.bundle

/-- The lines that a control core's bundle is fetched from. -/
def State.fetchLines (s : State) (n : Nat) : List Nat :=
  let a := s.programBase n + (s.core n).pc
  [a / 64, (a + 4 * (s.core n).bundle.length - 1) / 64].eraseDups

/-- A control core's fetch through its instruction cache (R222): the address and STATUS of an error response. -/
def State.fetchControl (s : State) (n : Nat) : Option (Nat × Nat) × State :=
  (s.fetchLines n).foldl (fun acc l =>
    if acc.1.isSome || (acc.2.core n).icache.contains l then acc else
      let r := acc.2.agentRead 76 (64 * l) 64
      if r.1.status = stOk then (none, r.2.mapCore n fun c => { c with icache := c.icache ++ [l] })
      else (some (max (64 * l) (s.programBase n + (s.core n).pc), r.1.status), r.2.replyErrors r.1 none)) (none, s)

/-- A Fold core's fetch: the errors of the words of program memory that hold its bundle (R220). Memory with no flipped bit reads clean. -/
def State.fetchFold (s : State) (n : Nat) : List MemErr × State :=
  if s.ecc.flips = [] then ([], s) else
    let len := 4 * (s.core n).bundle.length
    let r := s.readMem (s.programBase n + (s.core n).pc) (len + 1) len
    (r.2.2, r.2.1)

/-- An error response that a control core meets in a syllable below `k` (R209). -/
def State.busBelow (s : State) (n : Nat) (sl : List Slot) (k : Nat) : Option (Nat × Nat × Nat) × State :=
  if !isControl n then (none, s) else
    let ld := s.loads n ((memOps sl).filter fun o => decide (o.1 < k))
    (ld.2.2.1, ld.2.2.2)

/-- What stops a bundle at syllable `k`: an exception that restarts it, or a violation. -/
def State.stopAt (s : State) (n : Nat) (sl : List Slot) (k : Nat) : SlotStop → State
  | .exc 1 a e => s.windowFault n sl k a e
  | .exc code a _ => s.fault n code a k
  | .viol a => s.freezeCore n 2 a
  | .none => s

/-- What a complete bundle comes to once nothing holds it. TRAP completes its bundle, and its entry saves the bundle that follows
(R213). -/
def State.settleBundle (s : State) (n : Nat) (sl : List Slot) : State :=
  let c := s.core n
  match firstStop sl with
  | none => s.commit n sl id fun e u => u.busError n e
  | some (k, .exc 6 t _) =>
    let cut (u : State) : State := (u.dropResume n).raiseAt n 6 t k c.bundle.length (c.pc + 4 * c.bundle.length)
    if (firstStop (sl.drop (k + 1))).isSome then
      let b := s.busBelow n sl k
      match b.1 with
      | some e => b.2.busError n e
      | none => cut b.2
    else s.commit n sl (fun t1 =>
      let t2 := t1.loopEndAt n
      (t2.dropResume n).raiseAt n 6 t k c.bundle.length (t2.core n).pc) fun e u => if e.1 < k then u.busError n e else cut u
  | some (k, stop) =>
    let b := s.busBelow n sl k
    match b.1 with
    | some e => b.2.busError n e
    | none => b.2.stopAt n sl k stop

/-- Whether the ACQ of a bundle is what decides about it: nothing in an earlier syllable stops it (R242). -/
def acqFirst (sl : List Slot) : Option (Nat × Nat × Nat × Nat) :=
  match acqOf sl, firstStop sl with
  | some q, some f => if f.1 < q.1 then none else some q
  | some q, none => some q
  | none, _ => none

/-- Whether something holds a complete bundle: FENCE, ACWAIT, or a store that finds the write buffer full (R198, R218, R245). -/
def State.held (s : State) (n : Nat) (sl : List Slot) : Bool :=
  let c := s.core n
  (c.fence && !c.wbuf.isEmpty) || c.waits sl || (storesIn sl && decide (4 ≤ c.wbuf.length))

/-- A complete bundle issues unless something holds it; one with an ACQ waits for its commit. -/
def State.tryIssue (s : State) (n : Nat) : State :=
  if !s.coreRuns n || !bundleFull (s.core n).bundle then s else
    let sl := s.slotsOf n
    if s.held n sl || (acqFirst sl).isSome then s else s.settleBundle n sl

/-- A bundle fetched whole: a Fold core's fetch may meet an uncorrectable word, a fault of the Fold (R220); a control core's is checked by
its protection unit and may meet an error response (R222, R223). -/
def State.issueFresh (s : State) (n : Nat) : State :=
  if !isControl n then
    let f := s.fetchFold n
    if f.1 = [] then f.2.tryIssue n else f.2.uncorrectables f.1 none
  else
    let c := s.core n
    let a := s.programBase n + c.pc
    if !c.mpuAllows 2 a (4 * c.bundle.length) then s.freezeCore n 2 a else
      let f := s.fetchControl n
      match f.1 with
      | some e => f.2.fault n 8 (e.1 + 2 ^ 56 * e.2) 0
      | none => f.2.tryIssue n

/-! ### Completion of a release (R193) -/

/-- A core that has executed DONE completes its release once its write buffer and its command queue are empty. -/
def State.tryDone (s : State) (n : Nat) : State :=
  let c := s.core n
  if isControl n || !c.doneDue || !c.wbuf.isEmpty || c.tagsIn 1 ≠ 0 then s else
    match s.serving 0 (n / 8) (n % 8) 0 with
    | some r => ((s.setCore n { c with tags := [], acqs := [], doneDue := false, fence := false }).markRan r).completeOn ⟨0, n / 8, n % 8⟩
    | none => s

/-! ### Fetch -/

/-- A syllable at a core that issues bundles: it joins the bundle being fetched, and a complete bundle issues. A Fold core's fetch outside
its program half is a violation (R219, R240). -/
def State.feedCore (s : State) (n : Nat) (i : Instr) : State :=
  if !s.coreRuns n || bundleFull (s.core n).bundle then s else
    let s1 := s.loopEndAt n
    let c := s1.core n
    let off := c.pc + 4 * c.bundle.length
    if outsideProgram n off then s1.freezeCore n 2 ((s1.programBase n + off) % 2 ^ 48) else
      let s2 := s1.setCore n { c with bundle := c.bundle ++ [i] }
      if bundleFull (c.bundle ++ [i]) then (s2.issueFresh n).tryDone n else s2

/-- A syllable reaches its core. A Fold core first takes the release that is on its way; a control core's work can wait for the network. -/
def State.feed (s : State) (i : Instr) : State :=
  match sylOf i with
  | none => s
  | some y =>
    let n := y.core.val
    if isControl n then s.attempt fun t => t.feedCore n i else (s.whenServed 0 (n / 8) (n % 8) 0).feedCore n i

/-! ### Write buffers drain -/

/-- WRITE_BUFFER_DRAIN. -/
def State.drainStep (s : State) (n : Nat) : State :=
  if !s.coreLives n then s
  else if isControl n then s.attempt fun t => (t.drainOne n).tryIssue n
  else ((s.drainOne n).tryIssue n).tryDone n

/-! ### Interrupts (R216) -/

/-- The highest interrupt that is pending and enabled. -/
def Core.interrupt (c : Core) : Option Nat := (List.range 4).find? fun b => (c.getCr 0x26).testBit b && (c.getCr 0x25).testBit b

/-- Whether a core stands at an interrupt point: between two bundles, or before one that ACWAIT holds; not in a REP, and in a LOOP only
before the bundle at LSA. -/
def Core.atPoint (c : Core) (acwait : Bool) : Bool :=
  !c.resume && !c.ra && (!bundleFull c.bundle || acwait) && (!c.la || c.pc == c.getCr 5)

/-- INTERRUPT_ENTRY: EPC is the bundle that has not issued. -/
def State.interruptAt (s : State) (n : Nat) : State :=
  if !s.coreRuns n then s else
    let s1 := if (s.core n).bundle.isEmpty then s.loopEndAt n else s
    let c := s1.core n
    match c.interrupt with
    | some b =>
      if !c.ie || c.exf || !c.atPoint (bundleFull c.bundle && c.waits (s1.slotsOf n)) then s else
        let f := s1.draw 6
        let cause := 0x80 + b + 2 ^ 8 * bitsOf f.1 0 2 + 2 ^ 10 * c.pl + 2 ^ 12 * bitsOf f.1 2 4
        f.2.setCore n (c.enter true c.pc cause 0 0x80)
    | none => s

/-- CYC_CMP_MATCH: TCYC reaches CYC_CMP in this tick. -/
def State.cycMatch (s : State) (n : Nat) : State :=
  let m := (s.core n).getCr 0x27 % 2 ^ 14
  if s.coreLives n ∧ s.tm.cycle ≤ m ∧ m < 14000 then (s.passTo m).pend n 1 else s

/-! ### The command queue (R242 to R246) -/

/-- ACQ_COMMIT: the command is read and checked, and the bundle issues with it or is refused (R242, R243). -/
def State.acqAt (s : State) (n : Nat) : State :=
  let c := s.core n
  if !s.coreRuns n || !bundleFull c.bundle || !c.wbuf.isEmpty then s else
    let sl := s.slotsOf n
    match acqFirst sl with
    | none => s
    | some (k, p, unit, tag) =>
      if c.waits sl then s
      else if accBadPlace c n p then s.fault n 7 (2 ^ 56 + p % 2 ^ 48) k
      else
        let r := s.readMem (realAddr n p) 65 64
        match r.1 with
        | none => r.2.1.uncorrectables r.2.2 none
        | some d =>
          let tags := sl.foldl (fun m q => match q.eff.ctl with
            | .acwait t => SMap.set zeroNat m t 0
            | _ => m) c.tags
          match accRefusal { c with tags := tags } n p unit tag (SMap.get zeroNat s.dsp.enable (n / 8)) d with
          | some e => r.2.1.fault n 7 (2 ^ 56 * e.1 + e.2 % 2 ^ 48) k
          | none =>
            if (firstStop sl).isSome then r.2.1.settleBundle n sl else
              (r.2.1.commit n sl (fun t =>
                let u := t.mapCore n fun x => { x with
                  tags := SMap.set zeroNat x.tags tag 1
                  acqs := ⟨4, tag, SMap.get zeroNat x.tags tag⟩ :: x.acqs }
                { u with dsp := { u.dsp with cmds := u.dsp.cmds ++ [⟨n / 8, n % 8, unit, tag, d, s.absCycle, false⟩] } })
                fun e u => u.busError n e).tryDone n

/-- ACCELERATOR_COMMAND_COMPLETE (R246): the tag is DONE, and CFLAGS.IRQ sets IPEND.ACC. -/
def State.accComplete (s : State) (f unit : Nat) : State :=
  match s.accHead f unit with
  | none => s
  | some c =>
    if !c.ran then s else
      let n := coreNo f c.core
      let s1 := { s with dsp := { s.dsp with cmds := s.dsp.cmds.filter fun o => !o.same c } }
      let s2 := s1.mapCore n fun x => { x with tags := SMap.set zeroNat x.tags c.tag 2 }
      let s3 := if accField c.bytes 1 1 % 2 = 1 then s2.pend n 2 else s2
      (s3.tryIssue n).tryDone n

/-! ### Cache actions of a control core as commands (R301) -/

/-- A cache action on the line that holds an address: a store to its line for the protection unit (R223). -/
def State.cacheAct (s : State) (c r a : Nat) : State :=
  let n := 128 + c
  if !s.coreRuns n then s
  else if !(s.core n).mpuAllows 1 (a / 64 * 64) 64 then s.freezeCore n 2 a
  else s.ctlAct n (.cache r a)

end Sys2Proof.Machine
end

