-- ==== Sys2Proof/Machine/DspExec.lean ====
section
/-!
DEFINITION. The commands of the DSP cores: one syllable each, which joins the bundle of its core (R225 to R240), and the events of the cores,
their caches, write buffers and command queues (R206, R216, R217, R242, R246, R301).
-/
namespace Sys2Proof.Machine

/-! ### Syllables -/

/-- ADD (R231). -/
def execAdd (y : Syl) (s : State) : Out := running (fun t => t.feed (.add y)) s
/-- SUB (R231). -/
def execSub (y : Syl) (s : State) : Out := running (fun t => t.feed (.sub y)) s
/-- AND (R231). -/
def execAnd (y : Syl) (s : State) : Out := running (fun t => t.feed (.and y)) s
/-- OR (R231). -/
def execOr (y : Syl) (s : State) : Out := running (fun t => t.feed (.or y)) s
/-- XOR (R231). -/
def execXor (y : Syl) (s : State) : Out := running (fun t => t.feed (.xor y)) s
/-- ANDN (R231). -/
def execAndn (y : Syl) (s : State) : Out := running (fun t => t.feed (.andn y)) s
/-- SHL (R231). -/
def execShl (y : Syl) (s : State) : Out := running (fun t => t.feed (.shl y)) s
/-- SHR (R231). -/
def execShr (y : Syl) (s : State) : Out := running (fun t => t.feed (.shr y)) s
/-- SAR (R231). -/
def execSar (y : Syl) (s : State) : Out := running (fun t => t.feed (.sar y)) s
/-- MIN (R231). -/
def execMin (y : Syl) (s : State) : Out := running (fun t => t.feed (.min y)) s
/-- MAX (R231). -/
def execMax (y : Syl) (s : State) : Out := running (fun t => t.feed (.max y)) s
/-- MINU (R231). -/
def execMinu (y : Syl) (s : State) : Out := running (fun t => t.feed (.minu y)) s
/-- MAXU (R231). -/
def execMaxu (y : Syl) (s : State) : Out := running (fun t => t.feed (.maxu y)) s
/-- ABS (R231). -/
def execAbs (y : Syl) (s : State) : Out := running (fun t => t.feed (.abs y)) s
/-- CLZ (R231). -/
def execClz (y : Syl) (s : State) : Out := running (fun t => t.feed (.clz y)) s
/-- POPC (R231). -/
def execPopc (y : Syl) (s : State) : Out := running (fun t => t.feed (.popc y)) s
/-- MUL (R231). -/
def execMul (y : Syl) (s : State) : Out := running (fun t => t.feed (.mul y)) s
/-- MULH (R231). -/
def execMulh (y : Syl) (s : State) : Out := running (fun t => t.feed (.mulh y)) s
/-- MULQ (R231). -/
def execMulq (y : Syl) (s : State) : Out := running (fun t => t.feed (.mulq y)) s
/-- MOV (R231). -/
def execMov (y : Syl) (s : State) : Out := running (fun t => t.feed (.mov y)) s
/-- SEXT (R231). -/
def execSext (y : Syl) (s : State) : Out := running (fun t => t.feed (.sext y)) s
/-- CMPEQ (R231). -/
def execCmpeq (y : Syl) (s : State) : Out := running (fun t => t.feed (.cmpeq y)) s
/-- CMPLT (R231). -/
def execCmplt (y : Syl) (s : State) : Out := running (fun t => t.feed (.cmplt y)) s
/-- CMPLTU (R231). -/
def execCmpltu (y : Syl) (s : State) : Out := running (fun t => t.feed (.cmpltu y)) s
/-- CMPLE (R231). -/
def execCmple (y : Syl) (s : State) : Out := running (fun t => t.feed (.cmple y)) s
/-- ADDI (R232). -/
def execAddi (y : Syl) (s : State) : Out := running (fun t => t.feed (.addi y)) s
/-- ANDI (R232). -/
def execAndi (y : Syl) (s : State) : Out := running (fun t => t.feed (.andi y)) s
/-- ORI (R232). -/
def execOri (y : Syl) (s : State) : Out := running (fun t => t.feed (.ori y)) s
/-- XORI (R232). -/
def execXori (y : Syl) (s : State) : Out := running (fun t => t.feed (.xori y)) s
/-- SHLI (R232). -/
def execShli (y : Syl) (s : State) : Out := running (fun t => t.feed (.shli y)) s
/-- SHRI (R232). -/
def execShri (y : Syl) (s : State) : Out := running (fun t => t.feed (.shri y)) s
/-- SARI (R232). -/
def execSari (y : Syl) (s : State) : Out := running (fun t => t.feed (.sari y)) s
/-- SARRI (R232). -/
def execSarri (y : Syl) (s : State) : Out := running (fun t => t.feed (.sarri y)) s
/-- MULI (R232). -/
def execMuli (y : Syl) (s : State) : Out := running (fun t => t.feed (.muli y)) s
/-- MOVI (R232). -/
def execMovi (y : Syl) (s : State) : Out := running (fun t => t.feed (.movi y)) s
/-- CMPEQI (R232). -/
def execCmpeqi (y : Syl) (s : State) : Out := running (fun t => t.feed (.cmpeqi y)) s
/-- CMPLTI (R232). -/
def execCmplti (y : Syl) (s : State) : Out := running (fun t => t.feed (.cmplti y)) s
/-- CMPLTUI (R232). -/
def execCmpltui (y : Syl) (s : State) : Out := running (fun t => t.feed (.cmpltui y)) s
/-- ADDPI (R233). -/
def execAddpi (y : Syl) (s : State) : Out := running (fun t => t.feed (.addpi y)) s
/-- ADDP (R233). -/
def execAddp (y : Syl) (s : State) : Out := running (fun t => t.feed (.addp y)) s
/-- MOVPS (R233). -/
def execMovps (y : Syl) (s : State) : Out := running (fun t => t.feed (.movps y)) s
/-- MOVSP (R233). -/
def execMovsp (y : Syl) (s : State) : Out := running (fun t => t.feed (.movsp y)) s
/-- MOVKS (R233). -/
def execMovks (y : Syl) (s : State) : Out := running (fun t => t.feed (.movks y)) s
/-- MOVSK (R233). -/
def execMovsk (y : Syl) (s : State) : Out := running (fun t => t.feed (.movsk y)) s
/-- QAND (R233). -/
def execQand (y : Syl) (s : State) : Out := running (fun t => t.feed (.qand y)) s
/-- QOR (R233). -/
def execQor (y : Syl) (s : State) : Out := running (fun t => t.feed (.qor y)) s
/-- QXOR (R233). -/
def execQxor (y : Syl) (s : State) : Out := running (fun t => t.feed (.qxor y)) s
/-- QANDN (R233). -/
def execQandn (y : Syl) (s : State) : Out := running (fun t => t.feed (.qandn y)) s
/-- QNOT (R233). -/
def execQnot (y : Syl) (s : State) : Out := running (fun t => t.feed (.qnot y)) s
/-- QFROMS (R233). -/
def execQfroms (y : Syl) (s : State) : Out := running (fun t => t.feed (.qfroms y)) s
/-- QTOS (R233). -/
def execQtos (y : Syl) (s : State) : Out := running (fun t => t.feed (.qtos y)) s
/-- QSETI (R233). -/
def execQseti (y : Syl) (s : State) : Out := running (fun t => t.feed (.qseti y)) s
/-- LDB (R234). -/
def execLdb (y : Syl) (s : State) : Out := running (fun t => t.feed (.ldb y)) s
/-- LDBU (R234). -/
def execLdbu (y : Syl) (s : State) : Out := running (fun t => t.feed (.ldbu y)) s
/-- LDH (R234). -/
def execLdh (y : Syl) (s : State) : Out := running (fun t => t.feed (.ldh y)) s
/-- LDHU (R234). -/
def execLdhu (y : Syl) (s : State) : Out := running (fun t => t.feed (.ldhu y)) s
/-- LDW (R234). -/
def execLdw (y : Syl) (s : State) : Out := running (fun t => t.feed (.ldw y)) s
/-- LDWU (R234). -/
def execLdwu (y : Syl) (s : State) : Out := running (fun t => t.feed (.ldwu y)) s
/-- LDD (R234). -/
def execLdd (y : Syl) (s : State) : Out := running (fun t => t.feed (.ldd y)) s
/-- LDP (R234). -/
def execLdp (y : Syl) (s : State) : Out := running (fun t => t.feed (.ldp y)) s
/-- VLD (R234). -/
def execVld (y : Syl) (s : State) : Out := running (fun t => t.feed (.vld y)) s
/-- VLDW (R234). -/
def execVldw (y : Syl) (s : State) : Out := running (fun t => t.feed (.vldw y)) s
/-- STB (R234). -/
def execStb (y : Syl) (s : State) : Out := running (fun t => t.feed (.stb y)) s
/-- STH (R234). -/
def execSth (y : Syl) (s : State) : Out := running (fun t => t.feed (.sth y)) s
/-- STW (R234). -/
def execStw (y : Syl) (s : State) : Out := running (fun t => t.feed (.stw y)) s
/-- STD (R234). -/
def execStd (y : Syl) (s : State) : Out := running (fun t => t.feed (.std y)) s
/-- STP (R234). -/
def execStp (y : Syl) (s : State) : Out := running (fun t => t.feed (.stp y)) s
/-- VST (R234). -/
def execVst (y : Syl) (s : State) : Out := running (fun t => t.feed (.vst y)) s
/-- VSTW (R234). -/
def execVstw (y : Syl) (s : State) : Out := running (fun t => t.feed (.vstw y)) s
/-- VADD (R236). -/
def execVadd (y : Syl) (s : State) : Out := running (fun t => t.feed (.vadd y)) s
/-- VSUB (R236). -/
def execVsub (y : Syl) (s : State) : Out := running (fun t => t.feed (.vsub y)) s
/-- VMIN (R236). -/
def execVmin (y : Syl) (s : State) : Out := running (fun t => t.feed (.vmin y)) s
/-- VMAX (R236). -/
def execVmax (y : Syl) (s : State) : Out := running (fun t => t.feed (.vmax y)) s
/-- VABS (R236). -/
def execVabs (y : Syl) (s : State) : Out := running (fun t => t.feed (.vabs y)) s
/-- VNEG (R236). -/
def execVneg (y : Syl) (s : State) : Out := running (fun t => t.feed (.vneg y)) s
/-- VAND (R236). -/
def execVand (y : Syl) (s : State) : Out := running (fun t => t.feed (.vand y)) s
/-- VOR (R236). -/
def execVor (y : Syl) (s : State) : Out := running (fun t => t.feed (.vor y)) s
/-- VXOR (R236). -/
def execVxor (y : Syl) (s : State) : Out := running (fun t => t.feed (.vxor y)) s
/-- VSHL (R236). -/
def execVshl (y : Syl) (s : State) : Out := running (fun t => t.feed (.vshl y)) s
/-- VSHR (R236). -/
def execVshr (y : Syl) (s : State) : Out := running (fun t => t.feed (.vshr y)) s
/-- VCMPEQ (R236). -/
def execVcmpeq (y : Syl) (s : State) : Out := running (fun t => t.feed (.vcmpeq y)) s
/-- VCMPLT (R236). -/
def execVcmplt (y : Syl) (s : State) : Out := running (fun t => t.feed (.vcmplt y)) s
/-- VSEL (R236). -/
def execVsel (y : Syl) (s : State) : Out := running (fun t => t.feed (.vsel y)) s
/-- VPERM (R236). -/
def execVperm (y : Syl) (s : State) : Out := running (fun t => t.feed (.vperm y)) s
/-- VSPLAT (R236). -/
def execVsplat (y : Syl) (s : State) : Out := running (fun t => t.feed (.vsplat y)) s
/-- VEXT (R236). -/
def execVext (y : Syl) (s : State) : Out := running (fun t => t.feed (.vext y)) s
/-- VCONJ (R236). -/
def execVconj (y : Syl) (s : State) : Out := running (fun t => t.feed (.vconj y)) s
/-- VSWAPIQ (R236). -/
def execVswapiq (y : Syl) (s : State) : Out := running (fun t => t.feed (.vswapiq y)) s
/-- VPACK (R236). -/
def execVpack (y : Syl) (s : State) : Out := running (fun t => t.feed (.vpack y)) s
/-- VUNPKL (R236). -/
def execVunpkl (y : Syl) (s : State) : Out := running (fun t => t.feed (.vunpkl y)) s
/-- VUNPKH (R236). -/
def execVunpkh (y : Syl) (s : State) : Out := running (fun t => t.feed (.vunpkh y)) s
/-- VMOV (R236). -/
def execVmov (y : Syl) (s : State) : Out := running (fun t => t.feed (.vmov y)) s
/-- VMUL (R237). -/
def execVmul (y : Syl) (s : State) : Out := running (fun t => t.feed (.vmul y)) s
/-- VCMUL (R237). -/
def execVcmul (y : Syl) (s : State) : Out := running (fun t => t.feed (.vcmul y)) s
/-- VCMULC (R237). -/
def execVcmulc (y : Syl) (s : State) : Out := running (fun t => t.feed (.vcmulc y)) s
/-- VMAC (R237). -/
def execVmac (y : Syl) (s : State) : Out := running (fun t => t.feed (.vmac y)) s
/-- VMSU (R237). -/
def execVmsu (y : Syl) (s : State) : Out := running (fun t => t.feed (.vmsu y)) s
/-- VCMAC (R237). -/
def execVcmac (y : Syl) (s : State) : Out := running (fun t => t.feed (.vcmac y)) s
/-- VCMACC (R237). -/
def execVcmacc (y : Syl) (s : State) : Out := running (fun t => t.feed (.vcmacc y)) s
/-- VCMAG (R237). -/
def execVcmag (y : Syl) (s : State) : Out := running (fun t => t.feed (.vcmag y)) s
/-- VACLR (R237). -/
def execVaclr (y : Syl) (s : State) : Out := running (fun t => t.feed (.vaclr y)) s
/-- VRD (R237). -/
def execVrd (y : Syl) (s : State) : Out := running (fun t => t.feed (.vrd y)) s
/-- VACSL (R238). -/
def execVacsl (y : Syl) (s : State) : Out := running (fun t => t.feed (.vacsl y)) s
/-- VACSH (R238). -/
def execVacsh (y : Syl) (s : State) : Out := running (fun t => t.feed (.vacsh y)) s
/-- NOP (R239). -/
def execNop (y : Syl) (s : State) : Out := running (fun t => t.feed (.nop y)) s
/-- BR (R239). -/
def execBr (y : Syl) (s : State) : Out := running (fun t => t.feed (.br y)) s
/-- CALL (R239). -/
def execCall (y : Syl) (s : State) : Out := running (fun t => t.feed (.call y)) s
/-- JR (R239). -/
def execJr (y : Syl) (s : State) : Out := running (fun t => t.feed (.jr y)) s
/-- LOOP (R206). -/
def execLoop (y : Syl) (s : State) : Out := running (fun t => t.feed (.loop y)) s
/-- LOOPI (R206). -/
def execLoopi (y : Syl) (s : State) : Out := running (fun t => t.feed (.loopi y)) s
/-- REP (R208). -/
def execRep (y : Syl) (s : State) : Out := running (fun t => t.feed (.rep y)) s
/-- REPI (R208). -/
def execRepi (y : Syl) (s : State) : Out := running (fun t => t.feed (.repi y)) s
/-- FENCE (R218). -/
def execFence (y : Syl) (s : State) : Out := running (fun t => t.feed (.fence y)) s
/-- DONE (R193). -/
def execDone (y : Syl) (s : State) : Out := running (fun t => t.feed (.done y)) s
/-- TRAP (R213). -/
def execTrap (y : Syl) (s : State) : Out := running (fun t => t.feed (.trap y)) s
/-- RFE (R213). -/
def execRfe (y : Syl) (s : State) : Out := running (fun t => t.feed (.rfe y)) s
/-- SIGNAL (R239). -/
def execSignal (y : Syl) (s : State) : Out := running (fun t => t.feed (.signal y)) s
/-- VIOL (R219). -/
def execViol (y : Syl) (s : State) : Out := running (fun t => t.feed (.viol y)) s
/-- MFC (R240). -/
def execMfc (y : Syl) (s : State) : Out := running (fun t => t.feed (.mfc y)) s
/-- MTC (R240). -/
def execMtc (y : Syl) (s : State) : Out := running (fun t => t.feed (.mtc y)) s
/-- ACQ (R242). -/
def execAcq (y : Syl) (s : State) : Out := running (fun t => t.feed (.acq y)) s
/-- ACWAIT (R245). -/
def execAcwait (y : Syl) (s : State) : Out := running (fun t => t.feed (.acwait y)) s
/-- ACPOLL (R247). -/
def execAcpoll (y : Syl) (s : State) : Out := running (fun t => t.feed (.acpoll y)) s
/-- EXT (R228). -/
def execExt (core : Fin 136) (stop : Bool) (hi : BitVec 28) (s : State) : Out := running (fun t => t.feed (.ext core stop hi)) s

/-! ### Events of the cores -/

/-- LOOP_END (R206). -/
def execLoopEnd (core : Fin 136) (s : State) : Out := running (fun t => if t.coreRuns core then t.loopEndAt core else t) s
/-- DC_CLEAN (R301). -/
def execDcClean (core : Fin 8) (addr : BitVec 48) (s : State) : Out := working (fun t => t.cacheAct core 0x40 addr.toNat) s
/-- DC_INV (R301). -/
def execDcInv (core : Fin 8) (addr : BitVec 48) (s : State) : Out := working (fun t => t.cacheAct core 0x41 addr.toNat) s
/-- DC_FLUSH (R301). -/
def execDcFlush (core : Fin 8) (addr : BitVec 48) (s : State) : Out := working (fun t => t.cacheAct core 0x42 addr.toNat) s
/-- IC_INV (R301). -/
def execIcInv (core : Fin 8) (addr : BitVec 48) (s : State) : Out := working (fun t => t.cacheAct core 0x43 addr.toNat) s
/-- INTERRUPT_ENTRY (R216). -/
def execInterruptEntry (core : Fin 136) (s : State) : Out := running (fun t => t.interruptAt core) s
/-- CYC_CMP_MATCH (R216). -/
def execCycCmpMatch (core : Fin 136) (s : State) : Out := running (fun t => t.cycMatch core) s
/-- WRITE_BUFFER_DRAIN (R217). -/
def execWriteBufferDrain (core : Fin 136) (s : State) : Out := running (fun t => t.drainStep core) s
/-- ACQ_COMMIT (R242). -/
def execAcqCommit (core : Fin 128) (s : State) : Out := running (fun t => t.acqAt core) s
/-- ACCELERATOR_COMMAND_COMPLETE (R246). -/
def execAcceleratorCommandComplete (fold : Fin 16) (unit : Fin 4) (s : State) : Out := running (fun t => t.accComplete fold unit) s

end Sys2Proof.Machine
end

