-- ==== Sys2Proof/Machine/Edge.lean ====
section
/-!
DEFINITION. The tick edge as a whole (R11, R14, R16, R57 to R63, R216, R436): everything that is due at an edge, in the order in which the
model lets it happen, and the passing of a core cycle.
-/
namespace Sys2Proof.Machine

/-- The counters at the next tick edge (R385). -/
def State.advanceTick (s : State) : State :=
  if s.tm.tick + 1 < ticksPerSecond then { s with tm := { s.tm with tick := s.tm.tick + 1, cycle := 0 } }
  else
    { s with tm := { s.tm with
      tod := (s.tm.tod + 1) % 2 ^ 48, secDT := s.tm.secDT + BitVec.ofNat 64 unitsPerSecond, tick := 0, cycle := 0 } }

/-- Cell commands whose frame begins at the edge at hand (R81, R82). -/
def State.cellEdge (s : State) : State :=
  if s.dbg.restart.isSome then s else
    let s1 := if s.resolveDue then s.resolveAt else s
    if s1.effectDue then s1.effectAt else s1

/-- Planned power states at the edge at hand, none while the almanac waits for its restart (R406, R465). -/
def State.planEdge (s : State) : State :=
  if s.dbg.restart.isSome then s else (List.range 69).foldl (fun t d => t.planDomain d) s

/-- What is due at the end of a tick, the edge at hand being the next one. -/
def State.endTick (s : State) : State :=
  let s1 := s.closeTick.scrubTick
  let s2 := if s1.drv.nextIdx.isNone then s1.fetchNext else s1
  let s3 := s2.applyStep.restartAlmanac.startAlmanac.swapAt
  let s4 := s3.returnUnits.barUnits.rebindAt.cellEdge
  let s5 := s4.overridePower.poolDecide.poolTimeout.epochAt.planEdge
  ((List.range 6).foldl (fun t o => t.applyOutStep o) s5).endEmulation

/-- ALM_POS of the tick that begins (R56). -/
def State.showPos (s : State) : State :=
  if !s.almRuns then s else
    (s.setFld .ALM_POS Fld.ALM_POS_INDEX s.calIndex).setFld .ALM_POS Fld.ALM_POS_TEMPLATE s.template

/-- IPEND.TICK of every core whose clock runs (R216). -/
def State.tickIrq (s : State) : State :=
  (List.range 136).foldl (fun t n =>
    if t.coreLives n && (isControl n || t.domOpen (n / 8)) then t.pend n 0 else t) s

/-- What is no longer needed is forgotten, and units frozen at the edge itself are due to be rebound at the next. -/
def State.tidy (s : State) : State :=
  let s1 := { s with alm := { s.alm with rebindDue := (s.alm.rebindDue ++ s.alm.rebindLate).eraseDups, rebindLate := [] } }
  let s2 := { s1 with dec := { s1.dec with prog := s1.dec.prog.filter fun p => (s1.request p.req).isSome } }
  let s3 := { s2 with drv := { s2.drv with lost := s2.drv.lost.filter fun (l : Nat × Nat) => decide (posDiff l.2 s2.pos ≤ 2240) } }
  s3.ageFronthaul

/-- What happens as the next tick begins. -/
def State.beginTick (s : State) : State :=
  let s1 := s.advanceTick
  let s2 := if s1.tm.tick = 0 then s1.secondBegins else s1
  (s2.releaseTick.showPos.copyStatus.tickIrq.tidy).refreshRails 3

/-- TICK_EDGE: without the Bellwether's clock there is none; while Yalis is halted or has no tick count, time alone goes on (R431,
R464), and a RESUME that waits for an edge restarts at it (R465). -/
def State.tickEdge (s : State) : State :=
  if !s.bit .SYS_READY 3 then s else
    let s0 := if s.halted && s.dbg.resume then { s with tm := { s.tm with cycle := 14000 } }.resumeAt else s
    if s0.halted || !s0.bit .SYS_READY 5 then s0.advanceTick else s0.endTick.beginTick

/-- A core cycle passes; while the clocks are halted, time alone goes on (R464). -/
def State.idle (s : State) : State :=
  if !s.bit .SYS_READY 3 ∨ 13999 ≤ s.tm.cycle then s
  else if s.halted then s.toCycle (s.tm.cycle + 1)
  else (s.passTo (s.tm.cycle + 1)).askWakes.flushBar

/-- TICK_EDGE. -/
def execTickEdge (s : State) : Out := always State.tickEdge s

end Sys2Proof.Machine
end

