-- ==== Sys2Proof/Machine/Dispatch.lean ====
section
/-!
DEFINITION. The meaning of every command: one arm per constructor.
-/
namespace Sys2Proof.Machine

def exec (i : Instr) (s : State) : Host.Outcome State Fault Refusal :=
  match i with
  | .tickEdge => Sys2Proof.Machine.execTickEdge s
  | .guardTimeStart => Sys2Proof.Machine.execGuardTimeStart s
  | .templateFetch => Sys2Proof.Machine.execTemplateFetch s
  | .releaseComplete e => Sys2Proof.Machine.execReleaseComplete e s
  | .almCtrlStart => Sys2Proof.Machine.execAlmCtrlStart s
  | .almCtrlAbort => Sys2Proof.Machine.execAlmCtrlAbort s
  | .almStatClr => Sys2Proof.Machine.execAlmStatClr s
  | .almanacLoadComplete => Sys2Proof.Machine.execAlmanacLoadComplete s
  | .almSwapArm => Sys2Proof.Machine.execAlmSwapArm s
  | .almSwapPoolArm => Sys2Proof.Machine.execAlmSwapPoolArm s
  | .almSwapDisarm => Sys2Proof.Machine.execAlmSwapDisarm s
  | .swapPowerOverride => Sys2Proof.Machine.execSwapPowerOverride s
  | .commitPoint => Sys2Proof.Machine.execCommitPoint s
  | .swap => Sys2Proof.Machine.execSwap s
  | .poolSwapDecision => Sys2Proof.Machine.execPoolSwapDecision s
  | .poolNoCommit => Sys2Proof.Machine.execPoolNoCommit s
  | .rebind => Sys2Proof.Machine.execRebind s
  | .drvRqDb q v => Sys2Proof.Machine.execDrvRqDb q v s
  | .requestAccept q desc ext data => Sys2Proof.Machine.execRequestAccept q desc ext data s
  | .stop q ring tag cell frame => Sys2Proof.Machine.execStop q ring tag cell frame s
  | .migrate q ring tag cell frame dest => Sys2Proof.Machine.execMigrate q ring tag cell frame dest s
  | .start q ring tag cell frame => Sys2Proof.Machine.execStart q ring tag cell frame s
  | .commandResolve => Sys2Proof.Machine.execCommandResolve s
  | .commandEffect => Sys2Proof.Machine.execCommandEffect s
  | .completionPost q ring => Sys2Proof.Machine.execCompletionPost q ring s
  | .coalTicksExpiry ring => Sys2Proof.Machine.execCoalTicksExpiry ring s
  | .drvCqDb q v => Sys2Proof.Machine.execDrvCqDb q v s
  | .drvRqCfg q v => Sys2Proof.Machine.execDrvRqCfg q v s
  | .drvCqCfg q v => Sys2Proof.Machine.execDrvCqCfg q v s
  | .drvStatClr => Sys2Proof.Machine.execDrvStatClr s
  | .frameReceive f => Sys2Proof.Machine.execFrameReceive f s
  | .uplaneReceive f => Sys2Proof.Machine.execUplaneReceive f s
  | .oneWayDelayRequest f => Sys2Proof.Machine.execOneWayDelayRequest f s
  | .remoteRequest f => Sys2Proof.Machine.execRemoteRequest f s
  | .oneWayDelayResponse f => Sys2Proof.Machine.execOneWayDelayResponse f s
  | .fhlDlySend v => Sys2Proof.Machine.execFhlDlySend v s
  | .windowOpen w => Sys2Proof.Machine.execWindowOpen w s
  | .windowClose w => Sys2Proof.Machine.execWindowClose w s
  | .txWindowOpen w started => Sys2Proof.Machine.execTxWindowOpen w started s
  | .txWindowClose w started => Sys2Proof.Machine.execTxWindowClose w started s
  | .linkStateChange port started busy locked fecLock localFault remoteFault => Sys2Proof.Machine.execLinkStateChange port started busy locked fecLock localFault remoteFault s
  | .fhlStatClr => Sys2Proof.Machine.execFhlStatClr s
  | .loadWeights m => Sys2Proof.Machine.execLoadWeights m s
  | .combine m => Sys2Proof.Machine.execCombine m s
  | .precode m => Sys2Proof.Machine.execPrecode m s
  | .demap m => Sys2Proof.Machine.execDemap m s
  | .demapReplay m => Sys2Proof.Machine.execDemapReplay m s
  | .mceStatClr => Sys2Proof.Machine.execMceStatClr s
  | .gainSelect fold core gain => Sys2Proof.Machine.execGainSelect fold core gain s
  | .puschChest fold core gain out gLog2 => Sys2Proof.Machine.execPuschChest fold core gain out gLog2 s
  | .puschMmse fold core est weights scale rows cols first groups stride gLog2 unitLog2 => Sys2Proof.Machine.execPuschMmse fold core est weights scale rows cols first groups stride gLog2 unitLog2 s
  | .foTrack fold core est => Sys2Proof.Machine.execFoTrack fold core est s
  | .puschPhase fold core out => Sys2Proof.Machine.execPuschPhase fold core out s
  | .puschTpIdft fold core layers nsc stride => Sys2Proof.Machine.execPuschTpIdft fold core layers nsc stride s
  | .puschUci fold core llrs ulsch => Sys2Proof.Machine.execPuschUci fold core llrs ulsch s
  | .pucch fold core => Sys2Proof.Machine.execPucch fold core s
  | .srsEst fold core => Sys2Proof.Machine.execSrsEst fold core s
  | .dlWeights fold core weights rows cols first groups stride gLog2 => Sys2Proof.Machine.execDlWeights fold core weights rows cols first groups stride gLog2 s
  | .dlRs fold core grid nsc stride ssb second => Sys2Proof.Machine.execDlRs fold core grid nsc stride ssb second s
  | .lteUci fold core llrs ulsch => Sys2Proof.Machine.execLteUci fold core llrs ulsch s
  | .accum e => Sys2Proof.Machine.execAccum e s
  | .detect e => Sys2Proof.Machine.execDetect e s
  | .praRecordPost e => Sys2Proof.Machine.execPraRecordPost e s
  | .praRingDb r v => Sys2Proof.Machine.execPraRingDb r v s
  | .praRingCfg r v => Sys2Proof.Machine.execPraRingCfg r v s
  | .praStatClr => Sys2Proof.Machine.execPraStatClr s
  | .decLdpc u => Sys2Proof.Machine.execDecLdpc u s
  | .decTurbo u => Sys2Proof.Machine.execDecTurbo u s
  | .tbDone u => Sys2Proof.Machine.execTbDone u s
  | .decLdpcReplay u => Sys2Proof.Machine.execDecLdpcReplay u s
  | .decTurboReplay u => Sys2Proof.Machine.execDecTurboReplay u s
  | .tbDoneReplay u => Sys2Proof.Machine.execTbDoneReplay u s
  | .encDlsch m => Sys2Proof.Machine.execEncDlsch m s
  | .encLteDlsch m => Sys2Proof.Machine.execEncLteDlsch m s
  | .encCtrl m => Sys2Proof.Machine.execEncCtrl m s
  | .encPbch m => Sys2Proof.Machine.execEncPbch m s
  | .lteCtrlMap m => Sys2Proof.Machine.execLteCtrlMap m s
  | .decStatClr => Sys2Proof.Machine.execDecStatClr s
  | .ext core stop hi => Sys2Proof.Machine.execExt core stop hi s
  | .add y => Sys2Proof.Machine.execAdd y s
  | .sub y => Sys2Proof.Machine.execSub y s
  | .and y => Sys2Proof.Machine.execAnd y s
  | .or y => Sys2Proof.Machine.execOr y s
  | .xor y => Sys2Proof.Machine.execXor y s
  | .andn y => Sys2Proof.Machine.execAndn y s
  | .shl y => Sys2Proof.Machine.execShl y s
  | .shr y => Sys2Proof.Machine.execShr y s
  | .sar y => Sys2Proof.Machine.execSar y s
  | .min y => Sys2Proof.Machine.execMin y s
  | .max y => Sys2Proof.Machine.execMax y s
  | .minu y => Sys2Proof.Machine.execMinu y s
  | .maxu y => Sys2Proof.Machine.execMaxu y s
  | .abs y => Sys2Proof.Machine.execAbs y s
  | .clz y => Sys2Proof.Machine.execClz y s
  | .popc y => Sys2Proof.Machine.execPopc y s
  | .mul y => Sys2Proof.Machine.execMul y s
  | .mulh y => Sys2Proof.Machine.execMulh y s
  | .mulq y => Sys2Proof.Machine.execMulq y s
  | .mov y => Sys2Proof.Machine.execMov y s
  | .sext y => Sys2Proof.Machine.execSext y s
  | .cmpeq y => Sys2Proof.Machine.execCmpeq y s
  | .cmplt y => Sys2Proof.Machine.execCmplt y s
  | .cmpltu y => Sys2Proof.Machine.execCmpltu y s
  | .cmple y => Sys2Proof.Machine.execCmple y s
  | .addi y => Sys2Proof.Machine.execAddi y s
  | .andi y => Sys2Proof.Machine.execAndi y s
  | .ori y => Sys2Proof.Machine.execOri y s
  | .xori y => Sys2Proof.Machine.execXori y s
  | .shli y => Sys2Proof.Machine.execShli y s
  | .shri y => Sys2Proof.Machine.execShri y s
  | .sari y => Sys2Proof.Machine.execSari y s
  | .sarri y => Sys2Proof.Machine.execSarri y s
  | .muli y => Sys2Proof.Machine.execMuli y s
  | .movi y => Sys2Proof.Machine.execMovi y s
  | .cmpeqi y => Sys2Proof.Machine.execCmpeqi y s
  | .cmplti y => Sys2Proof.Machine.execCmplti y s
  | .cmpltui y => Sys2Proof.Machine.execCmpltui y s
  | .addpi y => Sys2Proof.Machine.execAddpi y s
  | .addp y => Sys2Proof.Machine.execAddp y s
  | .movps y => Sys2Proof.Machine.execMovps y s
  | .movsp y => Sys2Proof.Machine.execMovsp y s
  | .movks y => Sys2Proof.Machine.execMovks y s
  | .movsk y => Sys2Proof.Machine.execMovsk y s
  | .qand y => Sys2Proof.Machine.execQand y s
  | .qor y => Sys2Proof.Machine.execQor y s
  | .qxor y => Sys2Proof.Machine.execQxor y s
  | .qandn y => Sys2Proof.Machine.execQandn y s
  | .qnot y => Sys2Proof.Machine.execQnot y s
  | .qfroms y => Sys2Proof.Machine.execQfroms y s
  | .qtos y => Sys2Proof.Machine.execQtos y s
  | .qseti y => Sys2Proof.Machine.execQseti y s
  | .ldb y => Sys2Proof.Machine.execLdb y s
  | .ldbu y => Sys2Proof.Machine.execLdbu y s
  | .ldh y => Sys2Proof.Machine.execLdh y s
  | .ldhu y => Sys2Proof.Machine.execLdhu y s
  | .ldw y => Sys2Proof.Machine.execLdw y s
  | .ldwu y => Sys2Proof.Machine.execLdwu y s
  | .ldd y => Sys2Proof.Machine.execLdd y s
  | .ldp y => Sys2Proof.Machine.execLdp y s
  | .vld y => Sys2Proof.Machine.execVld y s
  | .vldw y => Sys2Proof.Machine.execVldw y s
  | .stb y => Sys2Proof.Machine.execStb y s
  | .sth y => Sys2Proof.Machine.execSth y s
  | .stw y => Sys2Proof.Machine.execStw y s
  | .std y => Sys2Proof.Machine.execStd y s
  | .stp y => Sys2Proof.Machine.execStp y s
  | .vst y => Sys2Proof.Machine.execVst y s
  | .vstw y => Sys2Proof.Machine.execVstw y s
  | .vadd y => Sys2Proof.Machine.execVadd y s
  | .vsub y => Sys2Proof.Machine.execVsub y s
  | .vmin y => Sys2Proof.Machine.execVmin y s
  | .vmax y => Sys2Proof.Machine.execVmax y s
  | .vabs y => Sys2Proof.Machine.execVabs y s
  | .vneg y => Sys2Proof.Machine.execVneg y s
  | .vand y => Sys2Proof.Machine.execVand y s
  | .vor y => Sys2Proof.Machine.execVor y s
  | .vxor y => Sys2Proof.Machine.execVxor y s
  | .vshl y => Sys2Proof.Machine.execVshl y s
  | .vshr y => Sys2Proof.Machine.execVshr y s
  | .vcmpeq y => Sys2Proof.Machine.execVcmpeq y s
  | .vcmplt y => Sys2Proof.Machine.execVcmplt y s
  | .vsel y => Sys2Proof.Machine.execVsel y s
  | .vperm y => Sys2Proof.Machine.execVperm y s
  | .vsplat y => Sys2Proof.Machine.execVsplat y s
  | .vext y => Sys2Proof.Machine.execVext y s
  | .vconj y => Sys2Proof.Machine.execVconj y s
  | .vswapiq y => Sys2Proof.Machine.execVswapiq y s
  | .vpack y => Sys2Proof.Machine.execVpack y s
  | .vunpkl y => Sys2Proof.Machine.execVunpkl y s
  | .vunpkh y => Sys2Proof.Machine.execVunpkh y s
  | .vmov y => Sys2Proof.Machine.execVmov y s
  | .vmul y => Sys2Proof.Machine.execVmul y s
  | .vcmul y => Sys2Proof.Machine.execVcmul y s
  | .vcmulc y => Sys2Proof.Machine.execVcmulc y s
  | .vmac y => Sys2Proof.Machine.execVmac y s
  | .vmsu y => Sys2Proof.Machine.execVmsu y s
  | .vcmac y => Sys2Proof.Machine.execVcmac y s
  | .vcmacc y => Sys2Proof.Machine.execVcmacc y s
  | .vcmag y => Sys2Proof.Machine.execVcmag y s
  | .vaclr y => Sys2Proof.Machine.execVaclr y s
  | .vrd y => Sys2Proof.Machine.execVrd y s
  | .vacsl y => Sys2Proof.Machine.execVacsl y s
  | .vacsh y => Sys2Proof.Machine.execVacsh y s
  | .nop y => Sys2Proof.Machine.execNop y s
  | .br y => Sys2Proof.Machine.execBr y s
  | .call y => Sys2Proof.Machine.execCall y s
  | .jr y => Sys2Proof.Machine.execJr y s
  | .loop y => Sys2Proof.Machine.execLoop y s
  | .loopi y => Sys2Proof.Machine.execLoopi y s
  | .loopEnd core => Sys2Proof.Machine.execLoopEnd core s
  | .rep y => Sys2Proof.Machine.execRep y s
  | .repi y => Sys2Proof.Machine.execRepi y s
  | .fence y => Sys2Proof.Machine.execFence y s
  | .done y => Sys2Proof.Machine.execDone y s
  | .trap y => Sys2Proof.Machine.execTrap y s
  | .rfe y => Sys2Proof.Machine.execRfe y s
  | .signal y => Sys2Proof.Machine.execSignal y s
  | .viol y => Sys2Proof.Machine.execViol y s
  | .mfc y => Sys2Proof.Machine.execMfc y s
  | .mtc y => Sys2Proof.Machine.execMtc y s
  | .acq y => Sys2Proof.Machine.execAcq y s
  | .acwait y => Sys2Proof.Machine.execAcwait y s
  | .acpoll y => Sys2Proof.Machine.execAcpoll y s
  | .dcClean core addr => Sys2Proof.Machine.execDcClean core addr s
  | .dcInv core addr => Sys2Proof.Machine.execDcInv core addr s
  | .dcFlush core addr => Sys2Proof.Machine.execDcFlush core addr s
  | .icInv core addr => Sys2Proof.Machine.execIcInv core addr s
  | .interruptEntry core => Sys2Proof.Machine.execInterruptEntry core s
  | .cycCmpMatch core => Sys2Proof.Machine.execCycCmpMatch core s
  | .writeBufferDrain core => Sys2Proof.Machine.execWriteBufferDrain core s
  | .acqCommit core => Sys2Proof.Machine.execAcqCommit core s
  | .acceleratorCommandComplete fold unit => Sys2Proof.Machine.execAcceleratorCommandComplete fold unit s
  | .gram fold => Sys2Proof.Machine.execGram fold s
  | .chol fold => Sys2Proof.Machine.execChol fold s
  | .trsv fold => Sys2Proof.Machine.execTrsv fold s
  | .solve fold => Sys2Proof.Machine.execSolve fold s
  | .dft fold => Sys2Proof.Machine.execDft fold s
  | .idft fold => Sys2Proof.Machine.execIdft fold s
  | .goldBits fold => Sys2Proof.Machine.execGoldBits fold s
  | .goldQpsk fold => Sys2Proof.Machine.execGoldQpsk fold s
  | .zc fold => Sys2Proof.Machine.execZc fold s
  | .lowpapr fold => Sys2Proof.Machine.execLowpapr fold s
  | .decode fold => Sys2Proof.Machine.execDecode fold s
  | .read p => Sys2Proof.Machine.execRead p s
  | .write p => Sys2Proof.Machine.execWrite p s
  | .writeAck p => Sys2Proof.Machine.execWriteAck p s
  | .readResp p => Sys2Proof.Machine.execReadResp p s
  | .writeResp p => Sys2Proof.Machine.execWriteResp p s
  | .nocIsolate n v => Sys2Proof.Machine.execNocIsolate n v s
  | .nocRelease n v => Sys2Proof.Machine.execNocRelease n v s
  | .nocRtDataRead => Sys2Proof.Machine.execNocRtDataRead s
  | .nocRtDataWrite v => Sys2Proof.Machine.execNocRtDataWrite v s
  | .nocStatClr => Sys2Proof.Machine.execNocStatClr s
  | .scrubWord g => Sys2Proof.Machine.execScrubWord g s
  | .memoryInitComplete g ok => Sys2Proof.Machine.execMemoryInitComplete g ok s
  | .memStatClr => Sys2Proof.Machine.execMemStatClr s
  | .copy e host => Sys2Proof.Machine.execCopy e host s
  | .movGo e h v => Sys2Proof.Machine.execMovGo e h v s
  | .movKick e h => Sys2Proof.Machine.execMovKick e h s
  | .movTransferComplete e => Sys2Proof.Machine.execMovTransferComplete e s
  | .clear e h => Sys2Proof.Machine.execClear e h s
  | .movChRing e h v => Sys2Proof.Machine.execMovChRing e h v s
  | .movStatClr => Sys2Proof.Machine.execMovStatClr s
  | .drlGrpLanes g v => Sys2Proof.Machine.execDrlGrpLanes g v s
  | .drlGrpCfg g v => Sys2Proof.Machine.execDrlGrpCfg g v s
  | .droveFrameTransmit g => Sys2Proof.Machine.execDroveFrameTransmit g s
  | .droveFrameReceive l line skew => Sys2Proof.Machine.execDroveFrameReceive l line skew s
  | .pmSecondEnd => Sys2Proof.Machine.execPmSecondEnd s
  | .pmPeriodEnd => Sys2Proof.Machine.execPmPeriodEnd s
  | .drlStatClr => Sys2Proof.Machine.execDrlStatClr s
  | .segmentReceive g => Sys2Proof.Machine.execSegmentReceive g s
  | .remoteRequestSend => Sys2Proof.Machine.execRemoteRequestSend s
  | .fabTimeout tag => Sys2Proof.Machine.execFabTimeout tag s
  | .tagQuarantineEnd tag => Sys2Proof.Machine.execTagQuarantineEnd tag s
  | .beHoldExpiry g => Sys2Proof.Machine.execBeHoldExpiry g s
  | .fabMsgTx v => Sys2Proof.Machine.execFabMsgTx v s
  | .fabRxDb v => Sys2Proof.Machine.execFabRxDb v s
  | .musterCall h p => Sys2Proof.Machine.execMusterCall h p s
  | .musterLinks h p => Sys2Proof.Machine.execMusterLinks h p s
  | .musterAssign h p => Sys2Proof.Machine.execMusterAssign h p s
  | .musterAck p => Sys2Proof.Machine.execMusterAck p s
  | .musterDone h p => Sys2Proof.Machine.execMusterDone h p s
  | .musterAbort h p => Sys2Proof.Machine.execMusterAbort h p s
  | .muster v => Sys2Proof.Machine.execMuster v s
  | .musterEpoch => Sys2Proof.Machine.execMusterEpoch s
  | .musterTimeout => Sys2Proof.Machine.execMusterTimeout s
  | .musterBackoffEnd => Sys2Proof.Machine.execMusterBackoffEnd s
  | .musterPeriodicCall => Sys2Proof.Machine.execMusterPeriodicCall s
  | .loneProbe => Sys2Proof.Machine.execLoneProbe s
  | .swapAnnounce h p => Sys2Proof.Machine.execSwapAnnounce h p s
  | .swapAck h p => Sys2Proof.Machine.execSwapAck h p s
  | .swapNak h p => Sys2Proof.Machine.execSwapNak h p s
  | .swapCommit h p => Sys2Proof.Machine.execSwapCommit h p s
  | .swapCancel h p => Sys2Proof.Machine.execSwapCancel h p s
  | .cellStart h p => Sys2Proof.Machine.execCellStart h p s
  | .cellResult p => Sys2Proof.Machine.execCellResult p s
  | .fabStatClr => Sys2Proof.Machine.execFabStatClr s
  | .sdsQuadCfg q v => Sys2Proof.Machine.execSdsQuadCfg q v s
  | .pllLock q => Sys2Proof.Machine.execPllLock q s
  | .quadReady q => Sys2Proof.Machine.execQuadReady q s
  | .pllNoLock q => Sys2Proof.Machine.execPllNoLock q s
  | .pllLossOfLock q => Sys2Proof.Machine.execPllLossOfLock q s
  | .signalChange l present => Sys2Proof.Machine.execSignalChange l present s
  | .cdrLockChange l tracking => Sys2Proof.Machine.execCdrLockChange l tracking s
  | .adaptationComplete l ctle taps h v => Sys2Proof.Machine.execAdaptationComplete l ctle taps h v s
  | .readapt l v => Sys2Proof.Machine.execReadapt l v s
  | .lpbk l v => Sys2Proof.Machine.execLpbk l v s
  | .fomMeasurement l taps h v => Sys2Proof.Machine.execFomMeasurement l taps h v s
  | .sdsLaneFfe l v => Sys2Proof.Machine.execSdsLaneFfe l v s
  | .errInj l v => Sys2Proof.Machine.execErrInj l v s
  | .chkEn l v => Sys2Proof.Machine.execChkEn l v s
  | .sdsStatClr => Sys2Proof.Machine.execSdsStatClr s
  | .prbsCheckerLock l lock mismatches => Sys2Proof.Machine.execPrbsCheckerLock l lock mismatches s
  | .referenceEvaluation obs dco => Sys2Proof.Machine.execReferenceEvaluation obs dco s
  | .timeStepFix => Sys2Proof.Machine.execTimeStepFix s
  | .timeStep => Sys2Proof.Machine.execTimeStep s
  | .pullComplete => Sys2Proof.Machine.execPullComplete s
  | .timStepArm => Sys2Proof.Machine.execTimStepArm s
  | .timStepDisarm => Sys2Proof.Machine.execTimStepDisarm s
  | .timVrefSub v => Sys2Proof.Machine.execTimVrefSub v s
  | .timTodSecRead => Sys2Proof.Machine.execTimTodSecRead s
  | .timOutStep o v => Sys2Proof.Machine.execTimOutStep o v s
  | .outputStepApply o => Sys2Proof.Machine.execOutputStepApply o s
  | .ptpFrameReceive f => Sys2Proof.Machine.execPtpFrameReceive f s
  | .esmcReceive f => Sys2Proof.Machine.execEsmcReceive f s
  | .esmcTimeout n => Sys2Proof.Machine.execEsmcTimeout n s
  | .timRxDb v => Sys2Proof.Machine.execTimRxDb v s
  | .timTxDb v => Sys2Proof.Machine.execTimTxDb v s
  | .ptpTxDeparture sfd => Sys2Proof.Machine.execPtpTxDeparture sfd s
  | .eventTimerArm n v => Sys2Proof.Machine.execEventTimerArm n v s
  | .eventTimerFire n => Sys2Proof.Machine.execEventTimerFire n s
  | .gpioPulseEnd n => Sys2Proof.Machine.execGpioPulseEnd n s
  | .timStatClr => Sys2Proof.Machine.execTimStatClr s
  | .powerPlanTransition d => Sys2Proof.Machine.execPowerPlanTransition d s
  | .handshakeReask d => Sys2Proof.Machine.execHandshakeReask d s
  | .entryComplete d => Sys2Proof.Machine.execEntryComplete d s
  | .powerGood d => Sys2Proof.Machine.execPowerGood d s
  | .domainWakeFail d => Sys2Proof.Machine.execDomainWakeFail d s
  | .domainWakeComplete d => Sys2Proof.Machine.execDomainWakeComplete d s
  | .avsExchangeStart => Sys2Proof.Machine.execAvsExchangeStart s
  | .avsAck => Sys2Proof.Machine.execAvsAck s
  | .avsNoAck => Sys2Proof.Machine.execAvsNoAck s
  | .pwrForceOn n v => Sys2Proof.Machine.execPwrForceOn n v s
  | .fwState d v => Sys2Proof.Machine.execFwState d v s
  | .clearFail d => Sys2Proof.Machine.execClearFail d s
  | .pwrStatClr => Sys2Proof.Machine.execPwrStatClr s
  | .powerOnReset => Sys2Proof.Machine.execPowerOnReset s
  | .deviceReset v => Sys2Proof.Machine.execDeviceReset v s
  | .pcieReset => Sys2Proof.Machine.execPcieReset s
  | .pcieReady => Sys2Proof.Machine.execPcieReady s
  | .pcieLinkChange up speed width => Sys2Proof.Machine.execPcieLinkChange up speed width s
  | .hostBarWrite bar2 offset data => Sys2Proof.Machine.execHostBarWrite bar2 offset data s
  | .hostBarRead bar2 offset len => Sys2Proof.Machine.execHostBarRead bar2 offset len s
  | .pcieReadCompletion n status data => Sys2Proof.Machine.execPcieReadCompletion n status data s
  | .completionTimeout n => Sys2Proof.Machine.execCompletionTimeout n s
  | .bootReadComplete image => Sys2Proof.Machine.execBootReadComplete image s
  | .noFlash => Sys2Proof.Machine.execNoFlash s
  | .flashError section_ => Sys2Proof.Machine.execFlashError section_ s
  | .sysBootGo => Sys2Proof.Machine.execSysBootGo s
  | .bootLock => Sys2Proof.Machine.execBootLock s
  | .almanacStart => Sys2Proof.Machine.execAlmanacStart s
  | .fhReady => Sys2Proof.Machine.execFhReady s
  | .statusPortRead addr => Sys2Proof.Machine.execStatusPortRead addr s
  | .stpDb addr v => Sys2Proof.Machine.execStpDb addr v s
  | .thermCrossing temp => Sys2Proof.Machine.execThermCrossing temp s
  | .registerWrite ws reads => Sys2Proof.Machine.execRegisterWrite ws reads s
  | .aonPowerGood => Sys2Proof.Machine.execAonPowerGood s
  | .aonPowerLoss => Sys2Proof.Machine.execAonPowerLoss s
  | .pwronNRelease => Sys2Proof.Machine.execPwronNRelease s
  | .dcoFreerunStart => Sys2Proof.Machine.execDcoFreerunStart s
  | .systemPllLock => Sys2Proof.Machine.execSystemPllLock s
  | .configurationRequest write offset v => Sys2Proof.Machine.execConfigurationRequest write offset v s
  | .unitHwFault cls phys sram => Sys2Proof.Machine.execUnitHwFault cls phys sram s
  | .fltReset cls phys => Sys2Proof.Machine.execFltReset cls phys s
  | .fltRestore cls phys => Sys2Proof.Machine.execFltRestore cls phys s
  | .restoreComplete cls phys ok => Sys2Proof.Machine.execRestoreComplete cls phys ok s
  | .fltReturn cls phys => Sys2Proof.Machine.execFltReturn cls phys s
  | .unitReturned => Sys2Proof.Machine.execUnitReturned s
  | .unitBarred => Sys2Proof.Machine.execUnitBarred s
  | .consume n => Sys2Proof.Machine.execConsume n s
  | .fltStatClr => Sys2Proof.Machine.execFltStatClr s
  | .testLogicReset => Sys2Proof.Machine.execTestLogicReset s
  | .extest cells => Sys2Proof.Machine.execExtest cells s
  | .sample => Sys2Proof.Machine.execSample s
  | .idcode => Sys2Proof.Machine.execIdcode s
  | .bypass => Sys2Proof.Machine.execBypass s
  | .nonce => Sys2Proof.Machine.execNonce s
  | .auth mac => Sys2Proof.Machine.execAuth mac s
  | .lockoutEnd => Sys2Proof.Machine.execLockoutEnd s
  | .access write addr data => Sys2Proof.Machine.execAccess write addr data s
  | .accessComplete => Sys2Proof.Machine.execAccessComplete s
  | .halt => Sys2Proof.Machine.execHalt s
  | .resume => Sys2Proof.Machine.execResume s
  | .resumeRestart => Sys2Proof.Machine.execResumeRestart s
  | .almanacRestart => Sys2Proof.Machine.execAlmanacRestart s
  | .detach => Sys2Proof.Machine.execDetach s
  | .sleepEmulationEnd => Sys2Proof.Machine.execSleepEmulationEnd s
  | .uartTx v => Sys2Proof.Machine.execUartTx v s
  | .uartRxCharacter data parity stop => Sys2Proof.Machine.execUartRxCharacter data parity stop s
  | .uartRx => Sys2Proof.Machine.execUartRx s
  | .uartCfg v => Sys2Proof.Machine.execUartCfg v s
  | .uartTxEmpty => Sys2Proof.Machine.execUartTxEmpty s

end Sys2Proof.Machine
end

