-- ==== Sys2Proof/WellFormed.lean ====
section
/-!
DEFINITION. Which commands are well formed: the lengths of the lists that a command carries, where the spec bounds them, and the reserved
OPC that a syllable may carry. Every other operand has a type that no ill-formed value fits. The machine gives every command its meaning, well formed or not.
-/
namespace Sys2Proof

/-- What a read of host memory brought has one of the lengths that `p` allows. -/
def hostSized (p : Nat → Bool) : HostData → Bool
  | .data b => p b.length
  | .unsupported | .aborted | .poisoned | .timedOut => true

/-- A frame holds at least its addresses and EtherType. -/
def RxFrame.wellFormed (f : RxFrame) : Bool := decide (14 ≤ f.bytes.length)

/-- A packet carries a request or response of R264: its data have LEN + 1 bytes where it carries data, and none elsewhere; a response
with a STATUS other than OK carries none. -/
def Packet.wellFormed (p : Packet) : Bool :=
  let n := p.data.length
  if p.type = 0 ∨ p.type = 4 then n == 0
  else if p.type = 1 ∨ p.type = 2 then n == p.len.toNat + 1
  else decide (p.type = 3) && (n == p.len.toNat + 1 || n == 0)

/-- At most one write per master port in one core cycle (R284), each of at most 256 bytes. -/
def writesOk (ws : List RegWrite) : Bool :=
  decide ((ws.map (·.port)).Nodup) && ws.all fun w => decide (0 < w.data.length) && decide (w.data.length ≤ 256)

/-- A message's payload holds the muster number, and no more than the longest message of R348, MUSTER_LINKS with 255 records. -/
def messageOk (p : List (BitVec 8)) : Bool := decide (4 ≤ p.length) && decide (p.length ≤ 17 + 255 * 12)

/-- Whether a command is well formed. -/
def Instr.wellFormed : Instr → Bool
  | .requestAccept _ desc tab data =>
    hostSized (· == 256) desc && hostSized (fun n => n % 64 == 0 && decide (n ≤ 252 * 64)) tab && decide (data.length ≤ 255)
  | .frameReceive f | .uplaneReceive f | .oneWayDelayRequest f | .remoteRequest f | .oneWayDelayResponse f | .ptpFrameReceive f
  | .esmcReceive f => f.wellFormed
  | .foTrack _ _ est => decide (est.length ≤ 256)
  | .read p | .write p | .writeAck p | .readResp p | .writeResp p => p.wellFormed
  | .musterCall _ p | .musterLinks _ p | .musterAssign _ p | .musterAck p | .musterDone _ p | .musterAbort _ p
  | .swapAnnounce _ p | .swapAck _ p | .swapNak _ p | .swapCommit _ p | .swapCancel _ p | .cellStart _ p
  | .cellResult p => messageOk p
  | .referenceEvaluation obs _ => obs.length == 8
  | .hostBarWrite _ _ d => decide (0 < d.length) && decide (d.length ≤ 4096)
  | .hostBarRead _ _ n => decide (0 < n.toNat) && decide (n.toNat ≤ 4096)
  | .pcieReadCompletion _ _ d => decide (d.length ≤ 256)
  | .registerWrite ws _ => writesOk ws
  | i => sylOk i

end Sys2Proof
end

