-- ==== Sys2Proof/Safety.lean ====
section
/-!
DEFINITION. What claims call a run of the block: its commands in order, and a run that completes.
-/
namespace Sys2Proof

/-- The outcome of a list of commands carried out one after the other, each on the state that the one before it left. -/
def runCommands : List Instr → Machine.State → Host.Outcome Machine.State Machine.Fault Machine.Refusal
  | [], s => .next s
  | c :: cs, s =>
    match Machine.exec c s with
    | .next t => runCommands cs t
    | .fault r => .fault r
    | .refused r => .refused r

/-- Whether an outcome is a next state: the block neither stopped nor refused. -/
def completes : Host.Outcome Machine.State Machine.Fault Machine.Refusal → Bool
  | .next _ => true
  | .fault _ => false
  | .refused _ => false

/-- A state whose queue holds well-formed commands alone. -/
def queueOk (s : Machine.State) : Bool := s.pending.all Instr.wellFormed

/-- Whether a halt of the clocks stops a command (R464). Time, resets, the debug port, the status port, the clocks' own start, the power
handshakes and AVSBus, and writes from the Crook port go on. -/
def haltStops : Instr → Bool
  | .tickEdge | .handshakeReask _ | .entryComplete _ | .powerGood _ | .domainWakeFail _ | .domainWakeComplete _ | .avsExchangeStart
  | .avsAck | .avsNoAck | .powerOnReset | .deviceReset _ | .pcieReset | .statusPortRead _ | .stpDb _ _ | .thermCrossing _
  | .registerWrite _ _ | .aonPowerGood | .aonPowerLoss | .pwronNRelease | .dcoFreerunStart | .systemPllLock | .testLogicReset
  | .extest _ | .sample | .idcode | .bypass | .nonce | .auth _ | .lockoutEnd | .access _ _ _ | .accessComplete | .halt | .resume
  | .resumeRestart | .detach => false
  | _ => true

/-- A command completes, with a property of the state that it leaves. -/
def Runs (c : Instr) (s : Machine.State) (Q : Machine.State → Prop) : Prop := ∃ t, Machine.exec c s = .next t ∧ Q t

/-- Every register but those of a list reads as before. -/
def regsKept (rs : List Machine.Reg) (s t : Machine.State) : Prop := ∀ r : Machine.Reg, r.off ∉ rs.map Machine.Reg.off → t.rd r = s.rd r

/-- Registers of a list alone may differ; the rest of the state is the same. -/
def onlyRegs (rs : List Machine.Reg) (s t : Machine.State) : Prop := regsKept rs s t ∧ { t with regs := s.regs } = s

/-- Every byte of memory reads as before. -/
def memKept (s t : Machine.State) : Prop := ∀ a, t.mem.read a = s.mem.read a

/-- Nothing under way: no release of the tick waits or runs, and the network carries no packet. -/
def Machine.State.quiet (s : Machine.State) : Prop := (∀ r ∈ s.drv.rels, r.live = false) ∧ s.noc.flight = []

/-- The state in which the work of a command is begun: what it must wait for is noted. -/
def Machine.State.trying (s : Machine.State) : Machine.State := { s with noc := { s.noc with wait := some [] } }

/-- The work of a command goes on at once: no access of it waits for a domain, for an interface or for an earlier packet (R278, R281,
R283). -/
def Machine.State.unhindered (s : Machine.State) (f : Machine.State → Machine.State) : Prop := (f s.trying).noc.wait = some []

/-! ### Bundles of the DSP cores -/

/-- Core `n` would issue a bundle of `len` syllables at its PC at once: its clocks run, it issues bundles, no bundle is half fetched, no LOOP_END
is due, no FENCE waits, and the fetch meets no error. -/
structure Machine.State.readyFor (s : Machine.State) (n len : Nat) : Prop where
  live : s.halted = false
  runs : s.coreRuns n = true
  fresh : (s.core n).bundle = []
  noLoopEnd : (s.core n).loopDue = false
  noFence : (s.core n).fence = false ∨ (s.core n).wbuf = []
  fold : Machine.isControl n = false → s.ecc.flips = [] ∧ (s.core n).pc + 4 * len ≤ 0x80000
  control : Machine.isControl n = true →
    (s.core n).mpuAllows 2 (s.programBase n + (s.core n).pc) (4 * len) = true ∧
    ∀ l, (s.programBase n + (s.core n).pc) / 64 ≤ l → l ≤ (s.programBase n + (s.core n).pc + 4 * len - 1) / 64 →
      (s.core n).icache.contains l = true

/-- Core `n` alone may differ. -/
def coreOnly (n : Nat) (s t : Machine.State) : Prop :=
  (∀ m, m ≠ n → t.core m = s.core m) ∧ { t with dsp := { t.dsp with cores := s.dsp.cores } } = s

/-- A core that goes on after the bundle that lay from `pc` to `nextPc`, with no control transfer in it: behind the bundle, to its start again
in a REP, or with the LOOP_END of its LOOP due (R206, R208). -/
def Machine.Core.goesOn (c : Machine.Core) (pc nextPc : Nat) : Machine.Core :=
  let ended (k : Machine.Core) : Machine.Core := if k.la ∧ pc = k.getCr 6 then { k with loopDue := true } else k
  if c.ra then (if (c.repeated pc nextPc).ra then c.repeated pc nextPc else ended (c.repeated pc nextPc)) else ended { c with pc := nextPc }

/-- A core once a bundle of `len` syllables has issued, before it goes on: the results `ws` are under way, a control core's land at once, and
`sat` sets STATUS.SAT (R195, R204, R221). -/
def Machine.Core.retired (c : Machine.Core) (control : Bool) (ws : List Machine.Pend) (sat : Bool) : Machine.Core :=
  let timed : List Machine.Flying := ws.map fun (p : Machine.Pend) => ⟨if control then { p with left := 1 } else p, 0⟩
  let k := { c with flight := c.flight ++ timed }.advance
  { (if sat then k.setStatus 7 1 1 else k) with bundle := [], resume := false, fence := false, lastPc := c.pc }

/-- A core once a bundle of `len` syllables without a control transfer has issued. -/
def Machine.Core.issued (c : Machine.Core) (control : Bool) (len : Nat) (ws : List Machine.Pend) (sat : Bool) : Machine.Core :=
  (c.retired control ws sat).goesOn c.pc (c.pc + 4 * len)

/-- Core `n` has issued a bundle of `len` syllables with the results `ws`, and nothing else has changed. -/
def issues (n len : Nat) (ws : List Machine.Pend) (sat : Bool) (s t : Machine.State) : Prop :=
  coreOnly n s t ∧ t.core n = (s.core n).issued (Machine.isControl n) len ws sat

/-- Core `n` has taken an exception of the bundle of `len` syllables at its PC (R209, R211, R212, R215): KN from TK when STATUS.EXK is 0, else
FW, with EPC at the bundle. -/
def excepts (n len code addr slot : Nat) (s t : Machine.State) : Prop :=
  let c := s.core n
  let k := { c with cr := (c.setCr 0x14 (Machine.setBitsOf (c.getCr 0x14) 15 1 0)).cr }
  let cause := code + 2 ^ 8 * slot + 2 ^ 10 * c.pl + 2 ^ 12 * len
  coreOnly n s t ∧ t.core n = (if c.pl = 2 ∧ c.exk = false then k.enter false c.pc cause addr 0xC0 else k.enter true c.pc cause addr 0x40)

/-- An exception of core `n` can be entered: it goes to KN from TK, or STATUS.EXF is 0 (R211). -/
def enters (n : Nat) (s : Machine.State) : Prop := (s.core n).exf = false ∨ ((s.core n).pl = 2 ∧ (s.core n).exk = false)

/-- A bundle of `len` syllables whose narrowing is `f` has issued with the results `ws`, or raised ARITH and written nothing (R204). -/
def narrows (n len : Nat) (f : Machine.Fit) (ws : List Machine.Pend) (s t : Machine.State) : Prop :=
  (f.arith = false → issues n len ws f.sat s t) ∧ (f.arith = true → enters n s → excepts n len 5 0 0 s t)

/-- ILLEGAL_OP in the first syllable of a bundle of `len` syllables (R230). -/
def illegal (n len : Nat) (s t : Machine.State) : Prop := enters n s → excepts n len 3 0 0 s t

/-- An operation issued alone in its bundle under a guard of bit 0 (R229): nothing where the guard is off. -/
def guardedOp (n : Nat) (y : Syl) (s t : Machine.State) (p : Prop) : Prop :=
  (((s.core n).qreg y.pg.toNat).testBit 0 = false → issues n 1 [] false s t) ∧
  (((s.core n).qreg y.pg.toNat).testBit 0 = true → p)

/-! ### The work of an engine -/

/-- The work of a command goes on at once and meets no error: it records no fault (R453). -/
def Machine.State.smooth (s : Machine.State) (f : Machine.State → Machine.State) : Prop :=
  s.unhindered f ∧ (f s.trying).rd .FLT_STATUS = s.rd .FLT_STATUS

/-- An engine's pipeline has no release in service and none on its way. -/
def idleEngine (cls phys core lane : Nat) (s : Machine.State) : Prop :=
  ∀ r ∈ s.drv.rels, r.eng = ⟨cls, phys, core⟩ → r.lane = lane → r.status ≠ .inService ∧ r.status ≠ .queued

/-- The release in service on an engine's pipeline whose work has not been done. -/
def toDo (cls phys core lane : Nat) (s : Machine.State) (r : Machine.Release) : Prop :=
  s.serving cls phys core lane = some r ∧ r.ran = false

/-- The work of a release has been done. -/
def workDone (r : Machine.Release) (t : Machine.State) : Prop := ∀ q ∈ t.drv.rels, q.idx = r.idx → q.ran = true

/-- A range of Pasture memory. -/
def inPasture (a len : Nat) : Prop := Machine.pastureBase ≤ a ∧ a + len ≤ Machine.pastureBase + Machine.pastureSize

/-- Every byte outside a range reads as before. -/
def memOutside (a len : Nat) (s t : Machine.State) : Prop := ∀ x, x < a ∨ a + len ≤ x → t.mem.read x = s.mem.read x

/-- The sound form of a state: the registers and the memory in canonical form, the tick within its second, and the core cycle
within its tick (14,000 of them, R11; 14,000 itself stands for the edge at hand). -/
structure Machine.State.Sound (s : Machine.State) : Prop where
  regs : s.regs.wf = true
  mem : s.mem.wf = true
  tick : s.tm.tick < Machine.ticksPerSecond
  cycle : s.tm.cycle ≤ 14000

end Sys2Proof
end

