-- ==== Sys2Proof/Certificates/Slice0/Obligations.lean ====
section
/-!
DEFINITION. The statements for the provers: the whole block first, then family by family what each command completes with and what it
leaves alone.
-/
open Sys2Proof Sys2Proof.Machine

/-! ### The whole block -/

/-- A step of a state whose queue is `c :: q` runs `c` on the state with the queue `q`. -/
def Obligations.StepRunsFrontCommand : Prop :=
  ∀ (s : State) (c : Instr) (q : List Instr), step (s.withPending (c :: q)) = exec c (s.withPending q)

/-- On an empty queue a step is one core cycle (the model's choice, log 1). With the Bellwether's clock (SYS_READY bit 3) and a core cycle
left in the tick, the cycle count alone moves on where the clocks are halted or nothing is under way; without the clock, or with no cycle
left, nothing happens. -/
def Obligations.StepOnEmptyQueue : Prop :=
  ∀ s : State, s.pending = [] →
    (s.bit .SYS_READY 3 = true → s.tm.cycle < 13999 → s.halted = true ∨ (s.quiet ∧ s.sys.barHeld = []) →
      step s = .next { s with tm := { s.tm with cycle := s.tm.cycle + 1 } }) ∧
    (s.bit .SYS_READY 3 = false → step s = .next s) ∧
    (13999 ≤ s.tm.cycle → step s = .next s)

/-- Every command completes in every state and leaves the queue of waiting commands alone. -/
def Obligations.EveryCommandCompletes : Prop :=
  ∀ (c : Instr) (s : State), ∃ t, exec c s = .next t ∧ t.pending = s.pending

/-- A queue of n commands is carried out by n steps, first in, first out: the run ends in what the commands leave one after the other. -/
def Obligations.QueueRunsInOrder : Prop :=
  ∀ (cs rest : List Instr) (s : State), ∃ t,
    Sys2Proof.core.run cs.length (s.withPending (cs ++ rest)) = .next t ∧ t.pending = rest ∧
    ∃ u, runCommands cs (s.withPending rest) = .next u ∧ u.withPending rest = t

/-- R464. While the debugger holds the clocks, no command that needs them does anything (`haltStops` lists those that go on). -/
def Obligations.HaltedDoesNothing : Prop :=
  ∀ (c : Instr) (s : State), s.halted = true → haltStops c = true → exec c s = .next s

/-- The state after reset is sound: registers and memory in canonical form, the tick within its second, the cycle within its tick. -/
def Obligations.ResetIsSound : Prop := State.reset.Sound

/-- Every step of a sound state leaves a sound state (R11: a second has 112,000 ticks and a tick 14,000 core cycles; the memory and the
registers keep their canonical form). -/
def Obligations.StepKeepsSound : Prop :=
  ∀ s t : State, s.Sound → step s = .next t → t.Sound

/-- After reset every register reads its reset value, every byte of memory 0 (R296), SYS_READY nothing ready, and nothing waits. -/
def Obligations.ResetValues : Prop :=
  (∀ r : Reg, State.reset.rd r = regReset r.off) ∧ (∀ a, State.reset.mem.read a = 0) ∧ State.reset.rd .SYS_READY = 0 ∧
  State.reset.pending = [] ∧ State.reset.locked = false ∧ State.reset.halted = false

/-! ### Registers, memory, records -/

/-- R5, R6, R421. What a plain write of `v` leaves in each bit of a register: a bit that is both written and W1S is set, else one that is W1C
and written clears, else a bit that is RW (or RWL before the boot lock) takes the value written and any other keeps its own; a register
at another offset keeps everything, and so does all of memory. -/
def Obligations.RegisterWriteByAccess : Prop :=
  ∀ (s : State) (r q : Reg) (v : Word) (i : Nat), i < 64 →
    ((s.wrAccess r v).rd r).getLsbD i =
      (if (v &&& r.access.w1s).getLsbD i then true
       else if (v &&& r.access.w1c).getLsbD i then false
       else if r.access.rw.getLsbD i || (r.access.rwl.getLsbD i && !s.locked) then v.getLsbD i
       else (s.rd r).getLsbD i) ∧
    (q.off ≠ r.off → (s.wrAccess r v).rd q = s.rd q) ∧ (s.wrAccess r v).mem = s.mem

/-- Byte memory: a byte string written is read back, every byte outside it reads as before, and the canonical form is kept. -/
def Obligations.MemoryReadAfterWrite : Prop :=
  ∀ (m : Memory) (a : Nat) (bs : List Byte),
    (m.writeBytes a bs).readBytes a bs.length = bs ∧
    (∀ x, x < a ∨ a + bs.length ≤ x → (m.writeBytes a bs).read x = m.read x) ∧
    (m.wf = true → (m.writeBytes a bs).wf = true)

/-- Two memories in canonical form that read alike at every address are equal. -/
def Obligations.MemoryIsCanonical : Prop :=
  ∀ m n : Memory, m.wf = true → n.wf = true → (∀ a, m.read a = n.read a) → m = n

/-- R288. The SRAM code: the stored check byte XOR the check byte of the data read is the syndrome of the bits that differ; one flipped bit
of the 72 is corrected and two are uncorrectable. -/
def Obligations.SramCode : Prop :=
  (∀ d f : Nat, d < 2 ^ 64 → f < 2 ^ 72 → (checkByte d ^^^ f / 2 ^ 64) ^^^ checkByte (d ^^^ f % 2 ^ 64) = syndrome f) ∧
  (∀ i, i < 72 → ∃ syn, checkWord (2 ^ i) = .corrected 0 syn) ∧
  (∀ i j, i < j → j < 72 → ∃ syn, checkWord (2 ^ i + 2 ^ j) = .uncorrectable syn)

/-- R290. The DDR code corrects every failure of one whole device of the ten, and a clean line is clean. -/
def Obligations.DdrCode : Prop :=
  checkLine 0 = some (0, none) ∧
  ∀ d e : Nat, d < 10 → 0 < e → e < 2 ^ 64 → checkLine (2 ^ (64 * d) * e) = some (0, some d)

/-- R453, R454. A fault record lies at WR_IDX with the record's four words, WR_IDX and SEQ move on, COUNT rises or, with 64 records waiting,
OVERFLOW sets, and no other register but FLT_STATUS, FLT_STATS, SYS_ALARM, HST_PBA and HST_STATS changes; memory keeps. -/
def Obligations.FaultRecordWritten : Prop :=
  ∀ (s : State) (a : FaultArgs),
    let i := s.fld .FLT_STATUS Fld.FLT_STATUS_WR_IDX
    let t := s.record a
    t.rd (.FLT_REC i 0) = BitVec.ofNat 64 (s.recWord0 a) ∧ t.rd (.FLT_REC i 1) = s.now ∧
    t.rd (.FLT_REC i 2) = BitVec.ofNat 64 (2 ^ 48 * s.fld .FLT_STATUS Fld.FLT_STATUS_SEQ + a.addr % 2 ^ 48) ∧
    t.rd (.FLT_REC i 3) =
      BitVec.ofNat 64 (2 ^ 32 * (a.detail % 2 ^ 32) + 2 ^ 16 * min 0xFFFF a.requests + min 0xFFFF a.releases) ∧
    t.fld .FLT_STATUS Fld.FLT_STATUS_WR_IDX = (i + 1) % 64 ∧
    t.fld .FLT_STATUS Fld.FLT_STATUS_SEQ = (s.fld .FLT_STATUS Fld.FLT_STATUS_SEQ + 1) % 2 ^ 16 ∧
    (s.fld .FLT_STATUS Fld.FLT_STATUS_COUNT < 64 →
      t.fld .FLT_STATUS Fld.FLT_STATUS_COUNT = s.fld .FLT_STATUS Fld.FLT_STATUS_COUNT + 1) ∧
    (s.fld .FLT_STATUS Fld.FLT_STATUS_COUNT = 64 →
      t.fld .FLT_STATUS Fld.FLT_STATUS_COUNT = 64 ∧ t.fld .FLT_STATUS Fld.FLT_STATUS_OVERFLOW = 1) ∧
    regsKept [.FLT_REC i 0, .FLT_REC i 1, .FLT_REC i 2, .FLT_REC i 3, .FLT_STATUS, .FLT_STATS, .SYS_ALARM, .HST_PBA, .HST_STATS] s t ∧
    t.mem = s.mem

/-- R385, R387. The next tick edge: the tick count moves on within its second, or the second, its device time and its TOD move on; the frame
position moves on by one, modulo 2^20 frames of 1,120 ticks. -/
def Obligations.TickCounts : Prop :=
  ∀ s : State, s.tm.tick < ticksPerSecond →
    s.advanceTick.tm.cycle = 0 ∧ s.advanceTick.tm.tick < ticksPerSecond ∧
    (s.tm.tick + 1 < ticksPerSecond →
      s.advanceTick.tm.tick = s.tm.tick + 1 ∧ s.advanceTick.tm.tod = s.tm.tod ∧ s.advanceTick.tm.secDT = s.tm.secDT) ∧
    (s.tm.tick + 1 = ticksPerSecond →
      s.advanceTick.tm.tick = 0 ∧ s.advanceTick.tm.tod = (s.tm.tod + 1) % 2 ^ 48 ∧
      s.advanceTick.tm.secDT = s.tm.secDT + BitVec.ofNat 64 unitsPerSecond) ∧
    s.advanceTick.pos = (s.pos + 1) % posCount ∧ s.advanceTick.timeAt 0 = s.timeAt 14000 ∧ s.advanceTick.regs = s.regs

/-! ### The almanac -/

/-- R43, R45, R56. ALM_CTRL_START takes the source and length registers for the load, shows LOADING and BUSY, is ignored while a load runs
and answers LOAD_BUSY (0x13) while a swap is armed; ALM_CTRL_ABORT ends a load with ABORTED (0x14) and leaves the shadow INVALID;
ALMANAC_LOAD_COMPLETE ends the load with DONE; ALM_STAT_CLR clears ALM_STATS and nothing else. -/
def Obligations.AlmanacLoads : Prop :=
  ∀ s : State, s.halted = false →
    Runs .almCtrlStart s (fun t => memKept s t ∧
      (s.alm.load = none → s.alm.swap = none →
        t.alm.load = some ⟨s.fld .ALM_LOAD_SRC Fld.ALM_LOAD_SRC_ADDR, s.fld .ALM_LOAD_LEN Fld.ALM_LOAD_LEN_LEN,
          s.fld .ALM_FW_SRC Fld.ALM_FW_SRC_ADDR, s.fld .ALM_FW_LEN Fld.ALM_FW_LEN_LEN⟩ ∧
        t.fld .ALM_LOAD_STATUS Fld.ALM_LOAD_STATUS_BUSY = 1 ∧ t.fld .ALM_LOAD_STATUS Fld.ALM_LOAD_STATUS_DONE = 0 ∧
        t.fld .ALM_SHADOW_INFO Fld.ALM_SHADOW_INFO_STATE = 1 ∧ regsKept [.ALM_LOAD_STATUS, .ALM_SHADOW_INFO] s t) ∧
      (s.alm.load.isSome = true → t = s) ∧
      (s.alm.load = none → s.alm.swap.isSome = true →
        t.fld .ALM_LOAD_STATUS Fld.ALM_LOAD_STATUS_CODE = 0x13 ∧ t.alm = s.alm)) ∧
    Runs .almCtrlAbort s (fun t => memKept s t ∧
      (s.alm.load.isSome = true → t.alm.load = none ∧ t.fld .ALM_SHADOW_INFO Fld.ALM_SHADOW_INFO_STATE = 3 ∧
        t.fld .ALM_LOAD_STATUS Fld.ALM_LOAD_STATUS_CODE = 0x14 ∧ t.fld .ALM_LOAD_STATUS Fld.ALM_LOAD_STATUS_DONE = 1) ∧
      (s.alm.load = none → t = s)) ∧
    Runs .almanacLoadComplete s (fun t => s.alm.load.isSome = true → s.unhindered State.completeLoad →
      t.alm.load = none ∧ t.fld .ALM_LOAD_STATUS Fld.ALM_LOAD_STATUS_DONE = 1 ∧ t.fld .ALM_LOAD_STATUS Fld.ALM_LOAD_STATUS_BUSY = 0) ∧
    Runs .almStatClr s (fun t => t.rd .ALM_STATS = 0 ∧ regsKept [.ALM_STATS] s t ∧ { t with regs := s.regs } = s)

/-- R48, R49, R54. ALM_SWAP_ARM and ALM_SWAP_POOL_ARM refuse with the first condition's code, and otherwise arm the swap for
ALM_SWAP_FRAME; DISARM before the commit point ends it and after it answers DISARM_TOO_LATE (0x27); the answers of the members of a pool
swap are noted, SWAP_COMMIT marks a member's swap committed. -/
def Obligations.SwapArming : Prop :=
  ∀ s : State, s.halted = false →
    Runs .almSwapArm s (fun t => memKept s t ∧
      (∀ c, s.armRefusal (s.fld .ALM_SWAP_FRAME Fld.ALM_SWAP_FRAME_FRAME) false = some c →
        t.fld .ALM_SWAP_STATUS Fld.ALM_SWAP_STATUS_CODE = c ∧ t.alm = s.alm) ∧
      (s.armRefusal (s.fld .ALM_SWAP_FRAME Fld.ALM_SWAP_FRAME_FRAME) false = none →
        t.alm.swap.map (·.frame) = some (s.fld .ALM_SWAP_FRAME Fld.ALM_SWAP_FRAME_FRAME) ∧
        t.alm.swap.map (·.pool) = some false ∧ t.fld .ALM_SWAP_STATUS Fld.ALM_SWAP_STATUS_ARMED = 1 ∧
        t.fld .ALM_SWAP_STATUS Fld.ALM_SWAP_STATUS_CODE = 0 ∧ regsKept [.ALM_SWAP_STATUS] s t)) ∧
    Runs .almSwapPoolArm s (fun t =>
      (∀ c, s.armRefusal (s.fld .ALM_SWAP_FRAME Fld.ALM_SWAP_FRAME_FRAME) true = some c →
        t.fld .ALM_SWAP_STATUS Fld.ALM_SWAP_STATUS_CODE = c ∧ t.alm = s.alm) ∧
      (s.armRefusal (s.fld .ALM_SWAP_FRAME Fld.ALM_SWAP_FRAME_FRAME) true = none → s.otherMembers (s.rd .ALM_SWAP_GROUP) = [] →
        t.alm.swap = some ⟨s.fld .ALM_SWAP_FRAME Fld.ALM_SWAP_FRAME_FRAME, true, true, s.fabAddr, s.rd .ALM_SWAP_GROUP, 0, !s.poolVersions, false⟩)) ∧
    Runs .almSwapDisarm s (fun t =>
      (s.alm.swap = none → t = s) ∧
      (∀ w, s.alm.swap = some w → posDiff s.nextPos (posOf w.frame 0) > 0 →
        t.alm.swap = some w ∧ t.fld .ALM_SWAP_STATUS Fld.ALM_SWAP_STATUS_CODE = 0x27) ∧
      (∀ w, s.alm.swap = some w → posDiff s.nextPos (posOf w.frame 0) < 0 → s.powerOverride = false →
        t.alm.swap = none ∧ t.fld .ALM_SWAP_STATUS Fld.ALM_SWAP_STATUS_ARMED = 0 ∧
        t.fld .ALM_SWAP_STATUS Fld.ALM_SWAP_STATUS_COMMITTED = 0)) ∧
    (∀ (h : BitVec 64) (p : List Byte) (w : Swap), s.alm.swap = some w → w.frame = leAt p 4 4 →
      Runs (.swapAck h p) s (fun t => w.arming = true → w.members.toNat.testBit (segSrc h) = true →
        t.alm.swap = some { w with acks := w.acks ||| BitVec.ofNat 64 (2 ^ segSrc h) }) ∧
      Runs (.swapNak h p) s (fun t => w.arming = true → w.members.toNat.testBit (segSrc h) = true →
        t.alm.swap = some { w with nak := true }) ∧
      Runs (.swapCommit h p) s (fun t => w.pool = true → w.arming = false → w.from_ = segSrc h →
        t.fld .ALM_SWAP_STATUS Fld.ALM_SWAP_STATUS_COMMITTED = 1 ∧ t.alm = s.alm))

/-- R47, R49, R50, R54, R57, R431. The almanac's own events, at core cycle 0 of the edge at which each is due: the power override is noted;
at the commit point the swap is COMMITTED; the swap itself exchanges the sets, ends the arm and counts; a pool swap whose member refused is
cancelled with POOL_NAK (0x25), as is a member's by SWAP_CANCEL, and a member that heard nothing with POOL_NO_COMMIT (0x26); a
SWAP_ANNOUNCE that passes arms the member; the active almanac starts with SYS_READY.ALM and DRV. -/
def Obligations.AlmanacEvents : Prop :=
  ∀ s : State, s.halted = false → s.tm.cycle = 0 →
    (∀ w, s.alm.swap = some w →
      Runs .swapPowerOverride s (fun t => s.overrideDue = true → t.alm.swap = some { w with override_ := true }) ∧
      Runs .commitPoint s (fun t => s.nextPos = posOf w.frame 0 →
        t.fld .ALM_SWAP_STATUS Fld.ALM_SWAP_STATUS_COMMITTED = 1 ∧
        (s.quiet → t.tm.cycle = 11000 ∧ regsKept [.ALM_SWAP_STATUS] s t ∧ memKept s t)) ∧
      Runs .swap s (fun t => s.edgePos = posOf w.frame 0 →
        t.alm.swap = none ∧ t.activeSet = 1 - s.activeSet ∧ t.fld .ALM_SWAP_STATUS Fld.ALM_SWAP_STATUS_ARMED = 0 ∧
        t.fld .ALM_SWAP_STATUS Fld.ALM_SWAP_STATUS_COMMITTED = 0 ∧ t.fld .ALM_SWAP_STATUS Fld.ALM_SWAP_STATUS_SWAPPED = 1 ∧
        t.fld .ALM_SWAP_STATUS Fld.ALM_SWAP_STATUS_LAST_FRAME = w.frame % 2 ^ 20) ∧
      Runs .poolSwapDecision s (fun t => s.poolDue 10 true = true → w.nak = true →
        s.fld .ALM_SWAP_STATUS Fld.ALM_SWAP_STATUS_COMMITTED = 0 →
        t.alm.swap = none ∧ t.fld .ALM_SWAP_STATUS Fld.ALM_SWAP_STATUS_CODE = 0x25 ∧
        t.fld .ALM_SWAP_STATUS Fld.ALM_SWAP_STATUS_FAILED = 1) ∧
      Runs .poolNoCommit s (fun t => s.poolDue 2 false = true → s.fld .ALM_SWAP_STATUS Fld.ALM_SWAP_STATUS_COMMITTED = 0 →
        t.alm.swap = none ∧ t.fld .ALM_SWAP_STATUS Fld.ALM_SWAP_STATUS_CODE = 0x26 ∧
        t.fld .ALM_SWAP_STATUS Fld.ALM_SWAP_STATUS_FAILED = 1) ∧
      ∀ (h : BitVec 64) (p : List Byte), Runs (.swapCancel h p) s (fun t =>
        (w.pool = true → w.arming = false → w.from_ = segSrc h → w.frame = leAt p 4 4 →
          t.alm.swap = none ∧ t.fld .ALM_SWAP_STATUS Fld.ALM_SWAP_STATUS_CODE = 0x25 ∧
          t.fld .ALM_SWAP_STATUS Fld.ALM_SWAP_STATUS_FAILED = 1) ∧
        (w.from_ ≠ segSrc h → t = s))) ∧
    (∀ (h : BitVec 64) (p : List Byte), Runs (.swapAnnounce h p) s (fun t =>
      (s.armRefusal (leAt p 4 4 % 2 ^ 20) true = none → imgBuild s.shadow = leAt p 8 8 → s.poolVersions = true →
        t.alm.swap = some ⟨leAt p 4 4 % 2 ^ 20, true, false, segSrc h, 0, 0, false, false⟩ ∧
        t.fld .ALM_SWAP_STATUS Fld.ALM_SWAP_STATUS_ARMED = 1) ∧
      ((s.armRefusal (leAt p 4 4 % 2 ^ 20) true).isSome = true → t.alm = s.alm ∧
        t.fld .ALM_SWAP_STATUS Fld.ALM_SWAP_STATUS_ARMED = s.fld .ALM_SWAP_STATUS Fld.ALM_SWAP_STATUS_ARMED))) ∧
    Runs .almanacStart s (fun t =>
      (s.startsAt s.edgePos = true → t.bit .SYS_READY 6 = true ∧ t.bit .SYS_READY 7 = true) ∧
      (s.startsAt s.edgePos = false → t = s))

/-- R33, R406, R451. At the edge after a unit died, a logical engine bound to it is bound to the first fallow unit of its class that is
eligible, by the planned states of the new tick; with nothing due nothing happens. -/
def Obligations.RebindToFallow : Prop :=
  ∀ s : State, s.halted = false → s.tm.cycle = 0 →
    Runs .rebind s (fun t =>
      (s.alm.rebindDue = [] → t = s) ∧
      ∀ (n : Nat) (u f : Nat × Nat), s.alm.rebindDue = [u] → s.boundTo [u] = [(n, u)] →
        eligibleFallow (fun x => s.unitDead x.1 x.2) s.plannedToBind u.1
          (s.fallow.filter fun x => !s.unitDead x.1 x.2) = some f →
        t.bound n = some f ∧ t.alm.rebindDue = [])

/-- R11, R14, R15, R57, R273. The tick: without the Bellwether's clock no edge comes; with the clock and no tick count (SYS_READY.TICK) time
alone moves on; else the edge ends the tick, in which no release stays queued or held, and begins the next. At the guard guaranteed flits
still under way go on as best effort from where they stand; the template of the next tick is fetched at core cycle 11,000; a release in service whose operation
has run completes. -/
def Obligations.TickEvents : Prop :=
  (∀ s : State, s.halted = false →
    (s.bit .SYS_READY 3 = false → exec .tickEdge s = .next s) ∧
    (s.bit .SYS_READY 3 = true → s.bit .SYS_READY 5 = false → exec .tickEdge s = .next s.advanceTick) ∧
    (s.bit .SYS_READY 3 = true → s.bit .SYS_READY 5 = true →
      Runs .tickEdge s (fun t => t = s.keepQueue s.endTick.beginTick ∧
        ∀ r ∈ s.closeTick.drv.rels, r.status ≠ .queued ∧ r.status ≠ .held)) ∧
    Runs .guardTimeStart s (fun t => (∀ w ∈ t.noc.flight, w.be = 0) ∧
      ((∀ r ∈ s.drv.rels, r.live = false) → t.tm.cycle = max s.tm.cycle 13300 ∧ t.drv = s.drv ∧ memKept s t)) ∧
    Runs .templateFetch s (fun t =>
      (s.drv.nextIdx.isSome = true ∨ 11000 < s.tm.cycle → t = s) ∧
      (s.drv.nextIdx = none → s.tm.cycle ≤ 11000 → s.quiet → t.tm.cycle = 11000 ∧
        (s.fetchPlan false = none → t.drv.next = [] ∧ t.drv.nextIdx = none) ∧
        ∀ f, s.fetchPlan false = some f → f.atSwap = false → t.drv.nextIdx = some f.idx)) ∧
    ∀ e : EngRef, Runs (.releaseComplete e) s (fun t =>
      ((∀ r ∈ s.drv.rels, r.status = .inService → r.eng = ⟨e.cls, e.phys, e.core⟩ → r.ran = false) → t = s) ∧
      ∀ r, (s.drv.rels.find? fun r => r.status == .inService && r.eng == ⟨e.cls, e.phys, e.core⟩ && r.ran) = some r →
        ∀ q ∈ t.drv.rels, q.idx = r.idx → q.status = .complete))

/-! ### The Drover -/

/-- R65. A doorbell write that would make more descriptors posted than the ring holds is ignored, sets DB_ERR and posts the queue's vector,
and the queue is read no more; any other one moves the producer index and nothing else. -/
def Obligations.QueueDoorbell : Prop :=
  ∀ (s : State) (q : Fin 16) (v : BitVec 64), s.halted = false →
    Runs (.drvRqDb q v) s (fun t => memKept s t ∧
      (2 ^ s.fld (.DRV_RQ_CFG q) Fld.DRV_RQ_CFG_LOG2_SIZE
          < (v.toNat % 2 ^ 16 + 2 ^ 16 - s.fld (.DRV_RQ_CI q) Fld.DRV_RQ_CI_INDEX) % 2 ^ 16 →
        t.fld (.DRV_RQ_CFG q) Fld.DRV_RQ_CFG_DB_ERR = 1 ∧ t.rd (.DRV_RQ_DB q) = s.rd (.DRV_RQ_DB q) ∧
        regsKept [.DRV_RQ_CFG q, .HST_PBA, .HST_STATS] s t ∧
        (s.linkUp = true → s.fld (.HST_MSIX_CTRL (s.fld (.DRV_CQ_CFG q) Fld.DRV_CQ_CFG_VECTOR)) Fld.HST_MSIX_CTRL_MASK = 0 →
          t.out = s.out ++ [.msix (s.fld (.DRV_CQ_CFG q) Fld.DRV_CQ_CFG_VECTOR)]) ∧
        ∀ n, t.canAccept q n = false) ∧
      ((v.toNat % 2 ^ 16 + 2 ^ 16 - s.fld (.DRV_RQ_CI q) Fld.DRV_RQ_CI_INDEX) % 2 ^ 16
          ≤ 2 ^ s.fld (.DRV_RQ_CFG q) Fld.DRV_RQ_CFG_LOG2_SIZE →
        t.fld (.DRV_RQ_DB q) Fld.DRV_RQ_DB_INDEX = v.toNat % 2 ^ 16 ∧ regsKept [.DRV_RQ_DB q] s t ∧ t.out = s.out))

/-- R65, R77, R86. Queue configuration: sizes outside 4 to 12 are ignored; ENABLE from 0 to 1 clears DB_ERR and the indices of a request queue,
and the indices of a completion queue, whose PHASE becomes 1; the consumer index of a completion queue is what is written; DRV_STAT_CLR
clears the two counters; the ticks of a coalescing ring that have passed end its count. -/
def Obligations.QueueRegisters : Prop :=
  ∀ (s : State) (q : Fin 16) (v : BitVec 64), s.halted = false →
    Runs (.drvRqCfg q v) s (fun t => memKept s t ∧
      (v.toNat % 16 < 4 ∨ 12 < v.toNat % 16 → t = s) ∧
      (4 ≤ v.toNat % 16 → v.toNat % 16 ≤ 12 →
        t.fld (.DRV_RQ_CFG q) Fld.DRV_RQ_CFG_LOG2_SIZE = v.toNat % 16 ∧
        t.fld (.DRV_RQ_CFG q) Fld.DRV_RQ_CFG_ENABLE = v.toNat / 16 % 2 ∧
        regsKept [.DRV_RQ_CFG q, .DRV_RQ_DB q, .DRV_RQ_CI q] s t ∧
        (s.fld (.DRV_RQ_CFG q) Fld.DRV_RQ_CFG_ENABLE = 0 → v.toNat / 16 % 2 = 1 →
          t.fld (.DRV_RQ_CFG q) Fld.DRV_RQ_CFG_DB_ERR = 0 ∧ t.fld (.DRV_RQ_DB q) Fld.DRV_RQ_DB_INDEX = 0 ∧
          t.fld (.DRV_RQ_CI q) Fld.DRV_RQ_CI_INDEX = 0))) ∧
    Runs (.drvCqCfg q v) s (fun t => memKept s t ∧
      (v.toNat % 16 < 4 ∨ 12 < v.toNat % 16 → t = s) ∧
      (4 ≤ v.toNat % 16 → v.toNat % 16 ≤ 12 →
        t.fld (.DRV_CQ_CFG q) Fld.DRV_CQ_CFG_LOG2_SIZE = v.toNat % 16 ∧
        regsKept [.DRV_CQ_CFG q, .DRV_CQ_DB q, .DRV_CQ_PI q] s t ∧
        (s.fld (.DRV_CQ_CFG q) Fld.DRV_CQ_CFG_ENABLE = 0 → v.toNat / 2 ^ 28 % 2 = 1 →
          t.fld (.DRV_CQ_DB q) Fld.DRV_CQ_DB_INDEX = 0 ∧ t.fld (.DRV_CQ_PI q) Fld.DRV_CQ_PI_INDEX = 0 ∧
          t.fld (.DRV_CQ_PI q) Fld.DRV_CQ_PI_PHASE = 1))) ∧
    Runs (.drvCqDb q v) s (fun t =>
      t.fld (.DRV_CQ_DB q) Fld.DRV_CQ_DB_INDEX = v.toNat % 2 ^ 16 ∧ regsKept [.DRV_CQ_DB q] s t ∧ { t with regs := s.regs } = s) ∧
    Runs .drvStatClr s (fun t => t.rd .DRV_STATS_A = 0 ∧ t.rd .DRV_STATS_B = 0 ∧ regsKept [.DRV_STATS_A, .DRV_STATS_B] s t ∧
      { t with regs := s.regs } = s) ∧
    ∀ ring : Fin 20, Runs (.coalTicksExpiry ring) s (fun t =>
      ((SMap.get (fun _ => (0, 0)) s.drv.coal ring).1 = 0 → t = s) ∧
      (s.absTick < (SMap.get (fun _ => (0, 0)) s.drv.coal ring).2 + (s.coalOf ring).2 → t = s) ∧
      ((SMap.get (fun _ => (0, 0)) s.drv.coal ring).1 ≠ 0 →
        (SMap.get (fun _ => (0, 0)) s.drv.coal ring).2 + (s.coalOf ring).2 ≤ s.absTick →
        SMap.get (fun _ => (0, 0)) t.drv.coal ring = (0, 0) ∧ regsKept [.HST_PBA, .HST_STATS] s t ∧
        (s.linkUp = true → s.fld (.HST_MSIX_CTRL ((s.coalOf ring).1 % 64)) Fld.HST_MSIX_CTRL_MASK = 0 →
          t.out = s.out ++ [.msix ((s.coalOf ring).1 % 64)])))

/-- R66, R76. A descriptor is taken only when its queue can accept it; then the consumer index moves on by one modulo 2^16 and one acceptance
of the tick is used. A request whose work has ended completes: it leaves the store and its completion queue's index moves on. -/
def Obligations.RequestsAcceptedAndCompleted : Prop :=
  ∀ (s : State) (q : Fin 16), s.halted = false →
    (∀ (desc tab : HostData) (data : List HostData),
      let size := 2 ^ s.fld (.DRV_RQ_CFG q) Fld.DRV_RQ_CFG_LOG2_SIZE
      let ci := s.fld (.DRV_RQ_CI q) Fld.DRV_RQ_CI_INDEX
      let d := (s.trying.read70 niDrover ((s.rd (.DRV_RQ_BASE q)).toNat + ci % size * 256) 256 desc).1.getD []
      Runs (.requestAccept q desc tab data) s (fun t =>
        (s.canAccept q (reqCount d) = false → t = s) ∧
        (s.canAccept q (reqCount d) = true → s.unhindered (fun u => u.acceptRequest q desc tab data) →
          t.fld (.DRV_RQ_CI q) Fld.DRV_RQ_CI_INDEX = (ci + 1) % 2 ^ 16 ∧ t.drv.accepts + 1 = s.drv.accepts))) ∧
    ∀ ring : BitVec 16, Runs (.completionPost q ring) s (fun t =>
      ((∀ r ∈ s.drv.store, r.queue = q → r.ring ≠ ring.toNat) → t = s) ∧
      ∀ r, (s.drv.store.find? fun r => r.queue == q.val && r.ring == ring.toNat) = some r →
        (s.markDegraded r).discarded = none → s.workEnded (s.markDegraded r) = true →
        (∀ o ∈ t.drv.store, o.id ≠ (s.markDegraded r).id) ∧
        ((s.markDegraded r).queue = q.val → s.fld (.DRV_CQ_CFG q) Fld.DRV_CQ_CFG_ENABLE = 1 →
          t.fld (.DRV_CQ_PI q) Fld.DRV_CQ_PI_INDEX = (s.fld (.DRV_CQ_PI q) Fld.DRV_CQ_PI_INDEX + 1) % 2 ^ 16))

/-- R82. Of the waiting commands of one cell and frame exactly one is kept: one that ranks no lower than any other (STOP over MIGRATE over
START, then the local host over a peer). -/
def Obligations.OneCommandPerCellAndFrame : Prop :=
  ∀ (frame : Nat) (cs : List CellCmd),
    (∀ c ∈ cs, c.resolved = false ∧ c.lost = false ∧ posDiff (posOf frame 0) (posOf c.frame 0) ≥ 0) →
    (resolveCmds frame cs).length = cs.length ∧
    (∀ (i j : Nat) (a b : CellCmd), (resolveCmds frame cs)[i]? = some a → (resolveCmds frame cs)[j]? = some b →
      a.resolved = true → b.resolved = true → a.cell = b.cell → a.frame = b.frame → i = j) ∧
    (∀ (i : Nat) (c : CellCmd), cs[i]? = some c →
      ∃ (j : Nat) (d : CellCmd), cs[j]? = some d ∧ d.cell = c.cell ∧ d.frame = c.frame ∧
        (resolveCmds frame cs)[j]? = some { d with resolved := true } ∧ cmdRank d ≤ cmdRank c)

/-- R66, R81, R82, R83. Cell commands. One is taken only when its queue can accept it, at the queue's consumer index, which moves on. One
that passes its checks waits for its frame; one that fails is completed and does not wait; a peer's START that passes waits too; a peer's answer is noted at its MIGRATE. At the edges of
COMMAND_RESOLVE and COMMAND_EFFECT those that are due are resolved and take effect: START makes a STOPPED cell RUNNING, STOP and MIGRATE
make a RUNNING one STOPPED. -/
def Obligations.CellCommands : Prop :=
  ∀ s : State, s.halted = false →
    (∀ (q : Fin 16) (ring : BitVec 16) (tag : BitVec 32) (cell : Fin 128) (frame : BitVec 20) (dest : Fin 64),
      let cmd (n d : Nat) : CellCmd := ⟨cell, n, frame.toNat, none, q, ring.toNat, tag.toNat, d, s.drv.accepted % 2 ^ 32, false, false, none⟩
      let post (n d : Nat) (t : State) : Prop :=
        let taken := s.canAccept q 0 && ring.toNat == s.fld (.DRV_RQ_CI q) Fld.DRV_RQ_CI_INDEX
        (taken = false → t = s) ∧
        (taken = true → t.fld (.DRV_RQ_CI q) Fld.DRV_RQ_CI_INDEX = (ring.toNat + 1) % 2 ^ 16 ∧ t.drv.accepts + 1 = s.drv.accepts ∧
          (s.judgeCmd cell frame.toNat (some q) = (0, 0) → t.drv.cmds = s.drv.cmds ++ [cmd n d] ∧ memKept s t) ∧
          ((s.judgeCmd cell frame.toNat (some q)).1 = 1 →
            t.drv.cmds = s.drv.cmds ∧
            t.fld .DRV_STATS_A Fld.DRV_STATS_A_LATE = min 65535 (s.fld .DRV_STATS_A Fld.DRV_STATS_A_LATE + 1)))
      Runs (.stop q ring tag cell frame) s (post 1 0) ∧
      Runs (.migrate q ring tag cell frame dest) s (post 2 dest) ∧
      Runs (.start q ring tag cell frame) s (post 3 0)) ∧
    (∀ (h : BitVec 64) (p : List Byte), Runs (.cellStart h p) s (fun t =>
      (s.judgeCmd (leAt p 4 1 % 128) (leAt p 8 4 % 2 ^ 20) none = (0, 0) →
        t.drv.cmds = s.drv.cmds ++ [⟨leAt p 4 1 % 128, 3, leAt p 8 4 % 2 ^ 20, some h.toNat, 0, 0, 0, 0, leAt p 12 4, false, false, none⟩]) ∧
      ((s.judgeCmd (leAt p 4 1 % 128) (leAt p 8 4 % 2 ^ 20) none).1 ≠ 0 → t.drv = s.drv))) ∧
    (∀ p : List Byte, Runs (.cellResult p) s (fun t => { t with drv := s.drv } = s ∧ t.drv.cmds.length = s.drv.cmds.length ∧
      ∀ (i : Nat) (c : CellCmd), s.drv.cmds[i]? = some c →
        (c.cmd = 2 → c.peer = none → c.token = leAt p 4 4 → t.drv.cmds[i]? = some { c with result := some (leAt p 8 1) }) ∧
        (c.cmd ≠ 2 ∨ c.token ≠ leAt p 4 4 → t.drv.cmds[i]? = some c))) ∧
    (s.tm.cycle = 0 →
      Runs .commandResolve s (fun t =>
        (s.resolveDue = false → t = s) ∧
        (s.resolveDue = true → t.drv.cmds =
          (resolveCmds ((frameOf s.tm.tod s.tm.tick + 1) % 2 ^ 20) s.drv.cmds).filter fun c => !(c.lost && c.peer.isSome))) ∧
      Runs .commandEffect s (fun t =>
        (s.effectDue = false → t = s) ∧
        (s.effectDue = true → ∀ c, c ∈ t.drv.cmds ↔
          c ∈ s.drv.cmds ∧ ¬ ((c.resolved = true ∨ c.lost = true) ∧ posDiff s.edgePos (posOf c.frame 0) ≥ 0)) ∧
        ∀ c, s.effectDue = true → s.drv.cmds = [c] → c.resolved = true → c.cell < 128 →
          (c.cmd = 3 → s.cellState c.cell = 2 → t.cellState c.cell = 1) ∧
          (c.cmd ≠ 3 → s.cellState c.cell = 1 → t.cellState c.cell = 2)))

/-! ### The fronthaul -/

/-- R90, R108, R110, R111. A received frame: a port with RS-FEC first counts the frame's corrected and uncorrectable codewords in FEC_CORR and
FEC_UNCORR. Before SYS_READY.FH it counts FH_EARLY_DROP alone; on a port that is OFF or whose link is down it is not received; else it counts
RX_FRAMES and, where it is dropped, the counter of the first check that it fails, and no memory changes. The commands for one kind of frame do
to a frame of their kind what FRAME_RECEIVE does, and nothing to another. -/
def Obligations.FramesClassified : Prop :=
  ∀ (s : State) (f : RxFrame), s.halted = false →
    let ready := s.bit .SYS_READY 39
    let fec := s.fld (.FHL_PORT_CFG f.port) Fld.FHL_PORT_CFG_FEC = 1 ∧ 2 ≤ s.fld (.FHL_PORT_CFG f.port) Fld.FHL_PORT_CFG_MODE
    let live := s.fld (.FHL_PORT_CFG f.port) Fld.FHL_PORT_CFG_MODE ≠ 0 ∧ s.fld (.FHL_PORT_STATUS f.port) Fld.FHL_PORT_STATUS_LINK_UP = 1
    let u := s.countFec f
    (fec → u.rd (.FHL_CNT f.port 22) = s.rd (.FHL_CNT f.port 22) + BitVec.ofNat 64 f.corrected.toNat ∧
      u.rd (.FHL_CNT f.port 23) = s.rd (.FHL_CNT f.port 23) + BitVec.ofNat 64 f.uncorrectable.toNat) ∧
    (¬ fec → u = s) ∧ onlyRegs [.FHL_CNT f.port 22, .FHL_CNT f.port 23] s u ∧
    Runs (.frameReceive f) s (fun t =>
      (ready = false → t.rd .FHL_EARLY = s.rd .FHL_EARLY + 1 ∧ onlyRegs [.FHL_EARLY] u t) ∧
      (ready = true → ¬ live → t = u) ∧
      (ready = true → live → f.full = true →
        t.rd (.FHL_CNT f.port 0) = s.rd (.FHL_CNT f.port 0) + 1 ∧ t.rd (.FHL_CNT f.port 16) = s.rd (.FHL_CNT f.port 16) + 1 ∧
        onlyRegs [.FHL_CNT f.port 0, .FHL_CNT f.port 16] u t) ∧
      (∀ c, ready = true → live → f.full = false → s.classify f = .drop c →
        t.rd (.FHL_CNT f.port 0) = s.rd (.FHL_CNT f.port 0) + 1 ∧ t.rd (.FHL_CNT f.port c) = s.rd (.FHL_CNT f.port c) + 1 ∧
        onlyRegs [.FHL_CNT f.port 0, .FHL_CNT f.port c] u t) ∧
      (ready = true → live → f.full = false → s.classify f = .unsupported →
        t.rd (.TIM_CNT 2) = s.rd (.TIM_CNT 2) + 1 ∧ onlyRegs [.FHL_CNT f.port 0, .TIM_CNT 2] u t)) ∧
    Runs (.uplaneReceive f) s (fun t =>
      ((s.classify f).isUplane = true → exec (.frameReceive f) s = .next t) ∧ ((s.classify f).isUplane = false → t = s)) ∧
    Runs (.oneWayDelayRequest f) s (fun t =>
      (isDelayAction f 0 (s.classify f) = true → exec (.frameReceive f) s = .next t) ∧
      (isDelayAction f 0 (s.classify f) = false → t = s)) ∧
    Runs (.remoteRequest f) s (fun t =>
      (isDelayAction f 3 (s.classify f) = true → exec (.frameReceive f) s = .next t) ∧
      (isDelayAction f 3 (s.classify f) = false → t = s)) ∧
    Runs (.oneWayDelayResponse f) s (fun t =>
      (isDelayAction f 2 (s.classify f) = true → exec (.frameReceive f) s = .next t) ∧
      (isDelayAction f 2 (s.classify f) = false → t = s)) ∧
    Runs (.ptpFrameReceive f) s (fun t =>
      ((s.classify f).isPtp = true → exec (.frameReceive f) s = .next t) ∧ ((s.classify f).isPtp = false → t = s)) ∧
    Runs (.esmcReceive f) s (fun t =>
      (s.classify f = .esmc → exec (.frameReceive f) s = .next t) ∧ (s.classify f ≠ .esmc → t = s))

/-- R93. Delay measurement: a received Request is answered and a Remote Request makes the block send its own on the same port; a Response to a
Request of the block's own stores t2 − t1 less the peer's compensation with its id and ends that measurement; FHL_DLY_SEND sends a Request
to a valid peer and remembers it. -/
def Obligations.DelayMeasurement : Prop :=
  ∀ s : State, s.halted = false →
    (∀ f : RxFrame, s.bit .SYS_READY 39 = true → s.fld (.FHL_PORT_CFG f.port) Fld.FHL_PORT_CFG_MODE ≠ 0 →
      s.fld (.FHL_PORT_STATUS f.port) Fld.FHL_PORT_STATUS_LINK_UP = 1 → f.full = false → s.classify f = .delay →
      let o := ethBody f.bytes
      let id := beAt f.bytes (o + 4) 1
      Runs (.oneWayDelayRequest f) s (fun t => beAt f.bytes (o + 5) 1 = 0 →
        (∃ b, t.out = s.out ++ [.frame f.port b]) ∧ t.rd (.FHL_CNT f.port 18) = s.rd (.FHL_CNT f.port 18) + 1 ∧ memKept s t) ∧
      Runs (.remoteRequest f) s (fun t => beAt f.bytes (o + 5) 1 = 3 →
        (∃ b, t.out = s.out ++ [.frame f.port b]) ∧ (t.fh.delays.any fun d => d.1 == f.port.val && d.2.1 == id) = true ∧ memKept s t) ∧
      Runs (.oneWayDelayResponse f) s (fun t => beAt f.bytes (o + 5) 1 = 2 →
        (∀ d, (s.fh.delays.find? fun d => d.1 == f.port.val && d.2.1 == id) = some d →
          t.fld .FHL_DLY_RESULT Fld.FHL_DLY_RESULT_VALID = 1 ∧ t.fld .FHL_DLY_RESULT Fld.FHL_DLY_RESULT_MEAS_ID = id ∧
          t.fld .FHL_DLY_RESULT Fld.FHL_DLY_RESULT_DELAY = unsignedOf 48
            (((unitsPerSecond * beAt f.bytes (o + 6) 6 + 65536 * beAt f.bytes (o + 12) 4 : Nat) : Int) - (d.2.2 : Int)
              - signedOf 64 (beAt f.bytes (o + 16) 8)) ∧
          d ∉ t.fh.delays) ∧
        ((s.fh.delays.find? fun d => d.1 == f.port.val && d.2.1 == id) = none →
          onlyRegs [.FHL_CNT f.port 0, .FHL_CNT f.port 22, .FHL_CNT f.port 23] s t))) ∧
    ∀ v : BitVec 64, Runs (.fhlDlySend v) s (fun t => memKept s t ∧
      (Fld.FHL_DLY_CTRL_SEND.get v = 0 → onlyRegs [.FHL_DLY_CTRL] s t) ∧
      (s.peerOf (Fld.FHL_DLY_CTRL_PEER.get v) = none → onlyRegs [.FHL_DLY_CTRL] s t) ∧
      ((s.peerOf (Fld.FHL_DLY_CTRL_PEER.get v)).isSome = true → Fld.FHL_DLY_CTRL_SEND.get v = 1 →
        s.fld (.FHL_PORT_STATUS (Fld.FHL_DLY_CTRL_PORT.get v)) Fld.FHL_PORT_STATUS_LINK_UP = 1 →
        (∃ b, t.out = s.out ++ [.frame (Fld.FHL_DLY_CTRL_PORT.get v) b]) ∧
        (t.fh.delays.any fun d => d.1 == Fld.FHL_DLY_CTRL_PORT.get v && d.2.1 == Fld.FHL_DLY_CTRL_MEAS_ID.get v) = true))

/-- R95, R106. A section of a U-plane frame that is accepted sets the presence bits of its PRBs and no other of any entry and occurrence, and
one that is not counts RX_SECTION_DROP and sets none. -/
def Obligations.UplaneSections : Prop :=
  ∀ (s : State) (f : RxFrame) (e slot sym o stop : Nat),
    let w := beAt f.bytes o 4
    let nprb := s.eaxc e Fld.FHL_EAXC_NPRB
    let hdr := s.fld (.FHL_PORT_CFG f.port) Fld.FHL_PORT_CFG_UDCOMP_HDR == 1
    let first := bitsOf w 8 10
    let count := if w % 256 = 0 then nprb else w % 256
    let next := o + 4 + (if hdr then 2 else 0) + count * s.prbBytes e
    let occ := s.occurrence (s.eaxc e Fld.FHL_EAXC_CELL) slot sym
    let t := (s.takeSection f e slot sym o stop).2
    (bitsOf w 18 2 ≠ 0 ∨ stop < next ∨ nprb < first + count →
      t.rd (.FHL_CNT f.port 13) = s.rd (.FHL_CNT f.port 13) + 1 ∧ onlyRegs [.FHL_CNT f.port 13] s t) ∧
    (bitsOf w 18 2 = 0 → (w % 256 = 0 → first = 0) → first + count ≤ nprb → next ≤ stop → s.eaxcMethodOk e = true →
      (hdr = true → beAt f.bytes (o + 4) 1 = s.udCompHdr e) →
      (∀ k, (t.presence e occ).testBit k = ((s.presence e occ).testBit k || (decide (first ≤ k) && decide (k < first + count)))) ∧
      ∀ e' occ', presenceKey e' occ' ≠ presenceKey e occ → t.presence e' occ' = s.presence e' occ')

/-- R98, R101, R104, R105, R106. Windows: one that is due opens at its cycle, a receive window with the presence bits of its occurrence clear, a
transmit window with its frames held, of which those that have started leave in order; one that closes leaves the open ones and counts what
is missing or late, and a window of PRACH entries is the cell's last closed; a record that is not due, or whose window is open, does
nothing. What else the tick does meanwhile is left out: nothing else is under way. -/
def Obligations.FronthaulWindows : Prop :=
  ∀ (s : State) (w : BitVec 16), s.halted = false →
    let rec_ := s.winRecords.getD w.toNat 0
    let win := s.windowAt w.toNat s.pos
    Runs (.windowOpen w) s (fun t =>
      (s.windowDue w.toNat false = false ∨ winDir rec_ ≠ 0 ∨ (s.fh.wins.any fun x => x.idx == w.toNat) = true → t = s) ∧
      (s.windowDue w.toNat false = true → winDir rec_ = 0 → (s.fh.wins.any fun x => x.idx == w.toNat) = false → s.quiet →
        t.fh.wins = s.fh.wins ++ [win] ∧ t.tm.cycle = max s.tm.cycle (min 14000 (winOpenCycle rec_)) ∧
        ∀ e ∈ s.winEntries win, t.presence e win.occ = 0)) ∧
    Runs (.windowClose w) s (fun t =>
      (s.openOf w.toNat false = none ∨ s.windowDue w.toNat true = false → t = s) ∧
      ∀ x, s.openOf w.toNat false = some x → s.windowDue w.toNat true = true → s.quiet →
        x ∉ t.fh.wins ∧
        SMap.get zeroNat t.fh.closed x.cell =
          (if (s.winEntries x).any fun e => s.eaxc e Fld.FHL_EAXC_KIND == 1 then x.occ + 1 else SMap.get zeroNat s.fh.closed x.cell) ∧
        t.rd (.FHL_CNT x.port 17) = s.rd (.FHL_CNT x.port 17) + BitVec.ofNat 64 ((s.winEntries x).map fun e =>
          ((List.range (s.eaxc e Fld.FHL_EAXC_NPRB)).filter fun p => !(s.presence e x.occ).testBit p).length).sum ∧
        regsKept [.FHL_CNT x.port 17] s t ∧ memKept s t) ∧
    (∀ n : BitVec 16, Runs (.txWindowOpen w n) s (fun t =>
      (s.windowDue w.toNat false = false ∨ winDir rec_ = 0 ∨ (s.fh.wins.any fun x => x.idx == w.toNat) = true → t = s) ∧
      (s.windowDue w.toNat false = true → winDir rec_ ≠ 0 → (s.fh.wins.any fun x => x.idx == w.toNat) = false → s.quiet →
        t.fh.wins.map (·.idx) = s.fh.wins.map (·.idx) ++ [w.toNat] ∧
        (winDir rec_ = 2 → (∀ x ∈ s.fh.wins, x.port = win.port → x.frames = []) →
          let fs := ((s.toCycle (winOpenCycle rec_)).cplaneWindow win.cell win.port win.slot win.sym).1
          t.fh.wins = s.fh.wins ++ [{ win with frames := fs.drop n.toNat }] ∧
          (s.fld (.FHL_PORT_STATUS win.port) Fld.FHL_PORT_STATUS_LINK_UP = 1 →
            t.out = s.out ++ (fs.take n.toNat).map fun b => .frame win.port b) ∧ memKept s t)))) ∧
    ∀ n : BitVec 16, Runs (.txWindowClose w n) s (fun t =>
      (s.openOf w.toNat true = none ∨ s.windowDue w.toNat true = false → t = s) ∧
      ∀ x, s.openOf w.toNat true = some x → s.windowDue w.toNat true = true → s.quiet →
        let u := (s.toCycle (winCloseCycle rec_)).startFrames x.port n.toNat
        ∀ v, u.openOf w.toNat true = some v →
          v ∉ t.fh.wins ∧ t.rd (.FHL_CNT v.port 20) = u.rd (.FHL_CNT v.port 20) + BitVec.ofNat 64 v.frames.length ∧
          regsKept [.FHL_CNT v.port 20] u t ∧ memKept s t ∧ t.out = u.out)

/-- R108, R112. A port's link is up exactly while its mode is not OFF and its lanes are its own, the PCS is locked, RS-FEC, when enabled, is
locked, and neither local nor remote fault is signalled; a change sets CHANGE and posts the vector with EVT_EN, and a frame in progress as the
link goes down is cut. The frames that had started by then leave first. FHL_STAT_CLR clears every counter of every port and FHL_EARLY and
nothing else. -/
def Obligations.FronthaulLinks : Prop :=
  ∀ s : State, s.halted = false →
    (∀ (p : Fin 64) (k : BitVec 16) (busy locked fec lf rf : Bool),
      let useFec := s.fld (.FHL_PORT_CFG p) Fld.FHL_PORT_CFG_FEC == 1 && decide (2 ≤ s.fld (.FHL_PORT_CFG p) Fld.FHL_PORT_CFG_MODE)
      let up := s.fld (.FHL_PORT_CFG p) Fld.FHL_PORT_CFG_MODE != 0 && !s.portUnused p && locked && (!useFec || fec) && !lf && !rf
      let n (b : Bool) : Nat := if b then 1 else 0
      let u := s.startFrames p k.toNat
      Runs (.linkStateChange p k busy locked fec lf rf) s (fun t =>
        t.fld (.FHL_PORT_STATUS p) Fld.FHL_PORT_STATUS_LINK_UP = n up ∧
        t.fld (.FHL_PORT_STATUS p) Fld.FHL_PORT_STATUS_FEC_LOCK = n (useFec && fec) ∧
        t.fld (.FHL_PORT_STATUS p) Fld.FHL_PORT_STATUS_REMOTE_FAULT = n rf ∧
        (s.fld (.FHL_PORT_STATUS p) Fld.FHL_PORT_STATUS_LINK_UP ≠ n up → t.fld (.FHL_PORT_STATUS p) Fld.FHL_PORT_STATUS_CHANGE = 1) ∧
        (s.fld (.FHL_PORT_STATUS p) Fld.FHL_PORT_STATUS_LINK_UP = n up → onlyRegs [.FHL_PORT_STATUS p] u t) ∧
        (s.fld (.FHL_PORT_STATUS p) Fld.FHL_PORT_STATUS_LINK_UP = 1 → up = false → busy = true →
          t.out.getLast? = some (.frameCut p)) ∧
        regsKept [.FHL_PORT_STATUS p, .HST_PBA, .HST_STATS] u t ∧ memKept s t)) ∧
    Runs .fhlStatClr s (fun t => (∀ p i, p < 64 → i < 26 → t.rd (.FHL_CNT p i) = 0) ∧ t.rd .FHL_EARLY = 0 ∧
      (∀ r : Reg, (∀ p i, p < 64 → i < 26 → r.off ≠ (Reg.FHL_CNT p i).off) → r.off ≠ (Reg.FHL_EARLY).off → t.rd r = s.rd r) ∧
      { t with regs := s.regs } = s)

/-! ### Time -/

/-- R392. TIM_OUT_STEP adds its signed value to the output's pending step, so that writes made before one edge add together; a write that would
take the pending step outside 32 signed bits or OFFSET outside ±2^39 is ignored and sets REJECT; at the edge the pending step is added to
OFFSET and ends. Neither moves device time. -/
def Obligations.OutputSteps : Prop :=
  ∀ (s : State) (o : Fin 6) (v : BitVec 64), s.halted = false → s.tm.outStep.length = 6 →
    let p := s.tm.outStep.getD o 0
    let sum := p + signedOf 32 v.toNat
    let off := signedOf 40 (s.fld (.TIM_OUT o) Fld.TIM_OUT_OFFSET)
    let ok := -(2 ^ 31) ≤ sum ∧ sum < 2 ^ 31 ∧ -(2 ^ 39) ≤ off + sum ∧ off + sum < 2 ^ 39
    Runs (.timOutStep o v) s (fun t =>
      (ok → t.tm.outStep.getD o 0 = sum ∧ (∀ k, k ≠ o.val → t.tm.outStep.getD k 0 = s.tm.outStep.getD k 0) ∧
        { t with tm := { t.tm with outStep := s.tm.outStep } } = s) ∧
      (¬ ok → t.fld (.TIM_OUT o) Fld.TIM_OUT_REJECT = 1 ∧ onlyRegs [.TIM_OUT o] s t)) ∧
    (s.tm.cycle = 0 → Runs (.outputStepApply o) s (fun t =>
      (p = 0 → t = s) ∧
      (p ≠ 0 → t.fld (.TIM_OUT o) Fld.TIM_OUT_OFFSET = unsignedOf 40 (off + p) ∧ t.tm.outStep.getD o 0 = 0 ∧
        (∀ k, k ≠ o.val → t.tm.outStep.getD k 0 = s.tm.outStep.getD k 0) ∧ regsKept [.TIM_OUT o] s t ∧
        { t with regs := s.regs, tm := { t.tm with outStep := s.tm.outStep } } = s)))

/-- R398, R399. The timers of firmware: arming takes the control word, sets ARM and notes whether CMP had already passed; a timer fires in the
first core cycle at or after CMP, with LATE where CMP had passed, and disarms or, with a PERIOD, is armed again that many ticks later; a
pulse that has ended drives its GPIO low. -/
def Obligations.EventTimers : Prop :=
  ∀ s : State, s.halted = false →
    (∀ (n : Fin 2) (v : BitVec 64),
      let i := 6 + n.val
      Runs (.eventTimerArm n v) s (fun t =>
        t.fld (.TIM_EVT_CTRL i) Fld.TIM_EVT_CTRL_ARM = 1 ∧
        t.fld (.TIM_EVT_CTRL i) Fld.TIM_EVT_CTRL_ACTION = Fld.TIM_EVT_CTRL_ACTION.get v ∧
        t.fld (.TIM_EVT_CTRL i) Fld.TIM_EVT_CTRL_PERIOD = Fld.TIM_EVT_CTRL_PERIOD.get v ∧
        t.fld (.TIM_EVT_CTRL i) Fld.TIM_EVT_CTRL_ARG = Fld.TIM_EVT_CTRL_ARG.get v ∧
        SMap.get zeroNat t.tm.armedAt i =
          2 * s.absCycle + (if dtDiff (s.timeOf s.tm.tick s.tm.cycle) (s.rd (.TIM_EVT_CMP i)) ≥ 0 then 1 else 0) ∧
        regsKept [.TIM_EVT_CTRL i] s t ∧ { t with regs := s.regs, tm := { t.tm with armedAt := s.tm.armedAt } } = s)) ∧
    (∀ n : Fin 8, Runs (.eventTimerFire n) s (fun t =>
      (s.fireCycle n = none → t = s) ∧
      ∀ c, s.fireCycle n = some c → s.quiet → memKept s t ∧ t.tm.cycle = c ∧ t.tm.tick = s.tm.tick ∧
        (6 ≤ n.val → SMap.get zeroNat s.tm.armedAt n % 2 = 1 → t.fld (.TIM_EVT_CTRL n) Fld.TIM_EVT_CTRL_LATE = 1) ∧
        (6 ≤ n.val → s.fld (.TIM_EVT_CTRL n) Fld.TIM_EVT_CTRL_PERIOD = 0 → t.fld (.TIM_EVT_CTRL n) Fld.TIM_EVT_CTRL_ARM = 0) ∧
        (6 ≤ n.val → s.fld (.TIM_EVT_CTRL n) Fld.TIM_EVT_CTRL_PERIOD ≠ 0 →
          t.fld (.TIM_EVT_CTRL n) Fld.TIM_EVT_CTRL_ARM = 1 ∧
          t.rd (.TIM_EVT_CMP n) = s.timeOf (s.tm.tick + s.fld (.TIM_EVT_CTRL n) Fld.TIM_EVT_CTRL_PERIOD) c))) ∧
    ∀ n : Fin 32,
      let p := SMap.get zeroNat s.tm.gpioPulse n
      Runs (.gpioPulseEnd n) s (fun t =>
        (p = 0 ∨ 14000 * (s.absTick + 1) ≤ p → t = s) ∧
        (p ≠ 0 → p < 14000 * (s.absTick + 1) → s.quiet →
          t.out = s.out ++ [.gpio n false] ∧ t.tm.gpio = s.tm.gpio.set n false ∧ SMap.get zeroNat t.tm.gpioPulse n = 0 ∧ t.regs = s.regs ∧
          memKept s t))

/-- R375, R388, R395, R396, R401. Reads and rings of the Bellwether: a read of TIM_TOD_SEC latches the three others, which read as latched
however much time passes; TIM_STEP_ARM is set and cleared; a committed sample of the virtual reference joins those of the last second;
the consumer and producer indices are what is written; the counters clear; a PTP or ESMC frame before SYS_READY.BELL counts
RX_EARLY_DROP; a transmit ring with nothing posted sends nothing, and else its index moves on. -/
def Obligations.BellwetherRegisters : Prop :=
  ∀ s : State, s.halted = false →
    Runs .timTodSecRead s (fun t => { t with tm := s.tm } = s ∧
      ∀ c, ((t.toCycle c).regRead .TIM_TOD_SUB).1 = s.todSub ∧ ((t.toCycle c).regRead .TIM_DT).1 = s.now ∧
        ((t.toCycle c).regRead .TIM_POS).1 = s.timPos) ∧
    Runs .timStepArm s (fun t => t.fld .TIM_STEP_ARM Fld.TIM_STEP_ARM_ARM = 1 ∧ onlyRegs [.TIM_STEP_ARM] s t) ∧
    Runs .timStepDisarm s (fun t => t.fld .TIM_STEP_ARM Fld.TIM_STEP_ARM_ARM = 0 ∧ onlyRegs [.TIM_STEP_ARM] s t) ∧
    Runs .timStatClr s (fun t => (∀ k, k < 5 → t.rd (.TIM_CNT k) = 0) ∧
      onlyRegs [.TIM_CNT 0, .TIM_CNT 1, .TIM_CNT 2, .TIM_CNT 3, .TIM_CNT 4] s t) ∧
    (∀ v : BitVec 64,
      Runs (.timVrefSub v) s (fun t => memKept s t ∧ regsKept [.TIM_VREF_SUB] s t ∧
        (s.tm.refs.length = 8 → (t.tm.refs.getD 7 RefInput.idleInput).idle = 0 ∧
          (∀ i, i < 7 → t.tm.refs.getD i RefInput.idleInput = s.tm.refs.getD i RefInput.idleInput) ∧
          (dtDiff s.now (s.rd .TIM_VREF_AT) < (unitsPerSecond : Int) →
            (s.rd .TIM_VREF_AT, signedOf 48 (s.fld .TIM_VREF_SEC Fld.TIM_VREF_SEC_SEC) * (unitsPerSecond : Int) + v.toInt
              - signedOf 32 (s.fld (.TIM_REF_CFG 7) Fld.TIM_REF_CFG_DELAY)) ∈ (t.tm.refs.getD 7 RefInput.idleInput).samples))) ∧
      Runs (.timRxDb v) s (fun t => t.fld .TIM_RX_DB Fld.TIM_RX_DB_INDEX = v.toNat % 2 ^ 16 ∧ onlyRegs [.TIM_RX_DB] s t) ∧
      Runs (.timTxDb v) s (fun t => t.fld .TIM_TX_DB Fld.TIM_TX_DB_INDEX = v.toNat % 2 ^ 16 ∧ onlyRegs [.TIM_TX_DB] s t)) ∧
    (∀ sfd : BitVec 64, Runs (.ptpTxDeparture sfd) s (fun t =>
      (s.fld .TIM_TX_CFG Fld.TIM_TX_CFG_ENABLE = 0 ∨
        s.fld .TIM_TX_DB Fld.TIM_TX_DB_INDEX = s.fld .TIM_TX_CI Fld.TIM_TX_CI_INDEX → t = s) ∧
      (s.fld .TIM_TX_CFG Fld.TIM_TX_CFG_ENABLE = 1 →
        s.fld .TIM_TX_DB Fld.TIM_TX_DB_INDEX ≠ s.fld .TIM_TX_CI Fld.TIM_TX_CI_INDEX → s.unhindered (fun u => u.departTx sfd) →
        t.fld .TIM_TX_CI Fld.TIM_TX_CI_INDEX = (s.fld .TIM_TX_CI Fld.TIM_TX_CI_INDEX + 1) % 2 ^ 16))) ∧
    ∀ f : RxFrame, s.bit .SYS_READY 39 = true → s.fld (.FHL_PORT_CFG f.port) Fld.FHL_PORT_CFG_MODE ≠ 0 →
      s.fld (.FHL_PORT_STATUS f.port) Fld.FHL_PORT_STATUS_LINK_UP = 1 → f.full = false →
      Runs (.ptpFrameReceive f) s (fun t => s.classify f = .ptp →
        (s.bit .SYS_READY 3 = false →
          t.rd (.TIM_CNT 0) = s.rd (.TIM_CNT 0) + 1 ∧ onlyRegs [.FHL_CNT f.port 0, .FHL_CNT f.port 22, .FHL_CNT f.port 23, .TIM_CNT 0] s t) ∧
        (s.bit .SYS_READY 3 = true → s.fld .TIM_RX_CFG Fld.TIM_RX_CFG_ENABLE = 0 →
          t.rd (.TIM_CNT 1) = s.rd (.TIM_CNT 1) + 1 ∧ regsKept [.FHL_CNT f.port 0, .FHL_CNT f.port 22, .FHL_CNT f.port 23, .TIM_CNT 1] s t ∧ memKept s t) ∧
        (s.bit .SYS_READY 3 = true → s.fld .TIM_RX_CFG Fld.TIM_RX_CFG_ENABLE = 1 →
          (s.fld .TIM_RX_PI Fld.TIM_RX_PI_INDEX + 2 ^ 16 - s.fld .TIM_RX_DB Fld.TIM_RX_DB_INDEX) % 2 ^ 16
            < 2 ^ s.fld .TIM_RX_CFG Fld.TIM_RX_CFG_LOG2_SIZE →
          t.fld .TIM_RX_PI Fld.TIM_RX_PI_INDEX = (s.fld .TIM_RX_PI Fld.TIM_RX_PI_INDEX + 1) % 2 ^ 16)) ∧
      Runs (.esmcReceive f) s (fun t => s.classify f = .esmc →
        (s.bit .SYS_READY 3 = false →
          t.rd (.TIM_CNT 0) = s.rd (.TIM_CNT 0) + 1 ∧ onlyRegs [.FHL_CNT f.port 0, .FHL_CNT f.port 22, .FHL_CNT f.port 23, .TIM_CNT 0] s t) ∧
        (s.bit .SYS_READY 3 = true → esmcCode f.bytes = none →
          t.rd (.TIM_CNT 3) = s.rd (.TIM_CNT 3) + 1 ∧ onlyRegs [.FHL_CNT f.port 0, .FHL_CNT f.port 22, .FHL_CNT f.port 23, .TIM_CNT 3] s t) ∧
        ∀ ql, s.bit .SYS_READY 3 = true → esmcCode f.bytes = some ql → s.tm.refs.length = 8 →
          s.fld (.SDS_LANE_STATUS (s.rclk 5).1) Fld.SDS_LANE_STATUS_USER = 1 → s.portOfLane (s.rclk 5).1 = f.port.val →
          (t.tm.refs.getD 5 RefInput.idleInput).rxQl = ql ∧ (t.tm.refs.getD 5 RefInput.idleInput).esmcIdle = 0 ∧
          onlyRegs [.FHL_CNT f.port 0, .FHL_CNT f.port 22, .FHL_CNT f.port 23] s { t with tm := s.tm })

/-- R375, R378, R379, R381, R389, R390. Selection and steps of time. With every input disabled none is ACTIVE, VALID or selected, and the loop goes
from LOCKED to HOLDOVER where HO_VALID stands and else to FREERUN; 5 s without ESMC make an input's level QL-DNU; the step fixed is the
number of ticks nearest to the offset; at its edge second and tick move by it and the loop pulls; the end of the pull is ACQUIRE. -/
def Obligations.TimeSteps : Prop :=
  (∀ (a : Int) (b : Nat), 0 < b → 2 * (a - (b : Int) * roundToZero a b).natAbs ≤ b) ∧
  ∀ s : State, s.halted = false →
    (∀ (obs : List RefObs) (dco : BitVec 32), Runs (.referenceEvaluation obs dco) s (fun t => memKept s t ∧
      (∀ i, i < 8 → s.fld (.TIM_REF_CFG i) Fld.TIM_REF_CFG_EN = 0 →
        t.fld (.TIM_REF_STATUS i) Fld.TIM_REF_STATUS_VALID = 0 ∧ t.fld (.TIM_REF_STATUS i) Fld.TIM_REF_STATUS_ACTIVE = 0) ∧
      ((∀ i, i < 8 → s.fld (.TIM_REF_CFG i) Fld.TIM_REF_CFG_EN = 0) →
        t.fld .TIM_STATUS Fld.TIM_STATUS_SEL_FREQ = 15 ∧ t.fld .TIM_STATUS Fld.TIM_STATUS_SEL_TIME = 15 ∧
        (s.fld .TIM_STATUS Fld.TIM_STATUS_STATE = 3 →
          t.fld .TIM_STATUS Fld.TIM_STATUS_STATE = (if s.fld .TIM_STATUS Fld.TIM_STATUS_HO_VALID = 1 then 4 else 0))))) ∧
    (∀ n : Fin 2, Runs (.esmcTimeout n) s (fun t => memKept s t ∧
      ((s.tm.refs.getD (5 + n) RefInput.idleInput).esmcIdle < 5000 → t = s) ∧
      (5000 ≤ (s.tm.refs.getD (5 + n) RefInput.idleInput).esmcIdle →
        s.fld (.TIM_REF_CFG (5 + n)) Fld.TIM_REF_CFG_QL_OVR = 0 →
        s.fld (.SDS_LANE_STATUS (s.rclk (5 + n)).1) Fld.SDS_LANE_STATUS_USER = 1 →
        t.fld (.TIM_REF_STATUS (5 + n)) Fld.TIM_REF_STATUS_QL = 0xF ∧ regsKept [.TIM_REF_STATUS (5 + n)] s t))) ∧
    Runs .timeStepFix s (fun t =>
      (11000 < s.tm.cycle ∨ s.stepAllowed = false → t = s) ∧
      ∀ d, s.tm.cycle ≤ 11000 → s.stepAllowed = true → s.quiet → s.stepOffset (s.fld .TIM_STATUS Fld.TIM_STATUS_SEL_TIME) = some d →
        t.tm.step.map (·.k) = some (roundToZero (7 * d.1) (4096000000 * d.2)) ∧ t.tm.cycle = 11000 ∧ t.drv.nextIdx = none ∧
        t.regs = s.regs ∧ memKept s t) ∧
    Runs .timeStep s (fun t =>
      (s.tm.step = none → t = s) ∧
      ∀ st, s.tm.step = some st →
        t.tm.step = none ∧ t.tm.pull = st.residual ∧
        (t.tm.tick : Int) = ((ticksPerSecond * s.tm.tod + s.tm.tick : Nat) + st.k) % (ticksPerSecond : Int) ∧
        (t.tm.tod : Int) = ((ticksPerSecond * s.tm.tod + s.tm.tick : Nat) + st.k) / (ticksPerSecond : Int) % (2 ^ 48 : Int) ∧
        t.fld .TIM_STATUS Fld.TIM_STATUS_STEP_DONE = 1 ∧ t.fld .TIM_STEP_ARM Fld.TIM_STEP_ARM_ARM = 0 ∧
        t.fld .TIM_STATUS Fld.TIM_STATUS_STATE = 2 ∧ (st.fromPps = false → t.bit .SYS_READY 4 = true)) ∧
    Runs .pullComplete s (fun t =>
      (s.fld .TIM_STATUS Fld.TIM_STATUS_STATE ≠ 2 → t = s) ∧
      (s.fld .TIM_STATUS Fld.TIM_STATUS_STATE = 2 →
        t.fld .TIM_STATUS Fld.TIM_STATUS_STATE = 1 ∧ t.fld .TIM_STATUS Fld.TIM_STATUS_CHANGE = 1 ∧ t.tm.pull = 0 ∧
        regsKept [.TIM_STATUS, .HST_PBA, .HST_STATS] s t ∧ memKept s t))

/-! ### Power -/

/-- R403, R406, R407, R409 to R414. What the commands of a power domain leave: at a tick edge its planned state and, for a steady domain, the
start of a wake; a handshake is asked again, every block having accepted gives the abort point, and a refusing block ends the entry; the
lower state is reached, with the contents that OFF loses; power-good, the end and the failure of a wake; PWR_FORCE_ON and the two writes of
PWR_DOM_CFG. -/
def Obligations.PowerDomains : Prop :=
  ∀ (s : State) (d : Fin 69),
    (s.halted = false → s.tm.cycle = 0 → Runs (.powerPlanTransition d) s (fun t => memKept s t ∧
      (s.planDue d = false → t = s) ∧
      (s.planDue d = true →
        t.fld (.PWR_DOM d) Fld.PWR_DOM_PLANNED = s.plannedNow d % 4 ∧
        ((s.dom d).entry = none → (s.dom d).wake = none → s.domFailed d = false → s.forcedOn d = false →
          s.plannedNow d % 4 < s.fld (.PWR_DOM d) Fld.PWR_DOM_STATE →
          t.fld (.PWR_DOM d) Fld.PWR_DOM_WAKING = 1 ∧ (t.dom d).wake.isSome = true)))) ∧
    Runs (.handshakeReask d) s (fun t => memKept s t ∧ t.out = s.out ∧
      ((s.dom d).entry = none → t = s) ∧
      ∀ e, (s.dom d).entry = some e → e.at_ = none →
        (25 ≤ d.val → d.val ≤ 40 → e.abort = false → ∃ e', (t.dom d).entry = some e' ∧ e'.goal = e.goal ∧ e'.at_ = some s.absCycle) ∧
        (∀ b r, d.val < 16 → b < 8 → e.accepted = [] → r ∈ s.drv.rels → r.live = true → r.eng = ⟨0, d, b⟩ →
          (t.dom d).entry = none ∧ (t.dom d).refused = some e.goal ∧ t.fld (.PWR_DOM d) Fld.PWR_DOM_ENTERING = 0 ∧
          t.fld .PWR_REFUSE Fld.PWR_REFUSE_VALID = 1 ∧ t.fld .PWR_REFUSE Fld.PWR_REFUSE_DOMAIN = d)) ∧
    Runs (.entryComplete d) s (fun t =>
      ((s.dom d).entry = none → t = s) ∧
      ∀ e, (s.dom d).entry = some e →
        (e.at_ = none → t = s) ∧
        (e.at_.isSome = true →
          t.fld (.PWR_DOM d) Fld.PWR_DOM_STATE = e.goal % 4 ∧
          t.fld (.PWR_DOM d) Fld.PWR_DOM_EMULATED = (if s.attached && decide (2 ≤ e.goal) then 1 else 0) ∧
          t.fld .PWR_STATS Fld.PWR_STATS_ENTRIES = min 65535 (s.fld .PWR_STATS Fld.PWR_STATS_ENTRIES + 1) ∧
          (e.goal < 3 ∨ s.attached = true → memKept s t) ∧
          (3 ≤ e.goal → s.attached = false → ∀ g ∈ groupsOfDomain d, g < 60 →
            ∀ a, (groupSpan g).1 ≤ a → a < (groupSpan g).1 + (groupSpan g).2 → t.mem.read a = 0))) ∧
    Runs (.powerGood d) s (fun t => t.out = s.out ∧ memKept s t ∧
      ((s.dom d).wake = none → t = s) ∧
      ∀ w, (s.dom d).wake = some w →
        (w.switched = false ∨ w.good = true → t = s) ∧
        (w.switched = true → w.good = false → (t.dom d).wake = some { w with good := true } ∧
          (3 ≤ w.from_ → ∀ g ∈ groupsOfDomain d, g ∈ t.ecc.initDue))) ∧
    Runs (.domainWakeFail d) s (fun t =>
      ((s.dom d).wake = none → t = s) ∧
      ∀ w, (s.dom d).wake = some w →
        (w.switched = false ∨ w.from_ < 2 → t = s) ∧
        (w.switched = true → 2 ≤ w.from_ →
          t.fld (.PWR_DOM d) Fld.PWR_DOM_FAILED = 1 ∧ t.fld (.PWR_DOM d) Fld.PWR_DOM_STATE = 3 ∧
          t.fld (.PWR_DOM d) Fld.PWR_DOM_WAKING = 0 ∧ (t.dom d).wake = none ∧
          ∀ n ∈ nisOfDomain d, t.isolated n = true)) ∧
    Runs (.domainWakeComplete d) s (fun t =>
      (s.wakeReady d = false → t = s) ∧
      ∀ w, (s.dom d).wake = some w → s.wakeReady d = true → w.goal = 0 →
        t.fld (.PWR_DOM d) Fld.PWR_DOM_STATE = 0 ∧ t.fld (.PWR_DOM d) Fld.PWR_DOM_EMULATED = 0 ∧
        t.fld (.PWR_DOM d) Fld.PWR_DOM_WAKING = 0 ∧ (t.dom d).wake = none ∧ memKept s t) ∧
    (s.halted = false → ∀ v : BitVec 64,
      (∀ n : Fin 2, Runs (.pwrForceOn n v) s (fun t => memKept s t ∧ t.rd (.PWR_FORCE_ON n) = v ∧
        (d.val / 64 = n → s.bit (.PWR_FORCE_ON n) (d % 64) = false → v.toNat.testBit (d % 64) = true →
          (s.dom d).entry = none → (s.dom d).wake = none → s.domFailed d = false → s.fld (.PWR_DOM d) Fld.PWR_DOM_STATE ≠ 0 →
          t.fld (.PWR_DOM d) Fld.PWR_DOM_WAKING = 1 ∧ (t.dom d).wake.isSome = true))) ∧
      Runs (.fwState d v) s (fun t => memKept s t ∧
        t.fld (.PWR_DOM_CFG d) Fld.PWR_DOM_CFG_FW_STATE =
          (if stateAllowed d (Fld.PWR_DOM_CFG_FW_STATE.get v) then Fld.PWR_DOM_CFG_FW_STATE.get v
           else s.fld (.PWR_DOM_CFG d) Fld.PWR_DOM_CFG_FW_STATE) ∧
        (s.domainUsed d = true → Fld.PWR_DOM_CFG_CLEAR_FAIL.get v = 0 →
          t.fld (.PWR_DOM d) Fld.PWR_DOM_PLANNED = s.fld (.PWR_DOM d) Fld.PWR_DOM_PLANNED) ∧
        (s.domainUsed d = false → s.almRuns = false → s.powerOverride = false →
          stateAllowed d (Fld.PWR_DOM_CFG_FW_STATE.get v) = true →
          t.fld (.PWR_DOM d) Fld.PWR_DOM_PLANNED = Fld.PWR_DOM_CFG_FW_STATE.get v)) ∧
      Runs (.clearFail d) s (fun t => memKept s t ∧
        (s.domFailed d = true → (s.dom d).entry = none →
          t.fld (.PWR_DOM d) Fld.PWR_DOM_FAILED = 0 ∧ t.fld (.PWR_DOM d) Fld.PWR_DOM_WAKING = 1 ∧ (t.dom d).wake.isSome = true)) ∧
      Runs .pwrStatClr s (fun t => t.rd .PWR_STATS = 0 ∧ onlyRegs [.PWR_STATS] s t))

/-- R415 to R417. Exchanges on AVSBus: one at a time, each at most 50 mV from the acknowledged value and towards the set point; an
acknowledgement takes the value, and every wake that waited for it goes on; a try without an answer is repeated, and after the third the
rail has failed and the wakes that waited fail. -/
def Obligations.VoltageExchanges : Prop :=
  (∀ a b, a ≤ avsStep a b + 50 ∧ avsStep a b ≤ a + 50 ∧ min a b ≤ avsStep a b ∧ avsStep a b ≤ max a b) ∧
  ∀ s : State,
    Runs .avsExchangeStart s (fun t => memKept s t ∧
      (s.pwr.exch.isSome = true ∨ s.nextAvs = none → t = s) ∧
      ∀ r, s.pwr.exch = none → s.nextAvs = some r →
        t.pwr.exch = some ⟨r, avsStep (s.acked r) (s.setPoint r), 1⟩ ∧
        t.out = s.out ++ [.avs r (avsStep (s.acked r) (s.setPoint r))] ∧
        t.fld (.PWR_AVS_STATUS r) Fld.PWR_AVS_STATUS_BUSY = 1 ∧ regsKept [.PWR_AVS_STATUS r] s t) ∧
    Runs .avsAck s (fun t => memKept s t ∧
      (s.pwr.exch = none → t = s) ∧
      ∀ e, s.pwr.exch = some e →
        t.pwr.exch = none ∧ t.acked e.rail = e.mv % 2 ^ 10 ∧ t.fld (.PWR_AVS_STATUS e.rail) Fld.PWR_AVS_STATUS_BUSY = 0 ∧
        regsKept [.PWR_AVS_STATUS e.rail] s t ∧
        ∀ d w, d < 69 → (s.dom d).wake = some w → w.switched = false →
          (t.dom d).wake = some { w with switched := decide (min w.need t.coreSp ≤ t.acked 0) }) ∧
    Runs .avsNoAck s (fun t =>
      (s.pwr.exch = none → t = s) ∧
      ∀ e, s.pwr.exch = some e →
        (e.tries < 3 → t.pwr.exch = some ⟨e.rail, e.mv, e.tries + 1⟩ ∧ t.out = s.out ++ [.avs e.rail e.mv] ∧
          regsKept [.PWR_AVS_STATUS e.rail] s t ∧ memKept s t) ∧
        (3 ≤ e.tries → t.pwr.exch = none ∧ t.fld (.PWR_AVS_STATUS e.rail) Fld.PWR_AVS_STATUS_FAIL = 1 ∧
          t.fld (.PWR_AVS_STATUS e.rail) Fld.PWR_AVS_STATUS_BUSY = 0 ∧
          ∀ d ∈ s.railWaiters, t.fld (.PWR_DOM d) Fld.PWR_DOM_FAILED = 1 ∧ t.fld (.PWR_DOM d) Fld.PWR_DOM_STATE = 3))

/-! ### The on-chip network -/

/-- R264, R267, R268, R274, R278, R280, R281, R283. Packets, by type. One that the network does not hold is injected by its source, unless
that is isolated. One that has crossed its links leaves: it has arrived at its target's interface, or a router absorbed it for an isolated
one and counted it, or it went astray and counts ROUTE_ERR. The next one of its source, entry and channel is served at Shepherd memory: a READ
is answered with the bytes that stand there, a WRITE or WRITE_ACK stores its bytes and no others. -/
def Obligations.PacketsDelivered : Prop :=
  ∀ (s : State) (p : Packet),
    (∀ w : Worm, s.noc.flight = [w] → w.pkt = p → w.done = true →
      let t := s.leaveNet
      let dst := p.dst.toNat
      memKept s t ∧
      (w.sink = false → w.eject = some dst → t = { s with noc := { s.noc with flight := [], arrived := s.noc.arrived ++ [p] } }) ∧
      (w.sink = false → w.eject ≠ some dst → t.rd (.NOC_CNT cntRouteErr) = s.rd (.NOC_CNT cntRouteErr) + 1 ∧
        t.noc.arrived = s.noc.arrived) ∧
      (w.sink = true → t.noc.arrived = s.noc.arrived ∧
        (p.type = 0 → t.rd (.NOC_CNT cntErrResp) = s.rd (.NOC_CNT cntErrResp) + 1) ∧
        (p.type = 1 ∨ p.type = 2 → t.rd (.NOC_CNT cntWrDropped) = s.rd (.NOC_CNT cntWrDropped) + 1) ∧
        (p.type = 3 ∨ p.type = 4 → t.rd (.NOC_CNT cntRespAbsorbed) = s.rd (.NOC_CNT cntRespAbsorbed) + 1 ∧ t.noc.flight = []))) ∧
    ∀ x ∈ [(Instr.read p, (0 : BitVec 4)), (.write p, 1), (.writeAck p, 2), (.readResp p, 3), (.writeResp p, 4)],
      let q : Packet := { p with type := x.2 }
      let a := p.addr.toNat % 2 ^ 48
      let len := p.len.toNat + 1
      s.halted = false →
      Runs x.1 s (fun t =>
        (13999 ≤ s.tm.cycle → s.noc.flight = [] → s.noc.arrived = [] → p.ch ≠ 0 →
          t = (if s.isolated p.src.toNat then s else
            { s with noc := { s.noc with flight := [s.wormOf q false false] } })) ∧
        (s.nextArrived q = true → p.dst = 76 → s.sys.barHeld = [] → p.space = false → a + len ≤ 0x200000 → s.ecc.flips = [] →
          s.fld .MEM_INJECT Fld.MEM_INJECT_ARM = 0 →
          let answer (data : List Byte) : Prop :=
            s.isolated 76 = false → (s.rtEntry 76 p.src.toNat).toNat.testBit 63 = true →
              ∃ w : Worm, t.noc.flight = s.noc.flight ++ [w] ∧ w.pkt.type = (if x.2 = 0 then 3 else 4) ∧ w.pkt.src = 76 ∧
                w.pkt.dst = p.src ∧ w.pkt.tag = p.tag ∧ w.pkt.status = 0 ∧ w.pkt.data = data
          t.noc.arrived = s.noc.arrived.erase q ∧
          (x.2 = 0 → answer (s.mem.readBytes a len) ∧ memKept s t) ∧
          (x.2 = 1 ∨ x.2 = 2 → t.mem = s.mem.writeBytes a (bytesAt p.data 0 len)) ∧
          (x.2 = 1 → t.noc.flight = s.noc.flight) ∧ (x.2 = 2 → answer []) ∧
          (x.2 = 3 ∨ x.2 = 4 → memKept s t ∧ t.noc.flight = s.noc.flight)))

/-- R266. Every built-in route of the reset route tables leads, by the ports of its nibbles, from its interface to the one that its entry is
numbered by; entries 79 to 255 and each interface's own are not valid. -/
def Obligations.BuiltinRoutesReach : Prop :=
  (∀ n d, n < 79 → d < 79 → n ≠ d →
    let w := (State.reset.rtEntry n d).toNat
    w.testBit 63 = true ∧ bitsOf w 48 8 = d ∧ (walk 9 (niPort n).1 (bitsOf w 0 32) 0 (bitsOf w 32 3)).2 = some d) ∧
  ∀ n d, n < 79 → d < 256 → (79 ≤ d ∨ d = n) → (State.reset.rtEntry n d).toNat.testBit 63 = false

/-- R266, R280 to R282, R285, R421. The network's registers: each 1 written to NOC_ISOLATE isolates its interface, each 1 to NOC_RELEASE ends
an isolation unless the unit is dead or frozen or its domain failed; NOC_RT_DATA reads and, before the boot lock, writes the route entry
at NOC_RT_ADDR, which moves on by one; the counters clear. -/
def Obligations.NetworkRegisters : Prop :=
  ∀ s : State, s.halted = false →
    (∀ (i : Fin 2) (v : BitVec 64),
      Runs (.nocIsolate i v) s (fun t => memKept s t ∧
        (∀ m, m < 79 → t.isolated m = (s.isolated m || (decide (m / 64 = i.val) && v.toNat.testBit (m % 64)))) ∧
        { t with regs := s.regs } = s) ∧
      Runs (.nocRelease i v) s (fun t => { t with regs := s.regs } = s ∧
        ∀ m, m < 79 → t.isolated m = (s.isolated m && !(decide (m / 64 = i.val) && v.toNat.testBit (m % 64) && !s.niDead m)))) ∧
    (let next := (256 * s.fld .NOC_RT_ADDR Fld.NOC_RT_ADDR_NI + s.fld .NOC_RT_ADDR Fld.NOC_RT_ADDR_ENTRY + 1) % 2 ^ 16
     let moved (t : State) : Prop :=
       t.fld .NOC_RT_ADDR Fld.NOC_RT_ADDR_NI = next / 256 ∧ t.fld .NOC_RT_ADDR Fld.NOC_RT_ADDR_ENTRY = next % 256 ∧
       regsKept [.NOC_RT_ADDR] s t
     Runs .nocRtDataRead s (fun t => moved t ∧ { t with regs := s.regs } = s ∧ (s.regRead .NOC_RT_DATA).1 = s.rtWord) ∧
     ∀ v : BitVec 64, Runs (.nocRtDataWrite v) s (fun t => moved t ∧ { t with regs := s.regs, noc := s.noc } = s ∧
       (s.locked = true ∨ 79 ≤ s.rtAddr.1 → t.noc = s.noc) ∧
       (s.locked = false → s.rtAddr.1 < 79 →
         t.rtEntry s.rtAddr.1 s.rtAddr.2 = v &&& rtMask ∧
         ∀ n e, e < 256 → (n, e) ≠ s.rtAddr → t.rtEntry n e = s.rtEntry n e))) ∧
    Runs .nocStatClr s (fun t => (∀ k, k < 6 → t.rd (.NOC_CNT k) = 0) ∧ (∀ l, l < 240 → t.rd (.NOC_LINK l) = 0) ∧
      onlyRegs ((List.range 6).map .NOC_CNT ++ (List.range 240).map .NOC_LINK) s t)

/-! ### Memories, Move engines, units -/

/-- R288, R291, R295 to R299, R310. The scrubber's next word of a group: nothing where the group is not scrubbed or has had its words of this
tick; else the position moves on, round to 0 at the end, and a correctable word is written back and counted. A finished initialisation
leaves zeros and FAILED clear, a failed self-test FAILED and a dead unit; STAT_CLR clears the counters. -/
def Obligations.MemoryUpkeep : Prop :=
  ∀ s : State, s.halted = false →
    (∀ g : Fin 64,
      let lo := SMap.get zeroNat s.ecc.pos g
      Runs (.scrubWord g) s (fun t =>
        (s.scrubbed g = false ∨ s.scrubRate g ≤ SMap.get zeroNat s.ecc.done g → t = s) ∧
        (s.scrubbed g = true → SMap.get zeroNat s.ecc.done g < s.scrubRate g → lo < s.scrubSpan g →
          SMap.wf zeroNat s.ecc.flips = true →
          SMap.get zeroNat t.ecc.done g = SMap.get zeroNat s.ecc.done g + 1 ∧
          SMap.get zeroNat t.ecc.pos g = (if lo + 1 = s.scrubSpan g then 0 else lo + 1) ∧
          (g.val < 60 → s.flips g lo = 0 → memKept s t ∧ t.rd (.MEM_GRP g) = s.rd (.MEM_GRP g)) ∧
          ∀ wrong syn, g.val < 60 → checkWord (s.flips g lo) = .corrected wrong syn →
            t.flips g lo = 0 ∧
            t.fld (.MEM_GRP g) Fld.MEM_GRP_CORR = min (2 ^ 32 - 1) (s.fld (.MEM_GRP g) Fld.MEM_GRP_CORR + 1) ∧
            (g.val ≤ 52 → t.mem.readLE (wordAddr g lo) 8 = s.mem.readLE (wordAddr g lo) 8 ^^^ wrong) ∧
            ∀ a, a < wordAddr g lo ∨ wordAddr g lo + 8 ≤ a → t.mem.read a = s.mem.read a))) ∧
    (∀ (g : Fin 64) (ok : Bool), Runs (.memoryInitComplete g ok) s (fun t =>
      (g.val ∉ s.ecc.initDue → t = s) ∧
      (g.val ∈ s.ecc.initDue → g.val ∉ t.ecc.initDue ∧
        (ok = true → g.val < 59 → t.fld (.MEM_GRP g) Fld.MEM_GRP_FAILED = 0 ∧
          ∀ a, t.mem.read a =
            (if (groupSpan g).1 ≤ a ∧ a < (groupSpan g).1 + (groupSpan g).2 then 0 else s.mem.read a)) ∧
        (ok = true → 60 ≤ g.val → t.fld (.MEM_DDR_CFG (g - 60)) Fld.MEM_DDR_CFG_INIT_DONE = 1) ∧
        (ok = false → memKept s t ∧ (g.val < 60 → t.fld (.MEM_GRP g) Fld.MEM_GRP_FAILED = 1) ∧
          ∀ u, unitOfGroup g = some u → s.unitState u.1 u.2 ∉ [1, 2, 6] →
            t.unitState u.1 u.2 = 2 ∧ t.isolated (niOfUnit u.1 u.2) = true)))) ∧
    Runs .memStatClr s (fun t =>
      (∀ g, g < 60 → t.fld (.MEM_GRP g) Fld.MEM_GRP_CORR = 0 ∧ t.fld (.MEM_GRP g) Fld.MEM_GRP_UNCORR = 0 ∧
        t.fld (.MEM_GRP g) Fld.MEM_GRP_PARTIAL_DROP = 0 ∧
        t.fld (.MEM_GRP g) Fld.MEM_GRP_REMAP_USED = s.fld (.MEM_GRP g) Fld.MEM_GRP_REMAP_USED) ∧
      (∀ c, c < 4 → t.rd (.MEM_DDR_DEV c) = 0) ∧ t.rd .MEM_SCRUB_STAT = 0 ∧
      regsKept (.MEM_SCRUB_STAT :: ((List.range 60).map .MEM_GRP ++ (List.range 4).map .MEM_DDR_DEV)) s t ∧
      { t with regs := s.regs, ecc := { t.ecc with passes := s.ecc.passes } } = s)

/-- R294, R442, R444, R454 to R458. Units: a hardware fault records UNIT_HW_FAULT, or ECC_UNCORRECTABLE where it is the unit's own memory that
failed, and leaves the unit dead and isolated; FLT_RESET, FLT_RESTORE,
RESTORE_COMPLETE and FLT_RETURN move it on in their order, each answering RESULT; at the edge returned units leave the waiting list and
units with a full remap table are barred; CONSUME and the counters' clear (RESULT's numbers are the model's choice, log 15). -/
def Obligations.UnitsReturn : Prop :=
  ∀ s : State, s.halted = false →
    (∀ (cls : Fin 6) (phys : Fin 32) (sram : Bool),
      let st := s.unitState cls phys
      let ni := niOfUnit cls phys
      let result (t : State) (n : Nat) : Prop := t.fld .FLT_UNIT_STATUS Fld.FLT_UNIT_STATUS_RESULT = n
      Runs (.unitHwFault cls phys sram) s (fun t => memKept s t ∧
        (unitOk cls phys = false → t = s) ∧
        (unitOk cls phys = true →
          let i := s.fld .FLT_STATUS Fld.FLT_STATUS_WR_IDX
          bitsOf (t.rd (.FLT_REC i 0)).toNat 56 8 = (if sram then 0x10 else 0x20) ∧ t.fld .FLT_STATUS Fld.FLT_STATUS_WR_IDX = (i + 1) % 64 ∧
          (st ∉ [1, 2, 6] → t.unitState cls phys = 2 ∧ t.isolated ni = true ∧
            (s.tm.cycle ≠ 14000 → (cls.val, phys.val) ∈ t.alm.rebindDue)) ∧
          (st ∈ [1, 2, 6] → t.unitState cls phys = st))) ∧
      Runs (.fltReset (cls.castLE (by decide)) phys) s (fun t => memKept s t ∧
        (unitOk cls phys = false → result t 2) ∧
        (unitOk cls phys = true →
          (st = 1 ∨ st = 2 → t.unitState cls phys = 3 ∧ result t 0) ∧
          (st ≠ 1 → st ≠ 2 → t.unitState cls phys = st ∧ result t (if st = 6 then 3 else if st = 4 then 1 else 2)))) ∧
      Runs (.fltRestore cls phys) s (fun t =>
        (unitOk cls phys = false → result t 2 ∧ memKept s t) ∧
        (unitOk cls phys = true →
          (st ≠ 3 → t.unitState cls phys = st ∧ memKept s t ∧ result t (if st = 6 then 3 else if st = 4 then 1 else 2)) ∧
          (st = 3 → s.domFailed (domainOfUnit cls phys) = true → t.unitState cls phys = 3 ∧ result t 6 ∧ memKept s t) ∧
          (st = 3 → s.domFailed (domainOfUnit cls phys) = false →
            t.unitState cls phys = 4 ∧ result t 0 ∧ t.fld .FLT_UNIT_STATUS Fld.FLT_UNIT_STATUS_BUSY = 1 ∧
            ∀ g, groupOfUnit (cls, phys) = some g → ∀ a, t.mem.read a =
              (if (groupSpan g).1 ≤ a ∧ a < (groupSpan g).1 + (groupSpan g).2 then 0 else s.mem.read a)))) ∧
      (∀ ok : Bool, Runs (.restoreComplete cls phys ok) s (fun t => memKept s t ∧
        (st ≠ 4 ∨ unitOk cls phys = false → t = s) ∧
        (st = 4 → unitOk cls phys = true →
          t.unitState cls phys = (if ok then 5 else 2) ∧ t.fld .FLT_UNIT_STATUS Fld.FLT_UNIT_STATUS_BUSY = 0))) ∧
      Runs (.fltReturn cls phys) s (fun t => memKept s t ∧ regsKept [.FLT_UNIT_CTRL, .FLT_UNIT_STATUS] s t ∧
        (unitOk cls phys = false → result t 2) ∧
        (unitOk cls phys = true → st = 5 → (cls.val, phys.val) ∉ s.flt.returning →
          (s.isolated ni = true → result t 4 ∧ t.flt = s.flt) ∧
          (s.isolated ni = false → 16 ≤ s.fallow.length → result t 5 ∧ t.flt = s.flt) ∧
          (s.isolated ni = false → s.fallow.length < 16 →
            result t 0 ∧ t.flt.returning = s.flt.returning ++ [(cls.val, phys.val)])))) ∧
    (∀ phys : Fin 32, Runs (.fltReset 6 phys) s (fun t => memKept s t ∧
      (phys.val ∈ s.flt.shepFrozen → phys.val ∉ t.flt.shepFrozen ∧ t.core (128 + phys) = Core.reset ∧
        t.fld .FLT_UNIT_STATUS Fld.FLT_UNIT_STATUS_RESULT = 0) ∧
      (phys.val ∉ s.flt.shepFrozen → t.flt = s.flt ∧ t.fld .FLT_UNIT_STATUS Fld.FLT_UNIT_STATUS_RESULT = 2))) ∧
    (s.tm.cycle = 0 →
      Runs .unitReturned s (fun t => memKept s t ∧ t.flt.returning = [] ∧ (s.flt.returning = [] → t = s) ∧
        ∀ u : Nat × Nat, s.flt.returning = [u] → unitOk u.1 u.2 = true → s.unitState u.1 u.2 = 5 → s.fallow.length < 16 →
          t.unitState u.1 u.2 = 0 ∧ t.fallow = s.fallow ++ [u]) ∧
      Runs .unitBarred s (fun t => memKept s t ∧ t.flt.barDue = [] ∧ (s.flt.barDue = [] → t = s) ∧
        ((∀ u ∈ s.flt.barDue, unitOk u.1 u.2 = true) → ∀ u ∈ s.flt.barDue,
          t.unitState u.1 u.2 = 6 ∧ (s.unitState u.1 u.2 ≠ 6 → t.isolated (niOfUnit u.1 u.2) = true)))) ∧
    (∀ n : BitVec 8, Runs (.consume n) s (fun t =>
      t.fld .FLT_STATUS Fld.FLT_STATUS_COUNT = s.fld .FLT_STATUS Fld.FLT_STATUS_COUNT - n.toNat ∧
      t.fld .FLT_STATUS Fld.FLT_STATUS_WR_IDX = s.fld .FLT_STATUS Fld.FLT_STATUS_WR_IDX ∧ onlyRegs [.FLT_STATUS] s t)) ∧
    Runs .fltStatClr s (fun t => t.rd .FLT_STATS = 0 ∧ onlyRegs [.FLT_STATS] s t)

/-- R270, R303 to R309, R311. Move engines: GO is rejected while the shadow set is FULL, else fills it or, with no active transfer, starts one; a
kick reads the descriptor when there is room for the answer; a transfer all of whose writes are acknowledged completes and is counted; CLEAR ends a halt; the ring's base;
and a COPY release, with an undefined OP_CODE a violation, else moves what its record names where nothing it needs is asleep
or in its way. -/
def Obligations.MoveEngines : Prop :=
  ∀ (s : State) (e : Fin 8), s.halted = false →
    (∀ h : Fin 16,
      let c := s.movCh e h
      (∀ v : BitVec 64, s.fld (.MOV_CH_CFG e h) Fld.MOV_CH_CFG_MODE = 0 → Runs (.movGo e h v) s (fun t => memKept s t ∧
        (s.fld (.MOV_CH_STATUS e h) Fld.MOV_CH_STATUS_SH_FULL = 1 →
          t.fld (.MOV_CH_STATUS e h) Fld.MOV_CH_STATUS_SH_REJECT = 1 ∧ onlyRegs [.MOV_CH_STATUS e h] s t) ∧
        (s.fld (.MOV_CH_STATUS e h) Fld.MOV_CH_STATUS_SH_FULL = 0 → c.active.isSome = true →
          t.fld (.MOV_CH_STATUS e h) Fld.MOV_CH_STATUS_SH_FULL = 1 ∧
          t.fld (.MOV_CH_XFER e h) Fld.MOV_CH_XFER_LEN = Fld.MOV_CH_XFER_LEN.get v ∧
          onlyRegs [.MOV_CH_STATUS e h, .MOV_CH_XFER e h] s t) ∧
        (s.fld (.MOV_CH_STATUS e h) Fld.MOV_CH_STATUS_SH_FULL = 0 → c.active = none →
          let x := xferOf (s.rd (.MOV_CH_SRC e h)).toNat (s.rd (.MOV_CH_DST e h)).toNat v
          t.fld (.MOV_CH_STATUS e h) Fld.MOV_CH_STATUS_SH_FULL = 0 ∧
          (x.bad = true → t.fld (.MOV_CH_STATUS e h) Fld.MOV_CH_STATUS_HALTED = 1 ∧
            t.fld (.MOV_CH_STATUS e h) Fld.MOV_CH_STATUS_ERR_STATUS = 2) ∧
          (x.bad = false → s.fld (.MOV_CH_CFG e h) Fld.MOV_CH_CFG_ENABLE = 0 →
            (t.movCh e h).active = some x ∧ t.fld (.MOV_CH_STATUS e h) Fld.MOV_CH_STATUS_BUSY = 1)))) ∧
      (s.fld (.MOV_CH_CFG e h) Fld.MOV_CH_CFG_MODE = 1 → Runs (.movKick e h) s (fun t => memKept s t ∧
        (c.active.isSome = true ∨ s.movHalted e h = true ∨ 16 ≤ c.reading → t = s) ∧
        ∀ p, c.active = none → s.movHalted e h = false → c.reading < 16 →
          (let addr := s.descAddr e h
           s.requestPacket (niMove e) pktRead (SMap.get zeroNat s.mov.tag e) (if isDeviceAddr addr then bitsOf addr 0 48 else addr) 32
             (!isDeviceAddr addr) [] = some p →
           (t.movCh e h).reqs = c.reqs ++ [⟨SMap.get zeroNat s.mov.tag e, .fetch, 0, 32, addr⟩] ∧
           (s.isolated (niMove e) = false → p.ch ≠ 0 → t.noc.flight = s.noc.flight ++ [s.wormOf p false false])))) ∧
      Runs (.clear e h) s (fun t => memKept s t ∧
        (s.movHalted e h = true → s.fld (.MOV_CH_STATUS e h) Fld.MOV_CH_STATUS_SH_FULL = 0 →
          t.movCh e h = MovCh.idle ∧ t.fld (.MOV_CH_STATUS e h) Fld.MOV_CH_STATUS_HALTED = 0)) ∧
      ∀ v : BitVec 64, Runs (.movChRing e h v) s (fun t => t.rd (.MOV_CH_RING e h) = v ∧
        t.fld (.MOV_CH_POS e h) Fld.MOV_CH_POS_RING_IDX = 0 ∧ onlyRegs [.MOV_CH_RING e h, .MOV_CH_POS e h] s t)) ∧
    Runs (.movTransferComplete e) s (fun t =>
      let h := s.fld (.MOV_ENG e) Fld.MOV_ENG_CUR_CH
      let c := s.movCh e h
      memKept s t ∧
      (c.active = none ∨ s.movHalted e h = true ∨ s.fld (.MOV_ENG e) Fld.MOV_ENG_BUSY = 0 ∨ s.movFree e = false → t = s) ∧
      ∀ x, c.active = some x → (c.lead < x.len → t = s) ∧
        (s.movHalted e h = false → s.fld (.MOV_ENG e) Fld.MOV_ENG_BUSY = 1 → s.movFree e = true → x.len ≤ c.lead →
          t.fld (.MOV_ENG e) Fld.MOV_ENG_TRANSFERS = min (2 ^ 32 - 1) (s.fld (.MOV_ENG e) Fld.MOV_ENG_TRANSFERS + 1) ∧
          (x.irqFull = true → t.fld (.MOV_CH_STATUS e h) Fld.MOV_CH_STATUS_FULL = 1) ∧
          (c.desc = none → s.fld (.MOV_CH_STATUS e h) Fld.MOV_CH_STATUS_SH_FULL = 0 →
            (t.movCh e h).active = none ∧ t.fld (.MOV_CH_STATUS e h) Fld.MOV_CH_STATUS_BUSY = 0))) ∧
    Runs .movStatClr s (fun t => t.fld (.MOV_ENG e) Fld.MOV_ENG_TRANSFERS = 0 ∧ onlyRegs ((List.range 8).map .MOV_ENG) s t) ∧
    ∀ host : HostData, Runs (.copy e host) s (fun t =>
      (s.serving 5 e 0 0 = none → (∀ r ∈ s.drv.rels, r.eng = ⟨5, e, 0⟩ → r.status ≠ .queued) → t = s) ∧
      ∀ r, s.serving 5 e 0 0 = some r →
        (r.ran = true → t = s) ∧
        (r.ran = false → relOp r.word ≠ 1 ∨ relFill r.word = true ∨ relArg r.word % 32 ≠ 0 →
          t.unitState 5 e = 1 ∧ memKept s t) ∧
        (r.ran = false → relOp r.word = 1 → relFill r.word = false → relArg r.word % 32 = 0 →
          let d := s.trying.agentRead (niMove e) (pastureBase + relArg r.word) 32
          let w := leAt d.1.data 16 8
          let x := xferOf (leAt d.1.data 0 8) (leAt d.1.data 8 8) (BitVec.ofNat 64 w)
          d.1.status = stOk → w / 2 ^ 39 = 0 → bitsOf w 32 5 = 0 → allZero (slice d.1.data 24 8) = true → x.bad = false →
          isDeviceAddr x.src = true → isDeviceAddr x.dst = true → (x.src + x.len ≤ x.dst ∨ x.dst + x.len ≤ x.src) →
          let b := d.2.agentRead (niMove e) (bitsOf x.src 0 48) x.len
          let o := b.2.agentWrite (niMove e) (bitsOf x.dst 0 48) (slice b.1.data 0 x.len)
          b.1.status = stOk → o.1.status = stOk → s.unhindered (fun u => u.copyRelease e host) →
          t.mem = o.2.mem ∧ t.noc = { o.2.noc with wait := s.noc.wait } ∧ ∀ q ∈ t.drv.rels, q.idx = r.idx → q.ran = true))

/-! ### Start-up, host interface, status port -/

/-- R437, for every state in which the status port answers (SYS_READY bit 41) with its doorbells enabled, SHEP set or not: a write to
0x8000 + 2·i stores its data in STP_DB[i], sets bit i of STP_DB_PEND, interrupts the Shepherd complex, and sets OVERRUN where the bit was
still set; a write elsewhere counts in BAD_WR; nothing else changes. -/
def Obligations.StatusPortDoorbell : Prop :=
  ∀ (s : State) (v : BitVec 32), s.bit .SYS_READY 41 = true → s.fld .STP_CTRL Fld.STP_CTRL_WR_EN = 1 →
    (∀ i : Fin 64, Runs (.stpDb (BitVec.ofNat 16 (0x8000 + 2 * i.val)) v) s (fun t =>
      t.fld (.STP_DB i) Fld.STP_DB_DATA = v.toNat ∧ t.bit .STP_DB_PEND i = true ∧
      (∀ j, j < 64 → j ≠ i.val → t.bit .STP_DB_PEND j = s.bit .STP_DB_PEND j) ∧
      t.out = s.out ++ [.shepIrq shepDoorbell i] ∧
      (s.bit .STP_DB_PEND i = true → t.fld .STP_STATUS Fld.STP_STATUS_OVERRUN = 1) ∧
      (s.bit .STP_DB_PEND i = false → t.rd .STP_STATUS = s.rd .STP_STATUS) ∧
      regsKept [.STP_DB i, .STP_DB_PEND, .STP_STATUS] s t ∧ { t with regs := s.regs, out := s.out } = s)) ∧
    ∀ a : BitVec 16, (∀ i : Fin 64, a.toNat ≠ 0x8000 + 2 * i.val) → Runs (.stpDb a v) s (fun t =>
      t.fld .STP_STATUS Fld.STP_STATUS_BAD_WR = min (2 ^ 32 - 1) (s.fld .STP_STATUS Fld.STP_STATUS_BAD_WR + 1) ∧
      onlyRegs [.STP_STATUS] s t)

/-- R377. After an evaluation of the references the quality level of input 7, where QL_OVR does not replace it, is the one that the table
gives for the clockClass that firmware wrote: 6 and 7 QL-PRC (0x2), 135 QL-SSU-A (0x4), 140, 150 and 160 QL-SSU-B (0x8), 165 and 248 QL-SEC
(0xB), 255 and all others QL-DNU (0xF). -/
def Obligations.ClockClassQuality : Prop :=
  ∀ (s : State) (obs : List RefObs) (dco : BitVec 32), s.halted = false → s.fld (.TIM_REF_CFG 7) Fld.TIM_REF_CFG_QL_OVR = 0 →
    let c := s.fld (.TIM_REF_CFG 7) Fld.TIM_REF_CFG_CLOCK_CLASS
    Runs (.referenceEvaluation obs dco) s (fun t => t.fld (.TIM_REF_STATUS 7) Fld.TIM_REF_STATUS_QL =
      (if c = 6 ∨ c = 7 then 0x2 else if c = 135 then 0x4 else if c = 140 ∨ c = 150 ∨ c = 160 then 0x8
       else if c = 165 ∨ c = 248 then 0xB else 0xF))

/-- R419, R421, R422, R424 to R431, R435, R436, R438, R388. Start-up: the two resets with what each keeps, AON power, fuses, the DCO, the
PLL's lock, the outcome of the boot reader, the boot lock and FH_READY, the temperature alarm, and reads of the status port. -/
def Obligations.StartUp : Prop :=
  ∀ s : State,
    Runs .powerOnReset s (fun t =>
      (∀ r : Reg, r.off ≠ (Reg.SYS_READY).off → t.rd r = regReset r.off) ∧
      t.rd .SYS_READY = s.rd .SYS_READY &&& BitVec.ofNat 64 (2 ^ 41 + 2 ^ 43) ∧ (∀ a, t.mem.read a = 0)) ∧
    (∀ v : BitVec 64, Runs (.deviceReset v) s (fun t =>
      (Fld.SYS_CTRL_RESET.get v = 1 → Fld.SYS_CTRL_KEY.get v = 0x5EED →
        t.rd .SYS_READY = s.rd .SYS_READY &&& BitVec.ofNat 64 (2 ^ 3 + 2 ^ 4 + 2 ^ 5 + 2 ^ 41 + 2 ^ 42 + 2 ^ 43) ∧
        t.locked = false ∧ t.sys.booting = some false ∧
        (∀ a, t.mem.read a = if a < ddrBase then 0 else s.mem.read a) ∧
        (∀ r : Reg, aonRegister r.off = true → r.off ≠ (Reg.DBG_STATUS).off → t.rd r = s.rd r) ∧
        (∀ c p, unitOk c p = true → t.unitState c p =
          (if s.unitState c p = 6 then 6 else if s.domFailed (domainOfUnit c p) then 2 else 0))) ∧
      ((Fld.SYS_CTRL_RESET.get v = 0 ∨ Fld.SYS_CTRL_KEY.get v ≠ 0x5EED) →
        Fld.SYS_CTRL_BOOT_LOCK.get v = 0 → Fld.SYS_CTRL_FH_READY.get v = 0 → t = s))) ∧
    Runs .aonPowerGood s (fun t => t.rd .SYS_READY = s.rd .SYS_READY ||| BitVec.ofNat 64 (2 ^ 41 + 2 ^ 43) ∧
      regsKept [.SYS_READY, .HST_PBA, .HST_STATS] s t ∧ memKept s t) ∧
    Runs .aonPowerLoss s (fun t => t.rd .SYS_READY = s.rd .SYS_READY &&& ~~~BitVec.ofNat 64 (2 ^ 41 + 2 ^ 43) ∧
      regsKept [.SYS_READY, .HST_PBA, .HST_STATS] s t ∧ memKept s t) ∧
    Runs .pwronNRelease s (fun t => t.sys.fuses = true ∧ { t with sys := s.sys } = s) ∧
    Runs .dcoFreerunStart s (fun t =>
      (s.sys.fuses = false ∨ s.bit .SYS_READY 3 = true → t = s) ∧
      (s.sys.fuses = true → s.bit .SYS_READY 3 = false →
        t.bit .SYS_READY 3 = true ∧ t.fld .TIM_STATUS Fld.TIM_STATUS_STATE = 0 ∧
        regsKept [.SYS_READY, .TIM_STATUS, .HST_PBA, .HST_STATS] s t)) ∧
    Runs .systemPllLock s (fun t =>
      (s.bit .SYS_READY 3 = false ∨ s.bit .SYS_READY 5 = true → t = s) ∧
      (s.bit .SYS_READY 3 = true → s.bit .SYS_READY 5 = false →
        t.bit .SYS_READY 5 = true ∧ t.bit .SYS_READY 42 = true ∧ (∀ g, g < 64 → g ∈ t.ecc.initDue) ∧ t.sys.booting = some false)) ∧
    (∀ temp : BitVec 16, Runs (.thermCrossing temp) s (fun t =>
      let limit : Int := 8 * (s.fld .SYS_THERM Fld.SYS_THERM_LIMIT : Nat)
      t.fld .SYS_THERM Fld.SYS_THERM_TEMP = temp.toNat ∧ onlyRegs [.SYS_THERM, .SYS_ALARM] s t ∧
      t.fld .SYS_ALARM Fld.SYS_ALARM_THERM =
        (if limit ≤ temp.toInt then 1 else if temp.toInt < limit - 40 then 0 else s.fld .SYS_ALARM Fld.SYS_ALARM_THERM))) ∧
    (∀ a : BitVec 16, Runs (.statusPortRead a) s (fun t =>
      (s.bit .SYS_READY 41 = false → t = s) ∧
      (s.bit .SYS_READY 41 = true →
        { t with out := s.out, sys := s.sys } = s ∧
        (a = 0 → t.out = s.out ++ [.statusPort ((s.rd .SYS_READY).toNat % 2 ^ 32)] ∧
          t.sys.spLatch = some ((s.rd .SYS_READY).toNat / 2 ^ 32)) ∧
        (a = 2 → t.out = s.out ++ [.statusPort (s.sys.spLatch.getD ((s.rd .SYS_READY).toNat / 2 ^ 32))] ∧ t.sys.spLatch = none) ∧
        (a ≠ 0 → a ≠ 2 → t.out = s.out ++ [.statusPort (SMap.get zeroNat s.sys.spCopy a.toNat)] ∧ t.sys = s.sys)))) ∧
    (s.halted = false →
      Runs .bootLock s (fun t => t.locked = true ∧ memKept s t ∧ (s.locked = true → t = s) ∧
        (s.locked = false → t.bit .SYS_READY 40 = true ∧ (s.groupFailed 0 = false → t.bit .SYS_READY 1 = true))) ∧
      Runs .fhReady s (fun t => t.bit .SYS_READY 39 = true ∧ t.fld .SYS_CTRL Fld.SYS_CTRL_FH_READY = 1 ∧ memKept s t ∧
        regsKept [.SYS_CTRL, .SYS_READY, .HST_PBA, .HST_STATS] s t) ∧
      (let refused (t : State) (code sec fromHost : Nat) : Prop :=
         t.fld .SYS_BOOT_STATUS Fld.SYS_BOOT_STATUS_CODE = code ∧ t.fld .SYS_BOOT_STATUS Fld.SYS_BOOT_STATUS_SECTION = sec ∧
         t.fld .SYS_BOOT_STATUS Fld.SYS_BOOT_STATUS_BARE = 1 ∧
         t.fld .SYS_BOOT_STATUS Fld.SYS_BOOT_STATUS_FROM_HOST = fromHost ∧ t.sys.booting = none ∧ memKept s t
       (∀ image : List (BitVec 8), Runs (.bootReadComplete image) s (fun t =>
         (s.sys.booting = none → t = s) ∧
         (s.sys.booting = some false → s.bootCanFinish image = false → t = s) ∧
         (s.sys.booting = some false → s.bootCanFinish image = true →
           (∀ e, bootMagic image = some e → refused t 0x03 0 0) ∧
           (bootMagic image = none → bootHeader image = none → bootCrc image = none → bootAuth image = none →
             s.bootDest image = none → bootClaimCheck image = none → s.bootAlmanac image = none →
             t.bit .SYS_READY 2 = true ∧ t.fld .SYS_BOOT_STATUS Fld.SYS_BOOT_STATUS_BARE = 0 ∧
             t.fld .SYS_BOOT_STATUS Fld.SYS_BOOT_STATUS_CODE = 0 ∧ t.sys.pinMap = true ∧ t.sys.booting = none ∧
             t.sys.claims = bootClaims image ∧ ∀ c, c < 8 → t.core (128 + c) = Core.reset)))) ∧
       Runs .noFlash s (fun t => (s.sys.booting ≠ some false → t = s) ∧ (s.sys.booting = some false → refused t 0x01 0 0)) ∧
       (∀ n : Fin 32, Runs (.flashError n) s (fun t =>
         (s.sys.booting ≠ some false → t = s) ∧ (s.sys.booting = some false → refused t 0x02 n 0))) ∧
       Runs .sysBootGo s (fun t =>
         (s.fld .SYS_BOOT_STATUS Fld.SYS_BOOT_STATUS_BARE = 0 ∨ s.sys.booting ≠ none → t = s) ∧
         (s.fld .SYS_BOOT_STATUS Fld.SYS_BOOT_STATUS_BARE = 1 → s.sys.booting = none → s.hostImage.1 = none → refused t 0x02 0 1))))

/-- R302, R419, R433, R434, R485, R284. The PCI Express endpoint: its reset and readiness, the link, configuration requests, host reads that
complete or time out, and the BARs: a BAR0 write of a plain register reaches it alone, after every BAR2 write that is still on its way; two
ports that write one register in one cycle leave the higher port's value and latch SYS_COLLIDE, and a read of that cycle sees the old one. -/
def Obligations.HostInterface : Prop :=
  ∀ s : State,
    Runs .pcieReset s (fun t => memKept s t ∧
      t.fld .HST_STATUS Fld.HST_STATUS_RESETS = min (2 ^ 32 - 1) (s.fld .HST_STATUS Fld.HST_STATUS_RESETS + 1) ∧
      t.linkUp = false ∧ t.bit .SYS_READY 0 = false ∧ t.rd .HST_PBA = 0 ∧ t.sys.hostReads = [] ∧ t.sys.pcieCfg = [] ∧
      ∀ i, i < 64 → t.rd (.HST_MSIX_CTRL i) = regReset (Reg.off (.HST_MSIX_CTRL i))) ∧
    (s.halted = false →
      Runs .pcieReady s (fun t =>
        (s.sys.fuses = false → t = s) ∧
        (s.sys.fuses = true → t.bit .SYS_READY 0 = true ∧ t.sys.pcieInReset = false ∧ memKept s t ∧
          regsKept [.SYS_READY, .HST_PBA, .HST_STATS] s t)) ∧
      (∀ (up : Bool) (speed : BitVec 3) (width : BitVec 4), Runs (.pcieLinkChange up speed width) s (fun t => memKept s t ∧
        (s.sys.fuses = false → t = s) ∧
        (s.sys.fuses = true → t.linkUp = up ∧
          t.fld .HST_STATUS Fld.HST_STATUS_SPEED = (if up then speed.toNat else 0) ∧
          t.fld .HST_STATUS Fld.HST_STATUS_WIDTH = (if up then width.toNat else 0) ∧
          (s.linkUp ≠ up → t.fld .HST_STATUS Fld.HST_STATUS_CHANGE = 1) ∧
          (up = false → t.sys.hostReads = [])))) ∧
      (∀ (write : Bool) (offset : BitVec 12) (v : BitVec 32),
        let o := offset.toNat / 4 * 4
        Runs (.configurationRequest write offset v) s (fun t =>
          (s.linkUp = false → t = s) ∧
          (s.linkUp = true → s.bit .SYS_READY 0 = false → t.out = s.out ++ [.hostRetry] ∧ { t with out := s.out } = s) ∧
          (s.linkUp = true → s.bit .SYS_READY 0 = true →
            (write = false →
              t.out = s.out ++ [.hostCompletion true [s.cfgByte o, s.cfgByte (o + 1), s.cfgByte (o + 2), s.cfgByte (o + 3)]] ∧
              { t with out := s.out } = s) ∧
            (write = true → t.out = s.out ++ [.hostCompletion true []] ∧ { t with out := s.out, sys := s.sys } = s ∧
              (∀ b, b < o ∨ o + 4 ≤ b → t.cfgByte b = s.cfgByte b) ∧
              ∀ i, i < 4 →
                (cfgFixed (o + i) = none → t.cfgByte (o + i) = BitVec.ofNat 8 (v.toNat / 256 ^ i)) ∧
                ∀ f m, cfgFixed (o + i) = some (f, m) →
                  t.cfgByte (o + i) = (s.cfgByte (o + i) &&& ~~~m) ||| (BitVec.ofNat 8 (v.toNat / 256 ^ i) &&& m))))) ∧
      (∀ n : Fin 256,
        let answer (t : State) (p : Packet) (status : BitVec 3) (data : List Byte) : Prop :=
          t.sys.hostReads = s.sys.hostReads.eraseIdx n ∧
          ((s.rtEntry p.dst.toNat p.src.toNat).toNat.testBit 63 = true → s.isolated p.dst.toNat = false →
            ∃ w : Worm, t.noc.flight = s.noc.flight ++ [w] ∧ w.pkt.type = 3 ∧ w.pkt.dst = p.src ∧ w.pkt.tag = p.tag ∧
              w.pkt.status = status ∧ w.pkt.data = data)
        (∀ (status : Fin 4) (data : List (BitVec 8)), Runs (.pcieReadCompletion n status data) s (fun t => memKept s t ∧
          (s.sys.hostReads[n.val]? = none → t = s) ∧
          ∀ p, s.sys.hostReads[n.val]? = some p → p.type = 0 →
            (status = 0 → answer t p 0 (bytesAt data 0 (p.len.toNat + 1))) ∧
            (status ≠ 0 → answer t p (if status = 1 then 2 else if status = 2 then 4 else 3) [] ∧
              t.fld .HST_STATS Fld.HST_STATS_RD_FAIL = min (2 ^ 32 - 1) (s.fld .HST_STATS Fld.HST_STATS_RD_FAIL + 1)))) ∧
        Runs (.completionTimeout n) s (fun t => memKept s t ∧
          (s.sys.hostReads[n.val]? = none → t = s) ∧
          ∀ p, s.sys.hostReads[n.val]? = some p → p.type = 0 → answer t p 1 [] ∧
            t.fld .HST_STATS Fld.HST_STATS_RD_FAIL = min (2 ^ 32 - 1) (s.fld .HST_STATS Fld.HST_STATS_RD_FAIL + 1))) ∧
      (∀ (o : BitVec 37) (data : List (BitVec 8)), s.barServed = true → s.hostWriteHeld = true →
        Runs (.hostBarWrite false o data) s (fun t =>
          t = { s with sys := { s.sys with barHeld := s.sys.barHeld ++ [(o.toNat, data)] } })) ∧
      (s.hostWriteHeld = false → s.sys.barHeld = [] →
        (∀ (i : Fin 256) (v : BitVec 64),
          let off := Reg.off (.STP_FW i)
          Runs (.hostBarWrite false (BitVec.ofNat 37 off) (leBytes 8 v.toNat)) s (fun t =>
            (s.barServed = false → t = s) ∧
            (s.barServed = true → t.fld (.STP_FW i) Fld.STP_FW_DATA = v.toNat % 2 ^ 32 ∧ onlyRegs [.STP_FW i] s t)) ∧
          Runs (.hostBarRead false (BitVec.ofNat 37 off) 8) s (fun t =>
            (s.barServed = false → t = s) ∧
            (s.barServed = true → t.out = s.out ++ [.hostCompletion true (leBytes 8 (s.rd (.STP_FW i)).toNat)] ∧
              { t with out := s.out } = s)) ∧
          ∀ (p q : Fin 5) (w : BitVec 64), p < q →
            let ws : List RegWrite := [⟨p, BitVec.ofNat 48 (regBase + off), leBytes 8 v.toNat⟩,
              ⟨q, BitVec.ofNat 48 (regBase + off), leBytes 8 w.toNat⟩]
            Runs (.registerWrite ws [BitVec.ofNat 48 (regBase + off)]) s (fun t =>
              t.out = s.out ++ [.registerRead (regBase + off) (s.rd (.STP_FW i)).toNat] ∧
              t.fld (.STP_FW i) Fld.STP_FW_DATA = w.toNat % 2 ^ 32) ∧
            Runs (.registerWrite ws []) s (fun t =>
              t.fld (.STP_FW i) Fld.STP_FW_DATA = w.toNat % 2 ^ 32 ∧ t.fld .SYS_COLLIDE Fld.SYS_COLLIDE_VALID = 1 ∧
              t.fld .SYS_COLLIDE Fld.SYS_COLLIDE_PORTS = 2 ^ p.val + 2 ^ q.val ∧
              t.fld .SYS_COLLIDE Fld.SYS_COLLIDE_ADDR = regBase + off ∧ onlyRegs [.STP_FW i, .SYS_COLLIDE] s t)) ∧
        (∀ (o : BitVec 37) (data : List (BitVec 8)) (len : BitVec 13), s.barServed = true →
          (bar2Addr o.toNat = none →
            Runs (.hostBarWrite true o data) s (fun t => t = s) ∧
            Runs (.hostBarRead true o len) s (fun t =>
              t.out = s.out ++ [.hostCompletion true (List.replicate len.toNat 0)] ∧ { t with out := s.out } = s)) ∧
          ∀ a, bar2Addr o.toNat = some a →
            ((s.agentPost 77 a data).1.errs = [] →
              Runs (.hostBarWrite true o data) s (fun t => t.mem = (s.agentPost 77 a data).2.mem)) ∧
            (let r := s.trying.agentRead 77 a len.toNat
             r.1.errs = [] → s.unhindered (fun u => u.barRead true o.toNat len.toNat) →
              Runs (.hostBarRead true o len) s (fun t => memKept s t ∧
                t.out = r.2.out ++ [.hostCompletion (r.1.status == stOk) r.1.data])))))

/-! ### Crook port and maintenance UART -/

/-- R459 to R463. The Crook port: instructions and their data registers, the nonce and the authorisation with its lockout, Test-Logic-Reset,
and accesses: an access to nothing answers DECODE, one of memory while Yalis runs NOT_HALTED, one without an attached debugger LOCKED;
Shepherd memory and a plain register are read and written whole. -/
def Obligations.CrookPort : Prop :=
  ∀ s : State,
    (s.bit .SYS_READY 43 = false → ∀ c ∈ [Instr.testLogicReset, .sample, .idcode, .bypass, .nonce], Runs c s (fun t => t = s)) ∧
    (s.bit .SYS_READY 43 = true →
      Runs .idcode s (fun t => t = { s with dbg := { s.dbg with ir := 2 }, out := s.out ++ [.tdo ((List.range 32).map idcodeWord.testBit)] }) ∧
      Runs .bypass s (fun t => t = { s with dbg := { s.dbg with ir := 0xFF }, out := s.out ++ [.tdo [false]] }) ∧
      Runs .sample s (fun t => ∃ b : List Bool, b.length = Config.boundaryCells ∧
        t = { s with dbg := { s.dbg with ir := 1 }, out := s.out ++ [.tdo b], freeCtr := t.freeCtr }) ∧
      Runs .testLogicReset s (fun t => t.dbg.ir = 2 ∧ memKept s t ∧
        (s.attached = false → t = { s with dbg := { s.dbg with ir := 2 } }) ∧
        (s.attached = true → s.halted = false → t.attached = false ∧ t.pwr.emulEnd = true ∧ regsKept [.DBG_ATTACH] s t) ∧
        (s.attached = true → s.halted = true → t.dbg.resume = true ∧ t.dbg.detach = true ∧ t.regs = s.regs)) ∧
      Runs .nonce s (fun t => t.dbg.ir = 0x10 ∧ t.regs = s.regs ∧ memKept s t ∧
        (s.lockedOut = true → t.dbg.nonce = s.dbg.nonce ∧ t.out = s.out ++ [.tdo (List.replicate 256 false)]) ∧
        (s.lockedOut = false → ∃ n : List Byte, n.length = 32 ∧ t.dbg.nonce = some n ∧
          t.out = s.out ++ [.tdo ((List.range 256).map (leNat n).testBit)])) ∧
      (∀ cells : List Bool, Runs (.extest cells) s (fun t => t.dbg.ir = 0 ∧ t.regs = s.regs ∧ memKept s t ∧
        (s.attached = true → t.dbg.cells = cells.take Config.boundaryCells ∧ t.out = s.out) ∧
        (s.attached = false → t.dbg.cells = s.dbg.cells ∧ t.out = s.out ++ [.tdo [false]]))) ∧
      (∀ mac : BitVec 256,
        let good := Config.fuseDebugKey != 0 && match s.dbg.nonce with
          | some n => hmacGood n (leBytes 32 mac.toNat)
          | none => false
        let fails := min 255 (s.fld .DBG_AUTH_STAT Fld.DBG_AUTH_STAT_FAILS + 1)
        Runs (.auth mac) s (fun t => t.dbg.ir = 0x11 ∧ memKept s t ∧
          (s.lockedOut = true → t.regs = s.regs ∧ t.dbg.nonce = s.dbg.nonce) ∧
          (s.lockedOut = false → t.dbg.nonce = none ∧
            (good = true → t.attached = true ∧ t.fld .DBG_AUTH_STAT Fld.DBG_AUTH_STAT_FAILS = 0 ∧ t.dbg.lockEnd = none) ∧
            (good = false → t.attached = s.attached ∧ t.fld .DBG_AUTH_STAT Fld.DBG_AUTH_STAT_FAILS = fails ∧
              (fails < 3 → t.dbg.lockEnd = s.dbg.lockEnd) ∧
              (3 ≤ fails → t.dbg.lockEnd = some (s.now + BitVec.ofNat 64 (unitsPerSecond * min 65536 (2 ^ (fails - 3)))) ∧
                bitsOf (t.rd (.FLT_REC (s.fld .FLT_STATUS Fld.FLT_STATUS_WR_IDX) 0)).toNat 56 8 = 0x60))))) ∧
      (∀ (write : Bool) (addr : BitVec 48) (data : BitVec 64),
        let shown (st : Nat) : OutMsg := .tdo ((List.range 116).map
          (2 ^ 52 * s.dbg.result.1.toNat + addr.toNat * 16 + (if write then 8 else 0) + st).testBit)
        Runs (.access write addr data) s (fun t => t.dbg.ir = 0x12 ∧ t.regs = s.regs ∧ memKept s t ∧
          (s.attached = false → t.out = s.out ++ [.tdo [false]] ∧ t.dbg.access = s.dbg.access) ∧
          (s.attached = true → s.dbg.access.isSome = true → t.out = s.out ++ [shown crookBusy] ∧ t.dbg.access = s.dbg.access) ∧
          (s.attached = true → s.dbg.access = none →
            t.out = s.out ++ [shown s.dbg.result.2] ∧ t.dbg.access = some ⟨addr.toNat, write, data⟩)))) ∧
    Runs .lockoutEnd s (fun t => (s.quiet → t.regs = s.regs) ∧ memKept s t ∧
      (s.dbg.lockEnd = none → t = s) ∧
      ∀ e, s.dbg.lockEnd = some e → (s.reachTime e = none → t = s) ∧ ((s.reachTime e).isSome = true → t.dbg.lockEnd = none)) ∧
    Runs .accessComplete s (fun t =>
      (s.dbg.access = none → t = s) ∧
      ∀ c, s.dbg.access = some c →
        let a := 8 * (c.addr / 8)
        (s.attached = false → t = { s with dbg := { s.dbg with access := none, result := (0, crookLocked) } }) ∧
        (s.attached = true →
          (s.place a = .none → t = { s with dbg := { s.dbg with access := none, result := (0, crookDecode) } }) ∧
          (a < 0x200000 → s.halted = false → t = { s with dbg := { s.dbg with access := none, result := (0, crookNotHalted) } }) ∧
          (a < 0x200000 → s.halted = true → s.ecc.flips = [] → s.fld .MEM_INJECT Fld.MEM_INJECT_ARM = 0 →
            t.dbg.access = none ∧
            (c.write = false → t.dbg.result = (BitVec.ofNat 64 (s.mem.readLE a 8), crookOk) ∧ memKept s t) ∧
            (c.write = true → t.dbg.result = (0, crookOk) ∧ t.mem = s.mem.writeBytes a (leBytes 8 c.data.toNat))) ∧
          (∀ i : Fin 256, a = regBase + Reg.off (.STP_FW i) →
            t.dbg.access = none ∧ memKept s t ∧
            (c.write = false → t.dbg.result = (s.rd (.STP_FW i), crookOk) ∧ t.regs = s.regs) ∧
            (c.write = true → t.dbg.result = (0, crookOk) ∧ t.fld (.STP_FW i) Fld.STP_FW_DATA = c.data.toNat % 2 ^ 32 ∧
              regsKept [.STP_FW i] s t))))

/-- R464, R465, R467, R470. Halt and restart: HALT stops the clocks at the next core cycle that 4 divides and is counted; RESUME waits for the
edge, where every release is dropped, PCI Express resets and, with an almanac running, restart tick R is fixed at a cycle boundary;
ALMANAC_RESTART ends that wait; DETACH; the end of sleep emulation. -/
def Obligations.HaltAndRestart : Prop :=
  (∀ k pos, restartFrame k pos % max 1 k = 0 ∧ (restartFrame k pos ≠ 0 → pos + 2 ≤ 1120 * restartFrame k pos)) ∧
  ∀ s : State,
    Runs .halt s (fun t =>
      (s.attached = false ∨ s.halted = true → t = s) ∧
      (s.attached = true → s.halted = false →
        t.halted = true ∧ t.tm = { s.tm with cycle := min 14000 ((s.tm.cycle / 4 + 1) * 4) } ∧
        t.fld .DBG_STATUS Fld.DBG_STATUS_HALTS = min 65535 (s.fld .DBG_STATUS Fld.DBG_STATUS_HALTS + 1) ∧
        regsKept [.DBG_STATUS] s t ∧ { t with regs := s.regs, tm := s.tm } = s)) ∧
    Runs .resume s (fun t =>
      (s.attached = false ∨ s.halted = false → t = s) ∧
      (s.attached = true → s.halted = true →
        t = { s with dbg := { s.dbg with resume := true }, tm := { s.tm with cycle := min 14000 (s.tm.cycle + 1) } })) ∧
    Runs .detach s (fun t =>
      (s.attached = false → t = s) ∧
      (s.attached = true → s.halted = false → t.attached = false ∧ t.pwr.emulEnd = true ∧ regsKept [.DBG_ATTACH] s t ∧ memKept s t) ∧
      (s.attached = true → s.halted = true → t.dbg.resume = true ∧ t.dbg.detach = true ∧ t.regs = s.regs ∧ memKept s t)) ∧
    Runs .resumeRestart s (fun t =>
      (s.halted = false ∨ s.dbg.resume = false → t = s) ∧
      (s.halted = true → s.dbg.resume = true →
        t.halted = false ∧ t.dbg.resume = false ∧ t.drv.rels = [] ∧ t.linkUp = false ∧
        (s.bit .SYS_READY 6 = true → t.fld .DBG_STATUS Fld.DBG_STATUS_RESTART_PENDING = 1 ∧
          t.dbg.restart = some (posOf (restartFrame s.activeK (State.edgePos
            { s with tm := { s.tm with cycle := if s.tm.cycle = 0 then 0 else 14000 } })) 0)))) ∧
    (s.halted = false → s.tm.cycle = 0 →
      Runs .almanacRestart s (fun t =>
        (s.dbg.restart ≠ some s.edgePos → t = s) ∧
        (s.dbg.restart = some s.edgePos → t.dbg.restart = none ∧ t.fld .DBG_STATUS Fld.DBG_STATUS_RESTART_PENDING = 0)) ∧
      Runs .sleepEmulationEnd s (fun t => memKept s t ∧
        (s.pwr.emulEnd = false → t = s) ∧
        (s.pwr.emulEnd = true → t.pwr.emulEnd = false ∧ ∀ d, d < 69 →
          t.fld (.PWR_DOM d) Fld.PWR_DOM_EMULATED = 0 ∧
          (s.fld (.PWR_DOM d) Fld.PWR_DOM_EMULATED = 1 → t.fld (.PWR_DOM d) Fld.PWR_DOM_STATE = 1))))

/-- R468, R469, R471. The maintenance UART: a character written goes into the shifter, the queue of 64, or is lost; the queue drains in
order, with even parity where it is on, and a waiting UART_CFG, which reads as it was written, then takes effect; received characters queue with their error bits, or
overrun; UART_RX removes the oldest; a divisor below the lowest is ignored. -/
def Obligations.MaintenanceUart : Prop :=
  ∀ s : State, s.halted = false →
    (∀ v : BitVec 64,
      Runs (.uartTx v) s (fun t =>
        (s.uartOn = false → t = s) ∧
        (s.uartOn = true → s.uartIdle = true → t = { s with uart := { s.uart with shift := some (v.toNat % 256) } }) ∧
        (s.uartOn = true → s.uartIdle = false → s.uart.tx.length < 64 →
          t = { s with uart := { s.uart with tx := s.uart.tx ++ [v.toNat % 256] } }) ∧
        (s.uartOn = true → s.uartIdle = false → 64 ≤ s.uart.tx.length →
          t.fld .UART_STATUS Fld.UART_STATUS_TX_LOST = 1 ∧ onlyRegs [.UART_STATUS] s t)) ∧
      Runs (.uartCfg v) s (fun t =>
        let low := Fld.UART_CFG_DIV.get v * 256 + Fld.UART_CFG_FRAC.get v < 32 * 256 + 171
        (low → t = s) ∧
        (¬ low → t.uart = (if s.uartIdle then s.uart else { s.uart with cfg := some s.uartCfgNow }) ∧
          { t with regs := s.regs, uart := s.uart } = s ∧ regsKept [.UART_CFG] s t ∧ t.fld .UART_CFG Fld.UART_CFG_DIV = Fld.UART_CFG_DIV.get v ∧
          t.fld .UART_CFG Fld.UART_CFG_PARITY = Fld.UART_CFG_PARITY.get v ∧ t.fld .UART_CFG Fld.UART_CFG_EN = Fld.UART_CFG_EN.get v))) ∧
    Runs .uartTxEmpty s (fun t =>
      (s.uartIdle = true → t = s) ∧
      (s.uartIdle = false → t.uart.tx = [] ∧ t.uart.shift = none ∧ t.uart.cfg = none ∧ t.uart.rx = s.uart.rx ∧ memKept s t ∧
        t.rd .UART_CFG = s.rd .UART_CFG ∧
        (s.fld .UART_IRQ Fld.UART_IRQ_TX_EN = 0 →
          t.out = s.out ++ (s.uart.shift.toList ++ s.uart.tx).map
            (fun c => .uart c (if s.uartParity then some (evenParity c) else none)) ∧ t.regs = s.regs))) ∧
    (∀ (data : BitVec 8) (parity stop : Bool), Runs (.uartRxCharacter data parity stop) s (fun t =>
      (s.uartOn = false → t = s) ∧
      (s.uartOn = true → memKept s t ∧
        (64 ≤ s.uart.rx.length → t.uart = s.uart ∧ t.fld .UART_STATUS Fld.UART_STATUS_OVERRUN = 1) ∧
        (s.uart.rx.length < 64 → ∃ e, t.uart = { s.uart with rx := s.uart.rx ++ [e] } ∧ e % 256 = data.toNat ∧ e < 2 ^ 11 ∧
          e.testBit 8 = (s.uartParity && parity != evenParity data.toNat) ∧ e.testBit 9 = !stop ∧
          e.testBit 10 = (data == 0 && !stop && (!s.uartParity || !parity)))))) ∧
    Runs .uartRx s (fun t =>
      (s.uart.rx = [] → t = s ∧ (s.regRead .UART_RX).1 = 0) ∧
      ∀ e es, s.uart.rx = e :: es → t = { s with uart := { s.uart with rx := es } } ∧
        (s.regRead .UART_RX).1 = BitVec.ofNat 64 (2 ^ 11 + e))

/-! ### Serial lanes -/

/-- R357 to R365, R368 to R370, R372. Quads and lanes: a rate that is reserved or held off is ignored, a changed one takes the quad down; the
PLL's lock, readiness, failure and loss; signal and lock of a receiver, its adaptation and its figure of merit with FOM_LOW; loopbacks;
transmit taps within their limit or rejected; the pattern checker's lock and counts. -/
def Obligations.SerialLanes : Prop :=
  ∀ s : State, s.halted = false →
    (∀ q : Fin 16,
      let kept (t : State) : Prop := memKept s t ∧ regsKept [.SDS_QUAD_CFG q, .SDS_QUAD_STATUS q, .SYS_READY, .HST_PBA, .HST_STATS] s t
      let down (t : State) : Prop := t.quadIs q Fld.SDS_QUAD_STATUS_READY = false ∧ t.quadIs q Fld.SDS_QUAD_STATUS_LOCK = false ∧
        t.bit .SYS_READY (44 + q) = false
      (∀ v : BitVec 64,
        let rate := Fld.SDS_QUAD_CFG_RATE.get v
        Runs (.sdsQuadCfg q v) s (fun t => kept t ∧
          (5 ≤ rate ∨ s.rateHeld q = true → t = s) ∧
          (rate < 5 → s.rateHeld q = false → t.quadRate q = rate ∧
            (rate ≠ s.quadRate q → down t ∧ t.quadIs q Fld.SDS_QUAD_STATUS_FAILED = false)))) ∧
      Runs (.pllLock q) s (fun t => kept t ∧
        (s.quadRate q = 0 ∨ s.quadPowered q = false → t = s) ∧
        (s.quadRate q ≠ 0 → s.quadPowered q = true → t.quadIs q Fld.SDS_QUAD_STATUS_LOCK = true)) ∧
      (let can := s.quadRate q ≠ 0 ∧ s.quadPowered q = true ∧ s.quadIs q Fld.SDS_QUAD_STATUS_LOCK = true ∧
         s.quadIs q Fld.SDS_QUAD_STATUS_FAILED = false
       Runs (.quadReady q) s (fun t => kept t ∧ (¬ can → t = s) ∧
         (can → t.quadIs q Fld.SDS_QUAD_STATUS_READY = true ∧ t.bit .SYS_READY (44 + q) = true))) ∧
      (let can := s.quadRate q ≠ 0 ∧ s.quadPowered q = true ∧ s.quadIs q Fld.SDS_QUAD_STATUS_LOCK = false ∧
         s.quadIs q Fld.SDS_QUAD_STATUS_FAILED = false
       Runs (.pllNoLock q) s (fun t => memKept s t ∧ (¬ can → t = s) ∧
         (can → t.quadIs q Fld.SDS_QUAD_STATUS_FAILED = true ∧
           bitsOf (t.rd (.FLT_REC (s.fld .FLT_STATUS Fld.FLT_STATUS_WR_IDX) 0)).toNat 56 8 = 0x32 ∧
           ∀ w, (s.dom (25 + q)).wake = some w → 2 ≤ w.from_ → t.domFailed (25 + q) = true))) ∧
      Runs (.pllLossOfLock q) s (fun t => kept t ∧
        (s.quadIs q Fld.SDS_QUAD_STATUS_READY = false → t = s) ∧ (s.quadIs q Fld.SDS_QUAD_STATUS_READY = true → down t))) ∧
    (∀ l : Fin 64,
      let flag (t : State) (f : BitField) (n : Nat) : Prop := t.fld (.SDS_LANE_STATUS l) f = n
      let kept (t : State) : Prop := memKept s t ∧
        regsKept [.SDS_LANE_CFG l, .SDS_LANE_STATUS l, .SDS_LANE_EQ l, .HST_PBA, .HST_STATS] s t
      (∀ present : Bool, Runs (.signalChange l present) s (fun t => kept t ∧
        (s.lpbk l = 2 ∨ s.laneIs l Fld.SDS_LANE_STATUS_SIGNAL = present → t = s) ∧
        (s.lpbk l ≠ 2 → s.laneIs l Fld.SDS_LANE_STATUS_SIGNAL ≠ present →
          (present = true → flag t Fld.SDS_LANE_STATUS_SIGNAL 1 ∧
            (s.quadIs (l / 4) Fld.SDS_QUAD_STATUS_READY = true → flag t Fld.SDS_LANE_STATUS_ADAPTED 0 ∧ l.val ∈ t.sds.adapting)) ∧
          (present = false → flag t Fld.SDS_LANE_STATUS_SIGNAL 0 ∧ flag t Fld.SDS_LANE_STATUS_LOCK 0 ∧
            flag t Fld.SDS_LANE_STATUS_ADAPTED 0 ∧ l.val ∉ t.sds.adapting)))) ∧
      (∀ tracking : Bool, Runs (.cdrLockChange l tracking) s (fun t => kept t ∧
        (s.lpbk l = 2 → t = s) ∧
        (s.lpbk l ≠ 2 →
          (tracking = true → s.laneIs l Fld.SDS_LANE_STATUS_SIGNAL = true → flag t Fld.SDS_LANE_STATUS_LOCK 1) ∧
          (tracking = true → s.laneIs l Fld.SDS_LANE_STATUS_SIGNAL = false → t = s) ∧
          (tracking = false → flag t Fld.SDS_LANE_STATUS_LOCK 0 ∧ flag t Fld.SDS_LANE_STATUS_ADAPTED 0)))) ∧
      (∀ (ctle : BitVec 4) (taps : BitVec 51) (h : Fin 65) (v : Fin 129),
        (let can := l.val ∈ s.sds.adapting ∧ s.laneIs l Fld.SDS_LANE_STATUS_SIGNAL = true ∧
           s.laneIs l Fld.SDS_LANE_STATUS_LOCK = true ∧ s.quadIs (l / 4) Fld.SDS_QUAD_STATUS_READY = true
         Runs (.adaptationComplete l ctle taps h v) s (fun t => kept t ∧ (¬ can → t = s) ∧
           (can → flag t Fld.SDS_LANE_STATUS_ADAPTED 1 ∧ l.val ∉ t.sds.adapting ∧
             t.fld (.SDS_LANE_EQ l) Fld.SDS_LANE_EQ_FOM = h.val * v.val * 255 / 8192 ∧
             t.fld (.SDS_LANE_EQ l) Fld.SDS_LANE_EQ_CTLE =
               (if s.fld (.SDS_LANE_CFG l) Fld.SDS_LANE_CFG_CTLE_MAN = 1 then s.fld (.SDS_LANE_CFG l) Fld.SDS_LANE_CFG_CTLE_FIX
                else ctle.toNat)))) ∧
        (let can := s.laneIs l Fld.SDS_LANE_STATUS_ADAPTED = true ∧ s.lpbk l ≠ 2
         let least := s.fld (.SDS_LANE_CFG l) Fld.SDS_LANE_CFG_FOM_MIN
         let fom := h.val * v.val * 255 / 8192
         Runs (.fomMeasurement l taps h v) s (fun t => kept t ∧ (¬ can → t = s) ∧
           (can → t.fld (.SDS_LANE_EQ l) Fld.SDS_LANE_EQ_FOM = fom ∧
             t.fld (.SDS_LANE_EQ l) Fld.SDS_LANE_EQ_CTLE = s.fld (.SDS_LANE_EQ l) Fld.SDS_LANE_EQ_CTLE ∧
             (least ≠ 0 → fom < least → 2 ≤ SMap.get zeroNat s.sds.low l → flag t Fld.SDS_LANE_STATUS_FOM_LOW 1) ∧
             (least ≠ 0 → least ≤ fom → 2 ≤ SMap.get zeroNat s.sds.high l → flag t Fld.SDS_LANE_STATUS_FOM_LOW 0))))) ∧
      ∀ v : BitVec 64,
        (∀ c ∈ [Instr.readapt l v, .lpbk l v], Runs c s (fun t => kept t ∧
          let new := Fld.SDS_LANE_CFG_LPBK.get v
          t.lpbk l = new ∧
          (new = 2 → s.lpbk l ≠ 2 → flag t Fld.SDS_LANE_STATUS_SIGNAL 1 ∧ flag t Fld.SDS_LANE_STATUS_LOCK 1 ∧
            flag t Fld.SDS_LANE_STATUS_ADAPTED 1 ∧ t.fld (.SDS_LANE_EQ l) Fld.SDS_LANE_EQ_FOM = 0 ∧ l.val ∉ t.sds.adapting) ∧
          (new ≠ 2 → s.lpbk l = 2 → flag t Fld.SDS_LANE_STATUS_SIGNAL 0 ∧ flag t Fld.SDS_LANE_STATUS_LOCK 0 ∧
            flag t Fld.SDS_LANE_STATUS_ADAPTED 0 ∧ l.val ∈ t.sds.adapting) ∧
          (new ≠ 2 → s.lpbk l ≠ 2 → new ≠ s.lpbk l ∨ Fld.SDS_LANE_CFG_READAPT.get v = 1 →
            flag t Fld.SDS_LANE_STATUS_ADAPTED 0 ∧ l.val ∈ t.sds.adapting) ∧
          (new = s.lpbk l → Fld.SDS_LANE_CFG_READAPT.get v = 0 → onlyRegs [.SDS_LANE_CFG l] s t))) ∧
        Runs (.sdsLaneFfe l v) s (fun t =>
          (ffeOk v = true → t.fld (.SDS_LANE_FFE l) Fld.SDS_LANE_FFE_MAIN = Fld.SDS_LANE_FFE_MAIN.get v ∧
            t.fld (.SDS_LANE_FFE l) Fld.SDS_LANE_FFE_POST1 = Fld.SDS_LANE_FFE_POST1.get v ∧ onlyRegs [.SDS_LANE_FFE l] s t) ∧
          (ffeOk v = false → flag t Fld.SDS_LANE_STATUS_FFE_REJECT 1 ∧ onlyRegs [.SDS_LANE_STATUS l] s t)) ∧
        (∀ c ∈ [Instr.errInj l v, .chkEn l v], Runs c s (fun t => memKept s t ∧ regsKept [.SDS_LANE_PRBS l, .SDS_LANE_PRBS_CNT l] s t ∧
          t.fld (.SDS_LANE_PRBS l) Fld.SDS_LANE_PRBS_CHK_EN = Fld.SDS_LANE_PRBS_CHK_EN.get v ∧
          (s.fld (.SDS_LANE_PRBS l) Fld.SDS_LANE_PRBS_CHK_EN = 0 → Fld.SDS_LANE_PRBS_CHK_EN.get v = 1 →
            t.rd (.SDS_LANE_PRBS_CNT l) = 0 ∧ t.fld (.SDS_LANE_PRBS l) Fld.SDS_LANE_PRBS_CHK_LOCK = 0) ∧
          t.out = s.out ++ (if Fld.SDS_LANE_PRBS_ERR_INJ.get v = 1 ∧ Fld.SDS_LANE_PRBS_GEN_EN.get v = 1 then [.prbsError l] else [])))) ∧
    (∀ (l : Fin 64) (lock : Bool) (m : BitVec 32), Runs (.prbsCheckerLock l lock m) s (fun t =>
      let was := s.fld (.SDS_LANE_PRBS l) Fld.SDS_LANE_PRBS_CHK_LOCK
      let errors := s.fld (.SDS_LANE_PRBS_CNT l) Fld.SDS_LANE_PRBS_CNT_ERRORS
      onlyRegs [.SDS_LANE_PRBS l, .SDS_LANE_PRBS_CNT l] s t ∧
      (s.fld (.SDS_LANE_PRBS l) Fld.SDS_LANE_PRBS_CHK_EN = 0 → t = s) ∧
      (s.fld (.SDS_LANE_PRBS l) Fld.SDS_LANE_PRBS_CHK_EN = 1 →
        t.fld (.SDS_LANE_PRBS l) Fld.SDS_LANE_PRBS_CHK_LOCK = (if lock then 1 else 0) ∧
        (was = 0 → t.rd (.SDS_LANE_PRBS_CNT l) = s.rd (.SDS_LANE_PRBS_CNT l)) ∧
        (was = 1 → lock = true → t.fld (.SDS_LANE_PRBS_CNT l) Fld.SDS_LANE_PRBS_CNT_ERRORS = min (2 ^ 48 - 1) (errors + m.toNat)) ∧
        (was = 1 → lock = false →
          t.fld (.SDS_LANE_PRBS_CNT l) Fld.SDS_LANE_PRBS_CNT_ERRORS = min (2 ^ 48 - 1) (errors + max 32 m.toNat) ∧
          t.fld (.SDS_LANE_PRBS_CNT l) Fld.SDS_LANE_PRBS_CNT_LOSSES =
            min 65535 (s.fld (.SDS_LANE_PRBS_CNT l) Fld.SDS_LANE_PRBS_CNT_LOSSES + 1))))) ∧
    Runs .sdsStatClr s (fun t => (∀ l, l < 64 → t.rd (.SDS_LANE_PRBS_CNT l) = 0) ∧
      onlyRegs ((List.range 64).map .SDS_LANE_PRBS_CNT) s t)

/-! ### Drove links -/

/-- R313, R314, R316 to R319. A Drove frame read from the line bits that a sender with the same key makes of its frame bits, with no more
stuffs than the limit, is that frame: number, KEY_ON, header fields and blocks as sent, its CRC good, no stuff violation, and the BIP16 of
the scrambled bits; and the line has as many bits as the rate's frame has. -/
def Obligations.DroveFrameRoundTrip : Prop :=
  ∀ (rate : Nat) (key : Option Nat) (plain : List Bool), plain.length = 320 + 256 * blocksOf rate →
    let fn := bitsNat (plain.take 31)
    let keyOn := plain.getD 31 false
    let whole := plain ++ msbBits 64 (crc64 plain)
    let sent := scrambleFrame (scrambleSeed fn (if keyOn then key else none)) (whole.drop 32)
    let line := lineBits rate (whole.take 32 ++ sent)
    line.1.length = frameBits rate + fillBits rate ∧
    (line.2 = false → parseFrame rate key line.1 =
      { fn := fn, keyOn := keyOn, fields := bitsNat ((plain.drop 32).take 288), blocks := cutBlocks (blocksOf rate) (plain.drop 320)
        crcOk := true, viol := none, miss := keyOn && key.isNone, bip := bip16 sent })

/-- R312, R320, R321, R329 to R333. Drove groups: lanes that a group may not take are rejected, enabling draws a key that is not 0 and lets the
lanes hunt; a frame is sent once a quarter tick; a lane's alignment follows its alignment words and each errored word counts; the ends of
seconds and periods; the counters' clear. -/
def Obligations.DroveGroups : Prop :=
  ∀ s : State, s.halted = false →
    (∀ (g : Fin 32) (v : BitVec 64),
      Runs (.drlGrpLanes g v) s (fun t =>
        let lanes := (List.range 64).filter fun l => v.toNat.testBit l
        let refused := (∃ o, o < 32 ∧ o ≠ g.val ∧ s.rd (.DRL_GRP_LANES o) &&& v ≠ 0) ∨ (∃ l ∈ lanes, s.laneUser l ≠ 2) ∨
          lanes = [] ∨ 16 < lanes.length
        (s.grpOn g = true → t = s) ∧
        (s.grpOn g = false → refused → t.fld (.DRL_GRP_CFG g) Fld.DRL_GRP_CFG_MASK_REJECT = 1 ∧ onlyRegs [.DRL_GRP_CFG g] s t) ∧
        (s.grpOn g = false → ¬ refused → t.rd (.DRL_GRP_LANES g) = v ∧ onlyRegs [.DRL_GRP_LANES g] s t)) ∧
      Runs (.drlGrpCfg g v) s (fun t =>
        let want := Fld.DRL_GRP_CFG_ENABLE.get v
        (s.grpOn g = true → t.grpRate g = s.grpRate g ∧ t.grpOn g = (want == 1)) ∧
        (s.grpOn g = false → want = 0 → t.grpOn g = false ∧ t.grpRate g = Fld.DRL_GRP_CFG_RATE.get v ∧ onlyRegs [.DRL_GRP_CFG g] s t) ∧
        (s.grpOn g = false → want = 1 → s.rd (.DRL_GRP_LANES g) = 0 →
          t.grpOn g = false ∧ t.fld (.DRL_GRP_CFG g) Fld.DRL_GRP_CFG_MASK_REJECT = 1) ∧
        (s.grpOn g = false → want = 1 → s.rd (.DRL_GRP_LANES g) ≠ 0 →
          t.grpOn g = true ∧ t.grpRate g = Fld.DRL_GRP_CFG_RATE.get v ∧ 0 < (t.grp g).key ∧ (t.grp g).key < 2 ^ 31 ∧
          t.fld (.DRL_GRP_STATUS g) Fld.DRL_GRP_STATUS_KEY_ON = 0 ∧ ∀ l ∈ s.lanesOfGroup g, t.align l = 0))) ∧
    (∀ g : Fin 32, Runs (.droveFrameTransmit g) s (fun t =>
      let q0 := s.tm.cycle / 3500
      let q := if (s.grp g).sent = some (s.frameNum q0) then q0 + 1 else q0
      (s.grpOn g = false ∨ 14000 ≤ s.tm.cycle ∨ 4 ≤ q → t = s) ∧
      (s.grpOn g = true → s.tm.cycle < 14000 → q < 4 →
        (t.grp g).sent = some (s.frameNum q) ∧ t.tm.cycle = max s.tm.cycle (3500 * q) ∧
        SMap.get zeroNat t.fab.freed g = 0))) ∧
    (s.drl.secDue = false → s.drl.due15 = false → s.drl.due24 = false →
      ∀ (l : Fin 64) (line : List Bool) (skew : BitVec 16), Runs (.droveFrameReceive l line skew) s (fun t =>
        (s.groupOfLane l = none → t = s) ∧
        ∀ g, s.groupOfLane l = some g →
          (s.grpOn g = false → t = s) ∧
          (s.grpOn g = true → (∃ f ∈ (s.grp g).held, f.lane = l.val) → t = s) ∧
          (s.grpOn g = true → (∀ f ∈ (s.grp g).held, f.lane ≠ l.val) →
            let off := ((List.range 64).filter fun i => line.getD i false != (msbBits 64 droveFaw).getD i false).length
            (s.quadIs (l / 4) Fld.SDS_QUAD_STATUS_READY = false → t.align l = 0) ∧
            (s.quadIs (l / 4) Fld.SDS_QUAD_STATUS_READY = true → (s.laneRx l).los = false → (s.laneRx l).lol = false →
              t.align l = (alignNext (max 1 (s.fld .DRL_CFG Fld.DRL_CFG_N)) (max 1 (s.fld .DRL_CFG Fld.DRL_CFG_M)) (s.align l)
                (s.laneRx l).good (s.laneRx l).bad (decide (off ≤ 2))).1) ∧
            (t.rd (.DRL_PM l pmFaw) = s.rd (.DRL_PM l pmFaw) + (if off = 0 ∨ s.align l = 0 then 0 else 1))))) ∧
    Runs .pmSecondEnd s (fun t =>
      (s.drl.secDue = false → t = s) ∧
      (s.drl.secDue = true → t.drl.secDue = false ∧ memKept s t ∧
        ∀ g, g < 32 → s.grpOn g = true → t.rd (.DRL_PM (64 + g) pmEf) = 0 ∧ ∀ l ∈ s.lanesOfGroup g, t.rd (.DRL_PM l pmEf) = 0)) ∧
    Runs .pmPeriodEnd s (fun t =>
      (s.drl.due15 = false → s.drl.due24 = false → t = s) ∧
      (s.drl.secDue = false → s.drl.due15 = true →
        t.drl.due15 = false ∧ t.drl.p15 = s.drl.p15 + 1 ∧
        ∀ x k, x < 96 → 5 ≤ k → k ≤ 7 → t.rd (.DRL_PM x (k + 3)) = s.rd (.DRL_PM x k) ∧ t.rd (.DRL_PM x k) = 0) ∧
      (s.drl.secDue = false → s.drl.due24 = true →
        t.drl.due24 = false ∧ t.drl.p24 = s.drl.p24 + 1 ∧ ∀ x k, x < 96 → 11 ≤ k → k ≤ 13 → t.rd (.DRL_PM x k) = 0)) ∧
    Runs .drlStatClr s (fun t => (∀ x k, x < 96 → k < 19 → t.rd (.DRL_PM x k) = 0) ∧
      onlyRegs ((List.range 96).flatMap fun x => (List.range 19).map (.DRL_PM x)) s t)

/-! ### The fabric -/

/-- R336 to R345, R347. The fabric NI: a request to a remote device takes the lowest free tag, waits while there is none, and leaves as
consecutive segments whose payloads are its header and data; without a route it is answered DECODE, on a group out of service or at its
timeout it fails with ISOLATED, its generation turned over and its tag in quarantine; BE_HOLD drops what has waited too long; a received
segment is dropped for its CRC or its kind, forwarded with HOP advanced, or arrives: a misdelivered request is dropped, a WRITE into
Pasture memory is made by the NI as a write of its bytes, and where that write reaches the slice it stores them; a response completes the request that it carries the tag and generation of; FAB_MSG_TX sends a message. -/
def Obligations.FabricRequestsAndSegments : Prop :=
  ∀ s : State, s.halted = false →
    let sent (t : State) (g kind dst flow nhops route : Nat) (bytes : List Byte) : Prop :=
      ∃ segs : List FabSeg, t.fab.txq = s.fab.txq ++ segs ∧ segs.flatMap (fun q => q.payload) = bytes ∧
        segs.map (fun q => segFirst q.hdr) = true :: List.replicate (segs.length - 1) false ∧
        segs.map (fun q => segLast q.hdr) = List.replicate (segs.length - 1) false ++ [true] ∧
        ∀ q ∈ segs, q.group = g ∧ q.payload.length ≤ s.segCap g ∧ segLen q.hdr = q.payload.length ∧ segKind q.hdr = kind ∧
          segSrc q.hdr = s.fabAddr ∧ segDst q.hdr = dst ∧ segFlow q.hdr = flow ∧ segHop q.hdr = 0 ∧ segNhops q.hdr = nhops ∧
          segRoute q.hdr = route ∧ q.transit = none
    let answered (t : State) (p : Packet) (status : Nat) (data : List Byte) : Prop :=
      (s.rtEntry p.dst.toNat p.src.toNat).toNat.testBit 63 = true → s.isolated p.dst.toNat = false →
        ∃ w : Worm, t.noc.flight = s.noc.flight ++ [w] ∧ w.pkt.src = p.dst ∧ w.pkt.dst = p.src ∧ w.pkt.tag = p.tag ∧
          w.pkt.status.toNat = status ∧ w.pkt.data = data
    let fails (t : State) (r : FabReq) (code k : Nat) : Prop :=
      t.fab.reqs = s.fab.reqs.filter (fun x => x.tag != r.tag) ∧ SMap.get zeroNat t.fab.gen r.tag = 1 - r.gen ∧
      t.fab.quarantine = s.fab.quarantine ++ [(r.tag, s.now + s.fabTimeout)] ∧ t.rd (.FAB_CNT k) = s.rd (.FAB_CNT k) + 1 ∧
      t.fld .FAB_ERR_LAST Fld.FAB_ERR_LAST_CODE = code ∧ t.fld .FAB_ERR_LAST Fld.FAB_ERR_LAST_VALID = 1 ∧
      bitsOf (t.rd (.FLT_REC (s.fld .FLT_STATUS Fld.FLT_STATUS_WR_IDX) 0)).toNat 56 8 = code ∧
      (packetAnswered r.pkt = true → answered t r.pkt stIsolated []) ∧ memKept s t
    (∀ (p : Packet) (rest : List Packet), s.fab.waiting = p :: rest →
      let dev := remoteDev p.addr.toNat
      let route := s.rd (.FAB_ROUTE dev)
      let g := hopOf (Fld.FAB_ROUTE_ROUTE.get route) 0
      let flow := 32 * p.src.toNat + p.ridx.toNat % 32
      let kind := if p.ch = 0 ∧ s.hasRecord g dev flow then segGt else segBe
      let head (gen tag : Nat) : List Byte := leBytes 16 (transHead (remoteOffset p.addr.toNat) p.type.toNat 0 gen tag p.len.toNat 0 0)
      Runs .remoteRequestSend s (fun t => memKept s t ∧
        (Fld.FAB_ROUTE_VALID.get route = 0 →
          t.fab = { s.fab with waiting := rest } ∧ (packetAnswered p = true → answered t p stDecode [])) ∧
        (Fld.FAB_ROUTE_VALID.get route ≠ 0 → p.src.toNat < 79 →
          (p.type = 1 → s.inService g = true → 0 < s.segCap g → s.segCap g ≤ 511 →
            t.fab.waiting = rest ∧ t.fab.reqs = s.fab.reqs ∧
            sent t g kind dev flow (Fld.FAB_ROUTE_NHOPS.get route) (Fld.FAB_ROUTE_ROUTE.get route) (head 0 0 ++ p.data)) ∧
          (p.type ≠ 1 → s.freeTag = none → t = s) ∧
          (∀ tag, p.type ≠ 1 → s.freeTag = some tag →
            let r : FabReq := ⟨tag, SMap.get zeroNat s.fab.gen tag, p, g, s.now⟩
            t.fab.waiting = rest ∧
            (s.inService g = true → 0 < s.segCap g → s.segCap g ≤ 511 →
              t.fab.reqs = s.fab.reqs ++ [r] ∧
              sent t g kind dev flow (Fld.FAB_ROUTE_NHOPS.get route) (Fld.FAB_ROUTE_ROUTE.get route) (head r.gen tag ++ p.data)) ∧
            (s.inService g = false → fails t r 0x41 cntLinkDown))))) ∧
    (∀ tag : BitVec 8, Runs (.fabTimeout tag) s (fun t =>
      (s.fab.reqs.find? (fun r => r.tag == tag.toNat) = none → t = s) ∧
      ∀ r, s.fab.reqs.find? (fun r => r.tag == tag.toNat) = some r → dtDiff (r.sent + s.fabTimeout) s.now ≤ 0 →
        fails t r 0x40 cntTimeouts)) ∧
    (∀ tag : BitVec 8, Runs (.tagQuarantineEnd tag) s (fun t =>
      ∀ q, s.fab.quarantine.find? (fun q => q.1 == tag.toNat) = some q → dtDiff q.2 s.now ≤ 0 →
        t.fab.quarantine = s.fab.quarantine.filter (fun x => x.1 != tag.toNat) ∧
        { t with fab := { t.fab with quarantine := s.fab.quarantine } } = s)) ∧
    (∀ g : Fin 32, Runs (.beHoldExpiry g) s (fun t =>
      let gone := s.fab.txq.filter (s.holdOver g)
      t.fab.txq = s.fab.txq.filter (fun q => !s.holdOver g q) ∧
      t.rd (.FAB_CNT cntBeDrop) = s.rd (.FAB_CNT cntBeDrop) + BitVec.ofNat 64 gone.length ∧
      (∀ b, SMap.get zeroNat t.fab.freed b = SMap.get zeroNat s.fab.freed b + (gone.filter fun q => q.transit == some b).length) ∧
      regsKept [.FAB_CNT cntBeDrop] s t ∧
      { t with regs := s.regs, fab := { t.fab with txq := s.fab.txq, freed := s.fab.freed } } = s)) ∧
    (∀ g : Fin 32, s.fab.inbox.find? (fun p => p.1 == g.val) = none → Runs (.segmentReceive g) s (fun t => t = s)) ∧
    (∀ (g : Fin 32) (bytes : List Byte), s.fab.inbox.find? (fun p => p.1 == g.val) = some (g.val, bytes) →
      let n := bytes.length - 4
      let h : Word := BitVec.ofNat 64 (leAt bytes 0 8)
      let payload := (bytes.take n).drop 8
      let hop := segHop h
      let h1 : Word := BitVec.ofNat 64 (setBitsOf (setBitsOf h.toNat 11 20 (setBitsOf (segRoute h) (5 * hop) 5 g)) 33 3 (hop + 1))
      let good := crc32 (bytes.take n) = leAt bytes n 4
      let taken : State := { s with fab := { s.fab with inbox := s.fab.inbox.erase (g.val, bytes) } }
      let tr := leAt payload 0 16
      let here := good ∧ 0 < segKind h ∧ segKind h ≤ 3 ∧ hop ≤ 3 ∧ segNhops h < hop + 1
      Runs (.segmentReceive g) s (fun t =>
        t.rd (.FAB_CNT cntRxSeg) = s.rd (.FAB_CNT cntRxSeg) + 1 ∧
        (¬good → t.rd (.FAB_CNT cntSegCrc) = s.rd (.FAB_CNT cntSegCrc) + 1 ∧ onlyRegs [.FAB_CNT cntRxSeg, .FAB_CNT cntSegCrc] taken t) ∧
        (good → (segKind h = 0 ∨ 3 < segKind h ∨ 3 < hop) → onlyRegs [.FAB_CNT cntRxSeg] taken t) ∧
        (good → segKind h = segBe → hop ≤ 3 → hop + 1 ≤ segNhops h →
          let out := hopOf (segRoute h1) (hop + 1)
          (s.inService out = true → segLen h1 ≤ s.segCap out →
            t.fab.txq = s.fab.txq ++ [(⟨out, h1, payload.take (s.segCap out), some g.val, 0⟩ : FabSeg)] ∧
            onlyRegs [.FAB_CNT cntRxSeg] { taken with fab := { taken.fab with txq := t.fab.txq } } t) ∧
          (s.inService out = false → segFirst h = false →
            SMap.get zeroNat t.fab.freed g = SMap.get zeroNat s.fab.freed g + 1 ∧ t.fab.txq = s.fab.txq ∧ memKept s t)) ∧
        (here → segKind h ≠ segGt → segFirst h = true → (trType tr ≤ pktWriteAck ∨ trType tr = pktMsg) → segDst h ≠ s.fabAddr →
          t.rd (.FAB_CNT cntMisdeliver) = s.rd (.FAB_CNT cntMisdeliver) + 1 ∧
          SMap.get zeroNat t.fab.freed g = SMap.get zeroNat s.fab.freed g + 1 ∧ memKept s t) ∧
        (here → segFirst h = true → segLast h = true → trType tr = pktWrite → segDst h = s.fabAddr →
          segLen h = 17 + trLen tr → segLen h ≤ payload.length →
          let a := trOffset tr
          pastureBase ≤ a → a + trLen tr + 1 ≤ pastureBase + pastureSize →
          (∀ q ∈ s.fab.partials, q.src ≠ segSrc h ∨ q.flow ≠ segFlow h) → s.unhindered (fun u => u.takeInbox g) →
            let u := { taken with noc := { taken.noc with wait := some [] } }.fabCount cntRxSeg
            t.mem = ((if segKind h = segGt then u else u.freeBuffer g).agentWrite niFabric a ((payload.take (segLen h)).drop 16)).2.mem) ∧
        (here → segFirst h = true → segLast h = true → (trType tr = pktReadResp ∨ trType tr = pktWriteResp) →
          segLen h = 16 + trBytes tr → segLen h ≤ payload.length →
          (s.fab.reqs.find? (fun r => r.tag == trFtag tr && r.gen == trGen tr) = none →
            t.rd (.FAB_CNT cntLateResp) = s.rd (.FAB_CNT cntLateResp) + 1 ∧ t.fab.reqs = s.fab.reqs ∧ t.noc.flight = s.noc.flight) ∧
          ∀ r, s.fab.reqs.find? (fun r => r.tag == trFtag tr && r.gen == trGen tr) = some r → trLd tr = false →
            t.fab.reqs = s.fab.reqs.filter (fun x => x.tag != r.tag) ∧
            (packetAnswered r.pkt = true → answered t r.pkt (trStatus tr) ((payload.take (segLen h)).drop 16))))) ∧
    (∀ (a : Nat) (b : List Byte) (p : Packet), a % 256 + b.length ≤ 256 → pastureBase ≤ a → a + b.length ≤ pastureBase + pastureSize →
      s.ecc.flips = [] → s.fld .MEM_INJECT Fld.MEM_INJECT_ARM = 0 →
      s.requestPacket niFabric pktWriteAck 0 a b.length false b = some p → (s.cross p).1 = .reached →
      (s.agentWrite niFabric a b).2.mem = s.mem.writeBytes a b) ∧
    (∀ v : BitVec 64,
      let a := Fld.FAB_MSG_TX_ADDR.get v
      let head := (s.trying.wrAccess .FAB_MSG_TX v).agentRead niFabric a 24
      let h : Word := BitVec.ofNat 64 (leAt head.1.data 0 8)
      let tr := leAt head.1.data 8 16
      let body := head.2.agentRead niFabric (a + 24) (trLen tr + 1)
      let g := hopOf (segRoute h) 0
      Runs (.fabMsgTx v) s (fun t => memKept s t ∧
        (Fld.FAB_MSG_TX_GO.get v = 0 → t.fld .FAB_MSG_TX Fld.FAB_MSG_TX_ADDR = a ∧ onlyRegs [.FAB_MSG_TX] s t) ∧
        (Fld.FAB_MSG_TX_GO.get v = 1 → s.unhindered (fun u => u.writeMsgTx v) → head.1.status = stOk → head.1.errs = [] →
          body.1.status = stOk → body.1.errs = [] → msgTypes.contains (trMsg tr) = true →
          t.fld .FAB_MSG_TX Fld.FAB_MSG_TX_ADDR = a ∧
          (s.inService g = true → 0 < s.segCap g → s.segCap g ≤ 511 →
            sent t g (segKind h) (segDst h) (segFlow h) (segNhops h) (segRoute h)
              (leBytes 16 tr ++ body.1.data)) ∧
          (s.inService g = false →
            t.rd (.FAB_CNT cntLinkDown) = s.rd (.FAB_CNT cntLinkDown) + 1 ∧ t.fab = s.fab)))) ∧
    (∀ v : BitVec 64, Runs (.fabRxDb v) s (fun t =>
      t.fld .FAB_RX_DB Fld.FAB_RX_DB_INDEX = Fld.FAB_RX_DB_INDEX.get v ∧ onlyRegs [.FAB_RX_DB] s t)) ∧
    Runs .fabStatClr s (fun t => (∀ k, k < 14 → t.rd (.FAB_CNT k) = 0) ∧ onlyRegs ((List.range 14).map .FAB_CNT) s t)

/-- R349 to R355. The muster: how each of its messages, timers and the epoch act. A muster is started with the next number; where a peer has
still to report it collects, with CALL flooded over every group in service, and a device without groups is LONE at once. A CALL with a
higher number is adopted; reports are collected once each; an assignment is staged; the last acknowledgement and DONE write the pool; an
abort discards what was staged; from the third abort on the restart backs off; the epoch installs routes and address. -/
def Obligations.MusterSteps : Prop :=
  ∀ s : State, s.halted = false →
    let num (t : State) : Nat := t.fld .FAB_MUSTER Fld.FAB_MUSTER_NUMBER
    let peers := ∃ g, g < 32 ∧ s.inService g = true ∧ s.rd (.DRL_GRP_PEER_UID g) ≠ s.uid
    let entered (t : State) (m : Nat) : Prop :=
      num t = m ∧
      (peers → t.musState = musCollect ∧ t.fab.mus.listed = s.groupsInService ∧ t.fab.mus.started = s.now ∧
        t.fab.mus.reports = [s.ownReport]) ∧
      (s.groupsInService = [] → t.fld .FAB_ADDR Fld.FAB_ADDR_LONE = 1 ∧ t.musState = musIdle ∧
        t.fld .FAB_MUSTER Fld.FAB_MUSTER_ABORTS = 0 ∧ ∀ a, a < 64 → t.rd (.FAB_ROUTE a) = 0)
    let next := (max s.fab.mus.seen (num s) + 1) % 2 ^ 32
    let started (t : State) : Prop :=
      entered t next ∧
      (peers → ∀ g, g < 32 → s.inService g = true → 28 ≤ s.segCap g → s.segCap g ≤ 511 →
        ∃ q ∈ t.fab.txq, q.group = g ∧ q.transit = none ∧ segKind q.hdr = segMsg ∧
          q.payload = controlMsg 1 next (leBytes 8 s.uid.toNat))
    let pooled (t : State) (coord epoch : Nat) (pool : List Nat) : Prop :=
      (∀ a, a < 64 → t.rd (.FAB_POOL a) = BitVec.ofNat 64 (pool.getD a 0)) ∧
      t.fld .FAB_ADDR Fld.FAB_ADDR_COORD = (if coord = s.uid.toNat then 1 else 0) ∧ t.fab.mus.held = epoch ∧
      t.fld .FAB_MUSTER Fld.FAB_MUSTER_ABORTS = 0 ∧ t.musState = (if epoch = 0 then musIdle else musWait)
    let kept := s.musState = musCollect ∧ s.fab.mus.held ≠ 0 ∧ (s.rd .FAB_EPOCH).toNat = s.fab.mus.held
    let discarded (t : State) : Prop :=
      if kept then t.rd .FAB_EPOCH = s.rd .FAB_EPOCH ∧ ∀ a, a < 64 → t.rd (.FAB_ROUTE_SH a) = s.rd (.FAB_ROUTE_SH a)
      else t.rd .FAB_EPOCH = 0 ∧ t.fab.mus.held = 0 ∧ ∀ a, a < 64 → t.rd (.FAB_ROUTE_SH a) = 0
    let aborts := min 255 (s.fld .FAB_MUSTER Fld.FAB_MUSTER_ABORTS + 1)
    (∀ v : BitVec 64, Runs (.muster v) s (fun t => memKept s t ∧
      (Fld.FAB_CTRL_MUSTER.get v = 1 → started t) ∧
      (Fld.FAB_CTRL_MUSTER.get v = 0 →
        (Fld.FAB_CTRL_STAT_CLR.get v = 0 → onlyRegs [.FAB_CTRL] s t) ∧
        (Fld.FAB_CTRL_STAT_CLR.get v = 1 →
          (∀ k, k < 14 → t.rd (.FAB_CNT k) = 0) ∧ onlyRegs (.FAB_CTRL :: (List.range 14).map .FAB_CNT) s t)))) ∧
    (∀ (h : BitVec 64) (p : List Byte),
      let m := msgM p
      let old (type : Nat) : Prop := s.fab.mus.copies.contains (type, m, msgUid p) = true
      Runs (.musterCall h p) s (fun t => memKept s t ∧
        (m < num s ∨ (m = num s ∧ old 1) → t = s) ∧
        (m = num s → ¬old 1 → t.fab.mus.copies = s.fab.mus.copies ++ [(1, m, msgUid p)] ∧ t.musState = s.musState) ∧
        (num s < m → entered t m)) ∧
      Runs (.musterLinks h p) s (fun t =>
        let rs := s.fab.mus.reports ++ [reportOf p]
        memKept s t ∧
        (m ≠ num s ∨ s.musState = musIdle ∨ s.musState = musBackoff ∨ old 2 → t = s) ∧
        (m = num s → s.musState ≠ musIdle → s.musState ≠ musBackoff → ¬old 2 →
          t.fab.mus.reports = rs ∧
          (s.musState ≠ musCollect ∨ setClosed rs = false → t.musState = s.musState) ∧
          (s.musState = musCollect → setClosed rs = true → rs.length ≠ 1 →
            (lowestUid rs ≠ s.uid → t.musState = musAssign) ∧
            (lowestUid rs = s.uid → t.fab.mus.assigns = assignsOf rs)))) ∧
      Runs (.musterAssign h p) s (fun t =>
        let mine := m = num s ∧ msgUid p = s.uid.toNat ∧ (s.musState = musCollect ∨ s.musState = musAssign)
        memKept s t ∧ (¬mine → t = s) ∧
        (mine → t.musState = musAssign ∧ t.rd .FAB_EPOCH = BitVec.ofNat 64 (leAt p 16 8) ∧
          (leAt p 12 1 < 64 → t.fld .FAB_ADDR Fld.FAB_ADDR_STAGED = leAt p 12 1 ∧ t.fld .FAB_ADDR Fld.FAB_ADDR_STAGED_LONE = 0 ∧
            t.fld .FAB_ADDR Fld.FAB_ADDR_EXCLUDED = 0) ∧
          (64 ≤ leAt p 12 1 → t.fld .FAB_ADDR Fld.FAB_ADDR_STAGED_LONE = 1 ∧ t.fld .FAB_ADDR Fld.FAB_ADDR_EXCLUDED = 1) ∧
          (∀ a, a < 64 →
            let e := leAt p (24 + 4 * a) 4
            t.fld (.FAB_ROUTE_SH a) Fld.FAB_ROUTE_SH_VALID = bitsOf e 31 1 ∧ t.fld (.FAB_ROUTE_SH a) Fld.FAB_ROUTE_SH_NHOPS = bitsOf e 22 2 ∧
            t.fld (.FAB_ROUTE_SH a) Fld.FAB_ROUTE_SH_ROUTE = bitsOf e 0 20 ∧ t.rd (.FAB_ROUTE a) = s.rd (.FAB_ROUTE a)) ∧
          (let back := hopOf (reverseRoute h).2 0
           s.inService back = true → 28 ≤ s.segCap back → s.segCap back ≤ 511 →
             ∃ q : FabSeg, t.fab.txq = s.fab.txq ++ [q] ∧ q.group = back ∧ segDst q.hdr = segSrc h ∧
               q.payload = controlMsg 4 m (leBytes 8 s.uid.toNat)))) ∧
      Runs (.musterAck p) s (fun t =>
        let mine := m = num s ∧ s.musState = musAssign ∧ s.fab.mus.assigns ≠ []
        let acked := (s.fab.mus.acked ++ [msgUid p]).eraseDups
        let all_ := s.fab.mus.assigns.all fun a => acked.contains a.uid.toNat
        memKept s t ∧ (¬mine → t = s) ∧
        (mine → all_ = false → t.fab.mus.acked = acked ∧ { t with fab := { t.fab with mus := s.fab.mus } } = s) ∧
        (mine → all_ = true → s.fab.mus.again = false → pooled t s.uid.toNat s.fab.mus.epoch (poolOf s.fab.mus.assigns))) ∧
      Runs (.musterDone h p) s (fun t =>
        let mine := m = num s ∧ (s.musState = musCollect ∨ s.musState = musAssign) ∧ ¬old 5
        let epoch := leAt p 12 8
        let late := epoch ≠ 0 ∧ dtDiff (BitVec.ofNat 64 epoch) s.now < 0
        memKept s t ∧ (¬mine → t = s) ∧
        (mine → late → num t = next) ∧
        (mine → ¬late → s.fab.mus.again = false →
          pooled t (msgUid p) epoch ((List.range 64).map fun a => leAt p (20 + 8 * a) 8))) ∧
      Runs (.musterAbort h p) s (fun t =>
        let mine := m = num s ∧ s.musState ≠ musIdle ∧ s.musState ≠ musBackoff ∧ ¬old 6
        memKept s t ∧ (¬mine → t = s) ∧
        (mine → s.fab.mus.again = false → discarded t ∧ t.fld .FAB_MUSTER Fld.FAB_MUSTER_ABORTS = aborts ∧
          (kept → t.musState = musWait) ∧ (¬kept → t.musState = musIdle)))) ∧
    Runs .musterTimeout s (fun t => memKept s t ∧
      (s.musState ≠ musCollect ∧ s.musState ≠ musAssign → t = s) ∧
      (s.musState = musCollect ∨ s.musState = musAssign → dtDiff (s.fab.mus.started + msUnits 5) s.now ≤ 0 →
        discarded t ∧
        (aborts < 3 → num t = next) ∧
        (3 ≤ aborts → num t = num s ∧ t.musState = musBackoff ∧ t.fld .FAB_MUSTER Fld.FAB_MUSTER_ABORTS = aborts ∧
          t.fab.mus.backoff = s.now + msUnits (if aborts = 3 then 10 else if aborts = 4 then 20 else 40)))) ∧
    Runs .musterBackoffEnd s (fun t => memKept s t ∧ (s.musState ≠ musBackoff → t = s) ∧
      (s.musState = musBackoff → dtDiff s.fab.mus.backoff s.now ≤ 0 → started t)) ∧
    Runs .musterPeriodicCall s (fun t => memKept s t ∧ (s.musState ≠ musIdle → t = s) ∧
      (s.musState = musIdle →
        dtDiff (s.fab.mus.lastDone + msUnits (if s.fld .FAB_ADDR Fld.FAB_ADDR_COORD = 1 then 1000 else 2500)) s.now ≤ 0 → started t)) ∧
    Runs .loneProbe s (fun t => memKept s t ∧
      (s.fld .FAB_ADDR Fld.FAB_ADDR_LONE = 0 ∨ s.groupsInService = [] ∨ s.musState ≠ musIdle → t = s) ∧
      (s.fld .FAB_ADDR Fld.FAB_ADDR_LONE = 1 → s.groupsInService ≠ [] → s.musState = musIdle →
        dtDiff (s.fab.mus.lastProbe + msUnits 10) s.now ≤ 0 → started t ∧ t.fab.mus.lastProbe = s.now)) ∧
    (s.tm.cycle = 0 → Runs .musterEpoch s (fun t => (s.alm.swap = none → memKept s t) ∧
      (s.epochDue = false → t = s) ∧
      (s.epochDue = true →
        (∀ a, a < 64 → t.rd (.FAB_ROUTE a) = s.rd (.FAB_ROUTE_SH a)) ∧ t.rd .FAB_EPOCH = 0 ∧
        t.fld .FAB_ADDR Fld.FAB_ADDR_LONE = s.fld .FAB_ADDR Fld.FAB_ADDR_STAGED_LONE ∧
        t.fld .FAB_ADDR Fld.FAB_ADDR_ADDR =
          (if s.fld .FAB_ADDR Fld.FAB_ADDR_STAGED_LONE = 1 then 0 else s.fld .FAB_ADDR Fld.FAB_ADDR_STAGED) ∧
        (∀ g, g < 32 → t.fld (.FAB_GRP g) Fld.FAB_GRP_MUSTERED = (if s.fab.mus.topology.contains g then 1 else 0)) ∧
        t.musState = (if s.musState = musWait then musIdle else s.musState))))

/-! ### The syllables of the DSP cores -/

/-- The scalar operations of the DSP cores, each issued alone in its bundle unless said otherwise.
- R195, R197, R204. Rounding and narrowing: TRUNC rounds down, HALF_UP to the nearest with halves up, CONV to the nearest with halves to even; a value
  in range is itself, one outside it takes the nearest limit under SAT and else wraps, raising ARITH with OVT. A result of latency L is read by the
  L-th bundle after its own and by none before.
- R231. Each group 0 operation issued alone in its bundle. Under a guard that is off it does nothing; RSVD bits, RND 3 and a compare's D above 7 raise
  ILLEGAL_OP; else S(D) takes the value of the table at its latency, under SAT, RND and OVT where the table says so, a compare writes all 32 bits of
  Q(D), Q0 ignores it, and nothing else but the PC, STATUS.SAT and what was in flight changes.
- R228, R232. Each group 1 operation alone in its bundle; each but the shifts, and ADDPI and QSETI, with an extension syllable behind it: IMM is
  signed, 10 bits, or 38 with HI above it. Additions and multiplications wrap or raise ARITH; a shift by more than IMM[5:0] and a MOVI with A raise
  ILLEGAL_OP.
- R186, R233. Each group 2 operation alone in its bundle: pointers modulo 2^64, predicates of 32 bits with Q0 all ones and its writes ignored; a
  register field above its file and RSVD bits raise ILLEGAL_OP.
- R189, R239, R240, R247. NOP does nothing; MFC reads a control register into S(D) where the level may, with PRIV_OP beyond it and ILLEGAL_OP at a
  number that names none; ACPOLL reads the tags as X1 samples them and the enable bits, on a Fold core alone. RSVD bits and a guard other than Q0
  raise ILLEGAL_OP.
- R225, R226, R229. A syllable without STOP joins the bundle that its core fetches and does nothing yet. Two operations of one bundle read their
  sources before either writes: MOV A, B with MOV B, A exchanges two registers. -/
def Obligations.ScalarSyllables : Prop :=
  ((∀ (x : Int) (k : Nat),
    rndShift 0 x k = x / (2 ^ k : Nat) ∧ rndShift 1 x k = (2 * x + (2 ^ k : Nat)) / (2 * (2 ^ k : Nat)) ∧
    2 * (x - rndShift 2 x k * (2 ^ k : Nat)).natAbs ≤ 2 ^ k ∧
    (2 * (x - rndShift 2 x k * (2 ^ k : Nat)).natAbs = 2 ^ k → rndShift 2 x k % 2 = 0)) ∧
  (∀ (w : Nat) (sat ovt : Bool) (x : Int), 0 < w →
    (-(2 ^ (w - 1) : Nat) ≤ x → x < (2 ^ (w - 1) : Nat) → fit w sat ovt x = ⟨unsignedOf w x, false, false⟩) ∧
    ((2 ^ (w - 1) : Nat) ≤ x → fit w true ovt x = ⟨2 ^ (w - 1) - 1, true, false⟩) ∧
    (x < -(2 ^ (w - 1) : Nat) → fit w true ovt x = ⟨2 ^ (w - 1), true, false⟩) ∧
    (x < -(2 ^ (w - 1) : Nat) ∨ (2 ^ (w - 1) : Nat) ≤ x → fit w false ovt x = ⟨unsignedOf w x, false, ovt⟩)) ∧
  (∀ (c : Core) (len lat r v m : Nat) (sat : Bool), c.flight = [] → 0 < lat → m < lat →
    let k := Nat.repeat (fun c => c.issued false 1 [] false) m (c.issued false len [⟨lat, .s r, v, ones 64⟩] sat)
    (m + 1 < lat → SMap.get zeroNat k.s r = SMap.get zeroNat c.s r) ∧
    (m + 1 = lat → SMap.get zeroNat k.s r % 2 ^ 64 = v % 2 ^ 64) ∧
    (∀ q, q ≠ r → SMap.get zeroNat k.s q = SMap.get zeroNat c.s q) ∧ k.p = c.p ∧ k.q = c.q ∧ k.v = c.v ∧ k.va = c.va ∧ k.k = c.k)) ∧
  (∀ (s : State) (y : Syl), y.stop = true → y.rsv = none → s.readyFor y.core 1 →
    let n : Nat := y.core
    let c := s.core n
    let a := c.sreg y.a
    let b := c.sreg y.b
    let sat := y.bits 4 1 == 1
    let rnd := y.bits 2 2
    let bad := y.bits 0 2 ≠ 0 ∨ rnd = 3
    let q15 := fit 16 sat c.ovt (rndShift rnd (signedOf 16 a * signedOf 16 b) 15)
    (∀ op ∈ ([(.add, 1, fit 64 sat c.ovt (s64 a + s64 b)), (.sub, 1, fit 64 sat c.ovt (s64 a - s64 b)), (.and, 1, .plain (a &&& b)),
        (.or, 1, .plain (a ||| b)), (.xor, 1, .plain (a ^^^ b)),
        (.andn, 1, .plain (BitVec.ofNat 64 a &&& ~~~ BitVec.ofNat 64 b).toNat),
        (.shl, 1, fit 64 sat c.ovt (s64 a * (2 ^ (b % 64) : Nat))), (.shr, 1, .plain (rndShift rnd (a : Int) (b % 64)).toNat),
        (.sar, 1, fit 64 sat c.ovt (rndShift rnd (s64 a) (b % 64))), (.min, 1, .plain (if s64 a ≤ s64 b then a else b)),
        (.max, 1, .plain (if s64 b ≤ s64 a then a else b)), (.minu, 1, .plain (min a b)), (.maxu, 1, .plain (max a b)),
        (.abs, 1, fit 64 sat c.ovt (s64 a).natAbs), (.clz, 1, .plain (clz64 a)),
        (.popc, 1, .plain ((List.range 64).countP fun i => a.testBit i)), (.mul, 3, fit 64 sat c.ovt (s64 a * s64 b)),
        (.mulh, 3, .plain (unsignedOf 64 (s64 a * s64 b / (2 ^ 64 : Nat)))),
        (.mulq, 3, ⟨unsignedOf 64 (signedOf 16 q15.val), q15.sat, q15.arith⟩), (.mov, 1, .plain a),
        (.sext, 1, .plain (unsignedOf 64 (signedOf (b % 64 + 1) a)))] : List ((Syl → Instr) × Nat × Fit)),
      Runs (op.1 y) s (fun t => guardedOp n y s t ((bad → illegal n 1 s t) ∧
        (¬bad → narrows n 1 op.2.2 [⟨op.2.1, .s (c.sName y.d), op.2.2.val % 2 ^ 64, ones 64⟩] s t)))) ∧
    (∀ op ∈ ([(.cmpeq, decide (a = b)), (.cmplt, decide (s64 a < s64 b)), (.cmpltu, decide (a < b)),
        (.cmple, decide (s64 a ≤ s64 b))] : List ((Syl → Instr) × Bool)),
      Runs (op.1 y) s (fun t => guardedOp n y s t ((bad ∨ 8 ≤ y.d → illegal n 1 s t) ∧
        (¬bad → y.d < 8 →
          issues n 1 (if y.d = 0 then [] else [⟨1, .q y.d, if op.2 then 2 ^ 32 - 1 else 0, ones 32⟩]) false s t))))) ∧
  (∀ (s : State) (y : Syl), y.rsv = none →
    let n : Nat := y.core
    let c := s.core n
    let a := c.sreg y.a
    let sh := y.bits 0 6
    let plain (i : Int) : List ((Syl → Instr) × Nat × Fit) :=
      [(.addi, 1, fit 64 false c.ovt (s64 a + i)), (.andi, 1, .plain (a &&& unsignedOf 64 i)), (.ori, 1, .plain (a ||| unsignedOf 64 i)),
       (.xori, 1, .plain (a ^^^ unsignedOf 64 i)), (.muli, 3, fit 64 false c.ovt (s64 a * i)), (.movi, 1, .plain (unsignedOf 64 i))]
    let compares (i : Int) : List ((Syl → Instr) × Bool) :=
      [(.cmpeqi, decide (a = unsignedOf 64 i)), (.cmplti, decide (s64 a < i)), (.cmpltui, decide (a < unsignedOf 64 i))]
    let result (len : Nat) (op : (Syl → Instr) × Nat × Fit) (t : State) : Prop :=
      (op.1 y = .movi y → y.a ≠ 0 → illegal n len s t) ∧ ((op.1 y = .movi y → y.a = 0) →
        narrows n len op.2.2 [⟨op.2.1, .s (c.sName y.d), op.2.2.val % 2 ^ 64, ones 64⟩] s t)
    let relation (len : Nat) (r : Bool) (t : State) : Prop :=
      (8 ≤ y.d → illegal n len s t) ∧
      (y.d < 8 → issues n len (if y.d = 0 then [] else [⟨1, .q y.d, if r then 2 ^ 32 - 1 else 0, ones 32⟩]) false s t)
    (y.stop = true → s.readyFor n 1 →
      let i := signedOf 10 (y.bits 0 10)
      (∀ op ∈ plain i, Runs (op.1 y) s (fun t => guardedOp n y s t (result 1 op t))) ∧
      (∀ op ∈ compares i, Runs (op.1 y) s (fun t => guardedOp n y s t (relation 1 op.2 t))) ∧
      (∀ op ∈ ([(.shli, a * 2 ^ sh), (.shri, a / 2 ^ sh), (.sari, unsignedOf 64 (rndShift 0 (s64 a) sh)),
          (.sarri, unsignedOf 64 (rndShift 1 (s64 a) sh))] : List ((Syl → Instr) × Nat)),
        Runs (op.1 y) s (fun t => guardedOp n y s t ((y.bits 6 4 ≠ 0 → illegal n 1 s t) ∧
          (y.bits 6 4 = 0 → issues n 1 [⟨1, .s (c.sName y.d), op.2 % 2 ^ 64, ones 64⟩] false s t))))) ∧
    (∀ hi : BitVec 28, y.stop = false → s.readyFor n 2 → (c.qreg y.pg.toNat).testBit 0 = true →
      let i := signedOf 38 (1024 * hi.toNat + y.bits 0 10)
      (∀ op ∈ plain i, ∃ t, runCommands [op.1 y, .ext y.core true hi] s = .next t ∧ result 2 op t) ∧
      (∀ op ∈ compares i, ∃ t, runCommands [op.1 y, .ext y.core true hi] s = .next t ∧ relation 2 op.2 t) ∧
      (∃ t, runCommands [.addpi y, .ext y.core true hi] s = .next t ∧ (y.d < 16 → y.a < 16 →
        issues n 2 [⟨1, .p y.d, unsignedOf 64 ((c.preg y.a : Int) + i), ones 64⟩] false s t)) ∧
      (∃ t, runCommands [.qseti y, .ext y.core true hi] s = .next t ∧ (y.d < 8 →
        issues n 2 (if y.d = 0 then [] else [⟨1, .q y.d, unsignedOf 32 i, ones 32⟩]) false s t)))) ∧
  (∀ (s : State) (y : Syl), y.stop = true → y.rsv = none → s.readyFor y.core 1 →
    let n : Nat := y.core
    let c := s.core n
    let imm := signedOf 10 (y.bits 0 10)
    let low : Bool := y.bits 0 5 == 0
    let toP (v : Int) : List Pend := [⟨1, .p y.d, unsignedOf 64 v, ones 64⟩]
    let toS (v : Nat) : List Pend := [⟨1, .s (c.sName y.d), v % 2 ^ 64, ones 64⟩]
    let toQ (v : Nat) : List Pend := if y.d = 0 then [] else [⟨1, .q y.d, v, ones 32⟩]
    let qa := c.qreg y.a
    let qb := c.qreg y.b
    let q3 : Bool := decide (y.d < 8 ∧ y.a < 8 ∧ y.b < 8) && low
    ∀ op ∈ ([(.addpi, decide (y.d < 16 ∧ y.a < 16), toP ((c.preg y.a : Int) + imm)),
        (.addp, decide (y.d < 16 ∧ y.a < 16) && low, toP ((c.preg y.a : Int) + c.sreg y.b)),
        (.movps, decide (y.d < 16) && low, toP (c.sreg y.a)), (.movsp, decide (y.a < 16) && low, toS (c.preg y.a)),
        (.movks, decide (y.d < 8) && low, [⟨1, .k y.d, c.sreg y.a, ones 64⟩]), (.movsk, decide (y.a < 8) && low, toS (c.kreg y.a)),
        (.qand, q3, toQ (qa &&& qb)), (.qor, q3, toQ (qa ||| qb)), (.qxor, q3, toQ (qa ^^^ qb)), (.qandn, q3, toQ (qa ^^^ (qa &&& qb))),
        (.qnot, decide (y.d < 8 ∧ y.a < 8) && low, toQ (ones 32 ^^^ qa)), (.qfroms, decide (y.d < 8) && low, toQ (c.sreg y.a % 2 ^ 32)),
        (.qtos, decide (y.a < 8) && low, toS qa), (.qseti, decide (y.d < 8), toQ (unsignedOf 32 imm))] : List ((Syl → Instr) × Bool × List Pend)),
      Runs (op.1 y) s (fun t => guardedOp n y s t ((op.2.1 = false → illegal n 1 s t) ∧ (op.2.1 = true → issues n 1 op.2.2 false s t)))) ∧
  (∀ (s : State) (y : Syl), y.stop = true → y.rsv = none → s.readyFor y.core 1 →
    let n : Nat := y.core
    let c := s.core n
    let num := y.bits 0 8
    let toS (v : Nat) : List Pend := [⟨1, .s (c.sName y.d), v % 2 ^ 64, ones 64⟩]
    let value : Nat :=
      if num = 1 then (if n < 128 then n % 8 + n / 8 * 256 else n - 128)
      else if num = 2 then Nat.min 13999 s.tm.cycle
      else if num = 3 then s.calIndex
      else if 128 ≤ n ∧ (num = 0x14 ∨ (0x18 ≤ num ∧ num ≤ 0x1B)) then 0
      else if 0x40 ≤ num ∧ num ≤ 0x43 then 0 else c.getCr num
    let enable := SMap.get zeroNat s.dsp.enable (n / 8)
    Runs (.nop y) s (fun t => (y.ops = 0 → y.pg = 0 → issues n 1 [] false s t) ∧ (y.ops ≠ 0 ∨ y.pg ≠ 0 → illegal n 1 s t)) ∧
    Runs (.mfc y) s (fun t =>
      let bad := y.bits 8 7 ≠ 0 ∨ y.pg ≠ 0 ∨ crExists (isControl n) num = false
      (bad → illegal n 1 s t) ∧
      (¬bad → crLevel num < c.pl → enters n s → excepts n 1 4 0 0 s t) ∧
      (¬bad → c.pl ≤ crLevel num → issues n 1 (toS value) false s t)) ∧
    Runs (.acpoll y) s (fun t =>
      let bad := y.bits 0 15 ≠ 0 ∨ y.pg ≠ 0 ∨ 128 ≤ n
      (bad → illegal n 1 s t) ∧
      (¬bad → issues n 1 (toS (c.sampled.tagsIn 1 + 2 ^ 16 * c.sampled.tagsIn 2 + 2 ^ 48 * bitsOf enable 0 4 +
        2 ^ 52 * bitsOf enable 8 4 + 2 ^ 56 * bitsOf enable 16 4)) false s t))) ∧
  ((∀ (s : State) (i : Instr) (y : Syl), sylOf i = some y → y.stop = false → s.halted = false → s.coreRuns y.core = true →
    (s.core y.core).loopDue = false → (s.core y.core).bundle.length < 3 → bundleFull (s.core y.core).bundle = false →
    (isControl y.core = false → (s.core y.core).pc + 4 * (s.core y.core).bundle.length < 0x80000) →
    Runs i s (fun t => coreOnly y.core s t ∧
      t.core y.core = { s.core y.core with bundle := (s.core y.core).bundle ++ [i] })) ∧
  (∀ (s : State) (n : Fin 136) (a b : Nat), a < 16 → b < 16 → a ≠ b → s.readyFor n 2 →
    let mov (stop : Bool) (d r : Nat) : Instr := .mov ⟨n, stop, 0, BitVec.ofNat 20 (2 ^ 15 * d + 2 ^ 10 * r), none⟩
    ∃ t, runCommands [mov false a b, mov true b a] s = .next t ∧
      issues n 2 [⟨1, .s a, (s.core n).sreg b % 2 ^ 64, ones 64⟩, ⟨1, .s b, (s.core n).sreg a % 2 ^ 64, ones 64⟩] false s t))

/-- The vector operations of the Fold cores, each issued alone in its bundle.
- R187, R229, R236. Each group 4 operation alone in its bundle on a Fold core. The governing bits of the guard say which lanes are written; a lane
  narrows under SAT and RND, and an active lane that would wrap raises ARITH with OVT; a format that the operation does not have and RND 3 raise
  ILLEGAL_OP, the bitwise ones ignore RND; the latency is 2 and nothing else changes.
- R205, R229, R237. Each group 5 multiply, accumulate and read-out alone in its bundle on a Fold core: exact products, the scaled ones rounded from
  2^-15 into V at latency 4; the accumulating ones added to the 40-bit lanes of VA(ACC) under SAT at ±2^39, for the next MAC at once and for a
  read-out at latency 4; VACLR clears; VRD shifts, rounds and narrows. A field that the operation does not use and RND 3 raise ILLEGAL_OP.
- R217, R238. VACSL and VACSH alone in their bundle on a Fold core at KN or FW with the trace pointer aligned in its own data memory and room in the
  write buffer: the chosen metrics go to V(D) and the decisions to Q(QD), both at latency 2, the decision word enters the write buffer, and the
  pointer moves on by 4. An odd A, a D that A names, and a guard other than Q0 raise ILLEGAL_OP. -/
def Obligations.VectorSyllables : Prop :=
  (∀ (s : State) (y : Syl), y.stop = true → y.rsv = none → (y.core : Nat) < 128 → s.readyFor y.core 1 →
    let n : Nat := y.core
    let c := s.core n
    let fmt := y.bits 3 2
    let sat := y.bits 2 1 == 1
    let rnd := y.bits 0 2
    let g := c.qreg y.pg.toNat
    let a := c.vreg y.a
    let b := c.vreg y.b
    let pair (f : Int → Int → Int) : List Int := ((comps fmt a).zip (comps fmt b)).map fun p => f p.1 p.2
    let w := laneBits fmt
    let count := 512 / w
    let lanesOf (f : Nat → Nat) : Nat := ofLanes w ((List.range count).map f)
    let vec (outFmt guard v : Nat) (flag : Bool) (t : State) : Prop :=
      issues n 1 [⟨2, .v (c.vName y.d), v, vecMask outFmt guard⟩] flag s t
    (∀ op ∈ ([(.vadd, [0, 1, 2], fmt, pair fun p q => p + q), (.vsub, [0, 1, 2], fmt, pair fun p q => p - q),
        (.vmin, [0, 1], fmt, pair fun p q => if p ≤ q then p else q), (.vmax, [0, 1], fmt, pair fun p q => if p ≤ q then q else p),
        (.vabs, [0, 1], fmt, (comps fmt a).map fun p => if p < 0 then -p else p), (.vneg, [0, 1, 2], fmt, (comps fmt a).map fun p => -p),
        (.vshl, [0, 1, 2], fmt, (comps fmt a).map fun p => p * (2 ^ y.b : Nat)),
        (.vshr, [0, 1, 2], fmt, (comps fmt a).map fun p => rndShift rnd p y.b),
        (.vconj, [2], 2, (comps 2 a).zipIdx.map fun p => if p.2 % 2 = 1 then -p.1 else p.1),
        (.vpack, [1], 0, comps 1 a ++ comps 1 b)] : List ((Syl → Instr) × List Nat × Nat × List Int)),
      let fs := op.2.2.2.map fun v => fit (compBits op.2.2.1) sat c.ovt v
      let live := (fs.zipIdx.filter fun f => activeComp op.2.2.1 g f.2).map (·.1)
      Runs (op.1 y) s (fun t =>
        (op.2.1.contains fmt = false ∨ rnd = 3 → illegal n 1 s t) ∧
        (op.2.1.contains fmt = true → rnd ≠ 3 →
          ((live.any fun f => f.arith) = true → enters n s → excepts n 1 5 0 0 s t) ∧
          ((live.any fun f => f.arith) = false →
            vec op.2.2.1 g (ofLanes (compBits op.2.2.1) (fs.map fun f => f.val)) (live.any fun f => f.sat) t)))) ∧
    (∀ op ∈ ([(.vsel, [0, 1, 2], 0, ones 32, merge b a (vecMask fmt g)),
        (.vperm, [0, 1, 2], fmt, g, lanesOf fun i => lane w a (lane w b i % count)),
        (.vsplat, [0, 1, 2], fmt, g, lanesOf fun _ => c.sreg y.a),
        (.vswapiq, [2], 2, g, ofLanes 16 ((List.range 32).map fun i => lane 16 a (if i % 2 = 0 then i + 1 else i - 1))),
        (.vunpkl, [1], 1, g, ofLanes 32 ((List.range 16).map fun i => unsignedOf 32 (signedOf 16 (lane 16 a i)))),
        (.vunpkh, [1], 1, g, ofLanes 32 ((List.range 16).map fun i => unsignedOf 32 (signedOf 16 (lane 16 a (16 + i))))),
        (.vmov, [0, 1, 2], fmt, g, a)] : List ((Syl → Instr) × List Nat × Nat × Nat × Nat)),
      Runs (op.1 y) s (fun t =>
        (op.2.1.contains fmt = false ∨ rnd = 3 → illegal n 1 s t) ∧
        (op.2.1.contains fmt = true → rnd ≠ 3 → vec op.2.2.1 op.2.2.2.1 op.2.2.2.2 false t))) ∧
    (∀ op ∈ ([(.vand, a &&& b), (.vor, a ||| b), (.vxor, a ^^^ b)] : List ((Syl → Instr) × Nat)),
      Runs (op.1 y) s (fun t => (fmt = 3 → illegal n 1 s t) ∧ (fmt ≠ 3 → vec fmt g op.2 false t))) ∧
    (∀ op ∈ ([(.vcmpeq, [0, 1, 2], fun p q => p == q), (.vcmplt, [0, 1], fun p q => decide (signedOf w p < signedOf w q))] :
        List ((Syl → Instr) × List Nat × (Nat → Nat → Bool))),
      let bad := op.2.1.contains fmt = false ∨ rnd = 3 ∨ 8 ≤ y.d
      let res := ofLanes (w / 16) ((List.range count).map fun i => if op.2.2 (lane w a i) (lane w b i) then ones (w / 16) else 0)
      Runs (op.1 y) s (fun t => (bad → illegal n 1 s t) ∧
        (¬bad → issues n 1 (if y.d = 0 then [] else [⟨2, .q y.d, res, predMask fmt g⟩]) false s t))) ∧
    Runs (.vext y) s (fun t =>
      let bad := fmt = 3 ∨ rnd = 3 ∨ count ≤ y.b
      let on := g.testBit (if fmt = 0 then y.b else 2 * y.b)
      let l := lane w a y.b
      (bad → illegal n 1 s t) ∧ (¬bad → on = false → issues n 1 [] false s t) ∧
      (¬bad → on = true →
        issues n 1 [⟨2, .s (c.sName y.d), (if fmt = 2 then l else unsignedOf 64 (signedOf w l)) % 2 ^ 64, ones 64⟩] false s t))) ∧
  (∀ (s : State) (y : Syl), y.stop = true → y.rsv = none → (y.core : Nat) < 128 → s.readyFor y.core 1 →
    let n : Nat := y.core
    let c := s.core n
    let sat := y.bits 4 1 == 1
    let rnd := y.bits 2 2
    let acc := y.bits 0 2
    let g := c.qreg y.pg.toNat
    let a := c.vreg y.a
    let b := c.vreg y.b
    let real : List Int := ((comps 0 a).zip (comps 0 b)).map fun p => p.1 * p.2
    let re (i : Nat) (conj : Bool) : Int :=
      let u := cplxOf (lane 32 a i)
      let v := cplxOf (lane 32 b i)
      if conj then u.re * v.re + u.im * v.im else u.re * v.re - u.im * v.im
    let im (i : Nat) (conj : Bool) : Int :=
      let u := cplxOf (lane 32 a i)
      let v := cplxOf (lane 32 b i)
      if conj then u.im * v.re - u.re * v.im else u.re * v.im + u.im * v.re
    let complex (conj : Bool) : List Int := (List.range 16).flatMap fun i => [re i conj, im i conj]
    let power : List (Option Int) := (List.range 16).flatMap fun i =>
      let u := cplxOf (lane 32 a i)
      [some (u.re * u.re + u.im * u.im), none]
    let toV (lat fmt : Nat) (fs : List Fit) (t : State) : Prop :=
      let live := (fs.zipIdx.filter fun f => activeComp fmt g f.2).map (·.1)
      ((live.any fun f => f.arith) = true → enters n s → excepts n 1 5 0 0 s t) ∧
      ((live.any fun f => f.arith) = false →
        issues n 1 [⟨lat, .v (c.vName y.d), ofLanes 16 (fs.map fun f => f.val), vecMask fmt g⟩] (live.any fun f => f.sat) s t)
    let toVA (vals mask : Nat) (flag : Bool) (t : State) : Prop :=
      coreOnly n s t ∧
      t.core n = ({ c with va := SMap.set zeroNat c.va acc (merge (SMap.get zeroNat c.va acc) vals mask) } : Core).issued false 1
        [⟨4, .va acc, vals, mask⟩] flag
    (∀ op ∈ ([(.vmul, 0, real), (.vcmul, 2, complex false), (.vcmulc, 2, complex true)] : List ((Syl → Instr) × Nat × List Int)),
      Runs (op.1 y) s (fun t => (rnd = 3 ∨ acc ≠ 0 → illegal n 1 s t) ∧
        (rnd ≠ 3 → acc = 0 → toV 4 op.2.1 (op.2.2.map fun p => fit 16 sat c.ovt (rndShift rnd p 15)) t))) ∧
    (∀ op ∈ ([(.vmac, 0, true, real.map some), (.vmsu, 0, true, real.map fun p => some (-p)), (.vcmac, 2, true, (complex false).map some),
        (.vcmacc, 2, true, (complex true).map some), (.vcmag, 2, false, power)] : List ((Syl → Instr) × Nat × Bool × List (Option Int))),
      let bad := rnd = 3 ∨ y.d ≠ 0 ∨ (op.2.2.1 = false ∧ y.b ≠ 0)
      let fs := op.2.2.2.zipIdx.map fun p => match p.1 with
        | some v => (governs op.2.1 g p.2, fit 40 sat c.ovt (signedOf 40 (lane 40 (SMap.get zeroNat c.va acc) p.2) + v))
        | none => (false, Fit.plain 0)
      Runs (op.1 y) s (fun t => (bad → illegal n 1 s t) ∧
        (¬bad → ((fs.any fun f => f.1 && f.2.arith) = true → enters n s → excepts n 1 5 0 0 s t) ∧
          ((fs.any fun f => f.1 && f.2.arith) = false →
            toVA (ofLanes 40 (fs.map fun f => f.2.val)) (ofLanes 40 (fs.map fun f => if f.1 then ones 40 else 0))
              (fs.any fun f => f.1 && f.2.sat) t)))) ∧
    Runs (.vaclr y) s (fun t =>
      let bad := rnd = 3 ∨ y.d ≠ 0 ∨ y.a ≠ 0 ∨ y.b ≠ 0 ∨ sat = true
      (bad → illegal n 1 s t) ∧
      (¬bad → toVA 0 (ofLanes 40 ((List.range 32).map fun i => if governs 0 g i then ones 40 else 0)) false t)) ∧
    Runs (.vrd y) s (fun t => (rnd = 3 ∨ y.a ≠ 0 → illegal n 1 s t) ∧
      (rnd ≠ 3 → y.a = 0 → toV 2 0 ((List.range 32).map fun i =>
        fit 16 sat c.ovt (rndShift rnd (signedOf 40 (lane 40 (SMap.get zeroNat c.vaSeen acc) i)) y.b)) t))) ∧
  (∀ (s : State) (y : Syl) (high : Bool), y.stop = true → y.rsv = none → (y.core : Nat) < 128 → s.readyFor y.core 1 →
    let n : Nat := y.core
    let c := s.core n
    let op : Instr := if high then .vacsh y else .vacsl y
    let sat := y.bits 4 1 == 1
    let tp := if y.bits 0 1 = 0 then 14 else 15
    let qd := y.bits 1 3
    let addr := c.preg tp % 2 ^ 48
    let bad := y.pg ≠ 0 ∨ y.a % 2 = 1 ∨ y.d = y.a ∨ y.d = y.a + 1
    let m (k : Nat) : Int := signedOf 16 (lane 16 (if k < 32 then c.vreg y.a else c.vreg (y.a + 1)) (k % 32))
    let br (i : Nat) : Int := signedOf 16 (lane 16 (c.vreg y.b) i)
    let c0 (i : Nat) : Int := m (2 * i) + (if high then -br i else br i)
    let c1 (i : Nat) : Int := m (2 * i + 1) + (if high then br i else -br i)
    let cap (v : Int) : Int := max (-32767) (min 32767 v)
    let out (v : Int) : Bool := decide (v < -32768) || decide (32767 < v)
    let pick (i : Nat) : Bool :=
      if sat then decide (cap (c0 i) < cap (c1 i)) else decide (0 < signedOf 16 (unsignedOf 16 (c1 i - c0 i)))
    let metric (i : Nat) : Nat :=
      let v := if pick i then c1 i else c0 i
      unsignedOf 16 (if sat then cap v else v)
    let word := ofLanes 1 ((List.range 32).map fun i => if pick i then 1 else 0)
    let wraps := sat = false ∧ c.ovt = true ∧ ∃ i, i < 32 ∧ (out (c0 i) || out (c1 i)) = true
    Runs op s (fun t =>
      (bad → illegal n 1 s t) ∧ (¬bad → wraps → enters n s → excepts n 1 5 0 0 s t) ∧
      (¬bad → ¬wraps → c.pl < 2 → c.resume = false → c.wbuf.length < 4 → addr % 4 = 0 →
        ∀ o, ownMemory n true addr 4 = some o →
          coreOnly n s t ∧
          t.core n = ({ c with wbuf := c.wbuf ++ [⟨[(o, leBytes 4 word)]⟩] } : Core).issued false 1
            (⟨2, .v (c.vName y.d), ofLanes 16 ((List.range 32).map metric), ones 512⟩ ::
              (if qd = 0 then [] else [⟨2, .q qd, word, ones 32⟩]) ++ [⟨1, .p tp, unsignedOf 64 ((c.preg tp : Int) + 4), ones 64⟩])
            (sat && (List.range 32).any fun i => decide (cap (c0 i) ≠ c0 i) || decide (cap (c1 i) ≠ c1 i)))))

/-- The loads, stores and control operations of the DSP cores, each issued alone in its bundle, and the events of the cores.
- R184, R190, R199 to R203, R217, R234, R235. The addresses of loads and stores: base plus scaled offset, linear, by K, circular within the K
  register's buffer, and the illegal modes. Each load and store alone in its bundle on a Fold core: a guard that is off does nothing; a misaligned
  access raises ALIGN; one in the core's own memory that a TK window or the level allows is performed: a load brings its bytes, past the write buffer,
  at latency 3; a store enters the write buffer; the pointer is updated; memory keeps. A scalar access outside the TK windows raises WINDOW_FAULT and
  one outside the core's own memory freezes the Fold.
- R217, R222, R301. On a control core: a load and a store that meet a line of its data cache, a write buffer that drains into it, and the cache
  actions: DC_CLEAN writes a dirty line back, DC_INV drops it, DC_FLUSH does both, IC_INV drops an instruction line, all after the write buffer, and
  freeze the core where its protection unit forbids the line. On a Fold core WRITE_BUFFER_DRAIN performs the oldest store in data memory.
- R206, R208, R213, R218, R219, R239, R240. The control transfers alone in their bundle: BR, CALL and JR go to their target, on a Fold core inside the
  program half; LOOP, LOOPI, REP and REPI start with a count or skip with 0; TRAP completes its bundle and enters; RFE restores STATUS and the PC.
  FENCE holds the next bundle while the write buffer drains, SIGNAL sets IPEND.SW of a core of the Fold, VIOL freezes, DONE completes the release once
  the core has drained. MTC changes the bits that its level may. RSVD bits, guards and counts out of range raise ILLEGAL_OP, a level too low PRIV_OP.
- R206, R209 to R212, R216, R225, R230, R242, R243, R246. The events of the cores: LOOP_END counts LC down and goes back to LSA or ends the loop,
  rotating the files whose enable bit is set; INTERRUPT_ENTRY enters FW for the lowest pending and enabled source; CYC_CMP_MATCH sets IPEND.CYC;
  ACQ_COMMIT queues the command under its tag or raises ACC_REFUSED; ACCELERATOR_COMMAND_COMPLETE makes the tag DONE. A reserved OPC, an extension
  syllable in front and an operation that a control core does not have raise ILLEGAL_OP; an exception saves the PC and STATUS, writes the cause and
  the address, and goes to the entry of its level with the shadow set. -/
def Obligations.MemoryAndControlSyllables : Prop :=
  ((∀ (c : Core) (mode ofs size p : Nat),
    let v := c.preg p
    let k := c.kreg (ofs % 8)
    let m := log2Ceil (kLen k)
    (mode = 0 → c.address mode ofs size p = some (unsignedOf 48 ((v : Int) + signedOf 8 ofs * (size : Int)), none)) ∧
    (mode = 1 → c.address mode ofs size p = some (v % 2 ^ 48, some (unsignedOf 64 ((v : Int) + signedOf 8 ofs * (size : Int))))) ∧
    (mode = 2 → ofs < 8 → c.address mode ofs size p = some (v % 2 ^ 48, some (unsignedOf 64 ((v : Int) + signedOf 32 k)))) ∧
    (mode = 3 → ofs < 8 → v < 2 ^ 64 → v % 2 ^ m < kLen k → (kStep k).natAbs ≤ kLen k →
      c.address mode ofs size p = some (v % 2 ^ 48, some ((v / 2 ^ m * 2 ^ m +
        (((v % 2 ^ m : Nat) : Int) + signedOf 32 k).emod (kLen k : Int)).toNat % 2 ^ 64))) ∧
    (5 ≤ mode ∨ (2 ≤ mode ∧ 8 ≤ ofs) → c.address mode ofs size p = none)) ∧
  (∀ (s : State) (y : Syl), y.stop = true → y.rsv = none → (y.core : Nat) < 128 → s.readyFor y.core 1 → (s.core y.core).resume = false →
    let n : Nat := y.core
    let c := s.core n
    let f := n / 8
    let r := y.bits 15 5
    let p := y.bits 11 4
    let off (a : Nat) : Nat := (foldOffset n a).getD 0
    let bytes (a len : Nat) : List Byte := c.forward (off a) ((List.range len).map fun j => s.mem.read (foldAddr f (off a + j)))
    let posts (post : Option Nat) : List Pend := post.toList.map fun v => ⟨1, .p p, v, ones 64⟩
    let frozen (t : State) : Prop := t.unitState 0 f = 1 ∧ memKept s t
    let checked (store : Bool) (size : Nat) (a : Nat) (t : State) (q : Nat → Prop) : Prop := (store = true → c.wbuf.length < 4) →
      (a % size ≠ 0 → enters n s → excepts n 1 2 a 0 s t) ∧
      (a % size = 0 → ownMemory n store a size = none → frozen t) ∧
      (∀ o, a % size = 0 → ownMemory n store a size = some o →
        (c.pl = 2 → c.tkRange store o size = false → enters n s → c.flight = [] →
          coreOnly n s t ∧ (t.core n).getCr 0x14 = 0x8000 ∧ (t.core n).pc = (if c.exk = false then 0xC0 else 0x40) ∧
          (t.core n).getCr (if c.exk = false then 0x13 else 0x23) = a) ∧
        (c.pl < 2 ∨ c.tkRange store o size = true → q o))
    let load (size : Nat) (signed : Bool) (dst : Dst) (t : State) : Prop :=
      match c.address (y.bits 8 3) (y.bits 0 8) size p with
      | none => illegal n 1 s t
      | some (a, post) => checked false size a t fun _ =>
        let v := leNat (bytes a size)
        issues n 1 (posts post ++ [⟨3, dst, if signed then unsignedOf 64 (signedOf (8 * size) v) else v, ones 64⟩]) false s t
    let store (size : Nat) (data : Nat) (t : State) : Prop :=
      match c.address (y.bits 8 3) (y.bits 0 8) size p with
      | none => illegal n 1 s t
      | some (a, post) => checked true size a t fun o =>
        coreOnly n s t ∧
        t.core n = ({ c with wbuf := c.wbuf ++ [⟨[(o, leBytes size data)]⟩] } : Core).issued false 1 (posts post) false
    (∀ op ∈ ([(.ldb, 1, true), (.ldbu, 1, false), (.ldh, 2, true), (.ldhu, 2, false), (.ldw, 4, true), (.ldwu, 4, false),
        (.ldd, 8, false)] : List ((Syl → Instr) × Nat × Bool)),
      Runs (op.1 y) s (fun t => guardedOp n y s t (load op.2.1 op.2.2 (.s (c.sName r)) t))) ∧
    (∀ op ∈ ([(.stb, 1), (.sth, 2), (.stw, 4), (.std, 8)] : List ((Syl → Instr) × Nat)),
      Runs (op.1 y) s (fun t => guardedOp n y s t (store op.2 (c.sreg r) t))) ∧
    Runs (.ldp y) s (fun t => guardedOp n y s t ((16 ≤ r → illegal n 1 s t) ∧ (r < 16 → load 8 false (.p r) t))) ∧
    Runs (.stp y) s (fun t => guardedOp n y s t ((16 ≤ r → illegal n 1 s t) ∧ (r < 16 → store 8 (c.preg r) t))) ∧
    (∀ op ∈ ([(.vld, .vst, 2), (.vldw, .vstw, 4)] : List ((Syl → Instr) × (Syl → Instr) × Nat)),
      let e := op.2.2
      let elems := (List.range (64 / e)).filter fun i => (c.qreg y.pg.toNat).testBit (if e = 2 then i else 2 * i)
      let lanes (g : Nat → Nat) : Nat := ofLanes (8 * e) ((List.range (64 / e)).map fun i => if elems.contains i then g i else 0)
      let allowed (st : Bool) (a : Nat) : Prop :=
        ∀ i ∈ elems, ∃ o, ownMemory n st (a + i * e) e = some o ∧ (c.pl < 2 ∨ c.tkRange st o e = true)
      Runs (op.1 y) s (fun t => match c.address (y.bits 8 3) (y.bits 0 8) 64 p with
        | none => illegal n 1 s t
        | some (a, post) => (a % 8 ≠ 0 → enters n s → excepts n 1 2 a 0 s t) ∧ (a % 8 = 0 → allowed false a →
          issues n 1 (posts post ++ (if elems = [] then [] else
            [⟨3, .v (c.vName r), lanes fun i => leNat (bytes (a + i * e) e), lanes fun _ => ones (8 * e)⟩])) false s t)) ∧
      Runs (op.2.1 y) s (fun t => match c.address (y.bits 8 3) (y.bits 0 8) 64 p with
        | none => illegal n 1 s t
        | some (a, post) => c.wbuf.length < 4 → (a % 8 ≠ 0 → enters n s → excepts n 1 2 a 0 s t) ∧ (a % 8 = 0 → allowed true a →
          coreOnly n s t ∧
          t.core n = ({ c with wbuf := if elems = [] then c.wbuf else
            c.wbuf ++ [⟨joinParts (elems.map fun i => (off (a + i * e), leBytes e (lane (8 * e) (c.vreg r) i)))⟩] } : Core).issued false 1
              (posts post) false))))) ∧
  ((∀ (s : State) (y : Syl), y.stop = true → y.rsv = none → 128 ≤ (y.core : Nat) → s.readyFor y.core 1 → y.pg = 0 →
    let n : Nat := y.core
    let c := s.core n
    let p := y.bits 11 4
    ∀ (a : Nat) (post : Option Nat) (x : CacheLine), c.address (y.bits 8 3) (y.bits 0 8) 8 p = some (a, post) → a % 8 = 0 → c.resume = false →
      s.cacheable a = true → c.line? (a / 64) = some x →
      let posts : List Pend := post.toList.map fun v => ⟨1, .p p, v, ones 64⟩
      Runs (.ldd y) s (fun t =>
        (c.mpuAllows 0 a 8 = true → issues n 1 (posts ++ [⟨3, .s (c.sName (y.bits 15 5)), leNat (c.forward a (slice x.bytes (a % 64) 8)), ones 64⟩])
          false s t) ∧
        (c.mpuAllows 0 a 8 = false → t.flt.shepFrozen.contains (n - 128) = true ∧ memKept s t)) ∧
      Runs (.std y) s (fun t => c.wbuf.length < 4 →
        (c.mpuAllows 1 a 8 = true → coreOnly n s t ∧
          t.core n = ({ c with wbuf := c.wbuf ++ [⟨[(a, leBytes 8 (c.sreg (y.bits 15 5)))]⟩] } : Core).issued true 1 posts false) ∧
        (c.mpuAllows 1 a 8 = false → t.flt.shepFrozen.contains (n - 128) = true ∧ memKept s t))) ∧
  (∀ (s : State) (n : Fin 136), s.halted = false → s.coreLives n = true → (s.core n).bundle = [] → (s.core n).doneDue = false →
    Runs (.writeBufferDrain n) s (fun t =>
      let c := s.core n
      (c.wbuf = [] → t.core n = c ∧ memKept s t) ∧
      ∀ st rest, c.wbuf = st :: rest →
        (isControl n = false → s.ecc.flips = [] → s.fld .MEM_INJECT Fld.MEM_INJECT_ARM = 0 →
          t.core n = { c with wbuf := rest } ∧ { t with mem := s.mem, dsp := { t.dsp with cores := s.dsp.cores } } = s ∧
          ((∀ q ∈ st.parts, q.1 + q.2.length ≤ 0x400000) →
            ∀ a, t.mem.read a = (st.parts.foldl (fun (m : Memory) q => m.writeBytes (foldAddr (n / 8) q.1) q.2) s.mem).read a)) ∧
        (isControl n = true → ∀ a bs x, st.parts = [(a, bs)] → c.line? (a / 64) = some x → coreOnly n s t ∧ (t.core n).wbuf = rest ∧
          ∀ z, (t.core n).line? (a / 64) = some z → z.dirty = true ∧
            ∀ i, i < bs.length → a % 64 + i < x.bytes.length → z.bytes.getD (a % 64 + i) 0 = bs.getD i 0))) ∧
  (∀ (s : State) (core : Fin 8) (addr : BitVec 48), s.halted = false → s.coreRuns (128 + core) = true → (s.core (128 + core)).wbuf = [] →
    let n := 128 + core.val
    let c := s.core n
    let l := addr.toNat / 64
    let allowed := c.mpuAllows 1 (64 * l) 64 = true
    let frozen (t : State) : Prop := t.flt.shepFrozen.contains core.val = true ∧ memKept s t
    let written (t : State) (x : CacheLine) : Prop :=
      let w := s.trying.agentWrite 76 (64 * l) x.bytes
      w.1.status = stOk → w.1.errs = [] → w.2.noc.wait = some [] → t.mem = w.2.mem
    let clean := ∀ x, c.line? l = some x → x.dirty = false
    Runs (.dcClean core addr) s (fun t => (¬allowed → frozen t) ∧ (allowed → (clean → t = s) ∧
      ∀ x, c.line? l = some x → x.dirty = true → written t x)) ∧
    Runs (.dcInv core addr) s (fun t => (¬allowed → frozen t) ∧
      (allowed → coreOnly n s t ∧ t.core n = { c with dcache := c.dcache.filter fun q => q.1 != l })) ∧
    Runs (.dcFlush core addr) s (fun t => (¬allowed → frozen t) ∧
      (allowed → (clean → coreOnly n s t ∧ t.core n = { c with dcache := c.dcache.filter fun q => q.1 != l }) ∧
        ∀ x, c.line? l = some x → x.dirty = true → written t x)) ∧
    Runs (.icInv core addr) s (fun t => (¬allowed → frozen t) ∧
      (allowed → coreOnly n s t ∧ t.core n = { c with icache := c.icache.filter fun q => q != l })))) ∧
  (∀ (s : State) (y : Syl), y.stop = true → y.rsv = none → s.readyFor y.core 1 →
    let n : Nat := y.core
    let c := s.core n
    let ctl := isControl n
    let next := c.pc + 4
    let still := c.la = false ∧ c.ra = false
    let reach (t : Int) : Prop := 0 ≤ t ∧ (t < 0x80000 ∨ (ctl = true ∧ t < 2 ^ 48))
    let branch (ws : List Pend) (target : Int) (t : State) : Prop :=
      coreOnly n s t ∧ t.core n = (c.retired ctl ws false).jump target.toNat
    let rel : Int := (c.pc : Int) + 4 * signedOf 20 (y.bits 0 20)
    let jr : Nat := c.sreg y.a % 2 ^ 19
    let priv (t : State) : Prop := enters n s → excepts n 1 4 0 0 s t
    let last := c.pc + 4 * y.bits 0 10
    let loop (bad : Prop) (count : Nat) (t : State) : Prop :=
      (bad ∨ y.pg ≠ 0 ∨ c.la = true ∨ last ≤ next → c.ra = false → illegal n 1 s t) ∧
      (¬bad → y.pg = 0 → next < last → still → coreOnly n s t ∧
        t.core n = (if count = 0 then { c.retired ctl [] false with pc := last + 4 * s.bundleLen n last }
          else { (c.retired ctl [] false).startLoop count next last with pc := next }))
    let rep (bad : Prop) (count : Nat) (t : State) : Prop :=
      (bad ∨ y.pg ≠ 0 ∨ 4096 < count ∨ c.ra = true → illegal n 1 s t) ∧
      (¬bad → y.pg = 0 → count ≤ 4096 → still → coreOnly n s t ∧
        let k : Core := { c.retired ctl [] false with pc := next + 4 * s.bundleLen n next }
        t.core n = (if count = 0 then (if k.la ∧ next = k.getCr 6 then { k with loopDue := true } else k)
          else { (c.retired ctl [] false).startRep count with pc := next }))
    let frozen (code : Nat) (t : State) : Prop := memKept s t ∧
      (if ctl then t.flt.shepFrozen.contains (n - 128) = true else t.unitState 0 (n / 8) = 1) ∧
      bitsOf (t.rd (.FLT_REC (s.fld .FLT_STATUS Fld.FLT_STATUS_WR_IDX) 0)).toNat 56 8 = code
    (∀ op ∈ ([(.br, true, [], rel), (.call, true, [⟨1, .s (c.sName 15), next % 2 ^ 64, ones 64⟩], rel),
        (.jr, decide (y.bits 15 5 = 0 ∧ y.bits 0 10 = 0 ∧ jr % 4 = 0), [], (jr : Int))] : List ((Syl → Instr) × Bool × List Pend × Int)),
      Runs (op.1 y) s (fun t => guardedOp n y s t ((op.2.1 = false → illegal n 1 s t) ∧
        (op.2.1 = true → still → (reach op.2.2.2 → branch op.2.2.1 op.2.2.2 t) ∧
          (ctl = false → ¬reach op.2.2.2 → frozen 2 t))))) ∧
    Runs (.loop y) s (loop (y.bits 10 5 ≠ 0) (c.sreg (y.bits 15 5) % 2 ^ 32)) ∧
    Runs (.loopi y) s (loop False (y.bits 10 10)) ∧
    Runs (.rep y) s (rep (y.bits 0 15 ≠ 0) (c.sreg (y.bits 15 5))) ∧
    Runs (.repi y) s (rep (y.bits 13 7 ≠ 0) (y.bits 0 13)) ∧
    Runs (.fence y) s (fun t => (y.ops ≠ 0 ∨ y.pg ≠ 0 → illegal n 1 s t) ∧
      (y.ops = 0 → y.pg = 0 → c.ra = false → coreOnly n s t ∧ t.core n = { c.issued ctl 1 [] false with fence := true })) ∧
    Runs (.trap y) s (fun t => guardedOp n y s t ((y.bits 8 12 ≠ 0 → illegal n 1 s t) ∧
      (y.bits 8 12 = 0 → still → c.flight = [] → enters n s →
        let kn := c.pl = 2 ∧ c.exk = false
        let e := if kn then 0x10 else 0x20
        coreOnly n s t ∧ (t.core n).getCr e = next ∧ (t.core n).getCr (e + 1) = c.status ∧ (t.core n).getCr (e + 3) = y.bits 0 8 ∧
        (t.core n).getCr (e + 2) = 6 + 2 ^ 10 * c.pl + 2 ^ 12 ∧ (t.core n).pc = (if kn then 0xC0 else 0x40)))) ∧
    Runs (.rfe y) s (fun t =>
      let goal := bitsOf (c.getCr (if c.pl = 0 then 0x21 else 0x11)) 0 2
      (y.ops ≠ 0 ∨ y.pg ≠ 0 ∨ (c.pl ≠ 2 ∧ (goal = 3 ∨ (ctl = true ∧ goal = 2))) → c.ra = false → illegal n 1 s t) ∧
      (y.ops = 0 → y.pg = 0 → c.pl = 2 → c.ra = false → priv t) ∧
      (y.ops = 0 → y.pg = 0 → c.pl ≠ 2 → goal ≠ 3 → (ctl = true → goal ≠ 2) → c.ra = false →
        let epc := c.getCr (if c.pl = 0 then 0x20 else 0x10) / 4 * 4
        let st := c.getCr (if c.pl = 0 then 0x21 else 0x11) % 2 ^ 10
        (ctl = false → epc < 0x80000) →
          coreOnly n s t ∧ (t.core n).pc = epc ∧ (t.core n).status = st ∧ (t.core n).bundle = [] ∧
          (t.core n).resume = (decide (st % 4 = 2) && (c.getCr 0x14).testBit 15) ∧
          (c.flight = [] → st.testBit 3 = c.sh → (t.core n).s = c.s ∧ (t.core n).p = c.p ∧ (t.core n).q = c.q) ∧
          (c.flight = [] → st.testBit 3 = !c.sh → ∀ k, k < 16 →
            SMap.get zeroNat (t.core n).s k = SMap.get zeroNat c.s2 k ∧ SMap.get zeroNat (t.core n).s2 k = SMap.get zeroNat c.s k))) ∧
    Runs (.signal y) s (fun t =>
      let m := coreNo (n / 8) (y.bits 0 3)
      (y.bits 3 17 ≠ 0 ∨ y.pg ≠ 0 ∨ ctl = true → illegal n 1 s t) ∧
      (y.bits 3 17 = 0 → y.pg = 0 → ctl = false → (c.pl ≠ 0 → priv t) ∧
        (c.pl = 0 → ∀ k, t.core k =
          let b := if k = n then c.issued false 1 [] false else s.core k
          if k = m then (if k = n then (({ c.retired false [] false with cr :=
            ((c.retired false [] false).setCr 0x26 (setBitsOf ((c.retired false [] false).getCr 0x26) 3 1 1)).cr } : Core).goesOn c.pc next)
            else b.setCr 0x26 (setBitsOf (b.getCr 0x26) 3 1 1)) else b))) ∧
    Runs (.viol y) s (fun t =>
      let bad := y.bits 8 12 ≠ 0 ∨ y.pg ≠ 0
      (bad → illegal n 1 s t) ∧ (¬bad → (c.pl ≠ 0 → priv t) ∧
        (c.pl = 0 → (y.bits 0 8 < 1 ∨ 5 < y.bits 0 8 → illegal n 1 s t) ∧ (1 ≤ y.bits 0 8 → y.bits 0 8 ≤ 5 → frozen (y.bits 0 8) t)))) ∧
    Runs (.done y) s (fun t =>
      let bad := y.ops ≠ 0 ∨ y.pg ≠ 0 ∨ ctl = true
      (bad → illegal n 1 s t) ∧ (¬bad → c.ra = false → (c.pl ≠ 0 → priv t) ∧
        (c.pl = 0 → (c.sh = true → illegal n 1 s t) ∧
          (c.sh = false → (c.wbuf ≠ [] ∨ c.tagsIn 1 ≠ 0 → coreOnly n s t ∧ t.core n = { c.issued false 1 [] false with doneDue := true }) ∧
            (c.wbuf = [] → c.tagsIn 1 = 0 → ∀ r, s.serving 0 (n / 8) (n % 8) 0 = some r →
              ∀ q ∈ t.drv.rels, q.idx = r.idx → q.status = .complete))))) ∧
    Runs (.mtc y) s (fun t =>
      let num := y.bits 0 8
      let v := c.sreg y.a
      let bad := y.bits 8 2 ≠ 0 ∨ y.bits 15 5 ≠ 0 ∨ y.pg ≠ 0 ∨ crExists ctl num = false
      (bad → illegal n 1 s t) ∧
      (¬bad → c.ra = false → (crLevel num < c.pl → priv t) ∧
        (c.pl ≤ crLevel num →
          (c.la = true → 4 ≤ num → num ≤ 8 → illegal n 1 s t) ∧
          (c.la = false ∨ ¬(4 ≤ num ∧ num ≤ 8) →
            (num ∉ [0x26, 0x40, 0x41, 0x42, 0x43] → issues n 1 [⟨1, .cr num, v, crMask ctl c.pl num⟩] false s t) ∧
            (num = 0x26 → issues n 1 [⟨1, .cr 0x26, 0, v % 16⟩] false s t) ∧
            (num = 0x43 → c.mpuAllows 1 (v % 2 ^ 48 / 64 * 64) 64 = true → c.wbuf = [] → coreOnly n s t ∧
              t.core n = { c.issued ctl 1 [] false with icache := c.icache.filter fun x => x != v % 2 ^ 48 / 64 }))))) ∧
    Runs (.acq y) s (fun t =>
      let bad := y.bits 4 4 ≠ 0 ∨ y.bits 10 1 ≠ 0 ∨ y.bits 15 5 ≠ 0 ∨ y.pg ≠ 0 ∨ ctl = true
      (bad → illegal n 1 s t) ∧ (¬bad → c.ra = false → coreOnly n s t ∧ t.core n = { c with bundle := [.acq y] })) ∧
    Runs (.acwait y) s (fun t =>
      let bad := y.bits 4 16 ≠ 0 ∨ y.pg ≠ 0 ∨ ctl = true
      let tag := SMap.get zeroNat c.tags (y.bits 0 4)
      (bad → illegal n 1 s t) ∧ (¬bad → c.ra = false →
        (tag = 1 → coreOnly n s t ∧ t.core n = { c with bundle := [.acwait y] }) ∧
        (tag ≠ 1 → coreOnly n s t ∧
          t.core n = { ({ c with acqs := [] } : Core).issued false 1 [] false with tags := SMap.set zeroNat c.tags (y.bits 0 4) 0 })))) ∧
  ((∀ (c : Core) (fw : Bool) (epc cause addr entry : Nat), c.flight = [] →
    let e := if fw then 0x20 else 0x10
    let k := c.enter fw epc cause addr entry
    k.getCr e = epc ∧ k.getCr (e + 1) = c.status ∧ k.getCr (e + 2) = cause ∧ k.getCr (e + 3) = addr ∧ k.pc = entry ∧ k.bundle = [] ∧
    k.pl = (if fw then 0 else 1) ∧ k.ie = false ∧ k.la = false ∧ k.ra = false ∧ k.sh = true ∧ (fw = true → k.exf = true ∧ k.exk = c.exk) ∧
    (fw = false → k.exk = true ∧ k.exf = c.exf) ∧ k.ovt = c.ovt ∧ k.v = c.v ∧ k.va = c.va ∧ k.k = c.k ∧
    (c.sh = true → k.s = c.s ∧ k.p = c.p ∧ k.q = c.q) ∧
    (c.sh = false → (∀ r, r < 16 → SMap.get zeroNat k.s r = SMap.get zeroNat c.s2 r ∧ SMap.get zeroNat k.s2 r = SMap.get zeroNat c.s r) ∧
      ∀ r, 16 ≤ r → SMap.get zeroNat k.s r = SMap.get zeroNat c.s r)) ∧
  (∀ (s : State) (i : Instr) (y : Syl), sylOf i = some y → y.stop = true → s.readyFor y.core 1 →
    y.rsv.isSome = true ∨ opClass i = some .ext ∨ (128 ≤ (y.core : Nat) ∧ controlHas i = false) → Runs i s (fun t => illegal y.core 1 s t)) ∧
  (∀ (s : State) (n : Fin 136), s.halted = false → s.coreRuns n = true →
    let c := s.core n
    Runs (.loopEnd n) s (fun t =>
      (c.loopDue = false → t.core n = c ∧ memKept s t) ∧
      (c.loopDue = true → coreOnly n s t ∧
        let lc := (c.getCr 4 + (2 ^ 64 - 1)) % 2 ^ 64
        let k := t.core n
        k.loopDue = false ∧ k.getCr 4 = lc ∧ k.pc = (if lc = 0 then c.pc else c.getCr 5 / 4 * 4) ∧ (lc = 0 → k.la = false) ∧ (lc ≠ 0 → k.la = c.la) ∧
        k.spos = (if (c.getCr 7).testBit 0 then (c.spos + 1) % 16 else c.spos) ∧
        k.vpos = (if (c.getCr 7).testBit 1 && !isControl n then (c.vpos + 1) % 16 else c.vpos) ∧ k.s = c.s ∧ k.v = c.v)) ∧
    Runs (.interruptEntry n) s (fun t => memKept s t ∧
      (c.loopDue = false → c.bundle = [] →
        ((∀ b, b < 4 → ((c.getCr 0x26).testBit b && (c.getCr 0x25).testBit b) = false) ∨ c.ie = false ∨ c.exf = true ∨ c.resume = true ∨ c.ra = true ∨
          (c.la = true ∧ c.pc ≠ c.getCr 5) → t = s) ∧
        ∀ b, b < 4 → ((c.getCr 0x26).testBit b && (c.getCr 0x25).testBit b) = true →
          (∀ d, d < b → ((c.getCr 0x26).testBit d && (c.getCr 0x25).testBit d) = false) →
          c.ie = true → c.exf = false → c.resume = false → c.ra = false → (c.la = true → c.pc = c.getCr 5) → c.flight = [] →
            let k := t.core n
            k.pc = 0x80 ∧ k.getCr 0x20 = c.pc ∧ k.getCr 0x21 = c.status ∧ k.getCr 0x22 % 2 ^ 8 = 0x80 + b ∧ bitsOf (k.getCr 0x22) 10 2 = c.pl ∧
            k.getCr 0x23 = 0 ∧ k.pl = 0 ∧ k.ie = false ∧ k.exf = true))) ∧
  (∀ (s : State) (n : Fin 136), s.halted = false → s.coreLives n = true → s.quiet →
    let m := (s.core n).getCr 0x27 % 2 ^ 14
    Runs (.cycCmpMatch n) s (fun t => (m < s.tm.cycle ∨ 14000 ≤ m → t = s) ∧
      (s.tm.cycle ≤ m → m < 14000 → t.tm.cycle = m ∧ memKept s t ∧ (∀ k, k ≠ n.val → t.core k = s.core k) ∧
        t.core n = (s.core n).setCr 0x26 (setBitsOf ((s.core n).getCr 0x26) 1 1 1)))) ∧
  (∀ (s : State) (n : Fin 128) (y : Syl), s.halted = false → s.coreRuns n = true → s.ecc.flips = [] →
    let c := s.core n
    let p := c.preg (y.bits 11 4) % 2 ^ 48
    let unit := y.bits 8 2
    let tag := y.bits 0 4
    let d := (List.range 64).map fun i => s.mem.read (realAddr n p + i)
    y.core.val = n.val → y.stop = true → y.rsv = none → y.pg = 0 → y.bits 4 4 = 0 → y.bits 10 1 = 0 → y.bits 15 5 = 0 → c.ra = false →
    c.bundle = [.acq y] → c.wbuf = [] →
    Runs (.acqCommit n) s (fun t =>
      (accBadPlace c n p = true → enters n s → excepts n 1 7 (2 ^ 56 + p) 0 s t) ∧
      (accBadPlace c n p = false →
        (∀ e, accRefusal c n p unit tag (SMap.get zeroNat s.dsp.enable (n / 8)) d = some e → enters n s →
          excepts n 1 7 (2 ^ 56 * e.1 + e.2 % 2 ^ 48) 0 s t) ∧
        (accRefusal c n p unit tag (SMap.get zeroNat s.dsp.enable (n / 8)) d = none →
          t.core n = { c.issued false 1 [] false with
            tags := SMap.set zeroNat c.tags tag 1
            acqs := ⟨4, tag, SMap.get zeroNat c.tags tag⟩ :: (c.issued false 1 [] false).acqs } ∧
          t.dsp.cmds = s.dsp.cmds ++ [⟨n / 8, n % 8, unit, tag, d, s.absCycle, false⟩] ∧ (∀ k, k ≠ n.val → t.core k = s.core k) ∧
          { t with dsp := s.dsp } = s)))) ∧
  (∀ (s : State) (f : Fin 16) (u : Fin 4), s.halted = false →
    Runs (.acceleratorCommandComplete f u) s (fun t =>
      (s.accHead f u = none → t = s) ∧
      ∀ x, s.accHead f u = some x →
        let n := coreNo f x.core
        let c := s.core n
        (x.ran = false → t = s) ∧
        (x.ran = true → c.bundle = [] → c.doneDue = false →
          t.dsp.cmds = (s.dsp.cmds.filter fun o => !o.same x) ∧ (∀ k, k ≠ n → t.core k = s.core k) ∧ { t with dsp := s.dsp } = s ∧
          SMap.get zeroNat (t.core n).tags x.tag = 2 ∧
          (t.core n).getCr 0x26 = (if accField x.bytes 1 1 % 2 = 1 then setBitsOf (c.getCr 0x26) 2 1 1 else c.getCr 0x26)))))

/-! ### The work of the engines -/

/-- The work of the accelerators, of the MCEs and of the kernels of the Folds.
- R241 to R259. An accelerator serves the command with the earliest commit: without one, or with one of another operation, its commands change
  nothing; else it reads its inputs, writes its output and the command has run. GRAM by its formula; CHOL the factors of the matrix; TRSV and SOLVE a
  solution of their equations; each element within 2^-20 of the largest magnitude of its column before rounding; DFT and IDFT within 2 LSB of their
  formula; GOLD_BITS exact; GOLD_QPSK, ZC and LOWPAPR within 1 LSB; DECODE the result word and the payload.
- R119 to R126, R134 to R137, R150. The jobs of an MCE: with no release in service, or one of another OP_CODE or done, a command changes nothing; an
  ARG or a descriptor that breaks R119 or R121 freezes the MCE. LOAD_WEIGHTS fills weight memory and sets its lines valid; COMBINE, PRECODE and DEMAP
  write their symbols; an entry of another kind is rejected by DEMAP. MCE_STAT_CLR zeroes the counters.
- R126 to R133, R138 to R140, R178, R180. The kernels of the Folds: with no release in service, or one that has run, a command changes nothing; an
  entry of a kind that the kernel does not serve is rejected. Else: GAIN_SELECT writes the gain vector; FO_TRACK moves the table a quarter of the way
  to an estimate, or starts at it; PUSCH_PHASE writes exp(-2 pi j fo t) without PTRS; PUSCH_TP_IDFT transforms in place; the other kernels write
  estimates, weights, reference symbols, LLRs and UCI, and the release has been done. -/
def Obligations.EngineWork : Prop :=
  ((∀ (s : State) (f : Fin 16), s.halted = false →
    let serves (x : Instr) (unit op : Nat) (work : State → State) (P : List Byte → List (List Byte) → List (Nat × List Byte) → Prop) : Prop :=
      Runs x s (fun t =>
        (s.accHead f unit = none → t = s) ∧
        ∀ c, s.accHead f unit = some c →
          (c.ran = true ∨ accField c.bytes 0 1 ≠ op → t = s) ∧
          (c.ran = false → accField c.bytes 0 1 = op → s.unhindered work →
            let rd := s.trying.accRead c (((accRegions unit c.bytes).filter fun r => !r.out).flatMap Region.ranges)
            rd.1 = none → ∃ (v : State) (rows : List (Nat × List Byte)), { v with freeCtr := rd.2.2.freeCtr } = rd.2.2 ∧
              P c.bytes rd.2.1 rows ∧ t.mem = (v.accWrite c rows).mem ∧ ∀ o ∈ t.dsp.cmds, o.same c = true → o.ran = true))
    let near (k : Nat) (xs ys : List Cplx) : Prop := ys.length = xs.length ∧
      ∀ i, i < xs.length → ∃ a b : Int, a.natAbs ≤ k ∧ b.natAbs ≤ k ∧ ys.getD i Cplx.zero = ((xs.getD i Cplx.zero).add ⟨a, b⟩).sat16
    let samples (xs : List Byte → List Cplx) (d : List Byte) (_ : List (List Byte)) (rows : List (Nat × List Byte)) : Prop :=
      ∃ ys, near 1 (xs d) ys ∧ rows = outRows 2 d [cplxBytes ys]
    let n (d : List Byte) : Nat := accField d 8 1
    let k (d : List Byte) : Nat := accField d 10 2
    let right (d : List Byte) (xs : List (List Byte)) : CMat :=
      matrixOf (xs.drop (n d)) (k d) ((accField d 9 1).testBit 2) (signedOf 8 (accField d 13 1))
    let rounded (d : List Byte) (x : CMat) (rows cols : Nat) (exactAt realAt : Nat → Nat → Bool) (written : List (List Byte)) : Prop :=
      let w := if (accField d 9 1).testBit 0 then 16 else 32
      let out (r : Rat) : List Byte := leBytes (w / 8) (unsignedOf w (satS w (roundEven (twoPow (-(signedOf 8 (accField d 14 1))) * r))))
      ∃ z : Nat → Nat → CRat,
        (∀ i j, i < rows → j < cols → (exactAt i j = true → z i j = x.get i j) ∧
          ∀ m : Rat, (∀ p, p < rows → (x.get p j).normSq ≤ m) → ((z i j).sub (x.get i j)).normSq ≤ m * mkRat 1 (2 ^ 40)) ∧
        written = (List.range rows).map fun i => (List.range cols).flatMap fun j =>
          out (z i j).re ++ (if realAt i j then List.replicate (w / 8) 0 else out (z i j).im)
    let never (_ _ : Nat) : Bool := false
    serves (.gram f) 0 1 (fun v => v.accGram f) (fun d xs rows => rows = outRows 0 d ((List.range (n d)).map fun i =>
      (List.range (n d)).flatMap fun j => c32Bytes (gramAt (xs.map cplxList) (accField d 14 1) (accField d 0x3C 4) i j))) ∧
    serves (.chol f) 0 2 (fun v => v.accChol f) (fun d xs rows =>
      let g := accFactors d xs
      let l := CMat.build (n d) (n d) fun i j => if i < j then CRat.zero else (g.at i j).smul (sqrtQ (g.pivots.getD j 0))
      ∃ written, rounded d l (n d) (n d) (fun i j => decide (i < j)) (fun i j => i == j) written ∧
        rows = outRows 0 d written ++ pivotReport d g.replaced) ∧
    serves (.trsv f) 0 3 (fun v => v.accTrsv f) (fun d xs rows =>
      let l := matrixOf (xs.take (n d)) (n d) true (signedOf 8 (accField d 12 1))
      let b := right d xs
      ∃ written, rows = outRows 0 d written ∧
        ((∀ i, i < n d → (l.get i i).normSq ≠ 0) → ∃ x : CMat, rounded d x (n d) (k d) never never written ∧
          ∀ i j, i < n d → j < k d →
            (if (accField d 9 1).testBit 1
              then CRat.sum ((List.range (n d - i)).map fun p => ((l.get (i + p) i).conj).mul (x.get (i + p) j))
              else CRat.sum ((List.range (i + 1)).map fun p => (l.get i p).mul (x.get p j))) = b.get i j)) ∧
    serves (.solve f) 0 4 (fun v => v.accSolve f) (fun d xs rows =>
      let g := accFactors d (xs.take (n d))
      let full (i p : Nat) : CRat := CRat.sum ((List.range (n d)).map fun q => ((g.at i q).mul (g.at p q).conj).smul (g.pivots.getD q 0))
      ∃ written, ∃ x : CMat, rounded d x (n d) (k d) never never written ∧ rows = outRows 0 d written ++ pivotReport d g.replaced ∧
        ∀ i j, i < n d → j < k d →
          CRat.sum ((List.range (n d)).map fun p => (full i p).mul (x.get p j)) = (right d xs).get i j) ∧
    (∀ inverse : Bool, serves (if inverse then .idft f else .dft f) 1 (if inverse then 2 else 1) (fun v => v.accDft f inverse) (fun d xs rows =>
      ∃ ys : List (List Cplx), ys.length = xs.length ∧ rows = outRows 1 d (ys.map cplxBytes) ∧
        ∀ i, i < xs.length → near 2 (dft inverse (accField d 8 2) (signedOf 8 (accField d 11 1)) (cplxList (xs.getD i []))) (ys.getD i []))) ∧
    serves (.goldBits f) 2 1 (fun v => v.accGoldBits f) (fun d _ rows =>
      rows = outRows 2 d [packBits (goldBits (accField d 8 4) (accField d 12 4) (accField d 0x10 4))]) ∧
    serves (.goldQpsk f) 2 2 (fun v => v.accGoldQpsk f) (samples fun d =>
      let bits := goldBits (accField d 8 4) (accField d 12 4) (2 * accField d 0x10 4)
      let part (i : Nat) : Int := scaledLevel (accField d 0x14 2) (bitSign (bits.getD i false)) 2
      (List.range (accField d 0x10 4)).map fun i => (⟨part (2 * i), part (2 * i + 1)⟩ : Cplx).sat16) ∧
    serves (.zc f) 2 3 (fun v => v.accZc f) (samples fun d =>
      let p := accField d 8 4
      let div := accField d 0x18 2
      (List.range (accField d 0x10 4)).map fun i => (unitTurn ((2 * p * accField d 0x16 2 * i : Nat) -
        (div * accField d 12 4 * (i % p * (i % p + 1)) : Nat)) (2 * div * p)).scaled (accField d 0x14 2)) ∧
    serves (.lowpapr f) 2 4 (fun v => v.accLowpapr f) (samples fun d => (List.range (accField d 0x10 4)).map fun i =>
      let a := shiftedSequence (accField d 8 4) 0 (accField d 12 4) (accField d 0x16 2) (accField d 0x18 2) i
      (unitTurn a.num a.den).scaled (accField d 0x14 2)) ∧
    serves (.decode f) 3 1 (fun v => v.accDecode f) (fun d xs rows =>
      let e := accField d 12 2
      let code := if accField d 8 1 = 0 then polarUci (k d) e ((accField d 9 1).testBit 0) else polarDown (k d) e
      let o := code.decode (accField d 8 1 == 1) (accField d 14 2) ((xs.headD []).map fun (b : Byte) => b.toInt)
      rows = outRows 3 d [leBytes 4 ((if o.ok then 1 else 0) + 2 * o.path) ++ leBytes 4 (min o.metric (2 ^ 32 - 1)) ++ packMsb o.payload])) ∧
  (∀ (a : List (List Cplx)) (sh reg i j : Nat), i ≠ j → gramAt a sh reg i j = (gramAt a sh reg j i).conj.map (satS 32) ∨
    gramAt a sh reg j i = (gramAt a sh reg i j).conj.map (satS 32)) ∧
  ∀ (g : CMat) (n : Nat) (instead : Rat), (ldl g n instead).replaced = [] → ∀ i j, i < n → j ≤ i →
    let l := ldl g n instead
    let sum := CRat.sum ((List.range (j + 1)).map fun q => ((l.at i q).mul (l.at j q).conj).smul (l.pivots.getD q 0))
    (j < i → sum = g.get i j) ∧ (j = i → sum.re = (g.get i i).re)) ∧
  ((∀ (s : State) (m : Fin 12), s.halted = false →
    let job (x : Instr) (op : Nat) (work : State → State) (good : Release → MceJob → State → State → Prop) : Prop :=
      let lane := if op % 2 ^ 15 = 4 then 1 else 0
      Runs x s (fun t =>
        (idleEngine 1 m 0 lane s → t = s) ∧
        ∀ r, s.serving 1 m 0 lane = some r →
          (r.ran = true ∨ relOp r.word ≠ op → t = s) ∧
          (r.ran = false → relOp r.word = op → s.unhindered work →
            let badArg := relArg r.word % 64 ≠ 0 ∨ pastureSize < relArg r.word + 64 ∨ (lane = 1 ∧ relFill r.word = false)
            (badArg → t.unitState 1 m = 1) ∧
            (¬badArg →
              let d := s.trying.agentRead (niMce m) (pastureBase + relArg r.word) 64
              let j := mceJobOf d.1.data
              d.1.status = stOk → (j.bad op = true → t.unitState 1 m = 1) ∧ (j.bad op = false → good r j d.2 t))))
    let ends (r : Release) (w : (Option (Nat × Reply)) × State) (t : State) : Prop := w.1 = none → t.mem = w.2.mem ∧ workDone r t
    let array (down : Bool) (r : Release) (j : MceJob) (v t : State) : Prop :=
      ∀ bs u, v.readBlocks m j down j.groups none [] = .inr (bs, u) →
        (j.gain = false → ends r (u.arraySymbols m j bs none (List.range j.symCount)) t) ∧
        (j.gain = true → let g := u.agentRead (niMce m) j.aux0 64
          g.1.status = stOk → ends r (g.2.arraySymbols m j bs (some (g.1.data.map fun x => x.toNat % 16)) (List.range j.symCount)) t)
    let demap (r : Release) (j : MceJob) (v t : State) : Prop :=
      let e := (v.entryOf r).getD []
      let last := entPrbStart e + entPrbCount e
      let unfit := (entKind e ≠ 2 ∧ entKind e ≠ 8) ∨ j.len < llrOffset e (j.symFirst + j.symCount) ∨ j.nsc < 12 * last
      (unfit → t.mem = v.mem ∧ workDone r t ∧ ∀ id ∈ r.req, ∀ q ∈ t.drv.store, q.id = id →
        ∀ x ∈ q.results[relFillIndex r.word]?, x.status = 2) ∧
      (¬unfit →
        let p := v.agentRead (niMce m) j.aux0 64
        let sc := p.2.agentRead (niMce m) j.aux1 (16 * ((last - 1) / 2 ^ j.gLog2 + 1))
        let slot := ((r.req.bind v.request).map (·.slot)).getD 0
        p.1.status = stOk → sc.1.status = stOk → ends r (sc.2.demapSymbols m j e
          (uplinkInit e (slot % 10) (v.fld (.DEC_CELL_C (relCell r.word)) Fld.DEC_CELL_C_PCI)) (cplxList (slice p.1.data 0 56))
          (fun g row => leAt sc.1.data ((8 * g + row) * 2) 2)
          ((dataSymbols e).filter fun y => decide (j.symFirst ≤ y) && decide (y < j.symFirst + j.symCount))) t)
    job (.loadWeights m) 1 (fun v => v.loadWeights m) (fun r j v t =>
      let d := v.agentRead (niMce m) j.inAddr j.len
      d.1.status = stOk → t.mem = (d.2.writeMem (mceAddr m j.wbase) (j.len + 1) d.1.data).1.mem ∧ workDone r t ∧
        (∀ i, i < j.len / 64 → t.lineValid m (j.wbase / 64 + i) = true) ∧
        ∀ i, i < j.wbase / 64 ∨ j.wbase / 64 + j.len / 64 ≤ i → t.lineValid m i = d.2.lineValid m i) ∧
    job (.combine m) 2 (fun v => v.arrayJob m false) (array false) ∧
    job (.precode m) 3 (fun v => v.arrayJob m true) (array true) ∧
    job (.demap m) 4 (fun v => v.demapJob m false) demap ∧
    job (.demapReplay m) 0x8004 (fun v => v.demapJob m true) demap) ∧
  ∀ s : State, s.halted = false → Runs .mceStatClr s (fun t =>
    onlyRegs ((List.range 12).flatMap fun n => [.MCE_JOBS n, .MCE_SAT n, .MCE_STATUS n]) s t ∧
    ∀ n, n < 12 → t.rd (.MCE_JOBS n) = 0 ∧ t.rd (.MCE_SAT n) = 0 ∧ t.fld (.MCE_STATUS n) Fld.MCE_STATUS_WMISS = 0 ∧
      t.fld (.MCE_STATUS n) Fld.MCE_STATUS_WVALID = s.fld (.MCE_STATUS n) Fld.MCE_STATUS_WVALID)) ∧
  ((∀ (s : State) (f : Fin 16) (c : Fin 8), s.halted = false →
    let v := s.trying
    let runs (x : Instr) (work : State → State) (good : Release → State → Prop) : Prop := Runs x s (fun t =>
      (idleEngine 0 f c 0 s → t = s) ∧
      ∀ r, s.serving 0 f c 0 = some r → (r.ran = true → t = s) ∧ (r.ran = false → s.unhindered work → good r t))
    let kernel (x : Instr) (kinds : List Nat) (work : State → State) (good : Release → List Byte → State → Prop) : Prop :=
      runs x work (fun r t =>
        (∀ e, s.entryOf r = some e → kinds.contains (entKind e) = false → t.mem = s.mem ∧ workDone r t ∧
          ∀ id ∈ r.req, ∀ q ∈ t.drv.store, q.id = id → ∀ y ∈ q.results[relFillIndex r.word]?, y.status = 2) ∧
        (∀ e, s.entryOf r = some e → kinds.contains (entKind e) = true → good r e t) ∧
        (s.entryOf r = none → good r [] t))
    let ends (r : Release) (w : (Option (Nat × Reply)) × State) (t : State) : Prop := w.1 = none → t.mem = w.2.mem ∧ workDone r t
    let writes (r : Release) (u : State) (a : Nat) (bytes : List Byte) (t : State) : Prop :=
      let w := u.agentWrite f a bytes
      w.1.status = stOk → t.mem = w.2.mem ∧ workDone r t
    let slotOf (r : Release) : Nat := slotNamed (s.slotLen (relCell r.word)) s.pos (relSlotOfs r.word)
    let uci (x : Instr) (kind : Nat) (lte : Bool) (llrs ulsch : BitVec 48) : Prop :=
      kernel x [kind] (fun v => v.puschUci f c llrs.toNat ulsch.toNat lte) (fun r e t =>
        let src := v.agentRead f llrs.toNat (llrOffset e 14)
        src.1.status = stOk → ∃ u : State, (entDataAddr e = 0 → u.mem = src.2.mem) ∧
          writes r u ulsch.toNat ((uciPlan e).ulsch.map fun p => match p with
            | some i => src.1.data.getD i 0
            | none => 0) t)
    (∀ gain : BitVec 48, runs (.gainSelect f c gain) (fun v => v.gainSelect f c gain.toNat) (fun r t =>
      let g := v.agentRead f gain.toNat 64
      let w := g.2.gainAntennas f (relCell r.word) (slotOf r) (g.2.uplinkAnts (relCell r.word)) g.1.data
      g.1.status = stOk → w.1 = none → writes r w.2.2 gain.toNat w.2.1 t)) ∧
    (∀ (gain out : BitVec 48) (gLog2 : Fin 5),
      kernel (.puschChest f c gain out gLog2) [2, 8] (fun v => v.puschChest f c gain.toNat out.toNat gLog2) (fun r e t =>
        (r.req.bind v.request = none → workDone r t ∧ t.mem = s.mem) ∧
        ∀ q, r.req.bind v.request = some q → ∃ u : State, u.mem = s.mem ∧
          let g := u.agentRead f gain.toNat 64
          let sym := ((List.range 14).find? (isDmrs e)).getD 0
          g.1.status = stOk → ends r (g.2.estimateAnts f q.start sym (entPrbStart e) (entPrbCount e) (fun ant ys =>
            let m := gainOf ((g.1.data.getD ant 0).toNat % 16)
            (rbGroups gLog2 (entPrbStart e) (entPrbCount e)).map fun grp =>
              (out.toNat + estimateAt grp.1 ant (entPortBase e), (List.range (entLayers e)).map fun layer =>
                leastSquares ys (v.entryDmrs q e sym layer) grp.2 (mkRat m.1 (2 ^ m.2)))) (v.uplinkAnts q.cell)) t)) ∧
    (∀ (est weights scale : BitVec 48) (rows cols first groups : BitVec 8) (stride : BitVec 16) (gLog2 : Fin 5) (unitLog2 : Fin 15),
      kernel (.puschMmse f c est weights scale rows cols first groups stride gLog2 unitLog2) [2, 8]
        (fun v => v.puschMmse f c est.toNat weights.toNat scale.toNat rows.toNat cols.toNat first.toNat groups.toNat stride.toNat gLog2 unitLog2)
        (fun r _ t =>
          let gs := (List.range groups.toNat).map (first.toNat + ·)
          let x := v.readEstimates f est.toNat cols.toNat rows.toNat gs
          x.1 = none → ∃ (noise : Rat) (blocks : List Byte) (u u' : State) (scales : List Int), 0 < noise ∧ u.mem = x.2.2.mem ∧
            let ws := (gs.zip x.2.1).map fun g =>
              mmseGroup g.2 cols.toNat rows.toNat unitLog2 noise (v.rowEnergy (relCell r.word) (slotOf r) gLog2 g.1)
            let w := u.agentWrite f weights.toNat blocks
            w.1.status = stOk → u'.mem = w.2.mem ∧ scales.length = 8 * ws.length ∧
              (∀ i k, i < ws.length → k < 8 → let z := scales.getD (8 * i + k) 0
                let y : Rat := ((ws.map (·.2)).getD i []).getD k 0
                y - 1 < (z : Rat) ∧ (z : Rat) < y + 1) ∧
              writes r u' (scale.toNat + 16 * first.toNat) (scales.flatMap fun z => leBytes 2 z.toNat) t)) ∧
    (∀ est : List (BitVec 16 × BitVec 32), runs (.foTrack f c est) (fun v => v.foTrack f c est) (fun r t =>
      t.mem = s.mem ∧ t.regs = s.regs ∧ workDone r t ∧
      ∀ rnti fo, est = [(rnti, fo)] →
        let key := 256 * relCell r.word + rnti.toNat % 256
        let old := SMap.get (fun _ => ((0 : Nat), (0 : Int))) s.mce.fo key
        let new := SMap.get (fun _ => ((0 : Nat), (0 : Int))) t.mce.fo key
        new.1 = rnti.toNat ∧ (old.1 ≠ rnti.toNat → new.2 = fo.toInt) ∧
        (old.1 = rnti.toNat → 4 * (new.2 - old.2) - (fo.toInt - old.2) < 4 ∧ -4 < 4 * (new.2 - old.2) - (fo.toInt - old.2)) ∧
        ∀ k, k ≠ key → SMap.get (fun _ => ((0 : Nat), (0 : Int))) t.mce.fo k = SMap.get (fun _ => ((0 : Nat), (0 : Int))) s.mce.fo k)) ∧
    (∀ out : BitVec 48, kernel (.puschPhase f c out) [2, 8] (fun v => v.puschPhase f c out.toNat) (fun r e t =>
      ∃ (u : State) (zs : List Cplx), { u with freeCtr := v.freeCtr } = v ∧ zs.length = 14 ∧
        writes r u out.toNat (cplxBytes zs ++ List.replicate 8 0) t ∧
        ((entKind e ≠ 2 ∨ entParam e 18 1 = 0) → ∀ i, i < 14 →
          let turn : Turn := ⟨-(s.foOf (relCell r.word) (entRnti e) * (i * s.slotLen (relCell r.word) : Nat)), 14 * ticksPerSecond⟩
          let p := (turn.add ⟨0, 2 ^ 16⟩).point.rat.smul (mkRat 1 (2 ^ 81))
          ∃ a b : Int, zs.getD i Cplx.zero = (⟨a, b⟩ : Cplx).sat16 ∧ p.re - 1 < a ∧ (a : Rat) < p.re + 1 ∧ p.im - 1 < b ∧ (b : Rat) < p.im + 1) ∧
        ((entKind e ≠ 2 ∨ entParam e 18 1 = 0) → s.foOf (relCell r.word) (entRnti e) = 0 → zs = List.replicate 14 ⟨32767, 0⟩))) ∧
    (∀ (layers : BitVec 48) (nsc : BitVec 12) (stride : BitVec 32),
      kernel (.puschTpIdft f c layers nsc stride) [2, 8] (fun v => v.puschIdft f c layers.toNat nsc.toNat stride.toNat) (fun r e t =>
        (entKind e = 2 ∧ entTp e = false → t.mem = s.mem ∧ workDone r t) ∧
        (¬(entKind e = 2 ∧ entTp e = false) →
          ends r (v.idftEach f (12 * entPrbCount e) (idftRows e layers.toNat nsc.toNat stride.toNat)) t))) ∧
    (∀ llrs ulsch : BitVec 48, uci (.puschUci f c llrs ulsch) 2 false llrs ulsch ∧ uci (.lteUci f c llrs ulsch) 8 true llrs ulsch) ∧
    kernel (.pucch f c) [3] (fun v => v.pucchKernel f c) (fun r e t =>
      (r.req.bind v.request = none → workDone r t ∧ t.mem = s.mem) ∧
      ∀ q, r.req.bind v.request = some q →
        let x := v.readAntennas f q.start e ((v.uplinkAnts q.cell).flatMap fun n => (entSymbols e).map fun sym => (n, sym))
        x.1 = none → workDone r t ∧ (entDataAddr e = 0 → t.mem = x.2.mem)) ∧
    kernel (.srsEst f c) [4] (fun v => v.srsEst f c) (fun r e t =>
      (r.req.bind v.request = none → workDone r t ∧ t.mem = s.mem) ∧
      ∀ q, r.req.bind v.request = some q → ∃ u : State, u.mem = s.mem ∧
        ends r (u.srsSymbols f q e (u.storeBase q.cell (entWeightSet e)) (entSymbols e)) t) ∧
    (∀ (weights : BitVec 48) (rows cols first groups : BitVec 8) (stride : BitVec 16) (gLog2 : Fin 5),
      kernel (.dlWeights f c weights rows cols first groups stride gLog2) [1, 5, 6, 7]
        (fun v => v.dlWeights f c weights.toNat rows.toNat cols.toNat first.toNat groups.toNat stride.toNat gLog2) (fun r _ t =>
          let x := v.zeroForcings f (relCell r.word) (slotOf r) gLog2 rows.toNat cols.toNat ((List.range groups.toNat).map (first.toNat + ·))
          x.1 = none → ∃ u : State, u.mem = x.2.2.mem ∧
            writes r u weights.toNat (x.2.2.weightBlocks rows.toNat cols.toNat stride.toNat x.2.1).1 t)) ∧
    (∀ (grid : BitVec 48) (nsc : BitVec 12) (stride : BitVec 32) (ssb : BitVec 6) (second : Bool),
      kernel (.dlRs f c grid nsc stride ssb second) [1, 5, 6, 7] (fun v => v.dlRs f c grid.toNat nsc.toNat stride.toNat ssb.toNat second)
        (fun r e t =>
          (∀ q, r.req.bind v.request = some q → ends r (v.writeRefs f grid.toNat nsc.toNat stride.toNat (v.entryRefs q e second)) t) ∧
          (r.req.bind v.request = none →
            ends r (v.writeRefs f grid.toNat nsc.toNat stride.toNat (v.ssbRefs (relCell r.word) (slotOf r) ssb.toNat)) t)))) ∧
  ∀ (cfg : Word) (l : Level) (hold : Nat),
    let t := signedOf 8 (Fld.MCE_GAIN_CFG_TARGET.get cfg)
    let h : Int := (Fld.MCE_GAIN_CFG_HYST.get cfg : Nat)
    let most := Fld.MCE_GAIN_CFG_MAX_STEPS.get cfg
    let clipped := 1000000 * l.clipped > Fld.MCE_GAIN_CFG_CLIP_PPM.get cfg * (2 * l.count)
    (clipped → gainStepOf cfg l hold = -2) ∧
    (¬clipped → 0 < hold → gainStepOf cfg l hold = 0) ∧
    (¬clipped → hold = 0 → l.above (t + h) = true → gainStepOf cfg l hold ≤ 0 ∧ -(most : Int) ≤ gainStepOf cfg l hold ∧
      (-(most : Int) < gainStepOf cfg l hold → l.within t (-gainStepOf cfg l hold) = true)) ∧
    (¬clipped → hold = 0 → l.above (t + h) = false → l.below (t - h) = true → 0 ≤ gainStepOf cfg l hold ∧ gainStepOf cfg l hold ≤ most) ∧
    (¬clipped → hold = 0 → l.above (t + h) = false → l.below (t - h) = false → gainStepOf cfg l hold = 0))

/-- The PRACH search engines, the decoders and the encoders.
- R141 to R148, R151. A PRACH engine: with no release in service, or one of another OP_CODE or done, a command changes nothing; an ARG that breaks
  R143 freezes the engine. ACCUM adds its antennas' profiles to the bank of its entry, FDM occasion and format, and a bank whose memory has an
  uncorrectable error makes the engine dead; DETECT clears the bank and leaves a record for each preamble at or above THRESH, then the occasion's last
  record; PRA_RECORD_POST posts a record to its ring or drops it. PRA_RING_CFG ignores sizes outside 4 to 12 and resets the ring when it enables it;
  PRA_RING_DB; PRA_STAT_CLR.
- R153 to R181. The coding engines: with no release in service, or one of another OP_CODE or done, a command changes nothing; an undefined OP_CODE, a
  misplaced ARG or a descriptor that breaks R155 or R156 freezes the engine; an entry that does not fit is rejected. A decoder runs the steps of its
  window, and those left when it is the entry's last; TB_DONE copies the block, gives the result and commits the HARQ header; an encoder writes its
  modulated symbols into the grid. DEC_STAT_CLR zeroes the counters. -/
def Obligations.PrachAndCodingEngines : Prop :=
  ((∀ (s : State) (e : Fin 4), s.halted = false →
    let prach (x : Instr) (op : Nat) (good : Release → State → Prop) : Prop := Runs x s (fun t =>
      (idleEngine 4 e 0 0 s → t = s) ∧
      ∀ r, s.serving 4 e 0 0 = some r →
        let a := relArg r.word
        let bad := bitsOf a 23 9 ≠ 0 ∨ s.praOk (bitsOf a 0 6) (bitsOf a 9 1) = false ∨
          (op = 1 ∧ s.fld (.PRA_CELL_B (bitsOf a 0 6)) Fld.PRA_CELL_B_ANT < bitsOf a 10 6 + bitsOf a 16 6 + 1) ∨ (op = 2 ∧ bitsOf a 10 13 ≠ 0)
        (r.ran = true ∨ relOp r.word ≠ op → t = s) ∧
        (r.ran = false → relOp r.word = op → (bad → t.unitState 4 e = 1) ∧
          (¬bad → good r t)))
    let found (held : Option MemErr × List Nat × State) (r : Release) (t : State) (p : Prop) : Prop :=
      (held.1 ≠ none → s.unitState 4 e ∉ [1, 2, 6] → t.unitState 4 e = 2) ∧ (held.1 = none → t.mem = s.mem ∧ workDone r t ∧ p)
    let others (r : Release) (t : State) : Prop := ∀ b : Bank, b.key ≠ bankKey r → (b ∈ t.pra.banks ↔ b ∈ s.pra.banks)
    prach (.accum e) 1 (fun r t =>
      let a := relArg r.word
      let i := bitsOf a 0 6
      let sel := bitsOf a 9 1
      let occ := s.praOccasion r (s.praA i Fld.PRA_CELL_A_CELL)
      let ants := (List.range (bitsOf a 16 6 + 1)).map fun k => bitsOf a 10 6 + k
      let old := if bitsOf a 22 1 = 1 then none else s.pra.banks.find? fun (b : Bank) => b.key == bankKey r
      let size := s.praA i Fld.PRA_CELL_A_NROOT * praPdp (s.praFormat i sel)
      let held := s.heldBank e size old
      found held r t (t.pra.posts = s.pra.posts ∧ others r t ∧ ∃ b ∈ t.pra.banks, b.key = bankKey r ∧ b.occ = occ ∧
        (∀ k, b.ants.testBit k = (ants.contains k || ((old.map Bank.ants).getD 0).testBit k)) ∧
        b.missing = (ants.any (s.praMissing i sel occ) || (old.map Bank.missing).getD false) ∧
        b.profile = (held.2.2.praAdd i (bitsOf a 6 3) sel occ held.2.1 ants).1)) ∧
    prach (.detect e) 2 (fun r t =>
      let a := relArg r.word
      let i := bitsOf a 0 6
      let sel := bitsOf a 9 1
      let cell := s.praA i Fld.PRA_CELL_A_CELL
      let occ := s.praOccasion r cell
      let bank := s.pra.banks.find? fun (b : Bank) => b.key == bankKey r
      let degraded := (bank.map Bank.missing).getD true ||
        (List.range (s.fld (.PRA_CELL_B i) Fld.PRA_CELL_B_ANT)).any fun k => !((bank.map Bank.ants).getD 0).testBit k
      let ring := s.praA i Fld.PRA_CELL_A_RING
      let occId := occ / 1120 % 2 ^ 20 + 2 ^ 20 * (occ % 1120 / s.slotLen cell % 128) + 2 ^ 27 * bitsOf a 6 3
      let format := s.praFormat i sel
      let held := s.heldBank e 0 bank
      let profile := held.2.1.toArray
      let size := s.praA i Fld.PRA_CELL_A_NROOT * praPdp format
      let sum := profile.foldl (· + ·) 0
      found held r t (others r t ∧ (∀ b ∈ t.pra.banks, b.key ≠ bankKey r) ∧
      ∃ (seen : List (Nat × PraRec)) (noise : Nat), t.pra.posts = s.pra.posts ++ seen.map (·.2) ++
          [⟨e, ring, false, praBytes false degraded cell occId seen.length format noise 0 0⟩] ∧
        (seen.map (·.1)).Pairwise (· < ·) ∧
        ∀ p ∈ seen, p.1 < s.praPreambles i sel ∧ ∃ u v w : State,
          let k := s.praPeak i sel profile p.1
          let metric := (u.ratioDb (k.2.2.1 * size) sum).1
          (s.fld (.PRA_CELL_B i) Fld.PRA_CELL_B_THRESH : Int) ≤ metric ∧
          p.2 = ⟨e, ring, true, praBytes true degraded cell occId p.1 format (unsignedOf 16 metric)
            ({ v with regs := s.regs }.praTiming i sel k.1 k.2.1 k.2.2.1 k.2.2.2).1
            (unsignedOf 16 (w.ratioDb k.2.2.1 (Config.prachFull format + 1)).1)⟩)) ∧
    Runs (.praRecordPost e) s (fun t =>
      ((s.pra.posts.filter fun p => p.eng == e.val) = [] → t = s) ∧
      ∀ p : PraRec, (s.pra.posts.filter fun p => p.eng == e.val) = [p] → p.ring < 4 →
        let r := p.ring
        let size := 2 ^ s.fld (.PRA_RING_CFG r) Fld.PRA_RING_CFG_LOG2_SIZE
        let pi := s.fld (.PRA_RING_PI r) Fld.PRA_RING_PI_INDEX
        let phase := s.fld (.PRA_RING_PI r) Fld.PRA_RING_PI_PHASE
        let held := (pi + 2 ^ 16 - s.fld (.PRA_RING_DB r) Fld.PRA_RING_DB_INDEX) % 2 ^ 16
        let full := s.fld (.PRA_RING_CFG r) Fld.PRA_RING_CFG_ENABLE = 0 ∨ size ≤ held
        let left := s.pra.posts.filter fun p => p.eng != e.val
        (full → regsKept [.PRA_STATS r] s t ∧ t.mem = s.mem ∧ t.pra.posts = left ∧
          t.fld (.PRA_STATS r) Fld.PRA_STATS_DROPS = satAdd (2 ^ 32 - 1) (s.fld (.PRA_STATS r) Fld.PRA_STATS_DROPS) 1) ∧
        (¬full → t.fld (.PRA_RING_PI r) Fld.PRA_RING_PI_INDEX = (pi + 1) % 2 ^ 16 ∧
          ((pi + 1) % size = 0 → t.fld (.PRA_RING_PI r) Fld.PRA_RING_PI_PHASE = 1 - phase) ∧
          (isDeviceAddr ((s.rd (.PRA_RING_BASE r)).toNat + pi % size * 32) = false → t.pra.posts = left ∧
            ((pi + 1) % size ≠ 0 → t.fld (.PRA_RING_PI r) Fld.PRA_RING_PI_PHASE = phase) ∧
            t.fld (.PRA_STATS r) Fld.PRA_STATS_PEAKS =
              satAdd (2 ^ 32 - 1) (s.fld (.PRA_STATS r) Fld.PRA_STATS_PEAKS) (if p.peak then 1 else 0))))) ∧
  ∀ s : State, s.halted = false →
    (∀ (r : Fin 4) (v : BitVec 64),
      Runs (.praRingDb r v) s (fun t => onlyRegs [.PRA_RING_DB r] s t ∧ t.fld (.PRA_RING_DB r) Fld.PRA_RING_DB_INDEX = bitsOf v.toNat 0 16) ∧
      Runs (.praRingCfg r v) s (fun t =>
        let size := Fld.PRA_RING_CFG_LOG2_SIZE.get v
        let starts := s.fld (.PRA_RING_CFG r) Fld.PRA_RING_CFG_ENABLE = 0 ∧ Fld.PRA_RING_CFG_ENABLE.get v = 1
        (size < 4 ∨ 12 < size → t = s) ∧
        (4 ≤ size ∧ size ≤ 12 → t.rd (.PRA_RING_CFG r) = v &&& 0x000000001FFFFF8F ||| s.rd (.PRA_RING_CFG r) &&& ~~~0x000000001FFFFF8F ∧
          (¬starts → onlyRegs [.PRA_RING_CFG r] s t) ∧
          (starts → regsKept [.PRA_RING_CFG r, .PRA_RING_DB r, .PRA_RING_PI r] s t ∧ t.mem = s.mem ∧
            t.fld (.PRA_RING_DB r) Fld.PRA_RING_DB_INDEX = 0 ∧ t.fld (.PRA_RING_PI r) Fld.PRA_RING_PI_INDEX = 0 ∧
            t.fld (.PRA_RING_PI r) Fld.PRA_RING_PI_PHASE = 1 ∧ SMap.get (fun _ => (0, 0)) t.drv.coal (16 + r.val) = (0, 0))))) ∧
    Runs .praStatClr s (fun t => onlyRegs ((List.range 4).map Reg.PRA_STATS) s t ∧ ∀ r, r < 4 → t.rd (.PRA_STATS r) = 0)) ∧
  ((∀ s : State, s.halted = false →
    let v0 := s.trying
    let job (x : Instr) (cls phys ni op : Nat) (bad : List Byte → Bool) (work : State → State) (good : Release → List Byte → State → State → Prop) : Prop :=
      Runs x s (fun t =>
        (idleEngine cls phys 0 0 s → t = s) ∧
        ∀ r, s.serving cls phys 0 0 = some r →
          let code := relOp r.word
          let unknown := (cls = 2 ∧ code % 2 ^ 15 ≠ 1 ∧ code % 2 ^ 15 ≠ 2 ∧ code % 2 ^ 15 ≠ 3) ∨ (cls = 3 ∧ (code < 1 ∨ 5 < code))
          let badArg := relArg r.word % 64 ≠ 0 ∨ pastureSize < relArg r.word + 64
          (r.ran = true ∨ (¬unknown ∧ code ≠ op) → t = s) ∧
          (r.ran = false → s.unhindered work → (unknown → t.unitState cls phys = 1) ∧
            (code = op → (badArg → t.unitState cls phys = 1) ∧
              (¬badArg →
                let d := v0.agentRead ni (pastureBase + relArg r.word) 64
                d.1.status = stOk → (bad d.1.data = true → t.unitState cls phys = 1) ∧ (bad d.1.data = false → good r d.1.data d.2 t)))))
    let ends (r : Release) (w : (Option (Nat × Reply)) × State) (t : State) : Prop := w.1 = none → t.mem = w.2.mem ∧ workDone r t
    let rejects (r : Release) (v t : State) : Prop := t.mem = v.mem ∧ workDone r t ∧
      ∀ id ∈ r.req, ∀ q ∈ t.drv.store, q.id = id → ∀ x ∈ q.results[relFillIndex r.word]?, x.status = 2
    let decode (u : Nat) (turbo : Bool) (r : Release) (desc : List Byte) (v t : State) : Prop :=
      let e := (v.entryOf r).getD []
      let d := codeOf e
      (r.req.bind v.request = none → t.mem = v.mem ∧ workDone r t) ∧
      ∀ q, r.req.bind v.request = some q →
        let unfit := entKind e ≠ (if turbo then 8 else 2) ∨ leAt desc 0x28 4 < ulBits e ∨ leAt desc 0x2C 4 < ceilDiv d.b 8
        let coded (h : Option Harq) (x : State) : Prop :=
          let j : Job := ⟨u, e, d, h, leAt x.active (if turbo then 0x2D else 0x2C) 1, leAt desc 0x10 8, leAt desc 0x18 8, leAt desc 0x20 8⟩
          let first := leAt desc 4 4
          let stop := first + leAt desc 8 4
          let left := (List.range d.c).filter fun i => decide (stop < j.stepAt i + j.steps i)
          ∃ y : State, { y with regs := x.regs } = x ∧ (first ≠ 0 → y = x) ∧
            (first = 0 → y.fld .DEC_STATS Fld.DEC_STATS_NO_HBUF =
                satAdd Fld.DEC_STATS_NO_HBUF.max (x.fld .DEC_STATS Fld.DEC_STATS_NO_HBUF) (if h.isNone then 1 else 0) ∧
              y.fld .DEC_STATS Fld.DEC_STATS_HARQ_RESET = satAdd Fld.DEC_STATS_HARQ_RESET.max (x.fld .DEC_STATS Fld.DEC_STATS_HARQ_RESET)
                (if (h.map (·.reset)).getD false then 1 else 0)) ∧
            let w := y.runSteps j first stop (List.range d.c)
            (left = [] ∨ x.lastDecoder r = false → ends r (w.1, w.2.2) t) ∧
            (left ≠ [] → x.lastDecoder r = true → w.1 = none →
              let z := w.2.2.runShort j left
              ends r z t ∧ (z.1 = none → t.fld .DEC_STATS Fld.DEC_STATS_STEP_SHORT =
                satAdd Fld.DEC_STATS_STEP_SHORT.max (z.2.fld .DEC_STATS Fld.DEC_STATS_STEP_SHORT) 1))
        (unfit → rejects r v t) ∧
        (¬unfit → match v.findHarq u e q d with
          | .fault _ _ _ => True
          | .none x => coded none x
          | .some h x => coded (some h) x)
    let tbDone (u : Nat) (r : Release) (desc : List Byte) (v t : State) : Prop :=
      let e := (v.entryOf r).getD []
      let d := codeOf e
      let src := leAt desc 0x18 8
      (r.req.bind v.request = none → t.mem = v.mem ∧ workDone r t) ∧
      ∀ q, r.req.bind v.request = some q →
        let unfit := (entKind e ≠ 2 ∧ entKind e ≠ 8) ∨ leAt desc 0x2C 4 < ceilDiv d.b 8
        let rejected := (q.results[relFillIndex r.word]?).map (·.status) = some 2
        let b := v.agentRead (niDecoder u) src (ceilDiv d.b 8)
        let p := b.2.decProg q.id (relFillIndex r.word)
        let ok := !p.bad && !p.short && tbCrcOk d (bitsMsb b.1.data)
        (unfit → rejects r v t) ∧
        (¬unfit → rejected → t.mem = v.mem ∧ workDone r t) ∧
        (¬unfit → ¬rejected → b.1.status = stOk → ∃ y : State,
          let z := b.2.write70 (niDecoder u) (entDataAddr e) (packMsb ((bitsMsb b.1.data).take d.tbs))
          y.mem = z.mem ∧ (ok = true → y.regs = z.regs) ∧
          (ok = false → y.fld .DEC_STATS Fld.DEC_STATS_CRC_FAIL =
            satAdd Fld.DEC_STATS_CRC_FAIL.max (z.fld .DEC_STATS Fld.DEC_STATS_CRC_FAIL) 1) ∧
          (∀ id ∈ r.req, ∀ q' ∈ y.drv.store, q'.id = id → ∀ x ∈ q'.results[relFillIndex r.word]?,
            x.status = 0 ∧ x.crcOk = ok ∧ x.bytes_ = ceilDiv d.tbs 8 + (uciBytes e).2) ∧
          match y.findHarq u e q d with
            | .fault _ _ _ => True
            | .none x => t.mem = x.mem ∧ workDone r t
            | .some h x =>
              let w := x.agentWrite (niDecoder u) h.addr (harqCommit h e d (q.frame + 2 ^ 20 * (q.slot % 128)))
              (h.keep = true → t.mem = x.mem ∧ workDone r t) ∧ (h.keep = false → w.1.status = stOk → t.mem = w.2.mem ∧ workDone r t))
    let staged (r : Release) (v : State) (q : Request) (e : List Byte) (unfit : Prop) (t : State) (good : List Byte → State → Prop) : Prop :=
      let short := (Config.stagingBytes q.build q.cell q.slot (relFillIndex r.word)).toNat < stagedLen e
      let b := v.agentRead niEncoder (stagedAt q (relFillIndex r.word)) (stagedLen e)
      (unfit ∨ short → rejects r v t) ∧ (¬unfit → ¬short → b.1.status = stOk → good b.1.data b.2)
    let asked (r : Release) (v t : State) (good : Request → List Byte → Prop) : Prop :=
      (r.req.bind v.request = none → t.mem = v.mem ∧ workDone r t) ∧
      ∀ q, r.req.bind v.request = some q → good q ((v.entryOf r).getD [])
    let encode (lte : Bool) (r : Release) (desc : List Byte) (v t : State) : Prop := asked r v t fun q e =>
      let d := codeOf e
      let nu := entLayers e
      let qm := entQm e
      staged r v q e (entKind e ≠ (if lte then 7 else 1) ∨ nu > 4) t fun data x =>
        let res := x.downRes q e
        let blocks := ((List.range (leAt desc 4 2)).map fun i => leAt desc 2 2 + i).filter fun i => decide (i < d.c)
        let init := downInit e (q.slot % 10) (v.fld (.DEC_CELL_C q.cell) Fld.DEC_CELL_C_PCI)
        ends r (x.writeGrid (leAt desc 0x18 8) (leAt desc 0x28 4) (leAt desc 0x0C 2)
          ((encodeBlocks d e (tbBits d data) (res.length * nu * qm) (nu * qm) blocks).flatMap fun blk =>
            let bits := scramble init blk.1 blk.2
            (List.range (bits.length / qm)).map fun i =>
              let re := res.getD ((blk.1 / qm + i) / nu) (0, 0)
              ((re.1, entPortBase e + (blk.1 / qm + i) % nu, 12 * entPrbStart e + re.2),
                modulate (ampOf (entParam e 64 16)) ((bits.drop (i * qm)).take qm)))) t
    let slotOf (r : Release) (v : State) : Nat := slotNamed (v.slotLen (relCell r.word)) v.pos (relSlotOfs r.word)
    (∀ u : Fin 32,
      (∀ replay turbo : Bool,
        let op := (if turbo then 2 else 1) + (if replay then 0x8000 else 0)
        let x : Instr := if turbo then (if replay then .decTurboReplay u else .decTurbo u) else (if replay then .decLdpcReplay u else .decLdpc u)
        job x 2 u (niDecoder u) op (badDecDesc op) (fun v => v.decodeJob u turbo replay) (decode u turbo)) ∧
      ∀ replay : Bool,
        let op := 3 + (if replay then 0x8000 else 0)
        job (if replay then .tbDoneReplay u else .tbDone u) 2 u (niDecoder u) op (badDecDesc op) (fun v => v.tbDone u replay) (tbDone u)) ∧
    ∀ m : Fin 8,
      job (.encDlsch m) 3 m niEncoder 1 (badEncDesc 1) (fun v => v.encodeJob m false) (encode false) ∧
      job (.encLteDlsch m) 3 m niEncoder 2 (badEncDesc 2) (fun v => v.encodeJob m true) (encode true) ∧
      job (.encCtrl m) 3 m niEncoder 3 (badEncDesc 3) (fun v => v.encodeControl m) (fun r desc v t => asked r v t fun q e =>
        staged r v q e (entKind e ≠ 6) t fun data x =>
          let pci := v.fld (.DEC_CELL_C q.cell) Fld.DEC_CELL_C_PCI
          let out := leAt desc 0x18 8
          (entParam e 0 2 = 0 → ends r (x.writeGrid out (leAt desc 0x28 4) (leAt desc 0x0C 2)
            (((pdcchRes e false).zip (qpskSamples (ampOf (entParam e 80 16)) (dciBits e data pci))).map fun p =>
              ((p.1.1, entPortBase e, p.1.2), p.2))) t) ∧
          (entParam e 0 2 = 1 → ends r (x.writeLteControl e out (lteDci e data (q.slot % 10) pci)) t) ∧
          (entParam e 0 2 = 2 → ends r (x.writeLteControl e out (lteHi e (q.slot % 10) pci)) t) ∧
          (entParam e 0 2 = 3 → ends r (x.writeLteControl e out (lteCfi e (q.slot % 10) pci)) t)) ∧
      job (.encPbch m) 3 m niEncoder 4 (badEncDesc 4) (fun v => v.encodePbch m) (fun r desc v t =>
        let cell := relCell r.word
        let build := v.rd .ALM_ACTIVE_BUILD
        let ssb := leAt desc 0x0E 1
        let mib := v.fld (.DEC_CELL_C cell) Fld.DEC_CELL_C_MIB
        let pci := v.fld (.DEC_CELL_C cell) Fld.DEC_CELL_C_PCI
        let sfn := slotOf r v / 1120 % 1024
        let nsc := leAt desc 0x0C 2
        let write (xs : List ((Nat × Nat × Nat) × Cplx)) : Prop := ends r (v.writeGrid (leAt desc 0x18 8) (leAt desc 0x28 4) nsc xs) t
        (v.fld (.DEC_CELL_C cell) Fld.DEC_CELL_C_LTE = 1 → write
          (((bchRes nsc pci).zip (diversity (v.ltePorts cell) none (qpskSamples 8192 (bchBits mib pci sfn (v.ltePorts cell))))).flatMap fun p =>
            p.2.map fun x => ((p.1.1, x.1, p.1.2), x.2))) ∧
        (v.fld (.DEC_CELL_C cell) Fld.DEC_CELL_C_LTE = 0 → write
          (((pbchPlaces pci false).zip (qpskSamples 8192
            (pbchBits mib pci sfn (slotOf r v % 1120 / 560) ssb (Config.ssbMost build cell)))).map fun p =>
              (((Config.ssbSymbol build cell ssb).toNat + p.1.1, 0, (Config.ssbCarrier build cell ssb).toNat + p.1.2), p.2)))) ∧
      job (.lteCtrlMap m) 3 m niEncoder 5 (badEncDesc 5) (fun v => v.mapControl m) (fun r desc v t =>
        let cell := relCell r.word
        let nsc := leAt desc 0x0C 2
        let x := v.readControl (leAt desc 0x10 8) (v.fld (.DEC_CELL_C cell) Fld.DEC_CELL_C_PCI) (v.ltePorts cell) nsc
          (v.controlMap cell (slotOf r v) nsc)
        x.1 = none → ends r (x.2.2.writeGrid (leAt desc 0x18 8) (leAt desc 0x28 4) nsc x.2.1) t)) ∧
  (∀ s : State, s.halted = false → Runs .decStatClr s (fun t =>
    onlyRegs ([.DEC_STATS] ++ (List.range 32).map Reg.DEC_UID_STATUS ++ (List.range 8).map Reg.DEC_ENC_STATUS) s t ∧ t.rd .DEC_STATS = 0 ∧
    (∀ n, n < 32 → t.fld (.DEC_UID_STATUS n) Fld.DEC_UID_STATUS_JOBS = 0) ∧ ∀ n, n < 8 → t.fld (.DEC_ENC_STATUS n) Fld.DEC_ENC_STATUS_JOBS = 0)) ∧
  (∀ (d : Code) (bytes : List Byte), d.tbs ≤ 8 * bytes.length → d.b = d.tbs + (if d.turbo = true ∨ 3824 < d.tbs then 24 else 16) →
    tbCrcOk d (tbBits d bytes) = true) ∧
  (∀ (init skip : Nat) (bits : List Bool), scramble init skip (scramble init skip bits) = bits) ∧
  ∀ bits : List Bool, (bitsMsb (packMsb bits)).take bits.length = bits)

/-! ### The encoding of syllables -/

/-- R226 to R239. Every word is the syllable of exactly one command, and every syllable command whose reserved mark a word can have is what its word
decodes to: with its STOP bit, guard, operand bits and, where OPC is reserved, the mark. No two commands share a group and an OPC. -/
def Obligations.SyllableEncoding : Prop :=
  (∀ (i : Instr) (y : Syl) (w : BitVec 32), sylOk i = true → sylOf i = some y → encodeSyllable i = some w → decodeSyllable y.core w = i) ∧
  (∀ (core : Fin 136) (w : BitVec 32),
    let i := decodeSyllable core w
    encodeSyllable i = some w ∧ sylOk i = true ∧ Instr.wellFormed i = true) ∧
  (∀ (core : Fin 136) (w : BitVec 32),
    let i := decodeSyllable core w
    let group : BitVec 3 := w.extractLsb' 28 3
    let opc : BitVec 5 := w.extractLsb' 20 5
    (group = 7 → i = .ext core (w.getLsbD 31) (w.extractLsb' 0 28)) ∧
    (group ≠ 7 → sylOf i = some ⟨core, w.getLsbD 31, w.extractLsb' 25 3, w.extractLsb' 0 20, if reservedOpc group opc then some opc else none⟩ ∧
      (reservedOpc group opc = false → sylCode i = some (group, opc)) ∧
      (reservedOpc group opc = true → standsForGroup i = true ∧ (sylCode i).map (·.1) = some group))) ∧
  ∀ (i j : Instr) (y z : Syl), sylOf i = some y → sylOf j = some z → y = z → sylCode i = sylCode j → sylCode i ≠ none → i = j
end

