-- ==== Sys2Proof/Laws/Maps.lean ====
section
/-!
SUPPORT. Laws of the sparse maps and byte memories: what a write leaves to be read, and that every operation keeps the canonical form.
-/
namespace Sys2Proof.Machine

variable {α : Type}

/-! ### Reading after writing -/

@[simp] theorem SMap.get_nil (d : Nat → α) (k : Nat) : SMap.get d [] k = d k := rfl

theorem SMap.get_erase_same (d : Nat → α) (m : SMap α) (k : Nat) : SMap.get d (m.erase k) k = d k := by
  induction m with
  | nil => rfl
  | cons p m ih =>
    unfold SMap.erase at ih ⊢
    by_cases h : p.1 = k <;> simp_all [SMap.get]

theorem SMap.get_erase_ne (d : Nat → α) (m : SMap α) {k j : Nat} (h : j ≠ k) :
    SMap.get d (m.erase k) j = SMap.get d m j := by
  induction m with
  | nil => rfl
  | cons p m ih =>
    unfold SMap.erase at ih ⊢
    by_cases h1 : p.1 = k
    · have : p.1 ≠ j := fun e => h (e ▸ h1)
      simp_all [SMap.get]
    · simp_all [SMap.get]

theorem SMap.get_insert_ne (d : Nat → α) (m : SMap α) {k j : Nat} (v : α) (h : j ≠ k) :
    SMap.get d (m.insert k v) j = SMap.get d m j := by
  induction m with
  | nil => simp [SMap.insert, SMap.get, Ne.symm h]
  | cons p m ih =>
    unfold SMap.insert
    split
    · simp [SMap.get, Ne.symm h]
    · simp [SMap.get, ih]

theorem SMap.get_insert_same (d : Nat → α) (m : SMap α) (k : Nat) (v : α) :
    SMap.get d ((m.erase k).insert k v) k = v := by
  induction m with
  | nil => simp [SMap.erase, SMap.insert, SMap.get]
  | cons p m ih =>
    by_cases h : p.1 = k
    · simpa [SMap.erase, h] using ih
    · have e : SMap.erase (p :: m) k = p :: SMap.erase m k := by simp [SMap.erase, h]
      rw [e]
      unfold SMap.insert
      split
      · simp [SMap.get]
      · simpa [SMap.get, h] using ih

/-- The value last written at a key is what the key reads. -/
@[simp] theorem SMap.get_set_same [DecidableEq α] (d : Nat → α) (m : SMap α) (k : Nat) (v : α) :
    SMap.get d (SMap.set d m k v) k = v := by
  unfold SMap.set
  split
  · rw [SMap.get_erase_same]; simp_all
  · exact SMap.get_insert_same d m k v

/-- A write leaves every other key alone. -/
theorem SMap.get_set_ne [DecidableEq α] (d : Nat → α) (m : SMap α) {k j : Nat} (v : α) (h : j ≠ k) :
    SMap.get d (SMap.set d m k v) j = SMap.get d m j := by
  unfold SMap.set
  split
  · exact SMap.get_erase_ne d m h
  · rw [SMap.get_insert_ne d _ v h, SMap.get_erase_ne d m h]

/-- Both at once. -/
theorem SMap.get_set [DecidableEq α] (d : Nat → α) (m : SMap α) (k j : Nat) (v : α) :
    SMap.get d (SMap.set d m k v) j = if j = k then v else SMap.get d m j := by
  split
  · subst_vars; simp
  · exact SMap.get_set_ne d m v ‹_›

/-! ### Canonical form -/

/-- The keys of a list of pairs all lie above a bound. -/
def SMap.above (b : Nat) (m : SMap α) : Prop := ∀ p ∈ m, b < p.1

/-- Canonical form, by recursion on one pair at a time. -/
theorem SMap.wf_cons [DecidableEq α] (d : Nat → α) (p : Nat × α) (m : SMap α) :
    SMap.wf d (p :: m) = true ↔ p.2 ≠ d p.1 ∧ (∀ q, m.head? = some q → p.1 < q.1) ∧ SMap.wf d m = true := by
  cases m with
  | nil => simp [SMap.wf]
  | cons q m => simp [SMap.wf, and_assoc]

theorem SMap.wf_above [DecidableEq α] (d : Nat → α) (m : SMap α) (p : Nat × α) (h : SMap.wf d (p :: m) = true) :
    SMap.above p.1 m := by
  induction m generalizing p with
  | nil => intro q hq; simp at hq
  | cons r m ih =>
    rw [SMap.wf_cons] at h
    have h1 : p.1 < r.1 := h.2.1 r rfl
    intro q hq
    rcases List.mem_cons.1 hq with rfl | hq
    · exact h1
    · exact Nat.lt_trans h1 (ih r h.2.2 q hq)

theorem SMap.wf_of_above [DecidableEq α] (d : Nat → α) (m : SMap α) (p : Nat × α) (hp : p.2 ≠ d p.1)
    (ha : SMap.above p.1 m) (hm : SMap.wf d m = true) : SMap.wf d (p :: m) = true := by
  rw [SMap.wf_cons]
  exact ⟨hp, fun q hq => ha q (List.mem_of_mem_head? hq), hm⟩

theorem SMap.above_filter {b : Nat} {m : SMap α} (q : Nat × α → Bool) (h : SMap.above b m) : SMap.above b (m.filter q) :=
  fun p hp => h p ((List.mem_filter.1 hp).1)

/-- A map keeps its canonical form where entries are left out. -/
theorem SMap.wf_filter [DecidableEq α] (d : Nat → α) (m : SMap α) (q : Nat × α → Bool) (h : SMap.wf d m = true) :
    SMap.wf d (m.filter q) = true := by
  induction m with
  | nil => rfl
  | cons p m ih =>
    have hm := ((SMap.wf_cons d p m).1 h).2.2
    by_cases e : q p = true
    · rw [List.filter_cons_of_pos e]
      exact SMap.wf_of_above d _ p ((SMap.wf_cons d p m).1 h).1 (SMap.above_filter q (SMap.wf_above d m p h)) (ih hm)
    · rw [List.filter_cons_of_neg e]
      exact ih hm

theorem SMap.above_erase {b k : Nat} {m : SMap α} (h : SMap.above b m) : SMap.above b (m.erase k) :=
  SMap.above_filter _ h

theorem SMap.wf_erase [DecidableEq α] (d : Nat → α) (m : SMap α) (k : Nat) (h : SMap.wf d m = true) :
    SMap.wf d (m.erase k) = true := SMap.wf_filter d m _ h

theorem SMap.above_insert {b k : Nat} {v : α} {m : SMap α} (hk : b < k) (h : SMap.above b m) :
    SMap.above b (m.insert k v) := by
  induction m with
  | nil => intro p hp; simp [SMap.insert] at hp; simp [hp, hk]
  | cons q m ih =>
    unfold SMap.insert
    have hm : SMap.above b m := fun p hp => h p (List.mem_cons_of_mem _ hp)
    split <;> intro p hp <;> rcases List.mem_cons.1 hp with rfl | hp
    · exact hk
    · exact h p hp
    · exact h _ (List.mem_cons_self ..)
    · exact ih hm p hp

theorem SMap.wf_insert [DecidableEq α] (d : Nat → α) (m : SMap α) (k : Nat) (v : α) (hv : v ≠ d k)
    (hk : ∀ p ∈ m, p.1 ≠ k) (h : SMap.wf d m = true) : SMap.wf d (m.insert k v) = true := by
  induction m with
  | nil => simpa [SMap.insert, SMap.wf] using hv
  | cons q m ih =>
    unfold SMap.insert
    have hc := (SMap.wf_cons d q m).1 h
    have ha := SMap.wf_above d m q h
    split
    · rename_i hlt
      refine SMap.wf_of_above d _ (k, v) hv ?_ h
      intro p hp
      rcases List.mem_cons.1 hp with rfl | hp
      · exact hlt
      · exact Nat.lt_trans hlt (ha p hp)
    · rename_i hge
      have hne := hk q (List.mem_cons_self ..)
      have hq : q.1 < k := by omega
      exact SMap.wf_of_above d _ q hc.1 (SMap.above_insert hq ha)
        (ih (fun p hp => hk p (List.mem_cons_of_mem _ hp)) hc.2.2)

/-- Writing a key keeps the canonical form. -/
theorem SMap.wf_set [DecidableEq α] (d : Nat → α) (m : SMap α) (k : Nat) (v : α) (h : SMap.wf d m = true) :
    SMap.wf d (SMap.set d m k v) = true := by
  unfold SMap.set
  split
  · exact SMap.wf_erase d m k h
  · exact SMap.wf_insert d _ k v ‹_› (fun p hp => by simpa using (List.mem_filter.1 hp).2) (SMap.wf_erase d m k h)

/-! ### Byte memories -/

theorem Memory.read_write (m : Memory) (a x : Nat) (b : Byte) :
    (m.write a b).read x = if x = a then b else m.read x := SMap.get_set Memory.empty m a x b

theorem Memory.wf_write (m : Memory) (a : Nat) (b : Byte) (h : m.wf = true) : (m.write a b).wf = true :=
  SMap.wf_set Memory.empty m a b h

theorem Memory.wf_writeBytes (m : Memory) (a : Nat) (bs : List Byte) (h : m.wf = true) :
    (m.writeBytes a bs).wf = true := by
  induction bs generalizing m a with
  | nil => exact h
  | cons b bs ih => exact ih _ _ (Memory.wf_write m a b h)

theorem Memory.wf_writeLE (m : Memory) (a n v : Nat) (h : m.wf = true) : (m.writeLE a n v).wf = true :=
  Memory.wf_writeBytes m a _ h

/-! ### Registers -/

theorem Regs.read_write (m : Regs) (r q : Reg) (v : Word) :
    (m.write r v).read q = if q.off = r.off then v else m.read q := SMap.get_set regReset m r.off q.off v

theorem Regs.wf_write (m : Regs) (r : Reg) (v : Word) (h : m.wf = true) : (m.write r v).wf = true :=
  SMap.wf_set regReset m r.off v h

end Sys2Proof.Machine
end

