-- ==== Sys2Proof/Laws/State.lean ====
section
/-!
SUPPORT. What each basic update of the state leaves in each field, so that no proof unfolds a record update; and the laws of registers
and cores as they are read and written.
-/
namespace Sys2Proof.Machine

variable (s : State)

/-! ### withPending -/

@[simp] theorem State.withPending_pending (q : List Instr) : (s.withPending q).pending = q := rfl
@[simp] theorem State.withPending_freeCtr (q : List Instr) : (s.withPending q).freeCtr = s.freeCtr := rfl
@[simp] theorem State.withPending_out (q : List Instr) : (s.withPending q).out = s.out := rfl
@[simp] theorem State.withPending_regs (q : List Instr) : (s.withPending q).regs = s.regs := rfl
@[simp] theorem State.withPending_mem (q : List Instr) : (s.withPending q).mem = s.mem := rfl
@[simp] theorem State.withPending_ecc (q : List Instr) : (s.withPending q).ecc = s.ecc := rfl
@[simp] theorem State.withPending_tm (q : List Instr) : (s.withPending q).tm = s.tm := rfl
@[simp] theorem State.withPending_alm (q : List Instr) : (s.withPending q).alm = s.alm := rfl
@[simp] theorem State.withPending_drv (q : List Instr) : (s.withPending q).drv = s.drv := rfl
@[simp] theorem State.withPending_flt (q : List Instr) : (s.withPending q).flt = s.flt := rfl
@[simp] theorem State.withPending_dsp (q : List Instr) : (s.withPending q).dsp = s.dsp := rfl
@[simp] theorem State.withPending_noc (q : List Instr) : (s.withPending q).noc = s.noc := rfl
@[simp] theorem State.withPending_mov (q : List Instr) : (s.withPending q).mov = s.mov := rfl
@[simp] theorem State.withPending_pwr (q : List Instr) : (s.withPending q).pwr = s.pwr := rfl
@[simp] theorem State.withPending_sys (q : List Instr) : (s.withPending q).sys = s.sys := rfl
@[simp] theorem State.withPending_fh (q : List Instr) : (s.withPending q).fh = s.fh := rfl
@[simp] theorem State.withPending_mce (q : List Instr) : (s.withPending q).mce = s.mce := rfl
@[simp] theorem State.withPending_pra (q : List Instr) : (s.withPending q).pra = s.pra := rfl
@[simp] theorem State.withPending_dec (q : List Instr) : (s.withPending q).dec = s.dec := rfl
@[simp] theorem State.withPending_sds (q : List Instr) : (s.withPending q).sds = s.sds := rfl
@[simp] theorem State.withPending_drl (q : List Instr) : (s.withPending q).drl = s.drl := rfl
@[simp] theorem State.withPending_fab (q : List Instr) : (s.withPending q).fab = s.fab := rfl
@[simp] theorem State.withPending_dbg (q : List Instr) : (s.withPending q).dbg = s.dbg := rfl
@[simp] theorem State.withPending_uart (q : List Instr) : (s.withPending q).uart = s.uart := rfl

/-! ### keepQueue -/

@[simp] theorem State.keepQueue_pending (t : State) : (s.keepQueue t).pending = s.pending := rfl
@[simp] theorem State.keepQueue_freeCtr (t : State) : (s.keepQueue t).freeCtr = t.freeCtr := rfl
@[simp] theorem State.keepQueue_out (t : State) : (s.keepQueue t).out = t.out := rfl
@[simp] theorem State.keepQueue_regs (t : State) : (s.keepQueue t).regs = t.regs := rfl
@[simp] theorem State.keepQueue_mem (t : State) : (s.keepQueue t).mem = t.mem := rfl
@[simp] theorem State.keepQueue_ecc (t : State) : (s.keepQueue t).ecc = t.ecc := rfl
@[simp] theorem State.keepQueue_tm (t : State) : (s.keepQueue t).tm = t.tm := rfl
@[simp] theorem State.keepQueue_alm (t : State) : (s.keepQueue t).alm = t.alm := rfl
@[simp] theorem State.keepQueue_drv (t : State) : (s.keepQueue t).drv = t.drv := rfl
@[simp] theorem State.keepQueue_flt (t : State) : (s.keepQueue t).flt = t.flt := rfl
@[simp] theorem State.keepQueue_dsp (t : State) : (s.keepQueue t).dsp = t.dsp := rfl
@[simp] theorem State.keepQueue_noc (t : State) : (s.keepQueue t).noc = t.noc := rfl
@[simp] theorem State.keepQueue_mov (t : State) : (s.keepQueue t).mov = t.mov := rfl
@[simp] theorem State.keepQueue_pwr (t : State) : (s.keepQueue t).pwr = t.pwr := rfl
@[simp] theorem State.keepQueue_sys (t : State) : (s.keepQueue t).sys = t.sys := rfl
@[simp] theorem State.keepQueue_fh (t : State) : (s.keepQueue t).fh = t.fh := rfl
@[simp] theorem State.keepQueue_mce (t : State) : (s.keepQueue t).mce = t.mce := rfl
@[simp] theorem State.keepQueue_pra (t : State) : (s.keepQueue t).pra = t.pra := rfl
@[simp] theorem State.keepQueue_dec (t : State) : (s.keepQueue t).dec = t.dec := rfl
@[simp] theorem State.keepQueue_sds (t : State) : (s.keepQueue t).sds = t.sds := rfl
@[simp] theorem State.keepQueue_drl (t : State) : (s.keepQueue t).drl = t.drl := rfl
@[simp] theorem State.keepQueue_fab (t : State) : (s.keepQueue t).fab = t.fab := rfl
@[simp] theorem State.keepQueue_dbg (t : State) : (s.keepQueue t).dbg = t.dbg := rfl
@[simp] theorem State.keepQueue_uart (t : State) : (s.keepQueue t).uart = t.uart := rfl

/-! ### wr -/

@[simp] theorem State.wr_pending (r : Reg) (v : Word) : (s.wr r v).pending = s.pending := rfl
@[simp] theorem State.wr_freeCtr (r : Reg) (v : Word) : (s.wr r v).freeCtr = s.freeCtr := rfl
@[simp] theorem State.wr_out (r : Reg) (v : Word) : (s.wr r v).out = s.out := rfl
@[simp] theorem State.wr_regs (r : Reg) (v : Word) : (s.wr r v).regs = s.regs.write r v := rfl
@[simp] theorem State.wr_mem (r : Reg) (v : Word) : (s.wr r v).mem = s.mem := rfl
@[simp] theorem State.wr_ecc (r : Reg) (v : Word) : (s.wr r v).ecc = s.ecc := rfl
@[simp] theorem State.wr_tm (r : Reg) (v : Word) : (s.wr r v).tm = s.tm := rfl
@[simp] theorem State.wr_alm (r : Reg) (v : Word) : (s.wr r v).alm = s.alm := rfl
@[simp] theorem State.wr_drv (r : Reg) (v : Word) : (s.wr r v).drv = s.drv := rfl
@[simp] theorem State.wr_flt (r : Reg) (v : Word) : (s.wr r v).flt = s.flt := rfl
@[simp] theorem State.wr_dsp (r : Reg) (v : Word) : (s.wr r v).dsp = s.dsp := rfl
@[simp] theorem State.wr_noc (r : Reg) (v : Word) : (s.wr r v).noc = s.noc := rfl
@[simp] theorem State.wr_mov (r : Reg) (v : Word) : (s.wr r v).mov = s.mov := rfl
@[simp] theorem State.wr_pwr (r : Reg) (v : Word) : (s.wr r v).pwr = s.pwr := rfl
@[simp] theorem State.wr_sys (r : Reg) (v : Word) : (s.wr r v).sys = s.sys := rfl
@[simp] theorem State.wr_fh (r : Reg) (v : Word) : (s.wr r v).fh = s.fh := rfl
@[simp] theorem State.wr_mce (r : Reg) (v : Word) : (s.wr r v).mce = s.mce := rfl
@[simp] theorem State.wr_pra (r : Reg) (v : Word) : (s.wr r v).pra = s.pra := rfl
@[simp] theorem State.wr_dec (r : Reg) (v : Word) : (s.wr r v).dec = s.dec := rfl
@[simp] theorem State.wr_sds (r : Reg) (v : Word) : (s.wr r v).sds = s.sds := rfl
@[simp] theorem State.wr_drl (r : Reg) (v : Word) : (s.wr r v).drl = s.drl := rfl
@[simp] theorem State.wr_fab (r : Reg) (v : Word) : (s.wr r v).fab = s.fab := rfl
@[simp] theorem State.wr_dbg (r : Reg) (v : Word) : (s.wr r v).dbg = s.dbg := rfl
@[simp] theorem State.wr_uart (r : Reg) (v : Word) : (s.wr r v).uart = s.uart := rfl

/-! ### setFld -/

@[simp] theorem State.setFld_pending (r : Reg) (f : BitField) (n : Nat) : (s.setFld r f n).pending = s.pending := rfl
@[simp] theorem State.setFld_freeCtr (r : Reg) (f : BitField) (n : Nat) : (s.setFld r f n).freeCtr = s.freeCtr := rfl
@[simp] theorem State.setFld_out (r : Reg) (f : BitField) (n : Nat) : (s.setFld r f n).out = s.out := rfl
@[simp] theorem State.setFld_mem (r : Reg) (f : BitField) (n : Nat) : (s.setFld r f n).mem = s.mem := rfl
@[simp] theorem State.setFld_ecc (r : Reg) (f : BitField) (n : Nat) : (s.setFld r f n).ecc = s.ecc := rfl
@[simp] theorem State.setFld_tm (r : Reg) (f : BitField) (n : Nat) : (s.setFld r f n).tm = s.tm := rfl
@[simp] theorem State.setFld_alm (r : Reg) (f : BitField) (n : Nat) : (s.setFld r f n).alm = s.alm := rfl
@[simp] theorem State.setFld_drv (r : Reg) (f : BitField) (n : Nat) : (s.setFld r f n).drv = s.drv := rfl
@[simp] theorem State.setFld_flt (r : Reg) (f : BitField) (n : Nat) : (s.setFld r f n).flt = s.flt := rfl
@[simp] theorem State.setFld_dsp (r : Reg) (f : BitField) (n : Nat) : (s.setFld r f n).dsp = s.dsp := rfl
@[simp] theorem State.setFld_noc (r : Reg) (f : BitField) (n : Nat) : (s.setFld r f n).noc = s.noc := rfl
@[simp] theorem State.setFld_mov (r : Reg) (f : BitField) (n : Nat) : (s.setFld r f n).mov = s.mov := rfl
@[simp] theorem State.setFld_pwr (r : Reg) (f : BitField) (n : Nat) : (s.setFld r f n).pwr = s.pwr := rfl
@[simp] theorem State.setFld_sys (r : Reg) (f : BitField) (n : Nat) : (s.setFld r f n).sys = s.sys := rfl
@[simp] theorem State.setFld_fh (r : Reg) (f : BitField) (n : Nat) : (s.setFld r f n).fh = s.fh := rfl
@[simp] theorem State.setFld_mce (r : Reg) (f : BitField) (n : Nat) : (s.setFld r f n).mce = s.mce := rfl
@[simp] theorem State.setFld_pra (r : Reg) (f : BitField) (n : Nat) : (s.setFld r f n).pra = s.pra := rfl
@[simp] theorem State.setFld_dec (r : Reg) (f : BitField) (n : Nat) : (s.setFld r f n).dec = s.dec := rfl
@[simp] theorem State.setFld_sds (r : Reg) (f : BitField) (n : Nat) : (s.setFld r f n).sds = s.sds := rfl
@[simp] theorem State.setFld_drl (r : Reg) (f : BitField) (n : Nat) : (s.setFld r f n).drl = s.drl := rfl
@[simp] theorem State.setFld_fab (r : Reg) (f : BitField) (n : Nat) : (s.setFld r f n).fab = s.fab := rfl
@[simp] theorem State.setFld_dbg (r : Reg) (f : BitField) (n : Nat) : (s.setFld r f n).dbg = s.dbg := rfl
@[simp] theorem State.setFld_uart (r : Reg) (f : BitField) (n : Nat) : (s.setFld r f n).uart = s.uart := rfl

/-! ### emit -/

@[simp] theorem State.emit_pending (o : OutMsg) : (s.emit o).pending = s.pending := rfl
@[simp] theorem State.emit_freeCtr (o : OutMsg) : (s.emit o).freeCtr = s.freeCtr := rfl
@[simp] theorem State.emit_out (o : OutMsg) : (s.emit o).out = s.out ++ [o] := rfl
@[simp] theorem State.emit_regs (o : OutMsg) : (s.emit o).regs = s.regs := rfl
@[simp] theorem State.emit_mem (o : OutMsg) : (s.emit o).mem = s.mem := rfl
@[simp] theorem State.emit_ecc (o : OutMsg) : (s.emit o).ecc = s.ecc := rfl
@[simp] theorem State.emit_tm (o : OutMsg) : (s.emit o).tm = s.tm := rfl
@[simp] theorem State.emit_alm (o : OutMsg) : (s.emit o).alm = s.alm := rfl
@[simp] theorem State.emit_drv (o : OutMsg) : (s.emit o).drv = s.drv := rfl
@[simp] theorem State.emit_flt (o : OutMsg) : (s.emit o).flt = s.flt := rfl
@[simp] theorem State.emit_dsp (o : OutMsg) : (s.emit o).dsp = s.dsp := rfl
@[simp] theorem State.emit_noc (o : OutMsg) : (s.emit o).noc = s.noc := rfl
@[simp] theorem State.emit_mov (o : OutMsg) : (s.emit o).mov = s.mov := rfl
@[simp] theorem State.emit_pwr (o : OutMsg) : (s.emit o).pwr = s.pwr := rfl
@[simp] theorem State.emit_sys (o : OutMsg) : (s.emit o).sys = s.sys := rfl
@[simp] theorem State.emit_fh (o : OutMsg) : (s.emit o).fh = s.fh := rfl
@[simp] theorem State.emit_mce (o : OutMsg) : (s.emit o).mce = s.mce := rfl
@[simp] theorem State.emit_pra (o : OutMsg) : (s.emit o).pra = s.pra := rfl
@[simp] theorem State.emit_dec (o : OutMsg) : (s.emit o).dec = s.dec := rfl
@[simp] theorem State.emit_sds (o : OutMsg) : (s.emit o).sds = s.sds := rfl
@[simp] theorem State.emit_drl (o : OutMsg) : (s.emit o).drl = s.drl := rfl
@[simp] theorem State.emit_fab (o : OutMsg) : (s.emit o).fab = s.fab := rfl
@[simp] theorem State.emit_dbg (o : OutMsg) : (s.emit o).dbg = s.dbg := rfl
@[simp] theorem State.emit_uart (o : OutMsg) : (s.emit o).uart = s.uart := rfl

/-! ### toCycle -/

@[simp] theorem State.toCycle_pending (c : Nat) : (s.toCycle c).pending = s.pending := rfl
@[simp] theorem State.toCycle_freeCtr (c : Nat) : (s.toCycle c).freeCtr = s.freeCtr := rfl
@[simp] theorem State.toCycle_out (c : Nat) : (s.toCycle c).out = s.out := rfl
@[simp] theorem State.toCycle_regs (c : Nat) : (s.toCycle c).regs = s.regs := rfl
@[simp] theorem State.toCycle_mem (c : Nat) : (s.toCycle c).mem = s.mem := rfl
@[simp] theorem State.toCycle_ecc (c : Nat) : (s.toCycle c).ecc = s.ecc := rfl
@[simp] theorem State.toCycle_alm (c : Nat) : (s.toCycle c).alm = s.alm := rfl
@[simp] theorem State.toCycle_drv (c : Nat) : (s.toCycle c).drv = s.drv := rfl
@[simp] theorem State.toCycle_flt (c : Nat) : (s.toCycle c).flt = s.flt := rfl
@[simp] theorem State.toCycle_dsp (c : Nat) : (s.toCycle c).dsp = s.dsp := rfl
@[simp] theorem State.toCycle_noc (c : Nat) : (s.toCycle c).noc = s.noc := rfl
@[simp] theorem State.toCycle_mov (c : Nat) : (s.toCycle c).mov = s.mov := rfl
@[simp] theorem State.toCycle_pwr (c : Nat) : (s.toCycle c).pwr = s.pwr := rfl
@[simp] theorem State.toCycle_sys (c : Nat) : (s.toCycle c).sys = s.sys := rfl
@[simp] theorem State.toCycle_fh (c : Nat) : (s.toCycle c).fh = s.fh := rfl
@[simp] theorem State.toCycle_mce (c : Nat) : (s.toCycle c).mce = s.mce := rfl
@[simp] theorem State.toCycle_pra (c : Nat) : (s.toCycle c).pra = s.pra := rfl
@[simp] theorem State.toCycle_dec (c : Nat) : (s.toCycle c).dec = s.dec := rfl
@[simp] theorem State.toCycle_sds (c : Nat) : (s.toCycle c).sds = s.sds := rfl
@[simp] theorem State.toCycle_drl (c : Nat) : (s.toCycle c).drl = s.drl := rfl
@[simp] theorem State.toCycle_fab (c : Nat) : (s.toCycle c).fab = s.fab := rfl
@[simp] theorem State.toCycle_dbg (c : Nat) : (s.toCycle c).dbg = s.dbg := rfl
@[simp] theorem State.toCycle_uart (c : Nat) : (s.toCycle c).uart = s.uart := rfl

/-! ### setCore -/

@[simp] theorem State.setCore_pending (n : Nat) (c : Core) : (s.setCore n c).pending = s.pending := rfl
@[simp] theorem State.setCore_freeCtr (n : Nat) (c : Core) : (s.setCore n c).freeCtr = s.freeCtr := rfl
@[simp] theorem State.setCore_out (n : Nat) (c : Core) : (s.setCore n c).out = s.out := rfl
@[simp] theorem State.setCore_regs (n : Nat) (c : Core) : (s.setCore n c).regs = s.regs := rfl
@[simp] theorem State.setCore_mem (n : Nat) (c : Core) : (s.setCore n c).mem = s.mem := rfl
@[simp] theorem State.setCore_ecc (n : Nat) (c : Core) : (s.setCore n c).ecc = s.ecc := rfl
@[simp] theorem State.setCore_tm (n : Nat) (c : Core) : (s.setCore n c).tm = s.tm := rfl
@[simp] theorem State.setCore_alm (n : Nat) (c : Core) : (s.setCore n c).alm = s.alm := rfl
@[simp] theorem State.setCore_drv (n : Nat) (c : Core) : (s.setCore n c).drv = s.drv := rfl
@[simp] theorem State.setCore_flt (n : Nat) (c : Core) : (s.setCore n c).flt = s.flt := rfl
@[simp] theorem State.setCore_noc (n : Nat) (c : Core) : (s.setCore n c).noc = s.noc := rfl
@[simp] theorem State.setCore_mov (n : Nat) (c : Core) : (s.setCore n c).mov = s.mov := rfl
@[simp] theorem State.setCore_pwr (n : Nat) (c : Core) : (s.setCore n c).pwr = s.pwr := rfl
@[simp] theorem State.setCore_sys (n : Nat) (c : Core) : (s.setCore n c).sys = s.sys := rfl
@[simp] theorem State.setCore_fh (n : Nat) (c : Core) : (s.setCore n c).fh = s.fh := rfl
@[simp] theorem State.setCore_mce (n : Nat) (c : Core) : (s.setCore n c).mce = s.mce := rfl
@[simp] theorem State.setCore_pra (n : Nat) (c : Core) : (s.setCore n c).pra = s.pra := rfl
@[simp] theorem State.setCore_dec (n : Nat) (c : Core) : (s.setCore n c).dec = s.dec := rfl
@[simp] theorem State.setCore_sds (n : Nat) (c : Core) : (s.setCore n c).sds = s.sds := rfl
@[simp] theorem State.setCore_drl (n : Nat) (c : Core) : (s.setCore n c).drl = s.drl := rfl
@[simp] theorem State.setCore_fab (n : Nat) (c : Core) : (s.setCore n c).fab = s.fab := rfl
@[simp] theorem State.setCore_dbg (n : Nat) (c : Core) : (s.setCore n c).dbg = s.dbg := rfl
@[simp] theorem State.setCore_uart (n : Nat) (c : Core) : (s.setCore n c).uart = s.uart := rfl

/-! ### mapCore -/

@[simp] theorem State.mapCore_pending (n : Nat) (f : Core → Core) : (s.mapCore n f).pending = s.pending := rfl
@[simp] theorem State.mapCore_freeCtr (n : Nat) (f : Core → Core) : (s.mapCore n f).freeCtr = s.freeCtr := rfl
@[simp] theorem State.mapCore_out (n : Nat) (f : Core → Core) : (s.mapCore n f).out = s.out := rfl
@[simp] theorem State.mapCore_regs (n : Nat) (f : Core → Core) : (s.mapCore n f).regs = s.regs := rfl
@[simp] theorem State.mapCore_mem (n : Nat) (f : Core → Core) : (s.mapCore n f).mem = s.mem := rfl
@[simp] theorem State.mapCore_ecc (n : Nat) (f : Core → Core) : (s.mapCore n f).ecc = s.ecc := rfl
@[simp] theorem State.mapCore_tm (n : Nat) (f : Core → Core) : (s.mapCore n f).tm = s.tm := rfl
@[simp] theorem State.mapCore_alm (n : Nat) (f : Core → Core) : (s.mapCore n f).alm = s.alm := rfl
@[simp] theorem State.mapCore_drv (n : Nat) (f : Core → Core) : (s.mapCore n f).drv = s.drv := rfl
@[simp] theorem State.mapCore_flt (n : Nat) (f : Core → Core) : (s.mapCore n f).flt = s.flt := rfl
@[simp] theorem State.mapCore_noc (n : Nat) (f : Core → Core) : (s.mapCore n f).noc = s.noc := rfl
@[simp] theorem State.mapCore_mov (n : Nat) (f : Core → Core) : (s.mapCore n f).mov = s.mov := rfl
@[simp] theorem State.mapCore_pwr (n : Nat) (f : Core → Core) : (s.mapCore n f).pwr = s.pwr := rfl
@[simp] theorem State.mapCore_sys (n : Nat) (f : Core → Core) : (s.mapCore n f).sys = s.sys := rfl
@[simp] theorem State.mapCore_fh (n : Nat) (f : Core → Core) : (s.mapCore n f).fh = s.fh := rfl
@[simp] theorem State.mapCore_mce (n : Nat) (f : Core → Core) : (s.mapCore n f).mce = s.mce := rfl
@[simp] theorem State.mapCore_pra (n : Nat) (f : Core → Core) : (s.mapCore n f).pra = s.pra := rfl
@[simp] theorem State.mapCore_dec (n : Nat) (f : Core → Core) : (s.mapCore n f).dec = s.dec := rfl
@[simp] theorem State.mapCore_sds (n : Nat) (f : Core → Core) : (s.mapCore n f).sds = s.sds := rfl
@[simp] theorem State.mapCore_drl (n : Nat) (f : Core → Core) : (s.mapCore n f).drl = s.drl := rfl
@[simp] theorem State.mapCore_fab (n : Nat) (f : Core → Core) : (s.mapCore n f).fab = s.fab := rfl
@[simp] theorem State.mapCore_dbg (n : Nat) (f : Core → Core) : (s.mapCore n f).dbg = s.dbg := rfl
@[simp] theorem State.mapCore_uart (n : Nat) (f : Core → Core) : (s.mapCore n f).uart = s.uart := rfl

/-! ### setFlips -/

@[simp] theorem State.setFlips_pending (g w v : Nat) : (s.setFlips g w v).pending = s.pending := rfl
@[simp] theorem State.setFlips_freeCtr (g w v : Nat) : (s.setFlips g w v).freeCtr = s.freeCtr := rfl
@[simp] theorem State.setFlips_out (g w v : Nat) : (s.setFlips g w v).out = s.out := rfl
@[simp] theorem State.setFlips_regs (g w v : Nat) : (s.setFlips g w v).regs = s.regs := rfl
@[simp] theorem State.setFlips_mem (g w v : Nat) : (s.setFlips g w v).mem = s.mem := rfl
@[simp] theorem State.setFlips_tm (g w v : Nat) : (s.setFlips g w v).tm = s.tm := rfl
@[simp] theorem State.setFlips_alm (g w v : Nat) : (s.setFlips g w v).alm = s.alm := rfl
@[simp] theorem State.setFlips_drv (g w v : Nat) : (s.setFlips g w v).drv = s.drv := rfl
@[simp] theorem State.setFlips_flt (g w v : Nat) : (s.setFlips g w v).flt = s.flt := rfl
@[simp] theorem State.setFlips_dsp (g w v : Nat) : (s.setFlips g w v).dsp = s.dsp := rfl
@[simp] theorem State.setFlips_noc (g w v : Nat) : (s.setFlips g w v).noc = s.noc := rfl
@[simp] theorem State.setFlips_mov (g w v : Nat) : (s.setFlips g w v).mov = s.mov := rfl
@[simp] theorem State.setFlips_pwr (g w v : Nat) : (s.setFlips g w v).pwr = s.pwr := rfl
@[simp] theorem State.setFlips_sys (g w v : Nat) : (s.setFlips g w v).sys = s.sys := rfl
@[simp] theorem State.setFlips_fh (g w v : Nat) : (s.setFlips g w v).fh = s.fh := rfl
@[simp] theorem State.setFlips_mce (g w v : Nat) : (s.setFlips g w v).mce = s.mce := rfl
@[simp] theorem State.setFlips_pra (g w v : Nat) : (s.setFlips g w v).pra = s.pra := rfl
@[simp] theorem State.setFlips_dec (g w v : Nat) : (s.setFlips g w v).dec = s.dec := rfl
@[simp] theorem State.setFlips_sds (g w v : Nat) : (s.setFlips g w v).sds = s.sds := rfl
@[simp] theorem State.setFlips_drl (g w v : Nat) : (s.setFlips g w v).drl = s.drl := rfl
@[simp] theorem State.setFlips_fab (g w v : Nat) : (s.setFlips g w v).fab = s.fab := rfl
@[simp] theorem State.setFlips_dbg (g w v : Nat) : (s.setFlips g w v).dbg = s.dbg := rfl
@[simp] theorem State.setFlips_uart (g w v : Nat) : (s.setFlips g w v).uart = s.uart := rfl

/-! ### setRel -/

@[simp] theorem State.setRel_pending (k : Nat) (st : RelStatus) : (s.setRel k st).pending = s.pending := rfl
@[simp] theorem State.setRel_freeCtr (k : Nat) (st : RelStatus) : (s.setRel k st).freeCtr = s.freeCtr := rfl
@[simp] theorem State.setRel_out (k : Nat) (st : RelStatus) : (s.setRel k st).out = s.out := rfl
@[simp] theorem State.setRel_regs (k : Nat) (st : RelStatus) : (s.setRel k st).regs = s.regs := rfl
@[simp] theorem State.setRel_mem (k : Nat) (st : RelStatus) : (s.setRel k st).mem = s.mem := rfl
@[simp] theorem State.setRel_ecc (k : Nat) (st : RelStatus) : (s.setRel k st).ecc = s.ecc := rfl
@[simp] theorem State.setRel_tm (k : Nat) (st : RelStatus) : (s.setRel k st).tm = s.tm := rfl
@[simp] theorem State.setRel_alm (k : Nat) (st : RelStatus) : (s.setRel k st).alm = s.alm := rfl
@[simp] theorem State.setRel_flt (k : Nat) (st : RelStatus) : (s.setRel k st).flt = s.flt := rfl
@[simp] theorem State.setRel_dsp (k : Nat) (st : RelStatus) : (s.setRel k st).dsp = s.dsp := rfl
@[simp] theorem State.setRel_noc (k : Nat) (st : RelStatus) : (s.setRel k st).noc = s.noc := rfl
@[simp] theorem State.setRel_mov (k : Nat) (st : RelStatus) : (s.setRel k st).mov = s.mov := rfl
@[simp] theorem State.setRel_pwr (k : Nat) (st : RelStatus) : (s.setRel k st).pwr = s.pwr := rfl
@[simp] theorem State.setRel_sys (k : Nat) (st : RelStatus) : (s.setRel k st).sys = s.sys := rfl
@[simp] theorem State.setRel_fh (k : Nat) (st : RelStatus) : (s.setRel k st).fh = s.fh := rfl
@[simp] theorem State.setRel_mce (k : Nat) (st : RelStatus) : (s.setRel k st).mce = s.mce := rfl
@[simp] theorem State.setRel_pra (k : Nat) (st : RelStatus) : (s.setRel k st).pra = s.pra := rfl
@[simp] theorem State.setRel_dec (k : Nat) (st : RelStatus) : (s.setRel k st).dec = s.dec := rfl
@[simp] theorem State.setRel_sds (k : Nat) (st : RelStatus) : (s.setRel k st).sds = s.sds := rfl
@[simp] theorem State.setRel_drl (k : Nat) (st : RelStatus) : (s.setRel k st).drl = s.drl := rfl
@[simp] theorem State.setRel_fab (k : Nat) (st : RelStatus) : (s.setRel k st).fab = s.fab := rfl
@[simp] theorem State.setRel_dbg (k : Nat) (st : RelStatus) : (s.setRel k st).dbg = s.dbg := rfl
@[simp] theorem State.setRel_uart (k : Nat) (st : RelStatus) : (s.setRel k st).uart = s.uart := rfl

/-! ### mapStore -/

@[simp] theorem State.mapStore_pending (f : Request → Request) : (s.mapStore f).pending = s.pending := rfl
@[simp] theorem State.mapStore_freeCtr (f : Request → Request) : (s.mapStore f).freeCtr = s.freeCtr := rfl
@[simp] theorem State.mapStore_out (f : Request → Request) : (s.mapStore f).out = s.out := rfl
@[simp] theorem State.mapStore_regs (f : Request → Request) : (s.mapStore f).regs = s.regs := rfl
@[simp] theorem State.mapStore_mem (f : Request → Request) : (s.mapStore f).mem = s.mem := rfl
@[simp] theorem State.mapStore_ecc (f : Request → Request) : (s.mapStore f).ecc = s.ecc := rfl
@[simp] theorem State.mapStore_tm (f : Request → Request) : (s.mapStore f).tm = s.tm := rfl
@[simp] theorem State.mapStore_alm (f : Request → Request) : (s.mapStore f).alm = s.alm := rfl
@[simp] theorem State.mapStore_flt (f : Request → Request) : (s.mapStore f).flt = s.flt := rfl
@[simp] theorem State.mapStore_dsp (f : Request → Request) : (s.mapStore f).dsp = s.dsp := rfl
@[simp] theorem State.mapStore_noc (f : Request → Request) : (s.mapStore f).noc = s.noc := rfl
@[simp] theorem State.mapStore_mov (f : Request → Request) : (s.mapStore f).mov = s.mov := rfl
@[simp] theorem State.mapStore_pwr (f : Request → Request) : (s.mapStore f).pwr = s.pwr := rfl
@[simp] theorem State.mapStore_sys (f : Request → Request) : (s.mapStore f).sys = s.sys := rfl
@[simp] theorem State.mapStore_fh (f : Request → Request) : (s.mapStore f).fh = s.fh := rfl
@[simp] theorem State.mapStore_mce (f : Request → Request) : (s.mapStore f).mce = s.mce := rfl
@[simp] theorem State.mapStore_pra (f : Request → Request) : (s.mapStore f).pra = s.pra := rfl
@[simp] theorem State.mapStore_dec (f : Request → Request) : (s.mapStore f).dec = s.dec := rfl
@[simp] theorem State.mapStore_sds (f : Request → Request) : (s.mapStore f).sds = s.sds := rfl
@[simp] theorem State.mapStore_drl (f : Request → Request) : (s.mapStore f).drl = s.drl := rfl
@[simp] theorem State.mapStore_fab (f : Request → Request) : (s.mapStore f).fab = s.fab := rfl
@[simp] theorem State.mapStore_dbg (f : Request → Request) : (s.mapStore f).dbg = s.dbg := rfl
@[simp] theorem State.mapStore_uart (f : Request → Request) : (s.mapStore f).uart = s.uart := rfl

/-! ### Registers -/

/-- A register as it is read after a register was written: registers are told apart by where they lie. -/
theorem State.rd_wr (r q : Reg) (v : Word) : (s.wr r v).rd q = if q.off = r.off then v else s.rd q :=
  Regs.read_write s.regs r q v

@[simp] theorem State.rd_wr_same (r : Reg) (v : Word) : (s.wr r v).rd r = v := by simp [State.rd_wr]

theorem State.rd_wr_ne {r q : Reg} (v : Word) (h : q.off ≠ r.off) : (s.wr r v).rd q = s.rd q := by
  simp [State.rd_wr, h]

theorem State.rd_setFld_ne {r q : Reg} (f : BitField) (n : Nat) (h : q.off ≠ r.off) : (s.setFld r f n).rd q = s.rd q :=
  State.rd_wr_ne s _ h

theorem State.rd_setFld_same (r : Reg) (f : BitField) (n : Nat) : (s.setFld r f n).rd r = f.set (s.rd r) n :=
  State.rd_wr_same s r _

/-- A register depends on the registers alone. -/
theorem State.rd_congr {s t : State} (h : t.regs = s.regs) (r : Reg) : t.rd r = s.rd r := by simp [State.rd, h]

/-- So does a field. -/
theorem State.fld_congr {s t : State} (h : t.regs = s.regs) (r : Reg) (f : BitField) : t.fld r f = s.fld r f := by
  simp [State.fld, State.rd_congr h]

@[simp] theorem State.rd_keepQueue (t : State) (r : Reg) : (s.keepQueue t).rd r = t.rd r := rfl
@[simp] theorem State.fld_keepQueue (t : State) (r : Reg) (f : BitField) : (s.keepQueue t).fld r f = t.fld r f := rfl
@[simp] theorem State.rd_withPending (q : List Instr) (r : Reg) : (s.withPending q).rd r = s.rd r := rfl
@[simp] theorem State.rd_emit (o : OutMsg) (r : Reg) : (s.emit o).rd r = s.rd r := rfl
@[simp] theorem State.rd_toCycle (c : Nat) (r : Reg) : (s.toCycle c).rd r = s.rd r := rfl
@[simp] theorem State.rd_setCore (n : Nat) (c : Core) (r : Reg) : (s.setCore n c).rd r = s.rd r := rfl

/-! ### Cores -/

@[simp] theorem State.core_setCore_same (n : Nat) (c : Core) : (s.setCore n c).core n = c := by
  simp [State.core, State.setCore]

theorem State.core_setCore_ne {n k : Nat} (c : Core) (h : k ≠ n) : (s.setCore n c).core k = s.core k :=
  SMap.get_set_ne coreReset s.dsp.cores c h

@[simp] theorem State.core_mapCore_same (n : Nat) (f : Core → Core) : (s.mapCore n f).core n = f (s.core n) :=
  State.core_setCore_same s n _

theorem State.core_mapCore_ne {n k : Nat} (f : Core → Core) (h : k ≠ n) : (s.mapCore n f).core k = s.core k :=
  State.core_setCore_ne s _ h

@[simp] theorem State.core_keepQueue (t : State) (n : Nat) : (s.keepQueue t).core n = t.core n := rfl
@[simp] theorem State.core_wr (r : Reg) (v : Word) (n : Nat) : (s.wr r v).core n = s.core n := rfl

end Sys2Proof.Machine
end

