-- ==== Sys2Proof/Laws/Fields.lean ====
section
/-!
SUPPORT. Laws of bit fields: a field reads what was stored in it, and storing it leaves disjoint fields alone.
-/
namespace Sys2Proof.Machine

theorem testBit_bitsOf (n lo w i : Nat) : (bitsOf n lo w).testBit i = (decide (i < w) && n.testBit (lo + i)) := by
  rw [bitsOf, Nat.testBit_mod_two_pow, Nat.testBit_div_two_pow, Nat.add_comm]

theorem bitsOf_lt (n lo w : Nat) : bitsOf n lo w < 2 ^ w := Nat.mod_lt _ (Nat.two_pow_pos w)

/-- The bits of a word after one field was replaced. -/
theorem BitField.testBit_set (f : BitField) (v : Word) (n i : Nat) (hi : i < 64) :
    (f.set v n).toNat.testBit i = if f.lo ≤ i ∧ i < f.lo + f.w then n.testBit (i - f.lo) else v.toNat.testBit i := by
  have h1 : (BitVec.ofNat 64 ((2 ^ f.w - 1) * 2 ^ f.lo)).getLsbD i = (decide (f.lo ≤ i) && decide (i < f.lo + f.w)) := by
    rw [BitVec.getLsbD_ofNat, Nat.testBit_mul_two_pow, Nat.testBit_two_pow_sub_one]
    by_cases a : f.lo ≤ i <;> by_cases b : i < f.lo + f.w <;> simp [hi, a, b] <;> omega
  have h2 : (BitVec.ofNat 64 (2 ^ f.lo * (n % 2 ^ f.w))).getLsbD i
      = (decide (f.lo ≤ i) && (decide (i - f.lo < f.w) && n.testBit (i - f.lo))) := by
    rw [BitVec.getLsbD_ofNat, Nat.mul_comm, Nat.testBit_mul_two_pow, Nat.testBit_mod_two_pow]
    simp [hi]
  rw [← BitVec.getLsbD, BitField.set, BitVec.getLsbD_or, BitVec.getLsbD_and, BitVec.getLsbD_not, h1, h2]
  by_cases a : f.lo ≤ i <;> by_cases b : i < f.lo + f.w
  · have : i - f.lo < f.w := by omega
    simp [hi, a, b, this]
  · have : ¬ i - f.lo < f.w := by omega
    simp [hi, a, b, this, BitVec.getLsbD]
  · simp [hi, a, BitVec.getLsbD]
  · simp [hi, a, BitVec.getLsbD]

/-- A field reads what was stored in it. -/
theorem BitField.get_set (f : BitField) (v : Word) (n : Nat) (h : f.lo + f.w ≤ 64) : f.get (f.set v n) = n % 2 ^ f.w := by
  refine Nat.eq_of_testBit_eq fun i => ?_
  rw [BitField.get, testBit_bitsOf, Nat.testBit_mod_two_pow]
  by_cases hi : i < f.w
  · have a : f.lo ≤ f.lo + i := Nat.le_add_right ..
    have b : f.lo + i < f.lo + f.w := by omega
    rw [BitField.testBit_set _ _ _ _ (by omega)]
    simp [hi]
  · simp [hi]

/-- Storing a field leaves a disjoint one alone. -/
theorem BitField.get_set_disjoint (f g : BitField) (v : Word) (n : Nat) (hg : g.lo + g.w ≤ 64)
    (h : f.lo + f.w ≤ g.lo ∨ g.lo + g.w ≤ f.lo) : g.get (f.set v n) = g.get v := by
  refine Nat.eq_of_testBit_eq fun i => ?_
  rw [BitField.get, BitField.get, testBit_bitsOf, testBit_bitsOf]
  by_cases hi : i < g.w
  · rw [BitField.testBit_set _ _ _ _ (by omega)]
    have : ¬ (f.lo ≤ g.lo + i ∧ g.lo + i < f.lo + f.w) := by omega
    simp [this]
  · simp [hi]

/-- A field of the state after it was stored. -/
theorem State.fld_setFld_same (s : State) (r : Reg) (f : BitField) (n : Nat) (h : f.lo + f.w ≤ 64) :
    (s.setFld r f n).fld r f = n % 2 ^ f.w := by
  rw [State.fld, State.rd_setFld_same, BitField.get_set f _ n h]

/-- A field of another register. -/
theorem State.fld_setFld_ne (s : State) {r q : Reg} (f g : BitField) (n : Nat) (h : q.off ≠ r.off) :
    (s.setFld r f n).fld q g = s.fld q g := by
  rw [State.fld, State.rd_setFld_ne s f n h, State.fld]

/-- A disjoint field of the same register. -/
theorem State.fld_setFld_disjoint (s : State) (r : Reg) (f g : BitField) (n : Nat) (hg : g.lo + g.w ≤ 64)
    (h : f.lo + f.w ≤ g.lo ∨ g.lo + g.w ≤ f.lo) : (s.setFld r f n).fld r g = s.fld r g := by
  rw [State.fld, State.rd_setFld_same, BitField.get_set_disjoint f g _ n hg h, State.fld]

/-- A saturating count stays below its largest value. -/
theorem satAdd_le (top a b : Nat) : satAdd top a b ≤ top := Nat.min_le_left ..

/-- What a counter shows after it was bumped. -/
theorem State.fld_bump_same (s : State) (r : Reg) (f : BitField) (k : Nat) (h : f.lo + f.w ≤ 64) :
    (s.bump r f k).fld r f = min f.max (s.fld r f + k) := by
  have : min f.max (s.fld r f + k) < 2 ^ f.w := by
    have := Nat.two_pow_pos f.w
    have : min f.max (s.fld r f + k) ≤ f.max := Nat.min_le_left ..
    unfold BitField.max at *
    omega
  rw [State.bump, State.fld_setFld_same _ _ _ _ h, satAdd, Nat.mod_eq_of_lt this]

end Sys2Proof.Machine
end

