-- ==== Sys2Proof/Laws/Outcome.lean ====
section
/-!
SUPPORT. What the outcome of a command can be: the two shapes that every meaning has, one step, and a run.
-/
namespace Sys2Proof.Machine

theorem always_eq (f : State → State) (s : State) : always f s = .next (s.keepQueue (f s)) := rfl

/-- Where the clocks run, a command that needs them acts. -/
theorem running_live (f : State → State) (s : State) (h : s.halted = false) : running f s = .next (s.keepQueue (f s)) := by
  simp [running, h]

/-- While the debugger holds the clocks, it does nothing (R464). -/
theorem running_halted (f : State → State) (s : State) (h : s.halted = true) : running f s = .next s := by
  simp [running, h]

/-- A meaning of either shape completes and leaves the queue as it was. -/
theorem always_pending (f : State → State) (s : State) : ∃ t, always f s = .next t ∧ t.pending = s.pending := ⟨_, rfl, rfl⟩

theorem running_pending (f : State → State) (s : State) : ∃ t, running f s = .next t ∧ t.pending = s.pending := by
  refine ⟨_, rfl, ?_⟩
  split <;> rfl

/-- A step with a command in front of the queue. -/
theorem step_cons (s : State) (c : Instr) (q : List Instr) (h : s.pending = c :: q) : step s = exec c (s.withPending q) := by
  simp [step, h]

/-- A step on an empty queue. -/
theorem step_nil (s : State) (h : s.pending = []) : step s = .next s.idle := by simp [step, h]

end Sys2Proof.Machine
end

