-- ==== Sys2Proof/Laws/Shape.lean ====
section
/-!
SUPPORT. The shape of every meaning: one state function, stopped by a halt of the clocks or not (R464).
-/
namespace Sys2Proof.Machine

/-- A command that a halt stops. -/
theorem exec_running (c : Instr) (h : haltStops c = true) : ∃ f, ∀ s, exec c s = running f s := by
  cases c <;> first | exact Bool.noConfusion h | exact ⟨_, fun _ => rfl⟩

/-- A command that goes on while the clocks are halted. -/
theorem exec_always (c : Instr) (h : haltStops c = false) : ∃ f, ∀ s, exec c s = always f s := by
  cases c <;> first | exact Bool.noConfusion h | exact ⟨_, fun _ => rfl⟩

end Sys2Proof.Machine
end

