-- ==== Sys2Proof/Laws/Signals.lean ====
section
/-!
SUPPORT. What the shared operations that count and signal leave alone: counters, fields, bits, messages to the host and interrupts.
-/
namespace Sys2Proof.Machine

variable (s : State)


/-! ### bump -/

@[simp] theorem State.bump_pending (r : Reg) (f : BitField) (k : Nat) : (s.bump r f k).pending = s.pending := rfl
@[simp] theorem State.bump_freeCtr (r : Reg) (f : BitField) (k : Nat) : (s.bump r f k).freeCtr = s.freeCtr := rfl
@[simp] theorem State.bump_mem (r : Reg) (f : BitField) (k : Nat) : (s.bump r f k).mem = s.mem := rfl
@[simp] theorem State.bump_ecc (r : Reg) (f : BitField) (k : Nat) : (s.bump r f k).ecc = s.ecc := rfl
@[simp] theorem State.bump_tm (r : Reg) (f : BitField) (k : Nat) : (s.bump r f k).tm = s.tm := rfl
@[simp] theorem State.bump_alm (r : Reg) (f : BitField) (k : Nat) : (s.bump r f k).alm = s.alm := rfl
@[simp] theorem State.bump_drv (r : Reg) (f : BitField) (k : Nat) : (s.bump r f k).drv = s.drv := rfl
@[simp] theorem State.bump_flt (r : Reg) (f : BitField) (k : Nat) : (s.bump r f k).flt = s.flt := rfl
@[simp] theorem State.bump_dsp (r : Reg) (f : BitField) (k : Nat) : (s.bump r f k).dsp = s.dsp := rfl
@[simp] theorem State.bump_noc (r : Reg) (f : BitField) (k : Nat) : (s.bump r f k).noc = s.noc := rfl
@[simp] theorem State.bump_mov (r : Reg) (f : BitField) (k : Nat) : (s.bump r f k).mov = s.mov := rfl
@[simp] theorem State.bump_pwr (r : Reg) (f : BitField) (k : Nat) : (s.bump r f k).pwr = s.pwr := rfl
@[simp] theorem State.bump_sys (r : Reg) (f : BitField) (k : Nat) : (s.bump r f k).sys = s.sys := rfl
@[simp] theorem State.bump_fh (r : Reg) (f : BitField) (k : Nat) : (s.bump r f k).fh = s.fh := rfl
@[simp] theorem State.bump_mce (r : Reg) (f : BitField) (k : Nat) : (s.bump r f k).mce = s.mce := rfl
@[simp] theorem State.bump_pra (r : Reg) (f : BitField) (k : Nat) : (s.bump r f k).pra = s.pra := rfl
@[simp] theorem State.bump_dec (r : Reg) (f : BitField) (k : Nat) : (s.bump r f k).dec = s.dec := rfl
@[simp] theorem State.bump_sds (r : Reg) (f : BitField) (k : Nat) : (s.bump r f k).sds = s.sds := rfl
@[simp] theorem State.bump_drl (r : Reg) (f : BitField) (k : Nat) : (s.bump r f k).drl = s.drl := rfl
@[simp] theorem State.bump_fab (r : Reg) (f : BitField) (k : Nat) : (s.bump r f k).fab = s.fab := rfl
@[simp] theorem State.bump_dbg (r : Reg) (f : BitField) (k : Nat) : (s.bump r f k).dbg = s.dbg := rfl
@[simp] theorem State.bump_uart (r : Reg) (f : BitField) (k : Nat) : (s.bump r f k).uart = s.uart := rfl
@[simp] theorem State.bump_out (r : Reg) (f : BitField) (k : Nat) : (s.bump r f k).out = s.out := rfl
theorem State.rd_bump_ne {r q : Reg} (f : BitField) (k : Nat) (h : q.off ≠ r.off) : (s.bump r f k).rd q = s.rd q := State.rd_setFld_ne _ _ _ h

/-! ### tally -/

@[simp] theorem State.tally_pending (r : Reg) (k : Nat) : (s.tally r k).pending = s.pending := rfl
@[simp] theorem State.tally_freeCtr (r : Reg) (k : Nat) : (s.tally r k).freeCtr = s.freeCtr := rfl
@[simp] theorem State.tally_mem (r : Reg) (k : Nat) : (s.tally r k).mem = s.mem := rfl
@[simp] theorem State.tally_ecc (r : Reg) (k : Nat) : (s.tally r k).ecc = s.ecc := rfl
@[simp] theorem State.tally_tm (r : Reg) (k : Nat) : (s.tally r k).tm = s.tm := rfl
@[simp] theorem State.tally_alm (r : Reg) (k : Nat) : (s.tally r k).alm = s.alm := rfl
@[simp] theorem State.tally_drv (r : Reg) (k : Nat) : (s.tally r k).drv = s.drv := rfl
@[simp] theorem State.tally_flt (r : Reg) (k : Nat) : (s.tally r k).flt = s.flt := rfl
@[simp] theorem State.tally_dsp (r : Reg) (k : Nat) : (s.tally r k).dsp = s.dsp := rfl
@[simp] theorem State.tally_noc (r : Reg) (k : Nat) : (s.tally r k).noc = s.noc := rfl
@[simp] theorem State.tally_mov (r : Reg) (k : Nat) : (s.tally r k).mov = s.mov := rfl
@[simp] theorem State.tally_pwr (r : Reg) (k : Nat) : (s.tally r k).pwr = s.pwr := rfl
@[simp] theorem State.tally_sys (r : Reg) (k : Nat) : (s.tally r k).sys = s.sys := rfl
@[simp] theorem State.tally_fh (r : Reg) (k : Nat) : (s.tally r k).fh = s.fh := rfl
@[simp] theorem State.tally_mce (r : Reg) (k : Nat) : (s.tally r k).mce = s.mce := rfl
@[simp] theorem State.tally_pra (r : Reg) (k : Nat) : (s.tally r k).pra = s.pra := rfl
@[simp] theorem State.tally_dec (r : Reg) (k : Nat) : (s.tally r k).dec = s.dec := rfl
@[simp] theorem State.tally_sds (r : Reg) (k : Nat) : (s.tally r k).sds = s.sds := rfl
@[simp] theorem State.tally_drl (r : Reg) (k : Nat) : (s.tally r k).drl = s.drl := rfl
@[simp] theorem State.tally_fab (r : Reg) (k : Nat) : (s.tally r k).fab = s.fab := rfl
@[simp] theorem State.tally_dbg (r : Reg) (k : Nat) : (s.tally r k).dbg = s.dbg := rfl
@[simp] theorem State.tally_uart (r : Reg) (k : Nat) : (s.tally r k).uart = s.uart := rfl
@[simp] theorem State.tally_out (r : Reg) (k : Nat) : (s.tally r k).out = s.out := rfl
theorem State.rd_tally (r q : Reg) (k : Nat) : (s.tally r k).rd q = if q.off = r.off then s.rd r + BitVec.ofNat 64 k else s.rd q := State.rd_wr _ _ _ _

/-! ### setBit -/

@[simp] theorem State.setBit_pending (r : Reg) (n : Nat) (b : Bool) : (s.setBit r n b).pending = s.pending := rfl
@[simp] theorem State.setBit_freeCtr (r : Reg) (n : Nat) (b : Bool) : (s.setBit r n b).freeCtr = s.freeCtr := rfl
@[simp] theorem State.setBit_mem (r : Reg) (n : Nat) (b : Bool) : (s.setBit r n b).mem = s.mem := rfl
@[simp] theorem State.setBit_ecc (r : Reg) (n : Nat) (b : Bool) : (s.setBit r n b).ecc = s.ecc := rfl
@[simp] theorem State.setBit_tm (r : Reg) (n : Nat) (b : Bool) : (s.setBit r n b).tm = s.tm := rfl
@[simp] theorem State.setBit_alm (r : Reg) (n : Nat) (b : Bool) : (s.setBit r n b).alm = s.alm := rfl
@[simp] theorem State.setBit_drv (r : Reg) (n : Nat) (b : Bool) : (s.setBit r n b).drv = s.drv := rfl
@[simp] theorem State.setBit_flt (r : Reg) (n : Nat) (b : Bool) : (s.setBit r n b).flt = s.flt := rfl
@[simp] theorem State.setBit_dsp (r : Reg) (n : Nat) (b : Bool) : (s.setBit r n b).dsp = s.dsp := rfl
@[simp] theorem State.setBit_noc (r : Reg) (n : Nat) (b : Bool) : (s.setBit r n b).noc = s.noc := rfl
@[simp] theorem State.setBit_mov (r : Reg) (n : Nat) (b : Bool) : (s.setBit r n b).mov = s.mov := rfl
@[simp] theorem State.setBit_pwr (r : Reg) (n : Nat) (b : Bool) : (s.setBit r n b).pwr = s.pwr := rfl
@[simp] theorem State.setBit_sys (r : Reg) (n : Nat) (b : Bool) : (s.setBit r n b).sys = s.sys := rfl
@[simp] theorem State.setBit_fh (r : Reg) (n : Nat) (b : Bool) : (s.setBit r n b).fh = s.fh := rfl
@[simp] theorem State.setBit_mce (r : Reg) (n : Nat) (b : Bool) : (s.setBit r n b).mce = s.mce := rfl
@[simp] theorem State.setBit_pra (r : Reg) (n : Nat) (b : Bool) : (s.setBit r n b).pra = s.pra := rfl
@[simp] theorem State.setBit_dec (r : Reg) (n : Nat) (b : Bool) : (s.setBit r n b).dec = s.dec := rfl
@[simp] theorem State.setBit_sds (r : Reg) (n : Nat) (b : Bool) : (s.setBit r n b).sds = s.sds := rfl
@[simp] theorem State.setBit_drl (r : Reg) (n : Nat) (b : Bool) : (s.setBit r n b).drl = s.drl := rfl
@[simp] theorem State.setBit_fab (r : Reg) (n : Nat) (b : Bool) : (s.setBit r n b).fab = s.fab := rfl
@[simp] theorem State.setBit_dbg (r : Reg) (n : Nat) (b : Bool) : (s.setBit r n b).dbg = s.dbg := rfl
@[simp] theorem State.setBit_uart (r : Reg) (n : Nat) (b : Bool) : (s.setBit r n b).uart = s.uart := rfl
@[simp] theorem State.setBit_out (r : Reg) (n : Nat) (b : Bool) : (s.setBit r n b).out = s.out := rfl
theorem State.rd_setBit_ne {r q : Reg} (n : Nat) (b : Bool) (h : q.off ≠ r.off) : (s.setBit r n b).rd q = s.rd q := State.rd_setFld_ne _ _ _ h

/-! ### hostWrite -/

@[simp] theorem State.hostWrite_pending (a : Nat) (b : List Byte) : (s.hostWrite a b).pending = s.pending := by unfold State.hostWrite; split <;> rfl
@[simp] theorem State.hostWrite_freeCtr (a : Nat) (b : List Byte) : (s.hostWrite a b).freeCtr = s.freeCtr := by unfold State.hostWrite; split <;> rfl
@[simp] theorem State.hostWrite_mem (a : Nat) (b : List Byte) : (s.hostWrite a b).mem = s.mem := by unfold State.hostWrite; split <;> rfl
@[simp] theorem State.hostWrite_ecc (a : Nat) (b : List Byte) : (s.hostWrite a b).ecc = s.ecc := by unfold State.hostWrite; split <;> rfl
@[simp] theorem State.hostWrite_tm (a : Nat) (b : List Byte) : (s.hostWrite a b).tm = s.tm := by unfold State.hostWrite; split <;> rfl
@[simp] theorem State.hostWrite_alm (a : Nat) (b : List Byte) : (s.hostWrite a b).alm = s.alm := by unfold State.hostWrite; split <;> rfl
@[simp] theorem State.hostWrite_drv (a : Nat) (b : List Byte) : (s.hostWrite a b).drv = s.drv := by unfold State.hostWrite; split <;> rfl
@[simp] theorem State.hostWrite_flt (a : Nat) (b : List Byte) : (s.hostWrite a b).flt = s.flt := by unfold State.hostWrite; split <;> rfl
@[simp] theorem State.hostWrite_dsp (a : Nat) (b : List Byte) : (s.hostWrite a b).dsp = s.dsp := by unfold State.hostWrite; split <;> rfl
@[simp] theorem State.hostWrite_noc (a : Nat) (b : List Byte) : (s.hostWrite a b).noc = s.noc := by unfold State.hostWrite; split <;> rfl
@[simp] theorem State.hostWrite_mov (a : Nat) (b : List Byte) : (s.hostWrite a b).mov = s.mov := by unfold State.hostWrite; split <;> rfl
@[simp] theorem State.hostWrite_pwr (a : Nat) (b : List Byte) : (s.hostWrite a b).pwr = s.pwr := by unfold State.hostWrite; split <;> rfl
@[simp] theorem State.hostWrite_sys (a : Nat) (b : List Byte) : (s.hostWrite a b).sys = s.sys := by unfold State.hostWrite; split <;> rfl
@[simp] theorem State.hostWrite_fh (a : Nat) (b : List Byte) : (s.hostWrite a b).fh = s.fh := by unfold State.hostWrite; split <;> rfl
@[simp] theorem State.hostWrite_mce (a : Nat) (b : List Byte) : (s.hostWrite a b).mce = s.mce := by unfold State.hostWrite; split <;> rfl
@[simp] theorem State.hostWrite_pra (a : Nat) (b : List Byte) : (s.hostWrite a b).pra = s.pra := by unfold State.hostWrite; split <;> rfl
@[simp] theorem State.hostWrite_dec (a : Nat) (b : List Byte) : (s.hostWrite a b).dec = s.dec := by unfold State.hostWrite; split <;> rfl
@[simp] theorem State.hostWrite_sds (a : Nat) (b : List Byte) : (s.hostWrite a b).sds = s.sds := by unfold State.hostWrite; split <;> rfl
@[simp] theorem State.hostWrite_drl (a : Nat) (b : List Byte) : (s.hostWrite a b).drl = s.drl := by unfold State.hostWrite; split <;> rfl
@[simp] theorem State.hostWrite_fab (a : Nat) (b : List Byte) : (s.hostWrite a b).fab = s.fab := by unfold State.hostWrite; split <;> rfl
@[simp] theorem State.hostWrite_dbg (a : Nat) (b : List Byte) : (s.hostWrite a b).dbg = s.dbg := by unfold State.hostWrite; split <;> rfl
@[simp] theorem State.hostWrite_uart (a : Nat) (b : List Byte) : (s.hostWrite a b).uart = s.uart := by unfold State.hostWrite; split <;> rfl

/-! ### msix -/

@[simp] theorem State.msix_pending (v : Nat) : (s.msix v).pending = s.pending := by unfold State.msix; split <;> (try split) <;> rfl
@[simp] theorem State.msix_freeCtr (v : Nat) : (s.msix v).freeCtr = s.freeCtr := by unfold State.msix; split <;> (try split) <;> rfl
@[simp] theorem State.msix_mem (v : Nat) : (s.msix v).mem = s.mem := by unfold State.msix; split <;> (try split) <;> rfl
@[simp] theorem State.msix_ecc (v : Nat) : (s.msix v).ecc = s.ecc := by unfold State.msix; split <;> (try split) <;> rfl
@[simp] theorem State.msix_tm (v : Nat) : (s.msix v).tm = s.tm := by unfold State.msix; split <;> (try split) <;> rfl
@[simp] theorem State.msix_alm (v : Nat) : (s.msix v).alm = s.alm := by unfold State.msix; split <;> (try split) <;> rfl
@[simp] theorem State.msix_drv (v : Nat) : (s.msix v).drv = s.drv := by unfold State.msix; split <;> (try split) <;> rfl
@[simp] theorem State.msix_flt (v : Nat) : (s.msix v).flt = s.flt := by unfold State.msix; split <;> (try split) <;> rfl
@[simp] theorem State.msix_dsp (v : Nat) : (s.msix v).dsp = s.dsp := by unfold State.msix; split <;> (try split) <;> rfl
@[simp] theorem State.msix_noc (v : Nat) : (s.msix v).noc = s.noc := by unfold State.msix; split <;> (try split) <;> rfl
@[simp] theorem State.msix_mov (v : Nat) : (s.msix v).mov = s.mov := by unfold State.msix; split <;> (try split) <;> rfl
@[simp] theorem State.msix_pwr (v : Nat) : (s.msix v).pwr = s.pwr := by unfold State.msix; split <;> (try split) <;> rfl
@[simp] theorem State.msix_sys (v : Nat) : (s.msix v).sys = s.sys := by unfold State.msix; split <;> (try split) <;> rfl
@[simp] theorem State.msix_fh (v : Nat) : (s.msix v).fh = s.fh := by unfold State.msix; split <;> (try split) <;> rfl
@[simp] theorem State.msix_mce (v : Nat) : (s.msix v).mce = s.mce := by unfold State.msix; split <;> (try split) <;> rfl
@[simp] theorem State.msix_pra (v : Nat) : (s.msix v).pra = s.pra := by unfold State.msix; split <;> (try split) <;> rfl
@[simp] theorem State.msix_dec (v : Nat) : (s.msix v).dec = s.dec := by unfold State.msix; split <;> (try split) <;> rfl
@[simp] theorem State.msix_sds (v : Nat) : (s.msix v).sds = s.sds := by unfold State.msix; split <;> (try split) <;> rfl
@[simp] theorem State.msix_drl (v : Nat) : (s.msix v).drl = s.drl := by unfold State.msix; split <;> (try split) <;> rfl
@[simp] theorem State.msix_fab (v : Nat) : (s.msix v).fab = s.fab := by unfold State.msix; split <;> (try split) <;> rfl
@[simp] theorem State.msix_dbg (v : Nat) : (s.msix v).dbg = s.dbg := by unfold State.msix; split <;> (try split) <;> rfl
@[simp] theorem State.msix_uart (v : Nat) : (s.msix v).uart = s.uart := by unfold State.msix; split <;> (try split) <;> rfl

/-! ### msixIf -/

@[simp] theorem State.msixIf_pending (e : Bool) (v : Nat) : (s.msixIf e v).pending = s.pending := by unfold State.msixIf; split <;> simp
@[simp] theorem State.msixIf_freeCtr (e : Bool) (v : Nat) : (s.msixIf e v).freeCtr = s.freeCtr := by unfold State.msixIf; split <;> simp
@[simp] theorem State.msixIf_mem (e : Bool) (v : Nat) : (s.msixIf e v).mem = s.mem := by unfold State.msixIf; split <;> simp
@[simp] theorem State.msixIf_ecc (e : Bool) (v : Nat) : (s.msixIf e v).ecc = s.ecc := by unfold State.msixIf; split <;> simp
@[simp] theorem State.msixIf_tm (e : Bool) (v : Nat) : (s.msixIf e v).tm = s.tm := by unfold State.msixIf; split <;> simp
@[simp] theorem State.msixIf_alm (e : Bool) (v : Nat) : (s.msixIf e v).alm = s.alm := by unfold State.msixIf; split <;> simp
@[simp] theorem State.msixIf_drv (e : Bool) (v : Nat) : (s.msixIf e v).drv = s.drv := by unfold State.msixIf; split <;> simp
@[simp] theorem State.msixIf_flt (e : Bool) (v : Nat) : (s.msixIf e v).flt = s.flt := by unfold State.msixIf; split <;> simp
@[simp] theorem State.msixIf_dsp (e : Bool) (v : Nat) : (s.msixIf e v).dsp = s.dsp := by unfold State.msixIf; split <;> simp
@[simp] theorem State.msixIf_noc (e : Bool) (v : Nat) : (s.msixIf e v).noc = s.noc := by unfold State.msixIf; split <;> simp
@[simp] theorem State.msixIf_mov (e : Bool) (v : Nat) : (s.msixIf e v).mov = s.mov := by unfold State.msixIf; split <;> simp
@[simp] theorem State.msixIf_pwr (e : Bool) (v : Nat) : (s.msixIf e v).pwr = s.pwr := by unfold State.msixIf; split <;> simp
@[simp] theorem State.msixIf_sys (e : Bool) (v : Nat) : (s.msixIf e v).sys = s.sys := by unfold State.msixIf; split <;> simp
@[simp] theorem State.msixIf_fh (e : Bool) (v : Nat) : (s.msixIf e v).fh = s.fh := by unfold State.msixIf; split <;> simp
@[simp] theorem State.msixIf_mce (e : Bool) (v : Nat) : (s.msixIf e v).mce = s.mce := by unfold State.msixIf; split <;> simp
@[simp] theorem State.msixIf_pra (e : Bool) (v : Nat) : (s.msixIf e v).pra = s.pra := by unfold State.msixIf; split <;> simp
@[simp] theorem State.msixIf_dec (e : Bool) (v : Nat) : (s.msixIf e v).dec = s.dec := by unfold State.msixIf; split <;> simp
@[simp] theorem State.msixIf_sds (e : Bool) (v : Nat) : (s.msixIf e v).sds = s.sds := by unfold State.msixIf; split <;> simp
@[simp] theorem State.msixIf_drl (e : Bool) (v : Nat) : (s.msixIf e v).drl = s.drl := by unfold State.msixIf; split <;> simp
@[simp] theorem State.msixIf_fab (e : Bool) (v : Nat) : (s.msixIf e v).fab = s.fab := by unfold State.msixIf; split <;> simp
@[simp] theorem State.msixIf_dbg (e : Bool) (v : Nat) : (s.msixIf e v).dbg = s.dbg := by unfold State.msixIf; split <;> simp
@[simp] theorem State.msixIf_uart (e : Bool) (v : Nat) : (s.msixIf e v).uart = s.uart := by unfold State.msixIf; split <;> simp

/-! ### almEvent -/

@[simp] theorem State.almEvent_pending  : (s.almEvent).pending = s.pending := by simp [State.almEvent]
@[simp] theorem State.almEvent_freeCtr  : (s.almEvent).freeCtr = s.freeCtr := by simp [State.almEvent]
@[simp] theorem State.almEvent_mem  : (s.almEvent).mem = s.mem := by simp [State.almEvent]
@[simp] theorem State.almEvent_ecc  : (s.almEvent).ecc = s.ecc := by simp [State.almEvent]
@[simp] theorem State.almEvent_tm  : (s.almEvent).tm = s.tm := by simp [State.almEvent]
@[simp] theorem State.almEvent_alm  : (s.almEvent).alm = s.alm := by simp [State.almEvent]
@[simp] theorem State.almEvent_drv  : (s.almEvent).drv = s.drv := by simp [State.almEvent]
@[simp] theorem State.almEvent_flt  : (s.almEvent).flt = s.flt := by simp [State.almEvent]
@[simp] theorem State.almEvent_dsp  : (s.almEvent).dsp = s.dsp := by simp [State.almEvent]
@[simp] theorem State.almEvent_noc  : (s.almEvent).noc = s.noc := by simp [State.almEvent]
@[simp] theorem State.almEvent_mov  : (s.almEvent).mov = s.mov := by simp [State.almEvent]
@[simp] theorem State.almEvent_pwr  : (s.almEvent).pwr = s.pwr := by simp [State.almEvent]
@[simp] theorem State.almEvent_sys  : (s.almEvent).sys = s.sys := by simp [State.almEvent]
@[simp] theorem State.almEvent_fh  : (s.almEvent).fh = s.fh := by simp [State.almEvent]
@[simp] theorem State.almEvent_mce  : (s.almEvent).mce = s.mce := by simp [State.almEvent]
@[simp] theorem State.almEvent_pra  : (s.almEvent).pra = s.pra := by simp [State.almEvent]
@[simp] theorem State.almEvent_dec  : (s.almEvent).dec = s.dec := by simp [State.almEvent]
@[simp] theorem State.almEvent_sds  : (s.almEvent).sds = s.sds := by simp [State.almEvent]
@[simp] theorem State.almEvent_drl  : (s.almEvent).drl = s.drl := by simp [State.almEvent]
@[simp] theorem State.almEvent_fab  : (s.almEvent).fab = s.fab := by simp [State.almEvent]
@[simp] theorem State.almEvent_dbg  : (s.almEvent).dbg = s.dbg := by simp [State.almEvent]
@[simp] theorem State.almEvent_uart  : (s.almEvent).uart = s.uart := by simp [State.almEvent]

/-! ### shepIrq -/

@[simp] theorem State.shepIrq_pending (a b : Nat) : (s.shepIrq a b).pending = s.pending := rfl
@[simp] theorem State.shepIrq_freeCtr (a b : Nat) : (s.shepIrq a b).freeCtr = s.freeCtr := rfl
@[simp] theorem State.shepIrq_mem (a b : Nat) : (s.shepIrq a b).mem = s.mem := rfl
@[simp] theorem State.shepIrq_ecc (a b : Nat) : (s.shepIrq a b).ecc = s.ecc := rfl
@[simp] theorem State.shepIrq_tm (a b : Nat) : (s.shepIrq a b).tm = s.tm := rfl
@[simp] theorem State.shepIrq_alm (a b : Nat) : (s.shepIrq a b).alm = s.alm := rfl
@[simp] theorem State.shepIrq_drv (a b : Nat) : (s.shepIrq a b).drv = s.drv := rfl
@[simp] theorem State.shepIrq_flt (a b : Nat) : (s.shepIrq a b).flt = s.flt := rfl
@[simp] theorem State.shepIrq_dsp (a b : Nat) : (s.shepIrq a b).dsp = s.dsp := rfl
@[simp] theorem State.shepIrq_noc (a b : Nat) : (s.shepIrq a b).noc = s.noc := rfl
@[simp] theorem State.shepIrq_mov (a b : Nat) : (s.shepIrq a b).mov = s.mov := rfl
@[simp] theorem State.shepIrq_pwr (a b : Nat) : (s.shepIrq a b).pwr = s.pwr := rfl
@[simp] theorem State.shepIrq_sys (a b : Nat) : (s.shepIrq a b).sys = s.sys := rfl
@[simp] theorem State.shepIrq_fh (a b : Nat) : (s.shepIrq a b).fh = s.fh := rfl
@[simp] theorem State.shepIrq_mce (a b : Nat) : (s.shepIrq a b).mce = s.mce := rfl
@[simp] theorem State.shepIrq_pra (a b : Nat) : (s.shepIrq a b).pra = s.pra := rfl
@[simp] theorem State.shepIrq_dec (a b : Nat) : (s.shepIrq a b).dec = s.dec := rfl
@[simp] theorem State.shepIrq_sds (a b : Nat) : (s.shepIrq a b).sds = s.sds := rfl
@[simp] theorem State.shepIrq_drl (a b : Nat) : (s.shepIrq a b).drl = s.drl := rfl
@[simp] theorem State.shepIrq_fab (a b : Nat) : (s.shepIrq a b).fab = s.fab := rfl
@[simp] theorem State.shepIrq_dbg (a b : Nat) : (s.shepIrq a b).dbg = s.dbg := rfl
@[simp] theorem State.shepIrq_uart (a b : Nat) : (s.shepIrq a b).uart = s.uart := rfl

/-! ### setReady -/

@[simp] theorem State.setReady_pending (f : BitField) (n : Nat) : (s.setReady f n).pending = s.pending := by unfold State.setReady; split <;> simp
@[simp] theorem State.setReady_freeCtr (f : BitField) (n : Nat) : (s.setReady f n).freeCtr = s.freeCtr := by unfold State.setReady; split <;> simp
@[simp] theorem State.setReady_mem (f : BitField) (n : Nat) : (s.setReady f n).mem = s.mem := by unfold State.setReady; split <;> simp
@[simp] theorem State.setReady_ecc (f : BitField) (n : Nat) : (s.setReady f n).ecc = s.ecc := by unfold State.setReady; split <;> simp
@[simp] theorem State.setReady_tm (f : BitField) (n : Nat) : (s.setReady f n).tm = s.tm := by unfold State.setReady; split <;> simp
@[simp] theorem State.setReady_alm (f : BitField) (n : Nat) : (s.setReady f n).alm = s.alm := by unfold State.setReady; split <;> simp
@[simp] theorem State.setReady_drv (f : BitField) (n : Nat) : (s.setReady f n).drv = s.drv := by unfold State.setReady; split <;> simp
@[simp] theorem State.setReady_flt (f : BitField) (n : Nat) : (s.setReady f n).flt = s.flt := by unfold State.setReady; split <;> simp
@[simp] theorem State.setReady_dsp (f : BitField) (n : Nat) : (s.setReady f n).dsp = s.dsp := by unfold State.setReady; split <;> simp
@[simp] theorem State.setReady_noc (f : BitField) (n : Nat) : (s.setReady f n).noc = s.noc := by unfold State.setReady; split <;> simp
@[simp] theorem State.setReady_mov (f : BitField) (n : Nat) : (s.setReady f n).mov = s.mov := by unfold State.setReady; split <;> simp
@[simp] theorem State.setReady_pwr (f : BitField) (n : Nat) : (s.setReady f n).pwr = s.pwr := by unfold State.setReady; split <;> simp
@[simp] theorem State.setReady_sys (f : BitField) (n : Nat) : (s.setReady f n).sys = s.sys := by unfold State.setReady; split <;> simp
@[simp] theorem State.setReady_fh (f : BitField) (n : Nat) : (s.setReady f n).fh = s.fh := by unfold State.setReady; split <;> simp
@[simp] theorem State.setReady_mce (f : BitField) (n : Nat) : (s.setReady f n).mce = s.mce := by unfold State.setReady; split <;> simp
@[simp] theorem State.setReady_pra (f : BitField) (n : Nat) : (s.setReady f n).pra = s.pra := by unfold State.setReady; split <;> simp
@[simp] theorem State.setReady_dec (f : BitField) (n : Nat) : (s.setReady f n).dec = s.dec := by unfold State.setReady; split <;> simp
@[simp] theorem State.setReady_sds (f : BitField) (n : Nat) : (s.setReady f n).sds = s.sds := by unfold State.setReady; split <;> simp
@[simp] theorem State.setReady_drl (f : BitField) (n : Nat) : (s.setReady f n).drl = s.drl := by unfold State.setReady; split <;> simp
@[simp] theorem State.setReady_fab (f : BitField) (n : Nat) : (s.setReady f n).fab = s.fab := by unfold State.setReady; split <;> simp
@[simp] theorem State.setReady_dbg (f : BitField) (n : Nat) : (s.setReady f n).dbg = s.dbg := by unfold State.setReady; split <;> simp
@[simp] theorem State.setReady_uart (f : BitField) (n : Nat) : (s.setReady f n).uart = s.uart := by unfold State.setReady; split <;> simp

/-! ### setReadyBit -/

@[simp] theorem State.setReadyBit_pending (n : Nat) (b : Bool) : (s.setReadyBit n b).pending = s.pending := by simp [State.setReadyBit]
@[simp] theorem State.setReadyBit_freeCtr (n : Nat) (b : Bool) : (s.setReadyBit n b).freeCtr = s.freeCtr := by simp [State.setReadyBit]
@[simp] theorem State.setReadyBit_mem (n : Nat) (b : Bool) : (s.setReadyBit n b).mem = s.mem := by simp [State.setReadyBit]
@[simp] theorem State.setReadyBit_ecc (n : Nat) (b : Bool) : (s.setReadyBit n b).ecc = s.ecc := by simp [State.setReadyBit]
@[simp] theorem State.setReadyBit_tm (n : Nat) (b : Bool) : (s.setReadyBit n b).tm = s.tm := by simp [State.setReadyBit]
@[simp] theorem State.setReadyBit_alm (n : Nat) (b : Bool) : (s.setReadyBit n b).alm = s.alm := by simp [State.setReadyBit]
@[simp] theorem State.setReadyBit_drv (n : Nat) (b : Bool) : (s.setReadyBit n b).drv = s.drv := by simp [State.setReadyBit]
@[simp] theorem State.setReadyBit_flt (n : Nat) (b : Bool) : (s.setReadyBit n b).flt = s.flt := by simp [State.setReadyBit]
@[simp] theorem State.setReadyBit_dsp (n : Nat) (b : Bool) : (s.setReadyBit n b).dsp = s.dsp := by simp [State.setReadyBit]
@[simp] theorem State.setReadyBit_noc (n : Nat) (b : Bool) : (s.setReadyBit n b).noc = s.noc := by simp [State.setReadyBit]
@[simp] theorem State.setReadyBit_mov (n : Nat) (b : Bool) : (s.setReadyBit n b).mov = s.mov := by simp [State.setReadyBit]
@[simp] theorem State.setReadyBit_pwr (n : Nat) (b : Bool) : (s.setReadyBit n b).pwr = s.pwr := by simp [State.setReadyBit]
@[simp] theorem State.setReadyBit_sys (n : Nat) (b : Bool) : (s.setReadyBit n b).sys = s.sys := by simp [State.setReadyBit]
@[simp] theorem State.setReadyBit_fh (n : Nat) (b : Bool) : (s.setReadyBit n b).fh = s.fh := by simp [State.setReadyBit]
@[simp] theorem State.setReadyBit_mce (n : Nat) (b : Bool) : (s.setReadyBit n b).mce = s.mce := by simp [State.setReadyBit]
@[simp] theorem State.setReadyBit_pra (n : Nat) (b : Bool) : (s.setReadyBit n b).pra = s.pra := by simp [State.setReadyBit]
@[simp] theorem State.setReadyBit_dec (n : Nat) (b : Bool) : (s.setReadyBit n b).dec = s.dec := by simp [State.setReadyBit]
@[simp] theorem State.setReadyBit_sds (n : Nat) (b : Bool) : (s.setReadyBit n b).sds = s.sds := by simp [State.setReadyBit]
@[simp] theorem State.setReadyBit_drl (n : Nat) (b : Bool) : (s.setReadyBit n b).drl = s.drl := by simp [State.setReadyBit]
@[simp] theorem State.setReadyBit_fab (n : Nat) (b : Bool) : (s.setReadyBit n b).fab = s.fab := by simp [State.setReadyBit]
@[simp] theorem State.setReadyBit_dbg (n : Nat) (b : Bool) : (s.setReadyBit n b).dbg = s.dbg := by simp [State.setReadyBit]
@[simp] theorem State.setReadyBit_uart (n : Nat) (b : Bool) : (s.setReadyBit n b).uart = s.uart := by simp [State.setReadyBit]

/-! ### Registers that signalling leaves alone -/

/-- Signals to the host touch no registers but HST_STATS and HST_PBA. -/
theorem State.rd_hostWrite (a : Nat) (b : List Byte) {q : Reg} (h : q.off ≠ (Reg.HST_STATS).off) :
    (s.hostWrite a b).rd q = s.rd q := by
  unfold State.hostWrite
  split
  · rfl
  · exact State.rd_bump_ne s _ _ h

theorem State.rd_msix (v : Nat) {q : Reg} (h : q.off ≠ (Reg.HST_STATS).off) (h2 : q.off ≠ (Reg.HST_PBA).off) :
    (s.msix v).rd q = s.rd q := by
  unfold State.msix
  split
  · split
    · exact State.rd_setBit_ne s _ _ h2
    · rfl
  · exact State.rd_bump_ne s _ _ h

theorem State.rd_msixIf (e : Bool) (v : Nat) {q : Reg} (h : q.off ≠ (Reg.HST_STATS).off) (h2 : q.off ≠ (Reg.HST_PBA).off) :
    (s.msixIf e v).rd q = s.rd q := by
  unfold State.msixIf
  split
  · exact State.rd_msix s v h h2
  · rfl

theorem State.rd_almEvent {q : Reg} (h : q.off ≠ (Reg.HST_STATS).off) (h2 : q.off ≠ (Reg.HST_PBA).off) :
    s.almEvent.rd q = s.rd q := State.rd_msixIf s _ _ h h2

theorem State.rd_shepIrq (a b : Nat) (q : Reg) : (s.shepIrq a b).rd q = s.rd q := rfl

theorem State.rd_setReady (f : BitField) (n : Nat) {q : Reg} (h : q.off ≠ (Reg.HST_STATS).off)
    (h2 : q.off ≠ (Reg.HST_PBA).off) (h3 : q.off ≠ (Reg.SYS_READY).off) : (s.setReady f n).rd q = s.rd q := by
  unfold State.setReady
  split
  · rfl
  · rw [State.rd_msixIf _ _ _ h h2, State.rd_setFld_ne _ _ _ h3]

theorem State.rd_setReadyBit (n : Nat) (b : Bool) {q : Reg} (h : q.off ≠ (Reg.HST_STATS).off)
    (h2 : q.off ≠ (Reg.HST_PBA).off) (h3 : q.off ≠ (Reg.SYS_READY).off) : (s.setReadyBit n b).rd q = s.rd q :=
  State.rd_setReady s _ _ h h2 h3

/-- A field of a register that an operation leaves alone. -/
theorem State.fld_of_rd {s t : State} {q : Reg} (f : BitField) (h : t.rd q = s.rd q) : t.fld q f = s.fld q f := by
  simp only [State.fld, h]

end Sys2Proof.Machine
end

