-- ==== Sys2Proof/Laws/Sound.lean ====
section
/-!
SUPPORT. The sound form of a state: the rules that the lemmas of its operations are made of.
-/
namespace Sys2Proof.Machine

/-- Either branch of a choice. -/
theorem sound_ite {c : Prop} [Decidable c] {a b : State} (ha : a.Sound) (hb : b.Sound) : (if c then a else b).Sound := by
  split <;> assumption

/-- Either branch of a choice that carries a state beside an answer. -/
theorem sound_ite_snd {α : Type} {c : Prop} [Decidable c] {a b : α × State} (ha : a.2.Sound) (hb : b.2.Sound) :
    (if c then a else b).2.Sound := by
  split <;> assumption

/-- A state with the registers, memory and time of a sound one. -/
theorem sound_mk {e : State} (h : e.Sound) {p f o ecc alm drv flt dsp noc mov pwr sys fh mce pra dec sds drl fab dbg uart} :
    (State.mk p f o e.regs e.mem ecc e.tm alm drv flt dsp noc mov pwr sys fh mce pra dec sds drl fab dbg uart).Sound :=
  ⟨h.regs, h.mem, h.tick, h.cycle⟩

theorem sound_tm {e : State} (h : e.Sound) {p f o ecc alm drv flt dsp noc mov pwr sys fh mce pra dec sds drl fab dbg uart} {tm : Tm}
    (ht : tm.tick = e.tm.tick) (hc : tm.cycle = e.tm.cycle) :
    (State.mk p f o e.regs e.mem ecc tm alm drv flt dsp noc mov pwr sys fh mce pra dec sds drl fab dbg uart).Sound :=
  ⟨h.regs, h.mem, ht ▸ h.tick, hc ▸ h.cycle⟩

theorem sound_mem {e : State} (h : e.Sound) {p f o ecc alm drv flt dsp noc mov pwr sys fh mce pra dec sds drl fab dbg uart} {m : Memory}
    (hm : m.wf = true) :
    (State.mk p f o e.regs m ecc e.tm alm drv flt dsp noc mov pwr sys fh mce pra dec sds drl fab dbg uart).Sound :=
  ⟨h.regs, hm, h.tick, h.cycle⟩

/-- Steps that each keep the form, one after the other. -/
theorem foldl_sound {α : Type} {f : State → α → State} {l : List α} {s : State} (h : s.Sound)
    (hf : ∀ t a, t.Sound → (f t a).Sound) : (l.foldl f s).Sound := by
  induction l generalizing s with
  | nil => exact h
  | cons a l ih => exact ih (hf s a h)

theorem foldl_keeps {α β : Type} (P : β → Prop) {f : β → α → β} {l : List α} {b : β} (h : P b)
    (hf : ∀ t a, P t → P (f t a)) : P (l.foldl f b) := by
  induction l generalizing b with
  | nil => exact h
  | cons a l ih => exact ih (hf b a h)

/-- A property carried over an equation. -/
theorem of_eq {α : Type} {x y : α} (P : α → Prop) (e : x = y) (h : P x) : P y := e ▸ h

/-- The states that the start of a job can give are sound. -/
def JobStart.Sound : JobStart → Prop
  | .ended t => t.Sound
  | .run _ _ t => t.Sound

/-- The states that the read of a block can give are sound. -/
def BlockRead.Sound : BlockRead → Prop
  | .illegal t => t.Sound
  | .miss _ t => t.Sound
  | .lost _ t => t.Sound
  | .block _ t => t.Sound

/-- The states that the search for a HARQ buffer can give are sound. -/
def HarqFind.Sound : HarqFind → Prop
  | .fault _ _ t => t.Sound
  | .none t => t.Sound
  | .some _ t => t.Sound

/-- The states that the start of a coding job can give are sound. -/
def CodeStart.Sound : CodeStart → Prop
  | .ended t => t.Sound
  | .run _ _ t => t.Sound

/-- The state, if there is one, is sound. -/
def OptSound : Option State → Prop
  | some t => t.Sound
  | none => True

/-- The state beside a segment, if there is one, is sound. -/
def OptSegSound : Option (FabSeg × State) → Prop
  | some p => p.2.Sound
  | none => True

theorem sound_cycle {e : State} (h : e.Sound) {p f o ecc alm drv flt dsp noc mov pwr sys fh mce pra dec sds drl fab dbg uart} {tm : Tm}
    (ht : tm.tick < ticksPerSecond) (hc : tm.cycle ≤ 14000) :
    (State.mk p f o e.regs e.mem ecc tm alm drv flt dsp noc mov pwr sys fh mce pra dec sds drl fab dbg uart).Sound :=
  ⟨h.regs, h.mem, ht, hc⟩

theorem sound_empty : State.reset.Sound := ⟨rfl, rfl, by decide, by decide⟩

theorem keepQueue_sound {s t : State} (h : t.Sound) : (s.keepQueue t).Sound := ⟨h.regs, h.mem, h.tick, h.cycle⟩

theorem always_sound {f : State → State} {s u : State} (hs : s.Sound) (hf : ∀ t, t.Sound → (f t).Sound)
    (h : always f s = .next u) : u.Sound := by
  cases h
  exact keepQueue_sound (hf s hs)

theorem running_sound {f : State → State} {s u : State} (hs : s.Sound) (hf : ∀ t, t.Sound → (f t).Sound)
    (h : running f s = .next u) : u.Sound := by
  cases h
  exact sound_ite hs (keepQueue_sound (hf s hs))
end Sys2Proof.Machine
end

