-- ==== Sys2Proof/Laws/SoundOps.lean ====
section
/-!
SUPPORT. That the shared operations on registers, memories, packets, units and power keep the sound form of a state: one lemma for each operation.
-/
namespace Sys2Proof.Machine

/-! ### Machine/Ops.lean -/

theorem State.wr_sound {s : State} {r : Reg} {v : Word} (hs : State.Sound s) :
    State.Sound (State.wr s r v) := by
  exact ⟨Regs.wf_write _ _ _ hs.regs, hs.mem, hs.tick, hs.cycle⟩

theorem State.tally_sound {s : State} {r : Reg} {k : optParam Nat 1} (hs : State.Sound s) :
    State.Sound (State.tally s r k) := by
  unfold State.tally
  exact (State.wr_sound hs)

theorem State.setFld_sound {s : State} {r : Reg} {f : BitField} {n : Nat} (hs : State.Sound s) :
    State.Sound (State.setFld s r f n) := by
  unfold State.setFld
  exact (State.wr_sound hs)

theorem State.bump_sound {s : State} {r : Reg} {f : BitField} {k : optParam Nat 1} (hs : State.Sound s) :
    State.Sound (State.bump s r f k) := by
  unfold State.bump
  exact (State.setFld_sound hs)

theorem State.drawBool_sound {s : State} (hs : State.Sound s) :
    State.Sound (State.drawBool s).2 := by
  unfold State.drawBool
  exact (sound_mk hs)

theorem State.setBit_sound {s : State} {r : Reg} {n : Nat} {b : Bool} (hs : State.Sound s) :
    State.Sound (State.setBit s r n b) := by
  unfold State.setBit
  exact (State.setFld_sound hs)

theorem State.emit_sound {s : State} {o : OutMsg} (hs : State.Sound s) :
    State.Sound (State.emit s o) := by
  unfold State.emit
  exact (sound_mk hs)

theorem State.msix_sound {s : State} {v : Nat} (hs : State.Sound s) :
    State.Sound (State.msix s v) := by
  unfold State.msix
  exact (sound_ite (sound_ite (State.setBit_sound hs) (State.emit_sound hs)) (State.bump_sound hs))

theorem State.msixIf_sound {s : State} {en : Bool} {v : Nat} (hs : State.Sound s) :
    State.Sound (State.msixIf s en v) := by
  unfold State.msixIf
  exact (sound_ite (State.msix_sound hs) hs)

theorem State.shepIrq_sound {s : State} {src : Nat} {data : Nat} (hs : State.Sound s) :
    State.Sound (State.shepIrq s src data) := by
  unfold State.shepIrq
  exact (State.emit_sound hs)

theorem State.record_sound {s : State} {a : FaultArgs} (hs : State.Sound s) :
    State.Sound (State.record s a) := by
  unfold State.record
  extract_lets -underBinder +lift x0 x1 x2 x3 x4 x5 x6 x7 x8 x9 x10 x11 x12 x13 x14 x15
  have h16 : State.Sound x3 := (State.wr_sound hs)
  have h17 : State.Sound x4 := (State.wr_sound h16)
  have h18 : State.Sound x5 := (State.wr_sound h17)
  have h19 : State.Sound x6 := (State.wr_sound h18)
  have h20 : State.Sound x7 := (State.setFld_sound h19)
  have h21 : State.Sound x8 := (State.setFld_sound h20)
  have h22 : State.Sound x9 := (sound_ite (State.setFld_sound h21) (State.setFld_sound h21))
  have h23 : State.Sound x10 := by
    unfold x10
    split
    · exact (State.bump_sound h22)
    · exact (State.bump_sound h22)
    · exact h22
  have h31 : State.Sound x11 := (sound_ite (State.bump_sound h23) h23)
  have h32 : State.Sound x12 := (sound_ite (State.setFld_sound h31) h31)
  have h33 : State.Sound x14 := (sound_mk h32)
  have h34 : State.Sound x15 := (State.msixIf_sound h33)
  exact (sound_ite (State.shepIrq_sound h34) h34)

theorem State.setFrozenFlag_sound {s : State} {cls : Nat} {phys : Nat} {b : Bool} (hs : State.Sound s) :
    State.Sound (State.setFrozenFlag s cls phys b) := by
  unfold State.setFrozenFlag
  extract_lets -underBinder +lift x0
  split
  · exact (State.setFld_sound hs)
  · exact (State.setFld_sound hs)
  · exact (State.setFld_sound hs)
  · exact (State.setFld_sound hs)
  · exact hs

theorem State.setUnitState_sound {s : State} {cls : Nat} {phys : Nat} {v : Nat} (hs : State.Sound s) :
    State.Sound (State.setUnitState s cls phys v) := by
  unfold State.setUnitState
  exact (State.setFld_sound hs)

theorem State.setIsolated_sound {s : State} {ni : Nat} {b : Bool} (hs : State.Sound s) :
    State.Sound (State.setIsolated s ni b) := by
  unfold State.setIsolated
  exact (State.setFld_sound (State.setBit_sound hs))

theorem State.refreshDead_sound {s : State} {ni : Nat} (hs : State.Sound s) :
    State.Sound (State.refreshDead s ni) := by
  unfold State.refreshDead
  exact (State.setFld_sound hs)

theorem State.hostWrite_sound {s : State} {addr : Nat} {bytes : List Byte} (hs : State.Sound s) :
    State.Sound (State.hostWrite s addr bytes) := by
  unfold State.hostWrite
  exact (sound_ite (State.emit_sound hs) (State.bump_sound hs))

theorem State.draw_sound {s : State} {w : Nat} (hs : State.Sound s) :
    State.Sound (State.draw s w).2 := by
  unfold State.draw
  exact (sound_mk hs)

theorem State.setReady_sound {s : State} {f : BitField} {n : Nat} (hs : State.Sound s) :
    State.Sound (State.setReady s f n) := by
  unfold State.setReady
  exact (sound_ite hs (State.msixIf_sound (State.setFld_sound hs)))

theorem State.setReadyBit_sound {s : State} {n : Nat} {b : Bool} (hs : State.Sound s) :
    State.Sound (State.setReadyBit s n b) := by
  unfold State.setReadyBit
  exact (State.setReady_sound hs)

theorem State.clearLines_sound {s : State} {m : Nat} (hs : State.Sound s) :
    State.Sound (State.clearLines s m) := by
  unfold State.clearLines
  exact (State.setFld_sound (sound_mk hs))

theorem State.setReadyBits_sound {s : State} {ns : List Nat} {b : Bool} (hs : State.Sound s) :
    State.Sound (State.setReadyBits s ns b) := by
  unfold State.setReadyBits
  extract_lets -underBinder +lift x0
  exact (sound_ite hs (State.msixIf_sound (State.wr_sound hs)))

theorem State.drawBytes_sound {s : State} {n : Nat} (hs : State.Sound s) :
    State.Sound (State.drawBytes s n).2 := by
  unfold State.drawBytes
  exact (sound_mk hs)

theorem State.almEvent_sound {s : State} (hs : State.Sound s) :
    State.Sound (State.almEvent s) := by
  unfold State.almEvent
  exact (State.msixIf_sound hs)

theorem State.wrAccess_sound {s : State} {r : Reg} {v : Word} (hs : State.Sound s) :
    State.Sound (State.wrAccess s r v) := by
  unfold State.wrAccess
  exact (State.wr_sound hs)

theorem State.setShadow_sound {s : State} {img : List Byte} (hs : State.Sound s) :
    State.Sound (State.setShadow s img) := by
  unfold State.setShadow
  exact (sound_ite (sound_mk hs) (sound_mk hs))

theorem State.toCycle_sound {s : State} {c : Nat} (hs : State.Sound s) :
    State.Sound (State.toCycle s c) := by
  exact sound_cycle hs hs.tick (Nat.max_le.2 ⟨hs.cycle, Nat.min_le_left _ _⟩)

theorem State.keepQueue_sound {s : State} {t : State} (_ : State.Sound s) (ht : State.Sound t) :
    State.Sound (State.keepQueue s t) := by
  unfold State.keepQueue
  exact (sound_mk ht)

/-! ### Machine/Image.lean -/

theorem State.setCellState_sound {s : State} {cell : Nat} {v : Nat} {since : Nat} (hs : State.Sound s) :
    State.Sound (State.setCellState s cell v since) := by
  unfold State.setCellState
  extract_lets -underBinder +lift x0 x1
  have h2 : State.Sound x0 := (State.setFld_sound hs)
  exact (sound_mk h2)

/-! ### Machine/MemEcc.lean -/

theorem State.setFlips_sound {s : State} {g : Nat} {w : Nat} {v : Nat} (hs : State.Sound s) :
    State.Sound (State.setFlips s g w v) := by
  unfold State.setFlips
  exact (sound_mk hs)

theorem State.freshWord_sound {s : State} {g : Nat} {w : Nat} (hs : State.Sound s) :
    State.Sound (State.freshWord s g w) := by
  unfold State.freshWord
  split
  · exact (State.setFld_sound (State.setFlips_sound hs))
  · exact (State.setFlips_sound hs)

theorem State.hardFault_sound {s : State} {g : Nat} {w : Nat} (hs : State.Sound s) :
    State.Sound (State.hardFault s g w) := by
  unfold State.hardFault
  extract_lets -underBinder +lift x0
  split
  · extract_lets -underBinder +lift x4 x5 x6
    have h7 : State.Sound x6 := (sound_mk hs)
    exact (State.record_sound (State.setFld_sound (State.setFlips_sound h7)))
  · extract_lets -underBinder +lift x10 x11 x12 x13 x14
    have h15 : State.Sound x11 := (sound_mk hs)
    have h16 : State.Sound x13 := (sound_mk h15)
    have h17 : State.Sound x14 := by
      unfold x14
      split
      · exact (sound_mk h16)
      · exact h16
    exact (sound_ite h15 (State.record_sound h17))

theorem State.trackCorrection_sound {s : State} {g : Nat} {w : Nat} (hs : State.Sound s) :
    State.Sound (State.trackCorrection s g w) := by
  unfold State.trackCorrection
  extract_lets -underBinder +lift x0
  split
  · exact (sound_ite (State.hardFault_sound hs) (sound_mk hs))
  · extract_lets -underBinder +lift x6 x7
    exact (sound_mk hs)

theorem State.eccLast_sound {s : State} {uncorr : Bool} {group : Nat} {syn : Nat} {addr : Nat} (hs : State.Sound s) :
    State.Sound (State.eccLast s uncorr group syn addr) := by
  unfold State.eccLast
  exact (State.wr_sound hs)

theorem State.noteCorrected_sound {s : State} {g : Nat} {w : Nat} {syn : Nat} (hs : State.Sound s) :
    State.Sound (State.noteCorrected s g w syn) := by
  unfold State.noteCorrected
  exact (State.trackCorrection_sound (State.eccLast_sound (State.bump_sound hs)))

theorem State.noteUncorrectable_sound {s : State} {g : Nat} {w : Nat} {syn : Nat} (hs : State.Sound s) :
    State.Sound (State.noteUncorrectable s g w syn) := by
  unfold State.noteUncorrectable
  exact (State.eccLast_sound (State.bump_sound hs))

theorem State.noteDevice_sound {s : State} {c : Nat} {dev : Option Nat} {a : Nat} (hs : State.Sound s) :
    State.Sound (State.noteDevice s c dev a) := by
  unfold State.noteDevice
  split
  · exact (State.eccLast_sound (State.setFld_sound hs))
  · exact hs

theorem State.writeGranule_sound {s : State} {a : Nat} {bs : List Byte} (hs : State.Sound s) :
    State.Sound (State.writeGranule s a bs).1 := by
  unfold State.writeGranule
  split
  · split
    · exact (State.freshWord_sound (sound_mem hs (Memory.wf_writeBytes _ _ _ hs.mem)))
    · split
      · exact (State.freshWord_sound (sound_mem hs (Memory.wf_writeBytes _ _ _ hs.mem)))
      · exact (State.freshWord_sound (State.noteCorrected_sound (sound_mem hs (Memory.wf_writeBytes _ _ _ hs.mem))))
      · exact (State.bump_sound (State.noteUncorrectable_sound hs))
  · extract_lets -underBinder +lift x20 x21
    have h22 : State.Sound x21 := (sound_mem hs (Memory.wf_writeBytes _ _ _ hs.mem))
    split
    · exact h22
    · split
      · exact (State.noteDevice_sound h22)
      · exact (State.eccLast_sound hs)
  · exact hs

theorem State.writeMem_sound {s : State} {a : Nat} {a2 : Nat} {a3 : List Byte} (hs : State.Sound s) :
    State.Sound (State.writeMem s a a2 a3).1 := by
  induction a2 generalizing s a a3 with
  | zero => unfold State.writeMem; exact hs
  | succ n ih =>
    cases a3 with
    | nil => unfold State.writeMem; exact hs
    | cons b bs => unfold State.writeMem; exact ih (State.writeGranule_sound hs)

theorem State.readByte_sound {s : State} {a : Nat} (hs : State.Sound s) :
    State.Sound (State.readByte s a).2.1 := by
  unfold State.readByte
  split
  · split
    · exact hs
    · exact (State.noteCorrected_sound hs)
    · exact (State.noteUncorrectable_sound hs)
  · extract_lets -underBinder +lift x18
    split
    · exact (State.noteDevice_sound hs)
    · exact (State.eccLast_sound hs)
  · exact hs

theorem State.readMem_sound {s : State} {a : Nat} {a2 : Nat} {a3 : Nat} (hs : State.Sound s) :
    State.Sound (State.readMem s a a2 a3).2.1 := by
  induction a2 generalizing s a a3 with
  | zero => unfold State.readMem; exact hs
  | succ n ih =>
    cases a3 with
    | zero => unfold State.readMem; exact hs
    | succ k => unfold State.readMem; exact ih (State.readByte_sound hs)

/-! ### Machine/NetOps.lean -/

theorem State.nocCount_sound {s : State} {k : Nat} (hs : State.Sound s) :
    State.Sound (State.nocCount s k) := by
  unfold State.nocCount
  exact (State.tally_sound hs)

theorem State.sendPacket_sound {s : State} {p : Packet} {fromRouter : optParam Bool false} (hs : State.Sound s) :
    State.Sound (State.sendPacket s p fromRouter) := by
  unfold State.sendPacket
  extract_lets -underBinder +lift x0 x1
  exact (sound_ite hs (sound_mk hs))

theorem State.lastErr_sound {s : State} {src : Nat} {dst : Nat} {type : Nat} {status : Nat} (hs : State.Sound s) :
    State.Sound (State.lastErr s src dst type status) := by
  unfold State.lastErr
  exact (State.wr_sound hs)

theorem State.nocErr_sound {s : State} {p : Packet} {status : Nat} (hs : State.Sound s) :
    State.Sound (State.nocErr s p status) := by
  unfold State.nocErr
  exact (State.lastErr_sound hs)

theorem State.setRtEntry_sound {s : State} {ni : Nat} {e : Nat} {v : Word} (hs : State.Sound s) :
    State.Sound (State.setRtEntry s ni e v) := by
  unfold State.setRtEntry
  exact (sound_mk hs)

theorem State.respond_sound {s : State} {p : Packet} {status : Nat} {data : List Byte} {fromRouter : optParam Bool false} (hs : State.Sound s) :
    State.Sound (State.respond s p status data fromRouter) := by
  unfold State.respond
  extract_lets -underBinder +lift x0
  have h1 : State.Sound x0 := (sound_ite hs (State.nocErr_sound hs))
  exact (sound_ite (State.sendPacket_sound h1) h1)

theorem State.demote_sound {s : State} {c : Nat} (hs : State.Sound s) :
    State.Sound (State.demote s c) := by
  unfold State.demote
  split
  · exact (foldl_sound hs (fun a7 a8 h9 => (by
        extract_lets -underBinder +lift x10 x11
        clear_value x11
        split
        · extract_lets -underBinder +lift x14 x15 x16
          exact (sound_ite h9 (State.tally_sound (sound_mk h9)))
        · exact h9)))
  · exact (foldl_sound hs (fun a22 a23 h24 => (by
        extract_lets -underBinder +lift x25 x26
        clear_value x26
        split
        · extract_lets -underBinder +lift x29 x30 x31
          exact (sound_ite h24 (State.tally_sound (sound_mk h24)))
        · exact h24)))

theorem State.markHeld_sound {s : State} {t : Nat} (hs : State.Sound s) :
    State.Sound (State.markHeld s t) := by
  unfold State.markHeld
  exact (foldl_sound hs (fun a3 a4 h5 => (by
      extract_lets -underBinder +lift x6 x7 x8 x9
      exact (sound_ite (State.nocCount_sound (sound_mk h5)) h5))))

theorem State.absorb_sound {s : State} {p : Packet} (hs : State.Sound s) :
    State.Sound (State.absorb s p) := by
  unfold State.absorb
  extract_lets -underBinder +lift x0
  exact (sound_ite (State.respond_sound (State.nocCount_sound hs)) (sound_ite (State.respond_sound (State.nocCount_sound hs)) (State.nocErr_sound (State.nocCount_sound hs))))

theorem State.misrouted_sound {s : State} {p : Packet} (hs : State.Sound s) :
    State.Sound (State.misrouted s p) := by
  unfold State.misrouted
  exact (State.respond_sound (State.nocCount_sound hs))

theorem State.leaveNet_sound {s : State} (hs : State.Sound s) :
    State.Sound (State.leaveNet s) := by
  unfold State.leaveNet
  extract_lets -underBinder +lift x0 x1
  exact (foldl_sound (sound_mk hs) (fun a2 a3 h4 => (sound_ite (State.absorb_sound h4) (sound_ite (State.misrouted_sound h4) (sound_mk h4)))))

theorem State.linkCycle_sound {s : State} {c : Nat} {t : Nat} {l : Nat} (hs : State.Sound s) :
    State.Sound (State.linkCycle s c t l) := by
  unfold State.linkCycle
  split
  · exact hs
  · split
    · exact hs
    · extract_lets -underBinder +lift x11 x12 x13
      have h14 : State.Sound x13 := (sound_mk hs)
      exact (sound_ite h14 (State.bump_sound h14))

theorem State.netCycle_sound {s : State} {c : Nat} (hs : State.Sound s) :
    State.Sound (State.netCycle s c) := by
  unfold State.netCycle
  extract_lets -underBinder +lift x0 x1 x2
  have h3 : State.Sound x1 := (State.demote_sound hs)
  exact (State.markHeld_sound (State.leaveNet_sound (foldl_sound h3 (fun a4 a5 h6 => (State.linkCycle_sound h6)))))

theorem State.netRun_sound {a : Nat} {a1 : Nat} {a2 : State} (ha2 : State.Sound a2) :
    State.Sound (State.netRun a a1 a2) := by
  induction a1 generalizing a a2
  · unfold State.netRun
    exact ha2
  · rename_i ih
    unfold State.netRun
    exact (sound_ite ha2 (ih (State.netCycle_sound ha2)))

/-! ### Machine/Lanes.lean -/

theorem State.sdsEvent_sound {s : State} (hs : State.Sound s) :
    State.Sound (State.sdsEvent s) := by
  unfold State.sdsEvent
  exact (State.msixIf_sound hs)

theorem State.setLane_sound {s : State} {l : Nat} {f : BitField} {b : Bool} (hs : State.Sound s) :
    State.Sound (State.setLane s l f b) := by
  unfold State.setLane
  extract_lets -underBinder +lift x0
  exact (sound_ite hs (State.sdsEvent_sound (State.setFld_sound (State.setFld_sound hs))))

theorem State.dropLane_sound {s : State} {l : Nat} (hs : State.Sound s) :
    State.Sound (State.dropLane s l) := by
  unfold State.dropLane
  extract_lets -underBinder +lift x0 x1
  have h2 : State.Sound x0 := (State.setLane_sound (State.setLane_sound (State.setLane_sound hs)))
  exact (sound_mk h2)

theorem State.setQuad_sound {s : State} {q : Nat} {f : BitField} {b : Bool} (hs : State.Sound s) :
    State.Sound (State.setQuad s q f b) := by
  unfold State.setQuad
  extract_lets -underBinder +lift x0
  exact (sound_ite hs (State.sdsEvent_sound (State.setFld_sound (State.setFld_sound hs))))

theorem State.setQuadReady_sound {s : State} {q : Nat} {b : Bool} (hs : State.Sound s) :
    State.Sound (State.setQuadReady s q b) := by
  unfold State.setQuadReady
  exact (State.setReadyBit_sound (State.setQuad_sound hs))

theorem State.quadDown_sound {s : State} {q : Nat} (hs : State.Sound s) :
    State.Sound (State.quadDown s q) := by
  unfold State.quadDown
  exact (foldl_sound (State.setQuad_sound (State.setQuadReady_sound hs)) (fun a0 a1 h2 => (State.dropLane_sound h2)))

/-! ### Machine/Units.lean -/

theorem State.markBusy_sound {s : State} {r : Release} {b : Bool} (hs : State.Sound s) :
    State.Sound (State.markBusy s r b) := by
  unfold State.markBusy
  extract_lets -underBinder +lift x0
  split
  · exact (State.setFld_sound hs)
  · exact (State.setFld_sound hs)
  · exact (State.setFld_sound hs)
  · exact (State.setFld_sound hs)
  · exact hs

theorem State.discard_sound {s : State} {bad : Release → Bool} {pastureError : Bool} (hs : State.Sound s) :
    State.Sound (State.discard s bad pastureError).1 := by
  unfold State.discard
  extract_lets -underBinder +lift x0 x1 x2 x3 x4 x5 x6
  have h7 : State.Sound x3 := (foldl_sound hs (fun a8 a9 h10 => (State.markBusy_sound h10)))
  exact (sound_mk h7)

theorem State.outOfService_sound {s : State} {cls : Nat} {phys : Nat} {st : Nat} (hs : State.Sound s) :
    State.Sound (State.outOfService s cls phys st) := by
  unfold State.outOfService
  extract_lets -underBinder +lift x0 x1 x2 x3 x4 x5
  have h6 : State.Sound x0 := (State.setFrozenFlag_sound (State.setUnitState_sound hs))
  have h7 : State.Sound x1 := (State.setIsolated_sound h6)
  have h8 : State.Sound x2 := (State.refreshDead_sound h7)
  have h9 : State.Sound x4 := (sound_ite (sound_mk h8) h8)
  exact (sound_ite (sound_mk h9) (sound_mk h9))

theorem State.freeze_sound {s : State} {cls : Nat} {phys : Nat} {code : Nat} {addr : Nat} {detail : Nat} (hs : State.Sound s) :
    State.Sound (State.freeze s cls phys code addr detail) := by
  unfold State.freeze
  extract_lets -underBinder +lift x0 x1 x2
  have h3 : State.Sound x0.1 := (State.discard_sound hs)
  have h4 : State.Sound x1 := (State.record_sound h3)
  have h5 : State.Sound x2 := (State.outOfService_sound h4)
  exact (sound_ite hs (sound_ite (State.bump_sound h5) h5))

theorem State.arrivalChecks_sound {s : State} {t : Nat} (hs : State.Sound s) :
    State.Sound (State.arrivalChecks s t) := by
  unfold State.arrivalChecks
  exact (foldl_sound hs (fun a0 a1 h2 => (State.freeze_sound h2)))

theorem State.setRel_sound {s : State} {idx : Nat} {st : RelStatus} (hs : State.Sound s) :
    State.Sound (State.setRel s idx st) := by
  unfold State.setRel
  exact (sound_mk hs)

theorem State.setCore_sound {s : State} {n : Nat} {c : Core} (hs : State.Sound s) :
    State.Sound (State.setCore s n c) := by
  unfold State.setCore
  exact (sound_mk hs)

theorem State.mapCore_sound {s : State} {n : Nat} {f : Core → Core} (hs : State.Sound s) :
    State.Sound (State.mapCore s n f) := by
  unfold State.mapCore
  exact (State.setCore_sound hs)

theorem State.dispatchCore_sound {s : State} {r : Release} (hs : State.Sound s) :
    State.Sound (State.dispatchCore s r) := by
  unfold State.dispatchCore
  extract_lets -underBinder +lift x0 x1 x2
  have h3 : State.Sound x1 := by
    unfold x1
    split
    · exact (State.writeMem_sound hs)
    · exact hs
  exact (State.mapCore_sound h3)

theorem State.take_sound {s : State} {r : Release} (hs : State.Sound s) :
    State.Sound (State.take s r) := by
  unfold State.take
  extract_lets -underBinder +lift x0
  have h1 : State.Sound x0 := (State.markBusy_sound (State.setRel_sound hs))
  exact (sound_ite (State.dispatchCore_sound h1) h1)

theorem State.serve_sound {t : Nat} {a : Nat} {a2 : State} (ha2 : State.Sound a2) :
    State.Sound (State.serve t a a2) := by
  induction a generalizing t a2
  · unfold State.serve
    exact ha2
  · rename_i ih
    unfold State.serve
    split
    · exact (ih (State.take_sound ha2))
    · exact ha2

theorem State.takeAt_sound {s : State} {t : Nat} (hs : State.Sound s) :
    State.Sound (State.takeAt s t) := by
  unfold State.takeAt
  extract_lets -underBinder +lift x0 x1
  have h2 : State.Sound x0 := (State.arrivalChecks_sound hs)
  have h3 : State.Sound x1 := (State.serve_sound h2)
  exact (foldl_sound h3 (fun a4 a5 h6 => (State.freeze_sound h6)))

theorem State.arrivals_sound {s : State} (hs : State.Sound s) :
    State.Sound (State.arrivals s) := by
  unfold State.arrivals
  extract_lets -underBinder +lift x0 x1
  exact (sound_ite hs (sound_mk hs))

theorem State.settle_sound {s : State} (hs : State.Sound s) :
    State.Sound (State.settle s) := by
  unfold State.settle
  exact (State.takeAt_sound (State.arrivals_sound hs))

theorem State.mapStore_sound {s : State} {f : Request → Request} (hs : State.Sound s) :
    State.Sound (State.mapStore s f) := by
  unfold State.mapStore
  exact (sound_mk hs)

theorem State.setResult_sound {s : State} {id : Nat} {entry : Nat} {f : EntryResult → EntryResult} (hs : State.Sound s) :
    State.Sound (State.setResult s id entry f) := by
  unfold State.setResult
  exact (State.mapStore_sound hs)

theorem State.countFill_sound {s : State} {r : Release} (hs : State.Sound s) :
    State.Sound (State.countFill s r) := by
  unfold State.countFill
  split
  · exact (State.setResult_sound hs)
  · exact hs

theorem State.countJob_sound {s : State} {r : Release} (hs : State.Sound s) :
    State.Sound (State.countJob s r) := by
  unfold State.countJob
  split
  · exact (State.tally_sound hs)
  · exact (State.bump_sound hs)
  · exact (State.bump_sound hs)
  · exact (State.bump_sound hs)
  · exact hs

theorem State.finish_sound {s : State} {r : Release} (hs : State.Sound s) :
    State.Sound (State.finish s r) := by
  unfold State.finish
  exact (State.settle_sound (State.countFill_sound (State.countJob_sound (State.markBusy_sound (State.setRel_sound hs)))))

theorem State.markDead_sound {s : State} {cls : Nat} {phys : Nat} {code : Nat} {addr : Nat} {detail : Nat} {srcCls : Nat} {srcPhys : Nat}
    {pastureError : Bool} (hs : State.Sound s) :
    State.Sound (State.markDead s cls phys code addr detail srcCls srcPhys pastureError) := by
  unfold State.markDead
  extract_lets -underBinder +lift x0 x1
  have h2 : State.Sound x0.1 := (State.discard_sound hs)
  have h3 : State.Sound x1 := (State.record_sound h2)
  exact (sound_ite h3 (State.outOfService_sound h3))

theorem State.restartFold_sound {s : State} {n : Nat} (hs : State.Sound s) :
    State.Sound (State.restartFold s n) := by
  unfold State.restartFold
  extract_lets -underBinder +lift x0 x1
  have h2 : State.Sound x1 := (sound_mk hs)
  exact (foldl_sound h2 (fun a3 a4 h5 => (State.mapCore_sound h5)))

theorem State.jobFault_sound {s : State} {e : Eng} {lane : Nat} {code : Nat} {addr : Nat} {detail : Nat} {pastureError : Bool} (hs : State.Sound s) :
    State.Sound (State.jobFault s e lane code addr detail pastureError) := by
  unfold State.jobFault
  extract_lets -underBinder +lift x0 x1 x2
  have h3 : State.Sound x0.1 := (State.discard_sound hs)
  have h4 : State.Sound x1 := (State.record_sound h3)
  have h5 : State.Sound x2 := (sound_ite (State.restartFold_sound h4) h4)
  exact (State.settle_sound h5)

theorem State.uncorrectable_sound {s : State} {e : MemErr} {job : Option (Eng × Nat)} (hs : State.Sound s) :
    State.Sound (State.uncorrectable s e job) := by
  unfold State.uncorrectable
  extract_lets -underBinder +lift x0
  split
  · exact (State.markDead_sound hs)
  · exact (State.jobFault_sound hs)
  · exact (State.record_sound hs)

theorem State.uncorrectables_sound {s : State} {es : List MemErr} {job : Option (Eng × Nat)} (hs : State.Sound s) :
    State.Sound (State.uncorrectables s es job) := by
  unfold State.uncorrectables
  exact (foldl_sound hs (fun a0 a1 h2 => (State.uncorrectable_sound h2)))

theorem State.loadEnable_sound {s : State} {n : Nat} (hs : State.Sound s) :
    State.Sound (State.loadEnable s n) := by
  unfold State.loadEnable
  extract_lets -underBinder +lift x0 x1
  have h2 : State.Sound x1.2.1 := (State.readMem_sound hs)
  split
  · extract_lets -underBinder +lift x6 x7
    have h8 : State.Sound x6 := h2
    exact (sound_mk h8)
  · exact (State.uncorrectables_sound h2)

theorem State.passTo_sound {s : State} {c : Nat} (hs : State.Sound s) :
    State.Sound (State.passTo s c) := by
  unfold State.passTo
  exact (State.netRun_sound (State.toCycle_sound (foldl_sound hs (fun a3 a4 h5 => (by
      extract_lets -underBinder +lift x6
      have h7 : State.Sound x6 := (State.toCycle_sound h5)
      exact (State.takeAt_sound h7))))))

theorem State.awaitRelease_sound {e : Eng} {lane : Nat} {a : Nat} {a3 : State} (ha3 : State.Sound a3) :
    State.Sound (State.awaitRelease e lane a a3) := by
  induction a generalizing e lane a3
  · unfold State.awaitRelease
    exact ha3
  · rename_i ih
    unfold State.awaitRelease
    extract_lets -underBinder +lift x8
    exact (sound_ite ha3 (ih (State.passTo_sound ha3)))

theorem State.whenServed_sound {s : State} {cls : Nat} {phys : Nat} {core : Nat} {lane : Nat} (hs : State.Sound s) :
    State.Sound (State.whenServed s cls phys core lane) := by
  unfold State.whenServed
  exact (State.awaitRelease_sound hs)

theorem State.closeTick_sound {s : State} (hs : State.Sound s) :
    State.Sound (State.closeTick s) := by
  unfold State.closeTick
  extract_lets -underBinder +lift x0 x1 x2 x3
  have h4 : State.Sound x0 := (State.passTo_sound hs)
  have h5 : State.Sound x2 := (foldl_sound h4 (fun a6 a7 h8 => (State.freeze_sound h8)))
  have h9 : State.Sound x3 := (State.discard_sound h5)
  exact (sound_ite h9 (State.bump_sound h9))

theorem State.toEdge_sound {s : State} (hs : State.Sound s) :
    State.Sound (State.toEdge s) := by
  unfold State.toEdge
  exact (sound_ite hs (State.closeTick_sound hs))

theorem State.edgeIf_sound {s : State} {due : Bool} {f : State → State} (hs : State.Sound s) (hf : ∀ t0, State.Sound t0 → State.Sound (f t0)) :
    State.Sound (State.edgeIf s due f) := by
  unfold State.edgeIf
  exact (sound_ite (hf _ (State.toEdge_sound hs)) hs)

/-! ### Machine/Power.lean -/

theorem State.askRail_sound {s : State} {rail : Nat} {group : Nat} (hs : State.Sound s) :
    State.Sound (State.askRail s rail group) := by
  unfold State.askRail
  extract_lets -underBinder +lift x0 x1
  exact (sound_ite hs (sound_mk hs))

theorem State.refreshRail_sound {s : State} {rail : Nat} {group : Nat} (hs : State.Sound s) :
    State.Sound (State.refreshRail s rail group) := by
  unfold State.refreshRail
  extract_lets -underBinder +lift x0 x1 x2 x3 x4 x5
  have h6 : State.Sound x3 := (sound_ite (sound_mk hs) hs)
  have h7 : State.Sound x4 := (State.setFld_sound h6)
  exact (sound_ite (sound_mk h7) (sound_ite (State.askRail_sound h7) h7))

theorem State.refreshRails_sound {s : State} {group : Nat} (hs : State.Sound s) :
    State.Sound (State.refreshRails s group) := by
  unfold State.refreshRails
  exact (State.refreshRail_sound (State.refreshRail_sound hs))

theorem State.setDom_sound {s : State} {d : Nat} {x : DomSt} (hs : State.Sound s) :
    State.Sound (State.setDom s d x) := by
  unfold State.setDom
  exact (sound_mk hs)

theorem State.mapDom_sound {s : State} {d : Nat} {f : DomSt → DomSt} (hs : State.Sound s) :
    State.Sound (State.mapDom s d f) := by
  unfold State.mapDom
  exact (State.setDom_sound hs)

theorem State.startWake_sound {s : State} {d : Nat} {goal : Nat} {group : Nat} (hs : State.Sound s) :
    State.Sound (State.startWake s d goal group) := by
  unfold State.startWake
  extract_lets -underBinder +lift x0 x1 x2
  have h3 : State.Sound x1 := (State.refreshRails_sound (State.setFld_sound (State.mapDom_sound hs)))
  exact (sound_ite (State.setFld_sound (State.mapDom_sound hs)) (State.mapDom_sound h3))

theorem State.blockAnswer_sound {s : State} {d : Nat} {b : Nat} (hs : State.Sound s) :
    State.Sound (State.blockAnswer s d b).2 := by
  unfold State.blockAnswer
  extract_lets -underBinder +lift x0
  have h1 : State.Sound x0.2 := (State.drawBool_sound hs)
  split
  · exact h1
  · split
    · split
      · exact hs
      · split
        · exact hs
        · exact hs
    · split
      · split
        · exact hs
        · exact hs
      · exact hs

theorem askBlocks_sound {d : Nat} {a : List Nat} {a2 : State} (ha2 : State.Sound a2) :
    State.Sound (askBlocks d a a2).2 := by
  induction a generalizing d a2
  · unfold askBlocks
    exact ha2
  · rename_i ih
    unfold askBlocks
    extract_lets -underBinder +lift x10 x11
    have h12 : State.Sound x10.2 := (State.blockAnswer_sound ha2)
    have h13 : State.Sound x11.2 := (ih h12)
    exact h13

theorem State.dropEntry_sound {s : State} {d : Nat} (hs : State.Sound s) :
    State.Sound (State.dropEntry s d) := by
  unfold State.dropEntry
  exact (State.setFld_sound (State.mapDom_sound hs))

theorem State.refuseEntry_sound {s : State} {d : Nat} {goal : Nat} {block : Nat} {limit : Bool} (hs : State.Sound s) :
    State.Sound (State.refuseEntry s d goal block limit) := by
  unfold State.refuseEntry
  extract_lets -underBinder +lift x0 x1
  have h2 : State.Sound x0 := (State.mapDom_sound (State.dropEntry_sound hs))
  have h3 : State.Sound x1 := (State.wr_sound h2)
  exact (State.bump_sound (State.bump_sound h3))

theorem State.abortEntry_sound {s : State} {d : Nat} (hs : State.Sound s) :
    State.Sound (State.abortEntry s d) := by
  unfold State.abortEntry
  exact (State.bump_sound (State.bump_sound (State.dropEntry_sound hs)))

theorem State.askDomain_sound {s : State} {d : Nat} (hs : State.Sound s) :
    State.Sound (State.askDomain s d) := by
  unfold State.askDomain
  split
  · exact hs
  · extract_lets -underBinder +lift x5 x6 x7 x8
    have h9 : State.Sound x5.2 := (askBlocks_sound hs)
    split
    · exact hs
    · split
      · exact (State.refuseEntry_sound h9)
      · extract_lets -underBinder +lift x17 x18
        have h19 : State.Sound x18 := (State.mapDom_sound h9)
        exact (sound_ite (State.abortEntry_sound h19) h19)

theorem State.startEntry_sound {s : State} {d : Nat} {goal : Nat} (hs : State.Sound s) :
    State.Sound (State.startEntry s d goal) := by
  unfold State.startEntry
  exact (State.askDomain_sound (State.setFld_sound (State.mapDom_sound hs)))

theorem State.aimSteady_sound {s : State} {d : Nat} (hs : State.Sound s) :
    State.Sound (State.aimSteady s d) := by
  unfold State.aimSteady
  extract_lets -underBinder +lift x0 x1 x2 x3 x4 x5
  have h6 : State.Sound x4 := (State.mapDom_sound hs)
  have h7 : State.Sound x5 := (sound_ite (State.bump_sound h6) h6)
  exact (sound_ite hs (sound_ite (State.startWake_sound h7) (sound_ite (State.startEntry_sound hs) hs)))

theorem State.aim_sound {s : State} {d : Nat} (hs : State.Sound s) :
    State.Sound (State.aim s d) := by
  unfold State.aim
  extract_lets -underBinder +lift x0
  have h1 : State.Sound x0 := (State.setFld_sound hs)
  split
  · exact hs
  · split
    · exact (State.aimSteady_sound h1)
    · split
      · split
        · exact (State.mapDom_sound h1)
        · exact (sound_ite (State.aimSteady_sound (State.abortEntry_sound h1)) h1)
      · exact h1

theorem State.setPlanned_sound {s : State} {d : Nat} {v : Nat} {fw : Bool} (hs : State.Sound s) :
    State.Sound (State.setPlanned s d v fw) := by
  unfold State.setPlanned
  exact (sound_ite hs (State.aim_sound (State.mapDom_sound (State.setFld_sound hs))))

theorem State.planDomain_sound {s : State} {d : Nat} (hs : State.Sound s) :
    State.Sound (State.planDomain s d) := by
  unfold State.planDomain
  extract_lets -underBinder +lift x0 x1
  exact (State.setPlanned_sound hs)

theorem State.demandWake_sound {s : State} {d : Nat} (hs : State.Sound s) :
    State.Sound (State.demandWake s d) := by
  unfold State.demandWake
  exact (sound_ite hs (State.aim_sound (State.mapDom_sound hs)))

theorem State.domChange_sound {s : State} {d : Nat} (hs : State.Sound s) :
    State.Sound (State.domChange s d) := by
  unfold State.domChange
  exact (State.msixIf_sound (State.setFld_sound hs))

theorem State.drawFile_sound {s : State} {w : Nat} {a : List Nat} (hs : State.Sound s) :
    State.Sound (State.drawFile s w a).2 := by
  induction a generalizing s w
  · unfold State.drawFile
    exact hs
  · rename_i ih
    unfold State.drawFile
    extract_lets -underBinder +lift x8 x9
    have h10 : State.Sound x8.2 := (State.draw_sound hs)
    have h11 : State.Sound x9.2 := (ih h10)
    exact h11

theorem State.loseCore_sound {s : State} {n : Nat} (hs : State.Sound s) :
    State.Sound (State.loseCore s n) := by
  unfold State.loseCore
  extract_lets -underBinder +lift x0 x1 x2 x3 x4 x5 x6 x7 x8 x9
  have h10 : State.Sound x0.2 := (State.drawFile_sound hs)
  have h11 : State.Sound x1.2 := (State.drawFile_sound h10)
  have h12 : State.Sound x2.2 := (State.drawFile_sound h11)
  have h13 : State.Sound x3.2 := (State.drawFile_sound h12)
  have h14 : State.Sound x4.2 := (State.drawFile_sound h13)
  have h15 : State.Sound x5.2 := (State.drawFile_sound h14)
  have h16 : State.Sound x6.2 := (State.drawFile_sound h15)
  have h17 : State.Sound x7.2 := (State.drawFile_sound h16)
  have h18 : State.Sound x8.2 := (State.drawFile_sound h17)
  exact (State.setCore_sound h18)

theorem State.zeroGroup_sound {s : State} {g : Nat} (hs : State.Sound s) :
    State.Sound (State.zeroGroup s g) := by
  unfold State.zeroGroup
  split
  · exact sound_mem hs (SMap.wf_filter _ _ _ hs.mem)
  · exact sound_mem hs (SMap.wf_filter _ _ _ hs.mem)

theorem State.loseLogic_sound {s : State} {d : Nat} {goal : Nat} (hs : State.Sound s) :
    State.Sound (State.loseLogic s d goal) := by
  unfold State.loseLogic
  extract_lets -underBinder +lift x0 x1 x2 x3
  have h4 : State.Sound x0 := (sound_ite (foldl_sound hs (fun a5 a6 h7 => (State.loseCore_sound h7))) (sound_ite (State.quadDown_sound hs) hs))
  have h8 : State.Sound x3 := (sound_mk h4)
  exact (sound_ite h4 (foldl_sound h8 (fun a9 a10 h11 => (State.zeroGroup_sound (sound_ite (State.clearLines_sound h11) h11)))))

theorem State.dropReady_sound {s : State} {d : Nat} (hs : State.Sound s) :
    State.Sound (State.dropReady s d) := by
  unfold State.dropReady
  exact (sound_ite (State.setReadyBit_sound hs) (sound_ite (State.setReadyBit_sound hs) (sound_ite (State.setReadyBit_sound hs) (sound_ite (State.setReadyBits_sound hs) (sound_ite (State.setReadyBit_sound hs) (sound_ite (State.setReadyBit_sound hs) hs))))))

theorem State.failDomain_sound {s : State} {d : Nat} {code : Nat} {src : optParam (Nat × Nat) (7, d)} (hs : State.Sound s) :
    State.Sound (State.failDomain s d code src) := by
  unfold State.failDomain
  extract_lets -underBinder +lift x0 x1 x2 x3 x4 x5 x6
  have h7 : State.Sound x1.1 := (State.discard_sound hs)
  have h8 : State.Sound x2 := (State.record_sound h7)
  have h9 : State.Sound x3 := (State.wr_sound (State.mapDom_sound h8))
  have h10 : State.Sound x4 := (State.domChange_sound (State.loseLogic_sound h9))
  have h11 : State.Sound x5 := (foldl_sound h10 (fun a12 a13 h14 => (sound_ite h14 (State.outOfService_sound h14))))
  have h15 : State.Sound x6 := (foldl_sound h11 (fun a16 a17 h18 => (State.refreshDead_sound (State.setIsolated_sound h18))))
  exact (State.refreshRails_sound (State.dropReady_sound h15))

theorem State.writeForceOn_sound {s : State} {i : Nat} {v : Word} (hs : State.Sound s) :
    State.Sound (State.writeForceOn s i v) := by
  unfold State.writeForceOn
  extract_lets -underBinder +lift x0
  have h1 : State.Sound x0 := (State.wrAccess_sound hs)
  exact (foldl_sound h1 (fun a5 a6 h7 => (by
      extract_lets -underBinder +lift x8 x9 x10
      exact (sound_ite h7 (sound_ite (State.aim_sound (State.demandWake_sound h7)) (State.aim_sound (State.mapDom_sound h7)))))))

theorem State.clearFailed_sound {s : State} {d : Nat} (hs : State.Sound s) :
    State.Sound (State.clearFailed s d) := by
  unfold State.clearFailed
  extract_lets -underBinder +lift x0
  have h1 : State.Sound x0 := (State.domChange_sound (State.setFld_sound hs))
  exact (sound_ite hs (State.startWake_sound (foldl_sound h1 (fun a2 a3 h4 => (State.refreshDead_sound h4)))))

theorem State.writeDomCfg_sound {s : State} {d : Nat} {v : Word} (hs : State.Sound s) :
    State.Sound (State.writeDomCfg s d v) := by
  unfold State.writeDomCfg
  extract_lets -underBinder +lift x0 x1 x2 x3 x4 x5 x6
  have h7 : State.Sound x3 := (State.wrAccess_sound hs)
  have h8 : State.Sound x4 := (sound_ite (State.clearFailed_sound h7) h7)
  have h9 : State.Sound x6 := (sound_ite (State.aim_sound (State.setPlanned_sound (State.mapDom_sound h8))) h8)
  exact (State.refreshRails_sound h9)

theorem State.raiseReady_sound {s : State} {d : Nat} (hs : State.Sound s) :
    State.Sound (State.raiseReady s d) := by
  unfold State.raiseReady
  extract_lets -underBinder +lift x0 x1
  have h2 : State.Sound x1 := (sound_ite hs (State.setReadyBit_sound hs))
  exact (sound_ite hs (sound_ite (sound_ite (State.setReadyBit_sound hs) hs) (sound_ite (sound_ite (State.setReadyBit_sound hs) hs) (sound_ite (sound_ite hs (State.setReadyBit_sound hs)) (sound_ite (sound_ite (State.setReadyBit_sound h2) h2) (sound_ite (sound_ite hs (State.setReadyBit_sound hs)) (sound_ite (sound_ite (State.setReadyBit_sound hs) hs) hs)))))))

theorem State.sendAvs_sound {s : State} {rail : Nat} {mv : Nat} {tries : Nat} (hs : State.Sound s) :
    State.Sound (State.sendAvs s rail mv tries) := by
  unfold State.sendAvs
  exact (State.emit_sound (State.setFld_sound (sound_mk hs)))

theorem State.startAvs_sound {s : State} (hs : State.Sound s) :
    State.Sound (State.startAvs s) := by
  unfold State.startAvs
  split
  · exact hs
  · split
    · exact (State.sendAvs_sound hs)
    · exact hs

theorem State.noAckAvs_sound {s : State} (hs : State.Sound s) :
    State.Sound (State.noAckAvs s) := by
  unfold State.noAckAvs
  split
  · exact hs
  · extract_lets -underBinder +lift x5 x6 x7 x8 x9
    have h10 : State.Sound x6 := (sound_mk hs)
    have h11 : State.Sound x7 := (State.setFld_sound (State.bump_sound (State.setFld_sound h10)))
    have h12 : State.Sound x8 := (State.msixIf_sound h11)
    exact (sound_ite (State.sendAvs_sound hs) (sound_ite (State.record_sound h12) (foldl_sound h12 (fun a13 a14 h15 => (State.failDomain_sound h15)))))

theorem State.wakesProceed_sound {s : State} (hs : State.Sound s) :
    State.Sound (State.wakesProceed s) := by
  unfold State.wakesProceed
  exact (foldl_sound hs (fun a3 a4 h5 => (by
      split
      · exact (sound_ite (State.mapDom_sound h5) h5)
      · exact h5)))

theorem State.ackAvs_sound {s : State} (hs : State.Sound s) :
    State.Sound (State.ackAvs s) := by
  unfold State.ackAvs
  split
  · exact hs
  · extract_lets -underBinder +lift x5 x6 x7 x8 x9
    have h10 : State.Sound x6 := (sound_mk hs)
    have h11 : State.Sound x7 := (State.setFld_sound (State.setFld_sound h10))
    have h12 : State.Sound x9 := (sound_ite (sound_mk h11) h11)
    exact (State.wakesProceed_sound h12)

theorem State.beginInit_sound {s : State} {g : Nat} (hs : State.Sound s) :
    State.Sound (State.beginInit s g) := by
  unfold State.beginInit
  extract_lets -underBinder +lift x0 x1
  have h2 : State.Sound x1 := (sound_mk hs)
  exact (sound_ite h2 (State.setFld_sound h2))

theorem State.powerGood_sound {s : State} {d : Nat} (hs : State.Sound s) :
    State.Sound (State.powerGood s d) := by
  unfold State.powerGood
  split
  · exact hs
  · extract_lets -underBinder +lift x5
    have h6 : State.Sound x5 := (State.mapDom_sound hs)
    exact (sound_ite hs (sound_ite h6 (foldl_sound h6 (fun a7 a8 h9 => (State.beginInit_sound h9)))))

theorem State.endWake_sound {s : State} {d : Nat} (hs : State.Sound s) :
    State.Sound (State.endWake s d) := by
  unfold State.endWake
  split
  · exact hs
  · extract_lets -underBinder +lift x5 x6 x7 x8 x9
    have h10 : State.Sound x7 := (State.setFld_sound (State.mapDom_sound hs))
    have h11 : State.Sound x8 := (sound_ite (State.setFld_sound h10) (State.domChange_sound (State.setFld_sound (State.setFld_sound h10))))
    have h12 : State.Sound x9 := (sound_ite (State.raiseReady_sound h11) h11)
    exact (State.aim_sound (State.refreshRails_sound h12))

theorem State.endEntry_sound {s : State} {d : Nat} (hs : State.Sound s) :
    State.Sound (State.endEntry s d) := by
  unfold State.endEntry
  split
  · exact hs
  · extract_lets -underBinder +lift x5 x6 x7 x8 x9
    have h10 : State.Sound x6 := (State.bump_sound (State.dropEntry_sound hs))
    have h11 : State.Sound x7 := (State.setFld_sound (State.setFld_sound h10))
    have h12 : State.Sound x8 := (sound_ite h11 (State.loseLogic_sound h11))
    have h13 : State.Sound x9 := (sound_ite (State.dropReady_sound h12) h12)
    exact (sound_ite hs (State.aim_sound (State.refreshRails_sound (State.domChange_sound h13))))

/-! ### Machine/Reads.lean -/

theorem State.rtAdvance_sound {s : State} (hs : State.Sound s) :
    State.Sound (State.rtAdvance s) := by
  unfold State.rtAdvance
  extract_lets -underBinder +lift x0 x1
  exact (State.setFld_sound (State.setFld_sound hs))

theorem State.readTodSec_sound {s : State} (hs : State.Sound s) :
    State.Sound (State.readTodSec s).2 := by
  unfold State.readTodSec
  extract_lets -underBinder +lift x0
  exact (sound_tm hs rfl rfl)

theorem State.readTodSub_sound {s : State} (hs : State.Sound s) :
    State.Sound (State.readTodSub s).2 := by
  unfold State.readTodSub
  extract_lets -underBinder +lift x0
  exact (sound_tm hs rfl rfl)

theorem State.readDT_sound {s : State} (hs : State.Sound s) :
    State.Sound (State.readDT s).2 := by
  unfold State.readDT
  extract_lets -underBinder +lift x0
  exact (sound_tm hs rfl rfl)

theorem State.readTimPos_sound {s : State} (hs : State.Sound s) :
    State.Sound (State.readTimPos s).2 := by
  unfold State.readTimPos
  extract_lets -underBinder +lift x0
  exact (sound_tm hs rfl rfl)

theorem State.uartRead_sound {s : State} (hs : State.Sound s) :
    State.Sound (State.uartRead s).2 := by
  unfold State.uartRead
  split
  · exact hs
  · exact (sound_mk hs)

theorem State.regRead_sound {s : State} {r : Reg} (hs : State.Sound s) :
    State.Sound (State.regRead s r).2 := by
  unfold State.regRead
  split
  · exact (State.rtAdvance_sound hs)
  · exact hs
  · exact (State.readTodSec_sound hs)
  · exact (State.readTodSub_sound hs)
  · exact (State.readDT_sound hs)
  · exact (State.readTimPos_sound hs)
  · exact (State.uartRead_sound hs)
  · exact hs
  · exact hs
  · exact hs
  · exact hs
  · exact hs
  · exact hs
  · exact hs
  · exact hs

theorem State.unitRegRead_sound {s : State} {off : Nat} {n : Nat} (hs : State.Sound s) :
    State.Sound (State.unitRegRead s off n).2 := by
  unfold State.unitRegRead
  extract_lets -underBinder +lift x0 x1
  clear_value x0
  clear_value x1
  split
  · extract_lets -underBinder +lift x5
    have h6 : State.Sound x5.2 := (State.regRead_sound hs)
    exact h6
  · exact hs
  · exact hs

end Sys2Proof.Machine
end

