-- ==== Sys2Proof/Laws/SoundUnits.lean ====
section
/-!
SUPPORT. That accesses, the Drover, the timers and the fronthaul keep the sound form of a state: one lemma for each operation.
-/
namespace Sys2Proof.Machine

/-! ### Machine/Exact.lean -/

theorem State.slacken_sound {s : State} {lim : Nat} {xs : List Cplx} (hs : State.Sound s) :
    State.Sound (State.slacken s lim xs).2 := by
  unfold State.slacken
  extract_lets -underBinder +lift x0 x1
  have h2 : State.Sound x0.2 := (State.draw_sound hs)
  exact h2

theorem State.roundFree_sound {s : State} {xs : List Rat} (hs : State.Sound s) :
    State.Sound (State.roundFree s xs).2 := by
  unfold State.roundFree
  extract_lets -underBinder +lift x0
  have h1 : State.Sound x0.2 := (State.draw_sound hs)
  exact h1

theorem State.roundSamples_sound {s : State} {xs : List CRat} (hs : State.Sound s) :
    State.Sound (State.roundSamples s xs).2 := by
  unfold State.roundSamples
  extract_lets -underBinder +lift x0
  have h1 : State.Sound x0.2 := (State.roundFree_sound hs)
  exact h1

/-! ### Machine/Access.lean -/

theorem State.countLinks_sound {s : State} {p : Packet} {gt : Bool} {a : List Nat} (hs : State.Sound s) :
    State.Sound (State.countLinks s p gt a) := by
  induction a generalizing s p gt
  · unfold State.countLinks
    exact hs
  · rename_i ih
    unfold State.countLinks
    extract_lets -underBinder +lift x8 x9
    have h10 : State.Sound x9 := (sound_ite (State.tally_sound hs) hs)
    exact (sound_ite (ih (State.bump_sound hs)) (ih (State.bump_sound h10)))

theorem State.cross_sound {s : State} {p : Packet} (hs : State.Sound s) :
    State.Sound (State.cross s p).2 := by
  unfold State.cross
  extract_lets -underBinder +lift x0 x1 x2
  split
  · exact hs
  · split
    · exact hs
    · split
      · exact (State.nocCount_sound (State.countLinks_sound hs))
      · split
        · exact (State.countLinks_sound hs)
        · split
          · exact hs
          · exact (State.countLinks_sound hs)

theorem State.inject_sound {s : State} {p : Packet} (hs : State.Sound s) :
    State.Sound (State.inject s p) := by
  unfold State.inject
  extract_lets -underBinder +lift x0 x1
  have h2 : State.Sound x1 := (State.sendPacket_sound hs)
  split
  · exact (sound_ite (State.freeze_sound h2) h2)
  · exact h2

theorem State.wakeFor_sound {s : State} {srcNi : Nat} {ni : Nat} (hs : State.Sound s) :
    State.Sound (State.wakeFor s srcNi ni) := by
  unfold State.wakeFor
  exact (sound_ite hs (State.demandWake_sound (State.nocCount_sound (sound_mk hs))))

theorem State.mustWait_sound {s : State} {srcNi : Nat} {ni : Nat} (hs : State.Sound s) :
    State.Sound (State.mustWait s srcNi ni).2 := by
  unfold State.mustWait
  split
  · exact (sound_mk hs)
  · exact (State.wakeFor_sound hs)

theorem State.setLine_sound {s : State} {m : Nat} {line : Nat} (hs : State.Sound s) :
    State.Sound (State.setLine s m line) := by
  unfold State.setLine
  exact (sound_ite hs (State.setFld_sound (sound_mk hs)))

theorem State.windowLines_sound {s : State} {a : Nat} {n : Nat} (hs : State.Sound s) :
    State.Sound (State.windowLines s a n) := by
  unfold State.windowLines
  extract_lets -underBinder +lift x0 x1 x2 x3
  exact (sound_ite hs (foldl_sound hs (fun a4 a5 h6 => (State.setLine_sound h6))))

theorem State.targetWrite_sound {s : State} {a : Nat} {bytes : List Byte} (hs : State.Sound s) :
    State.Sound (State.targetWrite s a bytes).2 := by
  unfold State.targetWrite
  extract_lets -underBinder +lift x0
  have h1 : State.Sound x0.1 := (State.writeMem_sound hs)
  split
  · exact hs
  · exact (State.windowLines_sound h1)

theorem State.answered_sound {s : State} {p : Packet} {status : Nat} {data : List Byte} {byTarget : Bool} (hs : State.Sound s) :
    State.Sound (State.answered s p status data byTarget).2 := by
  unfold State.answered
  extract_lets r path s1
  have h1 : State.Sound s1 := State.countLinks_sound hs
  refine sound_ite_snd hs (sound_ite_snd hs (sound_ite_snd h1 ?_))
  show State.Sound ((s1.nocCount cntRouteErr).nocErr r 0)
  exact State.nocErr_sound (State.nocCount_sound h1)

theorem State.succeeded_sound {s : State} {p : Packet} {data : List Byte} (hs : State.Sound s) :
    State.Sound (State.succeeded s p data).2 := by
  unfold State.succeeded
  extract_lets -underBinder +lift x0
  have h1 : State.Sound x0.2 := (State.answered_sound hs)
  split
  · exact h1
  · exact (State.mustWait_sound h1)

theorem State.failed_sound {s : State} {p : Packet} {status : Nat} {errs : List MemErr} {byTarget : Bool} (hs : State.Sound s) :
    State.Sound (State.failed s p status errs byTarget).2 := by
  unfold State.failed
  extract_lets -underBinder +lift x0 x1 x2
  have h3 : State.Sound x0 := (sound_ite hs (State.nocErr_sound hs))
  have h4 : State.Sound x1.2 := (State.answered_sound h3)
  have h5 : State.Sound x2.2 := (State.mustWait_sound h4)
  split
  · exact h4
  · exact h5

theorem State.serveWrite_sound {s : State} {p : Packet} {a : Nat} {bytes : List Byte} (hs : State.Sound s) :
    State.Sound (State.serveWrite s p a bytes).2 := by
  unfold State.serveWrite
  extract_lets -underBinder +lift x0
  have h1 : State.Sound x0.2 := (State.targetWrite_sound hs)
  split
  · exact (State.succeeded_sound h1)
  · exact (State.failed_sound h1)

theorem State.writePiece_sound {s : State} {srcNi : Nat} {type : Nat} {a : Nat} {bytes : List Byte} (hs : State.Sound s) :
    State.Sound (State.writePiece s srcNi type a bytes).2 := by
  unfold State.writePiece
  split
  · exact hs
  · extract_lets -underBinder +lift x5 x6
    have h7 : State.Sound x5.2 := (State.cross_sound hs)
    split
    · exact (State.inject_sound hs)
    · split
      · exact (State.serveWrite_sound h7)
      · exact (State.failed_sound h7)
      · exact (State.failed_sound (State.nocCount_sound h7))
      · unfold x6
        extract_lets -underBinder +lift x18
        have h19 : State.Sound x18.2 := (State.mustWait_sound h7)
        split
        · exact (State.inject_sound hs)
        · split
          · exact h19
          · exact (State.serveWrite_sound h19)
      · unfold x6
        extract_lets -underBinder +lift x26
        have h27 : State.Sound x26.2 := (State.mustWait_sound h7)
        split
        · exact (State.inject_sound hs)
        · split
          · exact h27
          · exact (State.serveWrite_sound h27)

theorem State.writePieces_sound {s : State} {srcNi : Nat} {type : Nat} {a : List (Nat × Nat)} {a4 : List Byte} (hs : State.Sound s) :
    State.Sound (State.writePieces s srcNi type a a4).2 := by
  induction a generalizing s a4 with
  | nil => exact hs
  | cons p rest ih =>
    unfold State.writePieces
    exact ih (State.writePiece_sound hs)

theorem State.agentPost_sound {s : State} {srcNi : Nat} {a : Nat} {bytes : List Byte} (hs : State.Sound s) :
    State.Sound (State.agentPost s srcNi a bytes).2 := by
  unfold State.agentPost
  exact (State.writePieces_sound hs)

theorem State.toHost_sound {s : State} {p : Packet} (hs : State.Sound s) :
    State.Sound (State.toHost s p).2 := by
  unfold State.toHost
  extract_lets -underBinder +lift x0
  have h1 : State.Sound x0.2 := (State.cross_sound hs)
  split
  · exact h1
  · extract_lets -underBinder +lift x6
    have h7 : State.Sound x6.2 := (State.failed_sound h1)
    exact h7
  · extract_lets -underBinder +lift x10
    have h11 : State.Sound x10.2 := (State.failed_sound (State.nocCount_sound h1))
    exact h11
  · exact h1
  · extract_lets -underBinder +lift x16
    have h17 : State.Sound x16.2 := (State.mustWait_sound h1)
    exact h17

theorem State.hostPost_sound {s : State} {srcNi : Nat} {type : Nat} {a : Nat} {bytes : List Byte} (hs : State.Sound s) :
    State.Sound (State.hostPost s srcNi type a bytes).2 := by
  unfold State.hostPost
  split
  · exact hs
  · split
    · rename_i y7 y8
      have h9 : State.Sound y7 := of_eq (fun z => State.Sound z.2) y8 (State.toHost_sound hs)
      exact h9
    · rename_i y11 y12
      have h13 : State.Sound y11 := of_eq (fun z => State.Sound z.2) y12 (State.toHost_sound hs)
      split
      · exact (State.succeeded_sound (State.hostWrite_sound h13))
      · exact (State.failed_sound (State.hostWrite_sound h13))

theorem State.post70_sound {s : State} {srcNi : Nat} {a : Nat} {bytes : List Byte} (hs : State.Sound s) :
    State.Sound (State.post70 s srcNi a bytes) := by
  unfold State.post70
  exact (sound_ite (State.agentPost_sound hs) (State.hostPost_sound hs))

theorem State.agentWrite_sound {s : State} {srcNi : Nat} {a : Nat} {bytes : List Byte} (hs : State.Sound s) :
    State.Sound (State.agentWrite s srcNi a bytes).2 := by
  unfold State.agentWrite
  exact (State.writePieces_sound hs)

theorem State.replyErrors_sound {s : State} {r : Reply} {job : Option (Eng × Nat)} (hs : State.Sound s) :
    State.Sound (State.replyErrors s r job) := by
  unfold State.replyErrors
  exact (State.uncorrectables_sound hs)

theorem State.serveRead_sound {s : State} {p : Packet} {a : Nat} {n : Nat} (hs : State.Sound s) :
    State.Sound (State.serveRead s p a n).2 := by
  unfold State.serveRead
  split
  · extract_lets -underBinder +lift x2
    have h3 : State.Sound x2.2 := (State.unitRegRead_sound hs)
    exact (State.succeeded_sound h3)
  · extract_lets -underBinder +lift x6 x7
    have h8 : State.Sound x6.2 := (State.drawBool_sound hs)
    have h9 : State.Sound x7.2 := (State.drawBytes_sound h8)
    split
    · exact (State.succeeded_sound h9)
    · exact (State.failed_sound h9)
  · extract_lets -underBinder +lift x15
    have h16 : State.Sound x15.2.1 := (State.readMem_sound hs)
    split
    · exact (State.succeeded_sound h16)
    · exact (State.failed_sound h16)

theorem State.readPiece_sound {s : State} {srcNi : Nat} {a : Nat} {n : Nat} (hs : State.Sound s) :
    State.Sound (State.readPiece s srcNi a n).2 := by
  unfold State.readPiece
  split
  · exact hs
  · extract_lets -underBinder +lift x5
    have h6 : State.Sound x5.2 := (State.cross_sound hs)
    split
    · exact (State.serveRead_sound h6)
    · exact (State.failed_sound h6)
    · exact (State.failed_sound (State.nocCount_sound h6))
    · extract_lets -underBinder +lift x15
      have h16 : State.Sound x15.2 := (State.mustWait_sound h6)
      split
      · exact h16
      · exact (State.serveRead_sound h16)
    · extract_lets -underBinder +lift x21
      have h22 : State.Sound x21.2 := (State.mustWait_sound h6)
      split
      · exact h22
      · exact (State.serveRead_sound h22)

theorem State.readPieces_sound {s : State} {srcNi : Nat} {a : List (Nat × Nat)} (hs : State.Sound s) :
    State.Sound (State.readPieces s srcNi a).2 := by
  induction a generalizing s srcNi
  · unfold State.readPieces
    exact hs
  · rename_i ih
    unfold State.readPieces
    extract_lets -underBinder +lift x9 x10
    have h11 : State.Sound x9.2 := (State.readPiece_sound hs)
    have h12 : State.Sound x10.2 := (ih h11)
    split
    · exact h12
    · split
      · exact h12
      · exact h12

theorem State.agentRead_sound {s : State} {srcNi : Nat} {a : Nat} {n : Nat} (hs : State.Sound s) :
    State.Sound (State.agentRead s srcNi a n).2 := by
  unfold State.agentRead
  exact (State.readPieces_sound hs)

theorem State.attempt_sound {s : State} {f : State → State} (hs : State.Sound s) (hf : ∀ t0, State.Sound t0 → State.Sound (f t0)) :
    State.Sound (State.attempt s f) := by
  unfold State.attempt
  extract_lets -underBinder +lift x0 x1
  have h2 : State.Sound x1 := (hf _ (sound_mk hs))
  split
  · exact (foldl_sound hs (fun a7 a8 h9 => (sound_ite h9 (State.wakeFor_sound h9))))
  · exact (sound_mk h2)

theorem State.engineFault_sound {s : State} {e : Eng} {lane : Nat} {a : Nat} {r : Reply} (hs : State.Sound s) :
    State.Sound (State.engineFault s e lane a r) := by
  unfold State.engineFault
  extract_lets -underBinder +lift x0 x1 x2
  have h3 : State.Sound x0 := (State.uncorrectables_sound hs)
  have h4 : State.Sound x1.2 := (State.drawBool_sound h3)
  have h5 : State.Sound x2.2 := (State.draw_sound h4)
  exact (sound_ite (State.jobFault_sound h3) (sound_ite (State.jobFault_sound h5) (State.jobFault_sound h3)))

theorem State.write70_sound {s : State} {srcNi : Nat} {a : Nat} {bytes : List Byte} (hs : State.Sound s) :
    State.Sound (State.write70 s srcNi a bytes) := by
  unfold State.write70
  extract_lets -underBinder +lift x0
  have h1 : State.Sound x0.2 := (State.agentPost_sound hs)
  exact (sound_ite (State.replyErrors_sound h1) (State.hostPost_sound hs))

theorem State.hostRead_sound {s : State} {srcNi : Nat} {a : Nat} {n : Nat} {o : Nat} {host : HostData} (hs : State.Sound s) :
    State.Sound (State.hostRead s srcNi a n o host).2 := by
  unfold State.hostRead
  split
  · exact hs
  · split
    · rename_i y7 y8
      have h9 : State.Sound y7 := of_eq (fun z => State.Sound z.2) y8 (State.toHost_sound hs)
      exact h9
    · rename_i y11 y12
      have h13 : State.Sound y11 := of_eq (fun z => State.Sound z.2) y12 (State.toHost_sound hs)
      extract_lets -underBinder +lift x14
      have h15 : State.Sound x14 := (sound_ite (State.emit_sound h13) h13)
      split
      · exact (State.succeeded_sound h15)
      · exact (State.failed_sound (State.bump_sound h15))

theorem State.read70_sound {s : State} {srcNi : Nat} {a : Nat} {n : Nat} {host : HostData} (hs : State.Sound s) :
    State.Sound (State.read70 s srcNi a n host).2 := by
  unfold State.read70
  extract_lets -underBinder +lift x0 x1
  have h2 : State.Sound x0.2 := (State.agentRead_sound hs)
  have h3 : State.Sound x1.2 := (State.hostRead_sound hs)
  split
  · exact (State.replyErrors_sound h2)
  · exact h3

/-! ### Machine/FabOps.lean -/

theorem State.fabCount_sound {s : State} {k : Nat} {n : optParam Nat 1} (hs : State.Sound s) :
    State.Sound (State.fabCount s k n) := by
  unfold State.fabCount
  exact (State.tally_sound hs)

theorem State.sendTransaction_sound {s : State} {kind : Nat} {dst : Nat} {flow : Nat} {nhops : Nat} {route : Nat}
    {bytes : List Byte} (hs : State.Sound s) :
    State.Sound (State.sendTransaction s kind dst flow nhops route bytes) := by
  unfold State.sendTransaction
  extract_lets -underBinder +lift x0 x1 x2
  exact (sound_ite (State.fabCount_sound hs) (sound_mk hs))

theorem State.sendMsg_sound {s : State} {dest : MsgTo} {type : Nat} {muster : Nat} {payload : List Byte} (hs : State.Sound s) :
    State.Sound (State.sendMsg s dest type muster payload) := by
  unfold State.sendMsg
  extract_lets -underBinder +lift x0
  split
  · extract_lets -underBinder +lift x3
    exact (sound_ite (State.sendTransaction_sound hs) hs)
  · exact (State.sendTransaction_sound hs)
  · exact (State.sendTransaction_sound hs)
  · exact (State.sendTransaction_sound hs)

theorem State.flood_sound {s : State} {groups : List Nat} {type : Nat} {muster : Nat} {payload : List Byte} (hs : State.Sound s) :
    State.Sound (State.flood s groups type muster payload) := by
  unfold State.flood
  exact (foldl_sound hs (fun a0 a1 h2 => (State.sendMsg_sound h2)))

/-! ### Machine/Drover.lean -/

theorem State.showStore_sound {s : State} (hs : State.Sound s) :
    State.Sound (State.showStore s) := by
  unfold State.showStore
  exact (State.setFld_sound (State.setFld_sound hs))

theorem State.dropRequest_sound {s : State} {id : Nat} (hs : State.Sound s) :
    State.Sound (State.dropRequest s id) := by
  unfold State.dropRequest
  exact (State.showStore_sound (sound_mk hs))

theorem State.countDone_sound {s : State} {d : Done} (hs : State.Sound s) :
    State.Sound (State.countDone s d) := by
  unfold State.countDone
  exact (sound_ite (State.bump_sound hs) (sound_ite (State.wr_sound (State.bump_sound hs)) (sound_ite (State.bump_sound hs) (sound_ite (State.bump_sound hs) (sound_ite (State.bump_sound hs) hs)))))

theorem State.countRecord_sound {s : State} {ring : Nat} {vector : Nat} {ticks : Nat} {count : Nat} (hs : State.Sound s) :
    State.Sound (State.countRecord s ring vector ticks count) := by
  unfold State.countRecord
  extract_lets -underBinder +lift x0 x1 x2
  exact (sound_ite (State.msix_sound (sound_mk hs)) (sound_mk hs))

theorem State.postRecord_sound {s : State} {d : Done} (hs : State.Sound s) :
    State.Sound (State.postRecord s d) := by
  unfold State.postRecord
  extract_lets -underBinder +lift x0 x1 x2 x3 x4 x5 x6 x7 x8
  have h9 : State.Sound x1 := (State.countDone_sound hs)
  have h10 : State.Sound x6 := (State.post70_sound h9)
  have h11 : State.Sound x7 := (State.setFld_sound h10)
  have h12 : State.Sound x8 := (sound_ite (State.setFld_sound h11) h11)
  exact (sound_ite h9 (State.countRecord_sound h12))

theorem State.completeRequest_sound {s : State} {q : Request} {status : Nat} {detail : Nat} (hs : State.Sound s) :
    State.Sound (State.completeRequest s q status detail) := by
  unfold State.completeRequest
  extract_lets -underBinder +lift x0 x1 x2 x3 x4 x5 x6
  have h7 : State.Sound x1 := (sound_ite hs (foldl_sound hs (fun a8 a9 h10 => (State.post70_sound h10))))
  have h11 : State.Sound x2 := (State.dropRequest_sound h7)
  have h12 : State.Sound x4 := (sound_ite h11 (sound_mk h11))
  have h13 : State.Sound x5 := (State.postRecord_sound h12)
  exact (sound_ite (sound_mk h13) h13)

theorem State.clearDrv_sound {s : State} (hs : State.Sound s) :
    State.Sound (State.clearDrv s) := by
  unfold State.clearDrv
  exact (State.wr_sound (State.wr_sound hs))

theorem State.writeRqCfg_sound {s : State} {q : Nat} {v : Word} (hs : State.Sound s) :
    State.Sound (State.writeRqCfg s q v) := by
  unfold State.writeRqCfg
  extract_lets -underBinder +lift x0 x1
  have h2 : State.Sound x1 := (State.wrAccess_sound hs)
  exact (sound_ite hs (sound_ite (State.setFld_sound (State.setFld_sound (State.setFld_sound h2))) h2))

theorem State.writeRqDb_sound {s : State} {q : Nat} {v : Word} (hs : State.Sound s) :
    State.Sound (State.writeRqDb s q v) := by
  unfold State.writeRqDb
  extract_lets -underBinder +lift x0
  exact (sound_ite (State.msix_sound (State.setFld_sound hs)) (State.wrAccess_sound hs))

theorem State.writeCqCfg_sound {s : State} {q : Nat} {v : Word} (hs : State.Sound s) :
    State.Sound (State.writeCqCfg s q v) := by
  unfold State.writeCqCfg
  extract_lets -underBinder +lift x0 x1 x2 x3
  have h4 : State.Sound x1 := (State.wrAccess_sound hs)
  have h5 : State.Sound x2 := (State.setFld_sound (State.setFld_sound (State.setFld_sound h4)))
  exact (sound_ite hs (sound_ite (sound_mk h5) h4))

theorem State.completeWhere_sound {s : State} {p : Request → Bool} {status : Nat} {detail : Nat} (hs : State.Sound s) :
    State.Sound (State.completeWhere s p status detail) := by
  unfold State.completeWhere
  exact (foldl_sound hs (fun a0 a1 h2 => (State.completeRequest_sound h2)))

theorem State.rejectAt_sound {s : State} {p : Posted} {status : Nat} {detail : Nat} {firstBad : Nat} (hs : State.Sound s) :
    State.Sound (State.rejectAt s p status detail firstBad) := by
  unfold State.rejectAt
  exact (State.postRecord_sound hs)

theorem State.postCmd_sound {s : State} {c : CellCmd} {status : Nat} {detail : Nat} (hs : State.Sound s) :
    State.Sound (State.postCmd s c status detail) := by
  unfold State.postCmd
  exact (State.postRecord_sound hs)

theorem State.acceptCmd_sound {s : State} {c : CellCmd} (hs : State.Sound s) :
    State.Sound (State.acceptCmd s c) := by
  unfold State.acceptCmd
  extract_lets -underBinder +lift x0 x1 x2
  have h3 : State.Sound x2 := (sound_mk hs)
  exact (sound_ite (State.postCmd_sound hs) (sound_ite (State.sendMsg_sound h3) h3))

theorem State.acceptCmdDesc_sound {s : State} {p : Posted} (hs : State.Sound s) :
    State.Sound (State.acceptCmdDesc s p) := by
  unfold State.acceptCmdDesc
  extract_lets -underBinder +lift x0 x1
  exact (sound_ite (State.rejectAt_sound hs) (sound_ite (State.rejectAt_sound hs) (State.acceptCmd_sound hs)))

theorem State.readEntries_sound {s : State} {data : List HostData} {a : List (List Byte × Nat)} (hs : State.Sound s) :
    State.Sound (State.readEntries s data a).2 := by
  induction a generalizing s data
  · unfold State.readEntries
    exact hs
  · rename_i ih
    unfold State.readEntries
    extract_lets -underBinder +lift x8
    have h9 : State.Sound x8.2 := (State.read70_sound hs)
    split
    · exact (ih hs)
    · split
      · exact h9
      · extract_lets -underBinder +lift x17
        have h18 : State.Sound x17.2 := (ih h9)
        exact h18

theorem State.stageEntries_sound {s : State} {build : Word} {cell : Nat} {slot : Nat} {parts : List (Nat × List Byte)} (hs : State.Sound s) :
    State.Sound (State.stageEntries s build cell slot parts) := by
  unfold State.stageEntries
  exact (foldl_sound hs (fun a3 a4 h5 => (by
      extract_lets -underBinder +lift x6
      have h7 : State.Sound x6.2 := (State.agentPost_sound h5)
      exact (State.replyErrors_sound h7))))

theorem State.holdRequest_sound {s : State} {p : Posted} {es : List (List Byte)} {data : List HostData} (hs : State.Sound s) :
    State.Sound (State.holdRequest s p es data) := by
  unfold State.holdRequest
  extract_lets d cell len start same build
  have h : State.Sound (if reqDir d = 0 then s.readEntries data es.zipIdx else (some [], s)).2 := by
    split
    · exact State.readEntries_sound hs
    · exact hs
  revert h
  generalize (if reqDir d = 0 then s.readEntries data es.zipIdx else (some [], s)) = z
  obtain ⟨o, s1⟩ := z
  intro h1
  cases o with
  | none => exact State.rejectAt_sound h1
  | some parts =>
    dsimp only at h1 ⊢
    have hst : State.Sound (s1.stageEntries build cell (reqSlot d) parts) := State.stageEntries_sound h1
    refine sound_ite (State.rejectAt_sound h1) (sound_ite (State.rejectAt_sound h1) (sound_ite (State.rejectAt_sound h1)
      (State.showStore_sound (sound_mk ?_))))
    have : ∀ o : Option Request, State.Sound (match o with
        | some q => (s1.stageEntries build cell (reqSlot d) parts).completeRequest q 6 16
        | none => s1.stageEntries build cell (reqSlot d) parts) := fun o => by
      split
      · exact State.completeRequest_sound hst
      · exact hst
    exact this same

theorem State.acceptRequest_sound {s : State} {q : Nat} {desc : HostData} {ext : HostData} {data : List HostData} (hs : State.Sound s) :
    State.Sound (State.acceptRequest s q desc ext data) := by
  unfold State.acceptRequest
  extract_lets -underBinder +lift x0 x1 x2 x3 x4 x5 x6 x7 x8 x9
  have h10 : State.Sound x2.2 := (State.read70_sound hs)
  have h11 : State.Sound x4 := (State.setFld_sound h10)
  have h12 : State.Sound x6 := (sound_mk h11)
  have h13 : State.Sound x9.2 := by
    unfold x9
    split
    · exact (State.read70_sound h12)
    · exact h12
  split
  · exact hs
  · split
    · exact (State.rejectAt_sound h12)
    · split
      · exact (State.rejectAt_sound h13)
      · extract_lets -underBinder +lift x25
        split
        · exact (State.acceptCmdDesc_sound h13)
        · split
          · exact (State.rejectAt_sound h13)
          · split
            · exact (State.rejectAt_sound h13)
            · exact (State.holdRequest_sound h13)

theorem State.finishCmd_sound {s : State} {c : CellCmd} (hs : State.Sound s) :
    State.Sound (State.finishCmd s c) := by
  unfold State.finishCmd
  split
  · exact hs
  · split
    · exact (State.postCmd_sound hs)
    · split
      · split
        · exact (State.postCmd_sound hs)
        · exact (State.postCmd_sound hs)
      · exact (State.postCmd_sound hs)

theorem State.applyCmd_sound {s : State} {c : CellCmd} {pos : Nat} (hs : State.Sound s) :
    State.Sound (State.applyCmd s c pos) := by
  unfold State.applyCmd
  extract_lets -underBinder +lift x0 x1
  have h2 : State.Sound x0 := (State.bump_sound hs)
  have h3 : State.Sound x1 := (sound_ite (State.setCellState_sound h2) h2)
  exact (sound_ite (sound_ite (State.setCellState_sound h2) h2) (State.completeWhere_sound h3))

theorem State.effectAt_sound {s : State} (hs : State.Sound s) :
    State.Sound (State.effectAt s) := by
  unfold State.effectAt
  extract_lets -underBinder +lift x0 x1 x2 x3 x4
  have h5 : State.Sound x4 := (sound_mk hs)
  exact (foldl_sound h5 (fun a6 a7 h8 => (State.finishCmd_sound (sound_ite (State.applyCmd_sound h8) h8))))

theorem State.sendCellResult_sound {s : State} {peer : Nat} {token : Nat} {status : Nat} (hs : State.Sound s) :
    State.Sound (State.sendCellResult s peer token status) := by
  unfold State.sendCellResult
  exact (State.sendMsg_sound hs)

theorem State.answerPeers_sound {s : State} {before : List CellCmd} {after : List CellCmd} (hs : State.Sound s) :
    State.Sound (State.answerPeers s before after) := by
  unfold State.answerPeers
  exact (foldl_sound hs (fun a3 a4 h5 => (by
      split
      · exact (sound_ite (State.sendCellResult_sound h5) (sound_ite (State.sendCellResult_sound h5) h5))
      · exact h5)))

theorem State.resolveAt_sound {s : State} (hs : State.Sound s) :
    State.Sound (State.resolveAt s) := by
  unfold State.resolveAt
  extract_lets -underBinder +lift x0 x1 x2
  exact (State.answerPeers_sound (sound_mk hs))

theorem State.cellResult_sound {s : State} {token : Nat} {status : Nat} (hs : State.Sound s) :
    State.Sound (State.cellResult s token status) := by
  unfold State.cellResult
  exact (sound_mk hs)

theorem State.acceptPeer_sound {s : State} {peer : Nat} {cell : Nat} {frame : Nat} {token : Nat} (hs : State.Sound s) :
    State.Sound (State.acceptPeer s peer cell frame token) := by
  unfold State.acceptPeer
  extract_lets -underBinder +lift x0 x1
  exact (sound_ite (State.sendCellResult_sound hs) (sound_mk hs))

theorem State.coalExpired_sound {s : State} {ring : Nat} {vector : Nat} {ticks : Nat} (hs : State.Sound s) :
    State.Sound (State.coalExpired s ring vector ticks) := by
  unfold State.coalExpired
  extract_lets -underBinder +lift x0 x1
  exact (sound_ite hs (State.msix_sound (sound_mk hs)))

theorem State.cellCmd_sound {s : State} {cmd : Nat} {q : Nat} {ring : Nat} {tag : Nat} {cell : Nat} {frame : Nat} {dest : Nat} (hs : State.Sound s) :
    State.Sound (State.cellCmd s cmd q ring tag cell frame dest) := by
  unfold State.cellCmd
  extract_lets -underBinder +lift x0 x1 x2
  have h3 : State.Sound x0 := (State.setFld_sound hs)
  have h4 : State.Sound x2 := (sound_mk h3)
  exact (sound_ite hs (State.acceptCmd_sound h4))

/-! ### Machine/Frames.lean -/

theorem State.latencyUnits_sound {s : State} {tenths : Nat} (hs : State.Sound s) :
    State.Sound (State.latencyUnits s tenths).2 := by
  unfold State.latencyUnits
  extract_lets -underBinder +lift x0
  have h1 : State.Sound x0.2 := (State.drawBool_sound hs)
  exact h1

theorem State.txTime_sound {s : State} {port : Nat} {sfd : Word} (hs : State.Sound s) :
    State.Sound (State.txTime s port sfd).2 := by
  unfold State.txTime
  extract_lets -underBinder +lift x0
  have h1 : State.Sound x0.2 := (State.latencyUnits_sound hs)
  exact h1

theorem State.writeRingCfg_sound {s : State} {cfg : Reg} {v : Word} (hs : State.Sound s) :
    State.Sound (State.writeRingCfg s cfg v) := by
  unfold State.writeRingCfg
  extract_lets -underBinder +lift x0
  exact (sound_ite hs (State.wrAccess_sound hs))

theorem State.pushRing_sound {s : State} {srcNi : Nat} {base : Reg} {cfg : Reg} {db : Reg} {pi : Reg} {size : Nat}
    {entry : Nat → List Byte} (hs : State.Sound s) :
    Sys2Proof.Machine.OptSound (State.pushRing s srcNi base cfg db pi size entry) := by
  unfold State.pushRing
  extract_lets -underBinder +lift x0 x1 x2 x3 x4 x5 x6
  have h7 : State.Sound x4.2 := (State.agentPost_sound hs)
  have h8 : State.Sound x5 := (State.setFld_sound (State.replyErrors_sound h7))
  have h9 : State.Sound x6 := (sound_ite (State.setFld_sound h8) h8)
  split
  · trivial
  · exact (State.msix_sound h9)

theorem State.rxTime_sound {s : State} {port : Nat} {sfd : Word} (hs : State.Sound s) :
    State.Sound (State.rxTime s port sfd).2 := by
  unfold State.rxTime
  extract_lets -underBinder +lift x0
  have h1 : State.Sound x0.2 := (State.latencyUnits_sound hs)
  exact h1

/-! ### Machine/Timers.lean -/

theorem State.driveGpio_sound {s : State} {i : Nat} {level : Bool} (hs : State.Sound s) :
    State.Sound (State.driveGpio s i level) := by
  unfold State.driveGpio
  extract_lets -underBinder +lift x0
  exact (State.emit_sound (sound_tm hs rfl rfl))

theorem State.timerAction_sound {s : State} {action : Nat} {arg : Nat} (hs : State.Sound s) :
    State.Sound (State.timerAction s action arg) := by
  unfold State.timerAction
  extract_lets -underBinder +lift x0
  split
  · exact (sound_ite (State.driveGpio_sound hs) hs)
  · extract_lets -underBinder +lift x3 x4 x5
    have h6 : State.Sound x4 := (State.driveGpio_sound hs)
    exact (sound_ite (sound_tm h6 rfl rfl) hs)
  · exact (State.shepIrq_sound hs)
  · exact (State.msix_sound hs)
  · exact hs

theorem State.clearTim_sound {s : State} (hs : State.Sound s) :
    State.Sound (State.clearTim s) := by
  unfold State.clearTim
  exact (foldl_sound hs (fun a0 a1 h2 => (State.wr_sound h2)))

theorem State.writeTimCfg_sound {s : State} {v : Word} (hs : State.Sound s) :
    State.Sound (State.writeTimCfg s v) := by
  unfold State.writeTimCfg
  exact (sound_ite hs (State.wrAccess_sound hs))

theorem State.commitSample_sound {s : State} {v : Word} (hs : State.Sound s) :
    State.Sound (State.commitSample s v) := by
  unfold State.commitSample
  extract_lets -underBinder +lift x0 x1 x2 x3
  exact (sound_tm hs rfl rfl)

theorem State.writeRefCfg_sound {s : State} {i : Nat} {v : Word} (hs : State.Sound s) :
    State.Sound (State.writeRefCfg s i v) := by
  unfold State.writeRefCfg
  extract_lets -underBinder +lift x0 x1 x2 x3
  have h4 : State.Sound x0 := (State.wrAccess_sound hs)
  exact (sound_ite (sound_tm h4 rfl rfl) h4)

theorem State.addOutStep_sound {s : State} {o : Nat} {v : Word} (hs : State.Sound s) :
    State.Sound (State.addOutStep s o v) := by
  unfold State.addOutStep
  extract_lets -underBinder +lift x0 x1 x2
  exact (sound_ite (State.setFld_sound hs) (sound_tm hs rfl rfl))

theorem State.armTimer_sound {s : State} {i : Nat} {n : Nat} {c : Nat} (hs : State.Sound s) :
    State.Sound (State.armTimer s i n c) := by
  unfold State.armTimer
  extract_lets -underBinder +lift x0 x1 x2
  exact (State.setFld_sound (sound_tm hs rfl rfl))

theorem State.writeEvtCmp_sound {s : State} {i : Nat} {v : Word} (hs : State.Sound s) :
    State.Sound (State.writeEvtCmp s i v) := by
  unfold State.writeEvtCmp
  extract_lets -underBinder +lift x0
  have h1 : State.Sound x0 := (State.wrAccess_sound hs)
  exact (sound_ite (State.armTimer_sound h1) h1)

theorem State.writeEvtCtrl_sound {s : State} {i : Nat} {v : Word} (hs : State.Sound s) :
    State.Sound (State.writeEvtCtrl s i v) := by
  unfold State.writeEvtCtrl
  extract_lets -underBinder +lift x0
  have h1 : State.Sound x0 := (State.wrAccess_sound hs)
  exact (sound_ite (State.armTimer_sound h1) h1)

theorem State.loadTimer_sound {s : State} {i : Nat} {n : Nat} {idx : Nat} {c : Nat} {after : Bool} (hs : State.Sound s) :
    State.Sound (State.loadTimer s i n idx c after) := by
  unfold State.loadTimer
  extract_lets -underBinder +lift x0 x1 x2 x3
  have h4 : State.Sound x2 := (State.setFld_sound hs)
  clear_value x3
  split
  · exact h4
  · extract_lets -underBinder +lift x8 x9 x10
    have h11 : State.Sound x9 := (State.setFld_sound (State.wr_sound h4))
    have h12 : State.Sound x10 := (State.setFld_sound (State.setFld_sound h11))
    exact (State.armTimer_sound h12)

theorem State.loadTimers_sound {s : State} {n : Nat} {idx : Nat} (hs : State.Sound s) :
    State.Sound (State.loadTimers s n idx) := by
  unfold State.loadTimers
  exact (sound_ite (foldl_sound hs (fun a0 a1 h2 => (State.loadTimer_sound h2))) hs)

theorem State.fixStep_sound {s : State} (hs : State.Sound s) :
    State.Sound (State.fixStep s) := by
  unfold State.fixStep
  extract_lets -underBinder +lift x0
  split
  · exact hs
  · split
    · exact hs
    · extract_lets -underBinder +lift x8 x9 x10
      exact (sound_tm hs rfl rfl)

theorem State.fixAt_sound {s : State} (hs : State.Sound s) :
    State.Sound (State.fixAt s) := by
  unfold State.fixAt
  exact (sound_ite hs (State.passTo_sound (State.fixStep_sound (sound_mk hs))))

theorem State.evaluateInput_sound {s : State} {i : Nat} {o : RefObs} (hs : State.Sound s) :
    State.Sound (State.evaluateInput s i o) := by
  unfold State.evaluateInput
  extract_lets -underBinder +lift x0 x1 x2 x3 x4 x5 x6 x7 x8 x9 x10 x11 x12 x13 x14 x15 x16
  have h17 : State.Sound x14 := (sound_tm hs rfl rfl)
  have h18 : State.Sound x15 := (State.setFld_sound (State.setFld_sound (State.setFld_sound (State.setFld_sound h17))))
  have h19 : State.Sound x16 := (State.setFld_sound h18)
  exact (sound_ite (State.setFld_sound h19) h19)

theorem State.hoMean_sound {s : State} {l : List Int} (hs : State.Sound s) :
    State.Sound (State.hoMean s l).2 := by
  unfold State.hoMean
  extract_lets -underBinder +lift x0 x1
  have h2 : State.Sound x0.2 := (State.drawBool_sound hs)
  exact h2

theorem State.timChange_sound {s : State} (hs : State.Sound s) :
    State.Sound (State.timChange s) := by
  unfold State.timChange
  exact (State.msixIf_sound (State.setFld_sound hs))

theorem State.runLoop_sound {s : State} {f : Nat} {t : Nat} {thr : Bool × Bool} {dco : Int} (hs : State.Sound s) :
    State.Sound (State.runLoop s f t thr dco) := by
  unfold State.runLoop
  extract_lets -underBinder +lift x0 x1 x2 x3 x4 x5 x6 x7 x8 x9 x10 x11 x12 x13 x14 x15 x16 x17 x18
  have h19 : State.Sound x10 := (sound_tm hs rfl rfl)
  have h20 : State.Sound x12.2 := (State.hoMean_sound h19)
  have h21 : State.Sound x13 := (sound_ite (State.setFld_sound h20) h19)
  have h22 : State.Sound x14 := (State.setFld_sound h21)
  have h23 : State.Sound x16 := (State.setFld_sound (State.setFld_sound (State.setFld_sound h22)))
  have h24 : State.Sound x17 := (State.setFld_sound (State.setFld_sound (State.setFld_sound h23)))
  have h25 : State.Sound x18 := (foldl_sound h24 (fun a26 a27 h28 => (State.setFld_sound h28)))
  exact (sound_ite (State.timChange_sound h25) h25)

theorem State.evaluateRefs_sound {s : State} {obs : List RefObs} {dco : Int} (hs : State.Sound s) :
    State.Sound (State.evaluateRefs s obs dco) := by
  unfold State.evaluateRefs
  extract_lets -underBinder +lift x0 x1 x2 x3 x4 x5
  have h6 : State.Sound x1 := (foldl_sound hs (fun a7 a8 h9 => (State.evaluateInput_sound h9)))
  exact (State.runLoop_sound h6)

theorem State.stepTimer_sound {s : State} {i : Nat} (hs : State.Sound s) :
    State.Sound (State.stepTimer s i) := by
  unfold State.stepTimer
  exact (sound_ite (State.setFld_sound (State.setFld_sound hs)) hs)

theorem State.applyStep_sound {s : State} (hs : State.Sound s) :
    State.Sound (State.applyStep s) := by
  unfold State.applyStep
  split
  · exact hs
  · extract_lets _ s0 s1 s2 s3 s4 n s5 late
    have h : ∀ x : Int, (x % (ticksPerSecond : Int)).toNat < ticksPerSecond := fun x => by
      have a := Int.emod_nonneg x (b := (ticksPerSecond : Int)) (by decide)
      have b := Int.emod_lt_of_pos x (b := (ticksPerSecond : Int)) (by decide)
      omega
    have h0 : State.Sound s0 := sound_cycle hs (h _) hs.cycle
    have h1 : State.Sound s1 := State.mapStore_sound h0
    have h2 : State.Sound s2 := State.setFld_sound (State.setFld_sound h1)
    have h3 : State.Sound s3 := State.timChange_sound (State.setFld_sound (State.setFld_sound h2))
    have h4 : State.Sound s4 := sound_ite h3 (State.setReadyBit_sound h3)
    have h5 : State.Sound s5 := State.stepTimer_sound (State.stepTimer_sound (State.loadTimers_sound h4))
    exact State.completeWhere_sound (State.completeWhere_sound h5)

theorem State.stepNow_sound {s : State} (hs : State.Sound s) :
    State.Sound (State.stepNow s) := by
  unfold State.stepNow
  exact (sound_ite hs (State.applyStep_sound (State.closeTick_sound hs)))

theorem State.endPull_sound {s : State} (hs : State.Sound s) :
    State.Sound (State.endPull s) := by
  unfold State.endPull
  extract_lets -underBinder +lift x0
  exact (sound_ite (State.timChange_sound (State.setFld_sound (sound_tm hs rfl rfl))) hs)

theorem State.applyOutStep_sound {s : State} {o : Nat} (hs : State.Sound s) :
    State.Sound (State.applyOutStep s o) := by
  unfold State.applyOutStep
  extract_lets -underBinder +lift x0 x1
  exact (State.setFld_sound (sound_tm hs rfl rfl))

theorem State.endPulse_sound {s : State} {i : Nat} (hs : State.Sound s) :
    State.Sound (State.endPulse s i) := by
  unfold State.endPulse
  extract_lets -underBinder +lift x0
  exact (sound_ite hs (State.driveGpio_sound (State.passTo_sound hs)))

theorem State.fireTimer_sound {s : State} {i : Nat} (hs : State.Sound s) :
    State.Sound (State.fireTimer s i) := by
  unfold State.fireTimer
  split
  · exact hs
  · extract_lets -underBinder +lift x5 x6 x7 x8 x9
    have h10 : State.Sound x5 := (State.passTo_sound hs)
    have h11 : State.Sound x7 := (sound_ite (State.setFld_sound h10) h10)
    have h12 : State.Sound x8 := (State.timerAction_sound h11)
    exact (sound_ite (State.loadTimer_sound h12) (sound_ite (State.setFld_sound h12) (State.armTimer_sound (State.wr_sound h12))))

theorem State.armEvent_sound {s : State} {n : Nat} {v : Word} (hs : State.Sound s) :
    State.Sound (State.armEvent s n v) := by
  unfold State.armEvent
  exact (State.writeEvtCtrl_sound hs)

/-! ### Machine/Fronthaul.lean -/

theorem State.postCompletion_sound {s : State} {queue : Nat} {ring : Nat} (hs : State.Sound s) :
    State.Sound (State.postCompletion s queue ring) := by
  unfold State.postCompletion
  split
  · exact hs
  · split
    · exact (sound_ite (State.completeRequest_sound hs) hs)
    · exact (sound_ite (State.completeRequest_sound hs) hs)

theorem State.clearFhl_sound {s : State} (hs : State.Sound s) :
    State.Sound (State.clearFhl s) := by
  unfold State.clearFhl
  exact (State.wr_sound (foldl_sound hs (fun a0 a1 h2 => (foldl_sound h2 (fun a3 a4 h5 => (State.wr_sound h5))))))

theorem State.fhCount_sound {s : State} {port : Nat} {i : Nat} {k : optParam Nat 1} (hs : State.Sound s) :
    State.Sound (State.fhCount s port i k) := by
  unfold State.fhCount
  exact (State.tally_sound hs)

theorem State.sendFrame_sound {s : State} {port : Nat} {bytes : List Byte} (hs : State.Sound s) :
    State.Sound (State.sendFrame s port bytes) := by
  unfold State.sendFrame
  exact (sound_ite (State.emit_sound (State.fhCount_sound hs)) (State.fhCount_sound hs))

theorem State.sendDelay_sound {s : State} {port : Nat} {dst : Nat} {id : Nat} {action : Nat} {units : Nat} (hs : State.Sound s) :
    State.Sound (State.sendDelay s port dst id action units) := by
  unfold State.sendDelay
  exact (State.sendFrame_sound hs)

theorem State.sendDelayRequest_sound {s : State} {port : Nat} {dst : Nat} {id : Nat} (hs : State.Sound s) :
    State.Sound (State.sendDelayRequest s port dst id) := by
  unfold State.sendDelayRequest
  extract_lets -underBinder +lift x0 x1 x2 x3 x4
  have h5 : State.Sound x0.2 := (State.txTime_sound hs)
  have h6 : State.Sound x2 := h5
  have h7 : State.Sound x4 := (sound_mk h6)
  exact (State.sendDelay_sound h7)

theorem State.writeDlyCtrl_sound {s : State} {v : Word} (hs : State.Sound s) :
    State.Sound (State.writeDlyCtrl s v) := by
  unfold State.writeDlyCtrl
  extract_lets -underBinder +lift x0
  have h1 : State.Sound x0 := (State.wrAccess_sound hs)
  split
  · exact h1
  · split
    · exact h1
    · exact (State.sendDelayRequest_sound h1)

theorem State.setLink_sound {s : State} {port : Nat} {locked : Bool} {fecLock : Bool} {localFault : Bool} {remoteFault : Bool} (hs : State.Sound s) :
    State.Sound (State.setLink s port locked fecLock localFault remoteFault) := by
  unfold State.setLink
  extract_lets -underBinder +lift x0 x1 x2 x3 x4 x5
  have h6 : State.Sound x5 := (State.setFld_sound (State.setFld_sound hs))
  exact (sound_ite h6 (State.msixIf_sound (State.setFld_sound (State.setFld_sound h6))))

theorem State.writePortCfg_sound {s : State} {port : Nat} {v : Word} (hs : State.Sound s) :
    State.Sound (State.writePortCfg s port v) := by
  unfold State.writePortCfg
  extract_lets -underBinder +lift x0 x1 x2 x3 x4
  have h5 : State.Sound x2 := (State.wrAccess_sound hs)
  exact (sound_ite (State.setFld_sound h5) (sound_ite (sound_mk h5) (sound_ite (State.setLink_sound h5) h5)))

theorem State.writePort_sound {s : State} {port : Nat} {v : Word} (hs : State.Sound s) :
    State.Sound (State.writePort s port v) := by
  unfold State.writePort
  extract_lets -underBinder +lift x0
  have h1 : State.Sound x0 := (State.writePortCfg_sound hs)
  exact (sound_ite (foldl_sound h1 (fun a2 a3 h4 => (State.setLink_sound h4))) h1)

theorem State.closeReceive_sound {s : State} {w : Win} (hs : State.Sound s) :
    State.Sound (State.closeReceive s w) := by
  unfold State.closeReceive
  extract_lets -underBinder +lift x0 x1 x2 x3
  have h4 : State.Sound x1 := (sound_ite hs (State.fhCount_sound hs))
  exact (sound_mk h4)

theorem State.closeTransmit_sound {s : State} {w : Win} (hs : State.Sound s) :
    State.Sound (State.closeTransmit s w) := by
  unfold State.closeTransmit
  extract_lets -underBinder +lift x0 x1
  have h2 : State.Sound x1 := (sound_mk hs)
  exact (sound_ite h2 (State.fhCount_sound h2))

theorem State.moveSamples_sound {s : State} {o : Win} {n : Win} (hs : State.Sound s) :
    State.Sound (State.moveSamples s o n) := by
  unfold State.moveSamples
  split
  · exact hs
  · exact (foldl_sound hs (fun a8 a9 h10 => (sound_ite h10 (by
        extract_lets -underBinder +lift x11 x12
        have h13 : State.Sound x11.2 := (State.agentRead_sound h10)
        have h14 : State.Sound x12.2 := (State.agentPost_sound h13)
        exact (State.replyErrors_sound (State.replyErrors_sound h14))))))

theorem State.setPresence_sound {s : State} {eaxc : Nat} {occ : Nat} {v : Nat} (hs : State.Sound s) :
    State.Sound (State.setPresence s eaxc occ v) := by
  unfold State.setPresence
  exact (sound_mk hs)

theorem State.nextSeq_sound {s : State} {eaxc : Nat} {plane : Nat} (hs : State.Sound s) :
    State.Sound (State.nextSeq s eaxc plane).2 := by
  unfold State.nextSeq
  extract_lets -underBinder +lift x0 x1
  exact (sound_mk hs)

theorem State.cplane_sound {s : State} {eaxc : Nat} {slot : Nat} {first : Nat} {count : Nat} {dir : Nat} (hs : State.Sound s) :
    State.Sound (State.cplane s eaxc slot first count dir).2 := by
  unfold State.cplane
  extract_lets -underBinder +lift x0 x1 x2 x3
  have h4 : State.Sound x3.2 := by
    unfold x3
    unfold x2
    extract_lets -underBinder +lift x5
    have h6 : State.Sound x5.2 := (State.nextSeq_sound hs)
    exact h6
  split
  · exact h4
  · split
    · exact hs
    · extract_lets -underBinder +lift x14
      exact (foldl_keeps (fun z : List (List Byte) × State => State.Sound z.2) hs (fun a18 a19 h20 => (by
          extract_lets -underBinder +lift x21 x22
          have h23 : State.Sound x21.2 := by
            unfold x21
            unfold x2
            extract_lets -underBinder +lift x24
            have h25 : State.Sound x24.2 := (State.nextSeq_sound h20)
            exact h25
          exact h23)))

theorem State.countNoCwin_sound {s : State} {cell : Nat} {port : Nat} {dir : Nat} {slot : Nat} {sym : Nat} (hs : State.Sound s) :
    State.Sound (State.countNoCwin s cell port dir slot sym) := by
  unfold State.countNoCwin
  extract_lets -underBinder +lift x0
  exact (sound_ite hs (State.fhCount_sound hs))

theorem State.openReceive_sound {s : State} {w : Win} (hs : State.Sound s) :
    State.Sound (State.openReceive s w) := by
  unfold State.openReceive
  extract_lets -underBinder +lift x0 x1 x2
  have h3 : State.Sound x1 := (sound_mk hs)
  have h4 : State.Sound x2 := by
    unfold x2
    exact (foldl_sound h3 (fun a11 a12 h13 => (by
        extract_lets -underBinder +lift x14 x15
        have h16 : State.Sound x14 := (State.setPresence_sound h13)
        have h17 : State.Sound x15.2 := (State.agentPost_sound h16)
        exact (sound_ite (State.replyErrors_sound h17) h16))))
  exact (State.countNoCwin_sound h4)

theorem State.cplaneWindow_sound {s : State} {cell : Nat} {port : Nat} {slot : Nat} {sym : Nat} (hs : State.Sound s) :
    State.Sound (State.cplaneWindow s cell port slot sym).2 := by
  unfold State.cplaneWindow
  extract_lets -underBinder +lift x0
  exact (foldl_keeps (fun z : List (List Byte) × State => State.Sound z.2) hs (fun a4 a5 h6 => (by
      extract_lets -underBinder +lift x7
      split
      · exact h6
      · exact (foldl_keeps (fun z : List (List Byte) × State => State.Sound z.2) h6 (fun a13 a14 h15 => (by
            extract_lets -underBinder +lift x16
            have h17 : State.Sound x16.2 := (State.cplane_sound h15)
            exact (foldl_keeps (fun z : List (List Byte) × State => State.Sound z.2) h17 (fun a21 a22 h23 => (by
                split
                · exact h23
                · exact (State.fhCount_sound h23))))))))))

theorem State.prbData_sound {s : State} {eaxc : Nat} {slot : Nat} {sym : Nat} {first : Nat} {count : Nat} {zero : Bool} (hs : State.Sound s) :
    State.Sound (State.prbData s eaxc slot sym first count zero).2 := by
  unfold State.prbData
  extract_lets -underBinder +lift x0 x1 x2 x3 x4
  have h5 : State.Sound x2.2 := (State.agentRead_sound hs)
  have h6 : State.Sound x3 := (sound_ite hs (State.replyErrors_sound h5))
  exact h6

theorem State.uplane_sound {s : State} {eaxc : Nat} {slot : Nat} {sym : Nat} (hs : State.Sound s) :
    State.Sound (State.uplane s eaxc slot sym).2 := by
  unfold State.uplane
  extract_lets -underBinder +lift x0 x1 x2 x3 x4 x5
  split
  · split
    · split
      · exact (foldl_keeps (fun z : List (List Byte) × State => State.Sound z.2) hs (fun a23 a24 h25 => (by
            extract_lets -underBinder +lift x26 x27 x28 x29 x30 x31 x32
            have h33 : State.Sound x28.2 := (State.prbData_sound h25)
            have h34 : State.Sound x29.2 := (State.nextSeq_sound h33)
            exact (State.fhCount_sound h34))))
      · exact (foldl_keeps (fun z : List (List Byte) × State => State.Sound z.2) hs (fun a39 a40 h41 => (by
            extract_lets -underBinder +lift x42 x43 x44 x45 x46 x47 x48
            have h49 : State.Sound x44.2 := (State.prbData_sound h41)
            have h50 : State.Sound x45.2 := (State.nextSeq_sound h49)
            exact h50)))
    · exact (foldl_keeps (fun z : List (List Byte) × State => State.Sound z.2) hs (fun a56 a57 h58 => (by
          extract_lets -underBinder +lift x59 x60 x61 x62 x63 x64
          have h65 : State.Sound x61.2 := (State.prbData_sound h58)
          have h66 : State.Sound x62.2 := (State.nextSeq_sound h65)
          exact (State.fhCount_sound h66))))
  · split
    · split
      · exact (foldl_keeps (fun z : List (List Byte) × State => State.Sound z.2) hs (fun a81 a82 h83 => (by
            extract_lets -underBinder +lift x84 x85 x86 x87 x88 x89 x90
            have h91 : State.Sound x86.2 := (State.prbData_sound h83)
            have h92 : State.Sound x87.2 := (State.nextSeq_sound h91)
            exact (State.fhCount_sound h92))))
      · exact (foldl_keeps (fun z : List (List Byte) × State => State.Sound z.2) hs (fun a97 a98 h99 => (by
            extract_lets -underBinder +lift x100 x101 x102 x103 x104 x105 x106
            have h107 : State.Sound x102.2 := (State.prbData_sound h99)
            have h108 : State.Sound x103.2 := (State.nextSeq_sound h107)
            exact h108)))
    · exact (foldl_keeps (fun z : List (List Byte) × State => State.Sound z.2) hs (fun a114 a115 h116 => (by
          extract_lets -underBinder +lift x117 x118 x119 x120 x121 x122
          have h123 : State.Sound x119.2 := (State.prbData_sound h116)
          have h124 : State.Sound x120.2 := (State.nextSeq_sound h123)
          exact (State.fhCount_sound h124))))

theorem State.uplaneWindow_sound {s : State} {cell : Nat} {port : Nat} {slot : Nat} {sym : Nat} (hs : State.Sound s) :
    State.Sound (State.uplaneWindow s cell port slot sym).2 := by
  unfold State.uplaneWindow
  exact (foldl_keeps (fun z : List (List Byte) × State => State.Sound z.2) hs (fun a3 a4 h5 => (by
      extract_lets -underBinder +lift x6
      have h7 : State.Sound x6.2 := (State.uplane_sound h5)
      exact h7)))

theorem State.openTransmit_sound {s : State} {w : Win} (hs : State.Sound s) :
    State.Sound (State.openTransmit s w) := by
  unfold State.openTransmit
  extract_lets -underBinder +lift x0 x1 x2
  have h3 : State.Sound x0.2 := by
    unfold x0
    split
    · exact (State.cplaneWindow_sound hs)
    · exact (State.uplaneWindow_sound (State.countNoCwin_sound hs))
  have h6 : State.Sound x1 := h3
  exact (sound_mk h6)

theorem State.swapWindows_sound {s : State} {p : Nat} (hs : State.Sound s) :
    State.Sound (State.swapWindows s p) := by
  unfold State.swapWindows
  extract_lets -underBinder +lift x0 x1 x2 x3 x4
  have h5 : State.Sound x2 := (foldl_sound hs (fun a6 a7 h8 => (sound_ite (State.closeReceive_sound h8) (State.closeTransmit_sound h8))))
  have h9 : State.Sound x4 := (sound_mk h5)
  exact (foldl_sound h9 (fun a13 a14 h15 => (by
      split
      · extract_lets -underBinder +lift x19 x20
        have h21 : State.Sound x19 := (State.moveSamples_sound h15)
        exact (sound_mk h21)
      · exact (sound_ite (State.openReceive_sound h15) (State.openTransmit_sound h15)))))

theorem State.ageFronthaul_sound {s : State} (hs : State.Sound s) :
    State.Sound (State.ageFronthaul s) := by
  unfold State.ageFronthaul
  extract_lets -underBinder +lift x0 x1
  exact (sound_mk hs)

theorem State.countFec_sound {s : State} {f : RxFrame} (hs : State.Sound s) :
    State.Sound (State.countFec s f) := by
  unfold State.countFec
  extract_lets -underBinder +lift x0
  exact (sound_ite (State.fhCount_sound (State.fhCount_sound hs)) hs)

theorem State.receivePtp_sound {s : State} {f : RxFrame} (hs : State.Sound s) :
    State.Sound (State.receivePtp s f) := by
  unfold State.receivePtp
  extract_lets -underBinder +lift x0
  have h1 : State.Sound x0.2 := (State.rxTime_sound hs)
  split
  · exact (State.tally_sound hs)
  · split
    · rename_i y5 y6
      have h7 : State.Sound y5 := of_eq Sys2Proof.Machine.OptSound y6 (State.pushRing_sound h1)
      exact h7
    · exact (State.tally_sound h1)

theorem State.receiveEsmc_sound {s : State} {f : RxFrame} (hs : State.Sound s) :
    State.Sound (State.receiveEsmc s f) := by
  unfold State.receiveEsmc
  split
  · exact State.tally_sound hs
  · split
    · exact State.tally_sound hs
    · extract_lets set
      have h : ∀ t i, State.Sound t → State.Sound (set t i) := fun t i ht => by
        unfold set
        exact sound_ite (sound_tm ht rfl rfl) ht
      exact h _ _ (h _ _ hs)

theorem State.storeDelay_sound {s : State} {port : Nat} {id : Nat} {t2 : Nat} {comp : Int} (hs : State.Sound s) :
    State.Sound (State.storeDelay s port id t2 comp) := by
  unfold State.storeDelay
  split
  · exact hs
  · extract_lets -underBinder +lift x5 x6 x7
    have h8 : State.Sound x6 := (sound_mk hs)
    exact (State.setFld_sound (State.setFld_sound (State.setFld_sound h8)))

theorem State.receiveDelay_sound {s : State} {f : RxFrame} (hs : State.Sound s) :
    State.Sound (State.receiveDelay s f) := by
  unfold State.receiveDelay
  extract_lets -underBinder +lift x0 x1 x2 x3 x4
  split
  · extract_lets -underBinder +lift x7
    have h8 : State.Sound x7.2 := (State.rxTime_sound hs)
    exact (State.sendDelay_sound h8)
  · exact (State.sendDelayRequest_sound hs)
  · exact (State.storeDelay_sound hs)

theorem State.takeSection_sound {s : State} {f : RxFrame} {eaxc : Nat} {slot : Nat} {sym : Nat} {o : Nat} {stop : Nat} (hs : State.Sound s) :
    State.Sound (State.takeSection s f eaxc slot sym o stop).2 := by
  unfold State.takeSection
  extract_lets b port nprb w hasHdr start count data next bad
  split
  · exact State.fhCount_sound hs
  · dsimp only
    refine foldl_sound hs fun t i ht => ?_
    refine sound_ite (State.fhCount_sound ht) (sound_ite (sound_mk (State.setPresence_sound ht)) ?_)
    exact State.replyErrors_sound (State.agentPost_sound (State.setPresence_sound ht))

theorem State.takeSections_sound {s : State} {f : RxFrame} {eaxc : Nat} {slot : Nat} {sym : Nat} {stop : Nat} {a : Nat}
    {a7 : Nat} (hs : State.Sound s) :
    State.Sound (State.takeSections s f eaxc slot sym stop a a7) := by
  induction a generalizing s a7 with
  | zero => exact hs
  | succ n ih =>
    unfold State.takeSections
    split
    · exact ih (State.takeSection_sound hs)
    · exact hs

theorem State.receiveUplane_sound {s : State} {f : RxFrame} {eaxc : Nat} (hs : State.Sound s) :
    State.Sound (State.receiveUplane s f eaxc) := by
  unfold State.receiveUplane
  extract_lets -underBinder +lift x0 x1 x2 x3 x4 x5 x6
  have h7 : State.Sound x6.2 := (State.rxTime_sound hs)
  split
  · exact (State.fhCount_sound hs)
  · split
    · exact (State.fhCount_sound h7)
    · extract_lets -underBinder +lift x15 x16 x17 x18 x19
      have h20 : State.Sound x17 := (sound_ite (State.fhCount_sound h7) h7)
      have h21 : State.Sound x19 := (sound_mk h20)
      exact (State.takeSections_sound h21)

theorem State.receiveFrame_sound {s : State} {f : RxFrame} (hs : State.Sound s) :
    State.Sound (State.receiveFrame s f) := by
  unfold State.receiveFrame
  extract_lets -underBinder +lift x0 x1 x2
  have h3 : State.Sound x1 := (State.countFec_sound hs)
  have h4 : State.Sound x2 := (State.fhCount_sound h3)
  split
  · exact (State.tally_sound h3)
  · split
    · exact h3
    · split
      · exact (State.fhCount_sound h4)
      · split
        · exact (State.fhCount_sound h4)
        · exact (State.receivePtp_sound h4)
        · exact (State.receiveEsmc_sound h4)
        · exact (State.tally_sound h4)
        · exact (State.receiveDelay_sound h4)
        · exact (State.receiveUplane_sound h4)

theorem State.receiveIf_sound {s : State} {f : RxFrame} {p : FrameClass → Bool} (hs : State.Sound s) :
    State.Sound (State.receiveIf s f p) := by
  unfold State.receiveIf
  exact (sound_ite (State.receiveFrame_sound hs) hs)

theorem State.startFrames_sound {s : State} {port : Nat} {a : Nat} (hs : State.Sound s) :
    State.Sound (State.startFrames s port a) := by
  induction a generalizing s port
  · unfold State.startFrames
    exact hs
  · rename_i ih
    unfold State.startFrames
    split
    · exact hs
    · extract_lets -underBinder +lift x16 x17
      have h18 : State.Sound x17 := (sound_mk hs)
      exact (ih (State.sendFrame_sound h18))

theorem State.closeWindow_sound {s : State} {i : Nat} {transmit : Bool} {started : Nat} (hs : State.Sound s) :
    State.Sound (State.closeWindow s i transmit started) := by
  unfold State.closeWindow
  split
  · exact hs
  · extract_lets -underBinder +lift x5
    have h6 : State.Sound x5 := (State.startFrames_sound (State.passTo_sound hs))
    split
    · exact hs
    · split
      · exact h6
      · exact (sound_ite (State.closeTransmit_sound h6) (State.closeReceive_sound h6))

theorem State.writeTxDb_sound {s : State} {v : Word} (hs : State.Sound s) :
    State.Sound (State.writeTxDb s v) := by
  unfold State.writeTxDb
  exact (State.wrAccess_sound hs)

theorem State.changeLink_sound {s : State} {port : Nat} {started : Nat} {busy : Bool} {locked : Bool} {fecLock : Bool} {localFault : Bool}
    {remoteFault : Bool} (hs : State.Sound s) :
    State.Sound (State.changeLink s port started busy locked fecLock localFault remoteFault) := by
  unfold State.changeLink
  extract_lets -underBinder +lift x0 x1 x2
  have h3 : State.Sound x1 := (State.startFrames_sound hs)
  have h4 : State.Sound x2 := (State.setLink_sound h3)
  exact (sound_ite (State.emit_sound h4) h4)

theorem State.departTx_sound {s : State} {sfd : Word} (hs : State.Sound s) :
    State.Sound (State.departTx s sfd) := by
  unfold State.departTx
  extract_lets -underBinder +lift x0 x1 x2 x3 x4 x5 x6 x7 x8 x9 x10 x11 x12 x13 x14 x15 x16 x17
  have h18 : State.Sound x3.2 := (State.agentRead_sound hs)
  have h19 : State.Sound x4 := (State.replyErrors_sound h18)
  have h20 : State.Sound x9.2 := (State.txTime_sound h19)
  have h21 : State.Sound x13 := (State.sendFrame_sound h20)
  have h22 : State.Sound x14 := (sound_ite (State.tally_sound h21) h21)
  have h23 : State.Sound x16.2 := (State.agentPost_sound h22)
  have h24 : State.Sound x17.2 := (State.agentPost_sound h23)
  exact (sound_ite hs (State.setFld_sound (State.replyErrors_sound h24)))

theorem State.openWindow_sound {s : State} {i : Nat} {transmit : Bool} {started : Nat} (hs : State.Sound s) :
    State.Sound (State.openWindow s i transmit started) := by
  unfold State.openWindow
  extract_lets -underBinder +lift x0 x1
  have h2 : State.Sound x1 := (State.passTo_sound hs)
  exact (sound_ite hs (sound_ite (State.startFrames_sound (State.openTransmit_sound h2)) (State.openReceive_sound h2)))

theorem State.esmcSilent_sound {s : State} {i : Nat} (hs : State.Sound s) :
    State.Sound (State.esmcSilent s i) := by
  unfold State.esmcSilent
  extract_lets -underBinder +lift x0 x1 x2 x3 x4
  have h5 : State.Sound x3 := (sound_tm hs rfl rfl)
  exact (sound_ite hs (sound_ite h5 (State.setFld_sound (State.setFld_sound h5))))

end Sys2Proof.Machine
end

