-- ==== Sys2Proof/Laws/SoundJobs.lean ====
section
/-!
SUPPORT. That the data mover and the jobs of the engines and accelerators keep the sound form of a state: one lemma for each operation.
-/
namespace Sys2Proof.Machine

/-! ### Machine/Move.lean -/

theorem State.markRan_sound {s : State} {r : Release} (hs : State.Sound s) :
    State.Sound (State.markRan s r) := by
  unfold State.markRan
  exact (sound_mk hs)

theorem State.clearMov_sound {s : State} (hs : State.Sound s) :
    State.Sound (State.clearMov s) := by
  unfold State.clearMov
  exact (foldl_sound hs (fun a0 a1 h2 => (State.setFld_sound h2)))

theorem State.setMovCh_sound {s : State} {e : Nat} {h : Nat} {c : MovCh} (hs : State.Sound s) :
    State.Sound (State.setMovCh s e h c) := by
  unfold State.setMovCh
  exact (sound_mk hs)

theorem State.movSend_sound {s : State} {e : Nat} {h : Nat} {use : MovUse} {off : Nat} {len : Nat} {addr : Nat}
    {bytes : List Byte} (hs : State.Sound s) :
    Sys2Proof.Machine.OptSound (State.movSend s e h use off len addr bytes) := by
  unfold State.movSend
  extract_lets -underBinder +lift x0 x1 x2
  split
  · trivial
  · extract_lets -underBinder +lift x8 x9 x10
    have h11 : State.Sound x9 := (State.setMovCh_sound hs)
    exact (State.inject_sound (sound_mk h11))

theorem State.showLead_sound {s : State} {e : Nat} {h : Nat} (hs : State.Sound s) :
    State.Sound (State.showLead s e h) := by
  unfold State.showLead
  exact (State.setFld_sound hs)

theorem State.movStop_sound {s : State} {e : Nat} {h : Nat} (hs : State.Sound s) :
    State.Sound (State.movStop s e h) := by
  unfold State.movStop
  extract_lets -underBinder +lift x0 x1 x2
  have h3 : State.Sound x1 := (State.setMovCh_sound (State.showLead_sound hs))
  have h4 : State.Sound x2 := (State.setFld_sound (State.setFld_sound h3))
  exact (sound_ite (State.setFld_sound h4) h4)

theorem State.movSignal_sound {s : State} {e : Nat} {h : Nat} (hs : State.Sound s) :
    State.Sound (State.movSignal s e h) := by
  unfold State.movSignal
  exact (sound_ite (State.msix_sound hs) (State.shepIrq_sound hs))

theorem State.writeBack_sound {s : State} {e : Nat} {h : Nat} {word0 : Nat} {done : Bool} {err : Bool} {write : Bool} {status : Nat}
    {count : Nat} (hs : State.Sound s) :
    State.Sound (State.writeBack s e h word0 done err write status count) := by
  unfold State.writeBack
  dsimp only
  have h := State.movSend_sound (e := e) (h := h) (use := .writeBack) (off := 0) (len := 8) (addr := s.descAddr e h)
    (bytes := leBytes 4 (setBitsOf word0 31 1 0) ++ leBytes 4 ((if done then 2 ^ 31 else 0) + (if err then 2 ^ 30 else 0)
      + (if write then 2 ^ 29 else 0) + 2 ^ 24 * (status % 8) + count % 2 ^ 24)) hs
  revert h
  cases State.movSend _ _ _ _ _ _ _ _ with
  | none => exact fun _ => hs
  | some t => exact fun h => h

theorem State.movHalt_sound {s : State} {e : Nat} {h : Nat} {write : Bool} {status : Nat} {addr : Nat} (hs : State.Sound s) :
    State.Sound (State.movHalt s e h write status addr) := by
  unfold State.movHalt
  extract_lets -underBinder +lift x0 x1 x2
  have h3 : State.Sound x0 := (State.movStop_sound hs)
  have h4 : State.Sound x1 := (State.wr_sound (State.setFld_sound (State.setFld_sound h3)))
  have h5 : State.Sound x2 := (State.movSignal_sound (State.record_sound h4))
  split
  · exact (State.writeBack_sound h5)
  · exact h5

theorem State.movReads_sound {e : Nat} {h : Nat} {a : Nat} {a3 : State} (ha3 : State.Sound a3) :
    State.Sound (State.movReads e h a a3) := by
  induction a generalizing e h a3
  · unfold State.movReads
    exact ha3
  · rename_i ih
    unfold State.movReads
    extract_lets -underBinder +lift x21
    split
    · exact ha3
    · extract_lets -underBinder +lift x27
      split
      · exact ha3
      · split
        · exact (State.movHalt_sound ha3)
        · rename_i y33 y34
          have h35 : State.Sound y33 := of_eq Sys2Proof.Machine.OptSound y34 (State.movSend_sound ha3)
          extract_lets -underBinder +lift x36
          exact (ih (State.setMovCh_sound h35))

theorem State.movWrites_sound {e : Nat} {h : Nat} {a : Nat} {a3 : State} (ha3 : State.Sound a3) :
    State.Sound (State.movWrites e h a a3) := by
  induction a generalizing e h a3
  · unfold State.movWrites
    exact ha3
  · rename_i ih
    unfold State.movWrites
    extract_lets -underBinder +lift x25
    split
    · extract_lets -underBinder +lift x32
      split
      · exact ha3
      · split
        · exact (State.movHalt_sound ha3)
        · rename_i y38 y39
          have h40 : State.Sound y38 := of_eq Sys2Proof.Machine.OptSound y39 (State.movSend_sound ha3)
          extract_lets -underBinder +lift x41 x42 x43
          exact (ih (State.setMovCh_sound h40))
    · exact ha3

theorem State.movRun_sound {s : State} {e : Nat} {h : Nat} (hs : State.Sound s) :
    State.Sound (State.movRun s e h) := by
  unfold State.movRun
  exact (sound_ite hs (State.movReads_sound (State.movWrites_sound hs)))

theorem State.movServe_sound {s : State} {e : Nat} (hs : State.Sound s) :
    State.Sound (State.movServe s e) := by
  unfold State.movServe
  extract_lets -underBinder +lift x0
  split
  · exact hs
  · split
    · exact hs
    · extract_lets -underBinder +lift x8 x9
      have h10 : State.Sound x9 := (sound_mk hs)
      exact (State.movRun_sound (State.setFld_sound (State.setFld_sound h10)))

theorem State.advanceRing_sound {s : State} {e : Nat} {h : Nat} {word0 : Nat} (hs : State.Sound s) :
    State.Sound (State.advanceRing s e h word0) := by
  unfold State.advanceRing
  exact (State.setFld_sound hs)

theorem State.movHalf_sound {s : State} {e : Nat} {h : Nat} (hs : State.Sound s) :
    State.Sound (State.movHalf s e h) := by
  unfold State.movHalf
  extract_lets -underBinder +lift x0
  split
  · exact (sound_ite (State.movSignal_sound (State.setFld_sound (State.setMovCh_sound hs))) hs)
  · exact hs

theorem State.movLoad_sound {s : State} {e : Nat} {h : Nat} {x : Xfer} {desc : Option Nat} (hs : State.Sound s) :
    State.Sound (State.movLoad s e h x desc) := by
  unfold State.movLoad
  extract_lets -underBinder +lift x0 x1 x2 x3
  have h4 : State.Sound x2 := (State.setFld_sound (State.setMovCh_sound hs))
  have h5 : State.Sound x3 := (State.setFld_sound h4)
  exact (sound_ite (State.movHalt_sound h5) (State.movServe_sound (State.movHalf_sound h5)))

theorem State.movPromote_sound {s : State} {e : Nat} {h : Nat} (hs : State.Sound s) :
    State.Sound (State.movPromote s e h) := by
  unfold State.movPromote
  exact (sound_ite hs (State.movLoad_sound (State.setFld_sound hs)))

theorem State.movClear_sound {s : State} {e : Nat} {h : Nat} (hs : State.Sound s) :
    State.Sound (State.movClear s e h) := by
  unfold State.movClear
  extract_lets -underBinder +lift x0 x1 x2
  have h3 : State.Sound x1 := (State.setFld_sound (State.setMovCh_sound hs))
  have h4 : State.Sound x2 := (sound_ite (State.advanceRing_sound h3) h3)
  exact (sound_ite hs (State.movPromote_sound h4))

theorem State.writeMovCfg_sound {s : State} {e : Nat} {h : Nat} {v : Word} (hs : State.Sound s) :
    State.Sound (State.writeMovCfg s e h v) := by
  unfold State.writeMovCfg
  extract_lets -underBinder +lift x0
  have h1 : State.Sound x0 := (State.wrAccess_sound hs)
  exact (State.movServe_sound (sound_ite (State.movClear_sound h1) h1))

theorem State.writeShadow_sound {s : State} {r : Reg} {e : Nat} {h : Nat} {v : Word} (hs : State.Sound s) :
    State.Sound (State.writeShadow s r e h v) := by
  unfold State.writeShadow
  exact (sound_ite (State.setFld_sound hs) (State.wrAccess_sound hs))

theorem State.movFetch_sound {s : State} {e : Nat} {h : Nat} (hs : State.Sound s) :
    State.Sound (State.movFetch s e h) := by
  unfold State.movFetch
  split
  · exact hs
  · split
    · rename_i y3 y4
      have h5 : State.Sound y3 := of_eq Sys2Proof.Machine.OptSound y4 (State.movSend_sound hs)
      exact h5
    · exact (State.movHalt_sound hs)

theorem State.writeXfer_sound {s : State} {e : Nat} {h : Nat} {v : Word} (hs : State.Sound s) :
    State.Sound (State.writeXfer s e h v) := by
  unfold State.writeXfer
  extract_lets -underBinder +lift x0 x1 x2
  have h3 : State.Sound x2 := (State.writeShadow_sound hs)
  exact (sound_ite (sound_ite (State.movFetch_sound hs) (State.wrAccess_sound hs)) (sound_ite (State.movPromote_sound (State.setFld_sound h3)) h3))

theorem State.writeRing_sound {s : State} {e : Nat} {h : Nat} {v : Word} (hs : State.Sound s) :
    State.Sound (State.writeRing s e h v) := by
  unfold State.writeRing
  exact (State.setFld_sound (State.wrAccess_sound hs))

theorem State.movReset_sound {s : State} {e : Nat} (hs : State.Sound s) :
    State.Sound (State.movReset s e) := by
  unfold State.movReset
  exact (State.setFld_sound (foldl_sound hs (fun a0 a1 h2 => (State.setFld_sound (State.setMovCh_sound h2)))))

theorem State.overlapBytes_sound {s : State} {x : Xfer} {orig : List Byte} (hs : State.Sound s) :
    State.Sound (State.overlapBytes s x orig).2 := by
  unfold State.overlapBytes
  extract_lets -underBinder +lift x0
  split
  · exact hs
  · exact (foldl_keeps (fun z : List Byte × State => State.Sound z.2) hs (fun a6 a7 h8 => (by
        extract_lets -underBinder +lift x9 x10 x11
        have h12 : State.Sound x9.2 := (State.drawBool_sound h8)
        exact h12)))

theorem State.movResponse_sound {s : State} {e : Nat} {tag : Nat} {status : Nat} {data : List Byte} (hs : State.Sound s) :
    State.Sound (State.movResponse s e tag status data) := by
  unfold State.movResponse
  split
  · exact hs
  · extract_lets -underBinder +lift x6 x7
    have h8 : State.Sound x7 := (State.setMovCh_sound hs)
    split
    · exact (State.movRun_sound h8)
    · split
      · exact (State.movHalt_sound h8)
      · split
        · extract_lets -underBinder +lift x15
          exact (State.movRun_sound (State.setMovCh_sound h8))
        · extract_lets -underBinder +lift x18 x19 x20
          exact (State.movRun_sound (State.movHalf_sound (State.showLead_sound (State.setMovCh_sound h8))))
        · extract_lets -underBinder +lift x23
          exact (sound_ite h8 (State.movLoad_sound h8))
        · exact h8

theorem State.movSwapAbort_sound {s : State} {e : Nat} {h : Nat} (hs : State.Sound s) :
    State.Sound (State.movSwapAbort s e h) := by
  unfold State.movSwapAbort
  exact (sound_ite hs (State.setFld_sound (State.setFld_sound (State.movStop_sound hs))))

theorem State.copyFault_sound {s : State} {e : Nat} {f : Nat × Nat × List MemErr} (hs : State.Sound s) :
    State.Sound (State.copyFault s e f) := by
  unfold State.copyFault
  extract_lets -underBinder +lift x0
  have h1 : State.Sound x0 := (State.uncorrectables_sound hs)
  exact (State.jobFault_sound h1)

theorem State.copyRead_sound {s : State} {e : Nat} {x : Xfer} {host : HostData} {a : List (Nat × Nat)} (hs : State.Sound s) :
    State.Sound (State.copyRead s e x host a).2.2 := by
  induction a generalizing s e x host
  · unfold State.copyRead
    exact hs
  · rename_i ih
    unfold State.copyRead
    extract_lets -underBinder +lift x12 x13 x14
    have h15 : State.Sound x13.2 := by
      unfold x13
      split
      · exact (State.agentRead_sound hs)
      · exact (State.hostRead_sound hs)
    have h18 : State.Sound x14.2.2 := (ih h15)
    split
    · exact h15
    · exact h18

theorem State.movComplete_sound {s : State} {e : Nat} (hs : State.Sound s) :
    State.Sound (State.movComplete s e) := by
  unfold State.movComplete
  extract_lets -underBinder +lift x0 x1
  split
  · exact hs
  · extract_lets -underBinder +lift x7 x8 x9 x10 x11
    have h12 : State.Sound x8 := (State.setFld_sound (State.setFld_sound (State.setMovCh_sound hs)))
    have h13 : State.Sound x9 := (State.bump_sound h12)
    have h14 : State.Sound x10 := (sound_ite (State.movSignal_sound (State.setFld_sound h13)) h13)
    have h15 : State.Sound x11 := by
      unfold x11
      split
      · extract_lets -underBinder +lift x19
        have h20 : State.Sound x19 := (State.advanceRing_sound (State.writeBack_sound h14))
        exact (sound_ite (State.movFetch_sound h20) h20)
      · exact (State.movPromote_sound h14)
    exact (sound_ite hs (State.movServe_sound h15))

theorem State.copyWrite_sound {s : State} {e : Nat} {x : Xfer} {bytes : List Byte} {a : List (Nat × Nat)} (hs : State.Sound s) :
    State.Sound (State.copyWrite s e x bytes a).2 := by
  induction a generalizing s e x bytes
  · unfold State.copyWrite
    exact hs
  · rename_i ih
    unfold State.copyWrite
    extract_lets -underBinder +lift x12 x13
    have h14 : State.Sound x13.2 := by
      unfold x13
      split
      · exact (State.agentWrite_sound hs)
      · exact (State.hostPost_sound hs)
    split
    · exact h14
    · exact (ih h14)

theorem State.copyRelease_sound {s : State} {e : Nat} {host : HostData} (hs : State.Sound s) :
    State.Sound (State.copyRelease s e host) := by
  unfold State.copyRelease
  extract_lets -underBinder +lift x0
  have h1 : State.Sound x0 := (State.whenServed_sound hs)
  split
  · exact h1
  · extract_lets -underBinder +lift x7 x8 x9 x10 x11 x12
    have h13 : State.Sound x8.2 := (State.agentRead_sound h1)
    have h14 : State.Sound x12.2.2 := (State.copyRead_sound h13)
    split
    · exact h1
    · split
      · exact (State.freeze_sound h1)
      · split
        · exact (State.copyFault_sound h13)
        · split
          · exact (State.freeze_sound h13)
          · split
            · exact (State.copyFault_sound h14)
            · extract_lets -underBinder +lift x28 x29
              have h30 : State.Sound x28.2 := (State.overlapBytes_sound h14)
              have h31 : State.Sound x29.2 := (State.copyWrite_sound h30)
              split
              · exact (State.copyFault_sound h31)
              · exact (State.markRan_sound h31)

/-! ### Machine/Mce.lean -/

theorem State.clearMce_sound {s : State} (hs : State.Sound s) :
    State.Sound (State.clearMce s) := by
  unfold State.clearMce
  exact (foldl_sound hs (fun a0 a1 h2 => (State.setFld_sound (State.wr_sound (State.wr_sound h2)))))

theorem State.entryResult_sound {s : State} {r : Release} {f : EntryResult → EntryResult} (hs : State.Sound s) :
    State.Sound (State.entryResult s r f) := by
  unfold State.entryResult
  split
  · exact (State.setResult_sound hs)
  · exact hs

theorem State.rejectEntry_sound {s : State} {r : Release} (hs : State.Sound s) :
    State.Sound (State.rejectEntry s r) := by
  unfold State.rejectEntry
  exact (State.markRan_sound (State.entryResult_sound hs))

theorem State.readBlock_sound {s : State} {m : Nat} {off : Nat} {down : Bool} {first : Option Block} (hs : State.Sound s) :
    Sys2Proof.Machine.BlockRead.Sound (State.readBlock s m off down first) := by
  unfold State.readBlock
  extract_lets -underBinder +lift x0
  have h1 : State.Sound x0.2.1 := (State.readMem_sound hs)
  split
  · exact hs
  · split
    · exact hs
    · split
      · exact h1
      · extract_lets -underBinder +lift x11 x12 x13 x14
        split
        · split
          · exact h1
          · split
            · exact h1
            · extract_lets -underBinder +lift x23
              have h24 : State.Sound x23.2.1 := (State.readMem_sound h1)
              split
              · exact h24
              · exact h24
        · split
          · exact h1
          · split
            · exact h1
            · extract_lets -underBinder +lift x38
              have h39 : State.Sound x38.2.1 := (State.readMem_sound h1)
              split
              · exact h39
              · exact h39

theorem State.startMce_sound {s : State} {m : Nat} {op : Nat} (hs : State.Sound s) :
    Sys2Proof.Machine.JobStart.Sound (State.startMce s m op) := by
  unfold State.startMce
  extract_lets -underBinder +lift x0 x1
  have h2 : State.Sound x1 := (State.whenServed_sound hs)
  split
  · exact h2
  · extract_lets -underBinder +lift x8 x9
    have h10 : State.Sound x8.2 := (State.agentRead_sound h2)
    split
    · exact h2
    · split
      · exact (State.freeze_sound h2)
      · split
        · exact (State.engineFault_sound h10)
        · split
          · exact (State.freeze_sound h10)
          · exact h10

theorem State.readRows_sound {s : State} {m : Nat} {base : Nat} {j : MceJob} {a : List Nat} (hs : State.Sound s) :
    State.Sound (State.readRows s m base j a).2.2 := by
  induction a generalizing s m base j
  · unfold State.readRows
    exact hs
  · rename_i ih
    unfold State.readRows
    extract_lets -underBinder +lift x9 x10 x11
    have h12 : State.Sound x10.2 := (State.agentRead_sound hs)
    have h13 : State.Sound x11.2.2 := (ih h12)
    split
    · exact h12
    · exact h13

theorem State.writeRows_sound {s : State} {m : Nat} {base : Nat} {j : MceJob} {a : List (List Cplx × Nat)} (hs : State.Sound s) :
    State.Sound (State.writeRows s m base j a).2 := by
  induction a generalizing s m base j
  · unfold State.writeRows
    exact hs
  · rename_i ih
    unfold State.writeRows
    extract_lets -underBinder +lift x10 x11
    have h12 : State.Sound x11.2 := (State.agentWrite_sound hs)
    split
    · exact h12
    · exact (ih h12)

theorem State.arraySymbols_sound {s : State} {m : Nat} {j : MceJob} {blocks : List (Nat × Block)} {gains : Option (List Nat)}
    {a : List Nat} (hs : State.Sound s) :
    State.Sound (State.arraySymbols s m j blocks gains a).2 := by
  induction a generalizing s m j blocks gains
  · unfold State.arraySymbols
    exact hs
  · rename_i ih
    unfold State.arraySymbols
    extract_lets -underBinder +lift x30 x31 x32
    have h33 : State.Sound x32.2.2 := (State.readRows_sound hs)
    split
    · exact h33
    · extract_lets -underBinder +lift x39
      have h40 : State.Sound x39.2.2 := by
        unfold x39
        split
        · exact (State.readRows_sound h33)
        · exact h33
      split
      · exact h40
      · extract_lets -underBinder +lift x48 x49
        have h50 : State.Sound x49.2 := (State.writeRows_sound (State.tally_sound h40))
        split
        · exact h50
        · exact (ih h50)

theorem State.arrayJob_sound {s : State} {m : Nat} {down : Bool} (hs : State.Sound s) :
    State.Sound (State.arrayJob s m down) := by
  unfold State.arrayJob
  have h0 : JobStart.Sound (s.startMce m (if down = true then 3 else 2)) := State.startMce_sound hs
  split
  · rename_i t y
    exact of_eq JobStart.Sound y h0
  · rename_i j t y
    have ht : State.Sound t := of_eq JobStart.Sound y h0
    have hb : ∀ (gs : List Nat) (first : Option Block) (acc : List (Nat × Block)) (x : State), State.Sound x →
        (∀ z, x.readBlocks m j down gs first acc = .inl z → State.Sound z) ∧
        (∀ z, x.readBlocks m j down gs first acc = .inr z → State.Sound z.2) := by
      intro gs
      induction gs with
      | nil =>
        intro first acc x hx
        exact ⟨fun z h => (nomatch h), fun z h => by cases h; exact hx⟩
      | cons g gs ih =>
        intro first acc x hx
        unfold State.readBlocks
        have hr := State.readBlock_sound (m := m) (off := j.wbase + (g - j.prbFirst / 2 ^ j.gLog2) * j.len) (down := down) (first := first) hx
        revert hr
        generalize x.readBlock m (j.wbase + (g - j.prbFirst / 2 ^ j.gLog2) * j.len) down first = k
        cases k with
        | illegal t => exact fun hr => ⟨fun z h => by cases h; exact State.freeze_sound hr, fun z h => nomatch h⟩
        | miss off t => exact fun hr => ⟨fun z h => by cases h; exact State.jobFault_sound (State.bump_sound hr), fun z h => nomatch h⟩
        | lost es t => exact fun hr => ⟨fun z h => by cases h; exact State.uncorrectables_sound hr, fun z h => nomatch h⟩
        | block b t => exact fun hr => ih _ _ t hr
    split
    · rename_i z y1
      exact (hb _ _ _ t ht).1 z y1
    · rename_i b y1
      have h1 : State.Sound b.2 := (hb _ _ _ t ht).2 b y1
      extract_lets g gains w
      have hg : State.Sound g.2 := by
        unfold g
        split
        · exact State.agentRead_sound h1
        · exact h1
      have hw : State.Sound w.2 := State.arraySymbols_sound hg
      split
      · exact State.engineFault_sound hg
      · split
        · exact State.engineFault_sound hw
        · exact State.markRan_sound hw

theorem State.readLayers_sound {s : State} {m : Nat} {base : Nat} {j : MceJob} {e : List Byte} {a : List Nat} (hs : State.Sound s) :
    State.Sound (State.readLayers s m base j e a).2.2 := by
  induction a generalizing s m base j e
  · unfold State.readLayers
    exact hs
  · rename_i ih
    unfold State.readLayers
    extract_lets -underBinder +lift x9 x10 x11
    have h12 : State.Sound x10.2 := (State.agentRead_sound hs)
    have h13 : State.Sound x11.2.2 := (ih h12)
    split
    · exact h12
    · exact h13

theorem State.demapSymbols_sound {s : State} {m : Nat} {j : MceJob} {e : List Byte} {init : Nat} {phase : List Cplx}
    {scale : Nat → Nat → Nat} {a : List Nat} (hs : State.Sound s) :
    State.Sound (State.demapSymbols s m j e init phase scale a).2 := by
  induction a generalizing s with
  | nil => exact hs
  | cons sym syms ih =>
    have key : ∀ (a0 : Nat) (w : Reply × State), State.Sound w.2 →
        State.Sound (if w.1.status ≠ stOk then (some (a0, w.1), w.2) else w.2.demapSymbols m j e init phase scale syms).2 :=
      fun a0 w hw => sound_ite_snd hw (ih hw)
    have hx : State.Sound (s.readLayers m (j.inAddr + (sym - j.symFirst) * j.inStride) j e (List.range (entLayers e))).2.2 :=
      State.readLayers_sound hs
    unfold State.demapSymbols
    revert hx
    generalize s.readLayers m (j.inAddr + (sym - j.symFirst) * j.inStride) j e (List.range (entLayers e)) = x
    intro hx
    obtain ⟨o, d, x2⟩ := x
    cases o with
    | some f => exact hx
    | none => exact key _ _ (State.agentWrite_sound hx)

theorem State.demapJob_sound {s : State} {m : Nat} {replay : Bool} (hs : State.Sound s) :
    State.Sound (State.demapJob s m replay) := by
  unfold State.demapJob
  split
  · rename_i y1 y2
    have h3 : State.Sound y1 := of_eq Sys2Proof.Machine.JobStart.Sound y2 (State.startMce_sound hs)
    exact h3
  · rename_i y7 y8
    have h9 : State.Sound y7 := of_eq Sys2Proof.Machine.JobStart.Sound y8 (State.startMce_sound hs)
    extract_lets -underBinder +lift x10 x11 x12 x13 x14 x15 x16 x17
    have h18 : State.Sound x14.2 := (State.agentRead_sound h9)
    have h19 : State.Sound x16.2 := (State.agentRead_sound h18)
    have h20 : State.Sound x17.2 := (State.demapSymbols_sound h19)
    split
    · exact (State.rejectEntry_sound h9)
    · split
      · exact (State.engineFault_sound h18)
      · split
        · exact (State.engineFault_sound h19)
        · split
          · exact (State.engineFault_sound h20)
          · exact (State.markRan_sound h20)

theorem State.loadWeights_sound {s : State} {m : Nat} (hs : State.Sound s) :
    State.Sound (State.loadWeights s m) := by
  unfold State.loadWeights
  split
  · rename_i y1 y2
    have h3 : State.Sound y1 := of_eq Sys2Proof.Machine.JobStart.Sound y2 (State.startMce_sound hs)
    exact h3
  · rename_i y7 y8
    have h9 : State.Sound y7 := of_eq Sys2Proof.Machine.JobStart.Sound y8 (State.startMce_sound hs)
    extract_lets -underBinder +lift x10 x11
    have h12 : State.Sound x10.2 := (State.agentRead_sound h9)
    have h13 : State.Sound x11.1 := (State.writeMem_sound h12)
    exact (sound_ite (State.engineFault_sound h12) (State.markRan_sound (foldl_sound h13 (fun a14 a15 h16 => (State.setLine_sound h16)))))

/-! ### Machine/Decoder.lean -/

theorem State.startCoding_sound {s : State} {cls : Nat} {phys : Nat} {ni : Nat} {op : Nat} {bad : List Byte → Bool} (hs : State.Sound s) :
    Sys2Proof.Machine.CodeStart.Sound (State.startCoding s cls phys ni op bad) := by
  unfold State.startCoding
  extract_lets -underBinder +lift x0
  have h1 : State.Sound x0 := (State.whenServed_sound hs)
  split
  · exact h1
  · extract_lets -underBinder +lift x7
    have h8 : State.Sound x7.2 := (State.agentRead_sound h1)
    split
    · exact h1
    · split
      · split
        · exact (State.freeze_sound h1)
        · split
          · exact h1
          · split
            · exact (State.freeze_sound h1)
            · split
              · exact (State.engineFault_sound h8)
              · split
                · exact (State.freeze_sound h8)
                · exact h8
      · split
        · exact (State.freeze_sound h1)
        · split
          · exact h1
          · split
            · exact (State.freeze_sound h1)
            · split
              · exact (State.engineFault_sound h8)
              · split
                · exact (State.freeze_sound h8)
                · exact h8

theorem State.findHarq_sound {s : State} {u : Nat} {e : List Byte} {q : Request} {d : Code} (hs : State.Sound s) :
    Sys2Proof.Machine.HarqFind.Sound (State.findHarq s u e q d) := by
  unfold State.findHarq
  extract_lets -underBinder +lift x0 x1 x2 x3 x4 x5 x6 x7
  have h8 : State.Sound x2.2 := (State.agentRead_sound hs)
  have h9 : State.Sound x7.2 := (State.agentRead_sound h8)
  split
  · exact hs
  · split
    · exact h8
    · split
      · exact h8
      · split
        · exact h9
        · exact h9

theorem State.tbDone_sound {s : State} {u : Nat} {replay : Bool} (hs : State.Sound s) :
    State.Sound (State.tbDone s u replay) := by
  unfold State.tbDone
  extract_lets -underBinder +lift x0
  split
  · rename_i y2 y3
    have h4 : State.Sound y2 := of_eq Sys2Proof.Machine.CodeStart.Sound y3 (State.startCoding_sound hs)
    exact h4
  · rename_i y8 y9
    have h10 : State.Sound y8 := of_eq Sys2Proof.Machine.CodeStart.Sound y9 (State.startCoding_sound hs)
    extract_lets -underBinder +lift x11
    split
    · exact (State.markRan_sound h10)
    · extract_lets -underBinder +lift x17 x18 x19 x20 x21 x22 x23 x24 x25 x26 x27 x28
      have h29 : State.Sound x19.2 := (State.agentRead_sound h10)
      have h30 : State.Sound x24 := (State.write70_sound h29)
      have h31 : State.Sound x25 := (sound_ite h30 (State.bump_sound h30))
      have h32 : State.Sound x27 := (sound_mk h31)
      have h33 : State.Sound x28 := (State.entryResult_sound h32)
      split
      · exact (State.rejectEntry_sound h10)
      · split
        · exact (State.markRan_sound h10)
        · split
          · exact (State.engineFault_sound h29)
          · split
            · rename_i y43 y44
              have h45 : State.Sound y43 := of_eq Sys2Proof.Machine.HarqFind.Sound y44 (State.findHarq_sound h33)
              exact (State.engineFault_sound h45)
            · rename_i y47 y48
              have h49 : State.Sound y47 := of_eq Sys2Proof.Machine.HarqFind.Sound y48 (State.findHarq_sound h33)
              exact (State.markRan_sound h49)
            · rename_i y52 y53
              have h54 : State.Sound y52 := of_eq Sys2Proof.Machine.HarqFind.Sound y53 (State.findHarq_sound h33)
              extract_lets -underBinder +lift x55
              have h56 : State.Sound x55.2 := (State.agentWrite_sound h54)
              exact (sound_ite (State.markRan_sound h54) (sound_ite (State.engineFault_sound h56) (State.markRan_sound h56)))

theorem State.frontEnd_sound {s : State} {u : Nat} {e : List Byte} {d : Code} {h : Option Harq} {inAddr : Nat} {r : Nat} (hs : State.Sound s) :
    State.Sound (State.frontEnd s u e d h inAddr r).2.2 := by
  unfold State.frontEnd
  extract_lets -underBinder +lift x0 x1 x2
  have h3 : State.Sound x1.2 := (State.agentRead_sound hs)
  split
  · exact h3
  · split
    · exact h3
    · extract_lets -underBinder +lift x9 x10 x11 x12
      have h13 : State.Sound x10.2 := by
        unfold x10
        split
        · exact h3
        · exact (State.agentRead_sound h3)
      have h16 : State.Sound x12.2 := (State.agentWrite_sound h13)
      split
      · exact h13
      · split
        · exact h16
        · exact h16

theorem State.enterBlock_sound {s : State} {j : Job} {r : Nat} {lo : Nat} (hs : State.Sound s) :
    State.Sound (State.enterBlock s j r lo).2.2 := by
  unfold State.enterBlock
  extract_lets -underBinder +lift x0 x1 x2
  have h3 : State.Sound x1.2 := (State.agentRead_sound hs)
  have h4 : State.Sound x2.2.2 := (State.frontEnd_sound hs)
  split
  · split
    · exact h3
    · exact h3
  · exact h4

theorem State.hardBits_sound {s : State} {a : List Int} (hs : State.Sound s) :
    State.Sound (State.hardBits s a).2 := by
  induction a generalizing s
  · unfold State.hardBits
    exact hs
  · rename_i ih
    unfold State.hardBits
    extract_lets -underBinder +lift x15 x16
    have h17 : State.Sound x15.2 := by
      unfold x15
      split
      · exact (State.drawBool_sound hs)
      · exact hs
    have h20 : State.Sound x16.2 := (ih h17)
    exact h20

theorem State.writeBits_sound {s : State} {srcNi : Nat} {addr : Nat} {o : Nat} {bits : List Bool} (hs : State.Sound s) :
    State.Sound (State.writeBits s srcNi addr o bits).2 := by
  unfold State.writeBits
  extract_lets -underBinder +lift x0 x1 x2 x3
  exact (State.agentWrite_sound hs)

theorem State.finishBlock_sound {s : State} {j : Job} {r : Nat} {b : BlockState} (hs : State.Sound s) :
    State.Sound (State.finishBlock s j r b).2.2 := by
  unfold State.finishBlock
  extract_lets -underBinder +lift x0 x1 x2 x3
  have h4 : State.Sound x0.2 := (State.hardBits_sound hs)
  have h5 : State.Sound x3.2 := (State.writeBits_sound h4)
  exact h5

theorem State.runSteps_sound {s : State} {j : Job} {first : Nat} {stop : Nat} {a : List Nat} (hs : State.Sound s) :
    State.Sound (State.runSteps s j first stop a).2.2 := by
  induction a generalizing s j first stop
  · unfold State.runSteps
    exact hs
  · rename_i ih
    unfold State.runSteps
    extract_lets -underBinder +lift x9 x10 x11
    have h12 : State.Sound x11.2.2 := (State.enterBlock_sound hs)
    split
    · exact (ih hs)
    · split
      · exact h12
      · extract_lets -underBinder +lift x20 x21 x22 x23
        have h24 : State.Sound x22.2.2 := (State.finishBlock_sound h12)
        have h25 : State.Sound x23.2 := (State.agentWrite_sound h12)
        split
        · split
          · exact h24
          · extract_lets -underBinder +lift x32
            have h33 : State.Sound x32.2.2 := (ih h24)
            exact h33
        · exact h25

theorem State.setDecProg_sound {s : State} {p : DecProg} (hs : State.Sound s) :
    State.Sound (State.setDecProg s p) := by
  unfold State.setDecProg
  exact (sound_mk hs)

theorem State.runShort_sound {s : State} {j : Job} {a : List Nat} (hs : State.Sound s) :
    State.Sound (State.runShort s j a).2 := by
  induction a generalizing s j
  · unfold State.runShort
    exact hs
  · rename_i ih
    unfold State.runShort
    extract_lets -underBinder +lift x18
    have h19 : State.Sound x18.2.2 := (State.enterBlock_sound hs)
    split
    · exact h19
    · extract_lets -underBinder +lift x25
      have h26 : State.Sound x25.2.2 := (State.finishBlock_sound h19)
      split
      · exact h26
      · exact (ih h26)

theorem State.runCode_sound {t : State} {u : Nat} {turbo : Bool} {r : Release} {desc : List Byte} {e : List Byte} {q : Request} {d : Code}
    {h : Option Harq} (ht : State.Sound t) :
    State.Sound (State.runCode t u turbo r desc e q d h) := by
  unfold State.runCode
  extract_lets -underBinder +lift x0 x1 x2 x3 x4 x5 x6
  have h7 : State.Sound x4 := (sound_ite (State.bump_sound ht) ht)
  have h8 : State.Sound x5 := (sound_ite (sound_ite (State.bump_sound h7) h7) ht)
  have h9 : State.Sound x6.2.2 := (State.runSteps_sound h8)
  split
  · exact (State.engineFault_sound h9)
  · extract_lets -underBinder +lift x15 x16 x17 x18
    have h19 : State.Sound x18.2 := (State.runShort_sound h9)
    split
    · exact (State.markRan_sound (State.setDecProg_sound h9))
    · split
      · exact (State.engineFault_sound h19)
      · exact (State.markRan_sound (State.setDecProg_sound (State.bump_sound h19)))

theorem State.decodeJob_sound {s : State} {u : Nat} {turbo : Bool} {replay : Bool} (hs : State.Sound s) :
    State.Sound (State.decodeJob s u turbo replay) := by
  unfold State.decodeJob
  extract_lets -underBinder +lift x0
  split
  · rename_i y2 y3
    have h4 : State.Sound y2 := of_eq Sys2Proof.Machine.CodeStart.Sound y3 (State.startCoding_sound hs)
    exact h4
  · rename_i y8 y9
    have h10 : State.Sound y8 := of_eq Sys2Proof.Machine.CodeStart.Sound y9 (State.startCoding_sound hs)
    extract_lets -underBinder +lift x11
    split
    · exact (State.markRan_sound h10)
    · extract_lets -underBinder +lift x17
      split
      · split
        · exact (State.rejectEntry_sound h10)
        · split
          · rename_i y24 y25
            have h26 : State.Sound y24 := of_eq Sys2Proof.Machine.HarqFind.Sound y25 (State.findHarq_sound h10)
            exact (State.engineFault_sound h26)
          · rename_i y28 y29
            have h30 : State.Sound y28 := of_eq Sys2Proof.Machine.HarqFind.Sound y29 (State.findHarq_sound h10)
            exact (State.runCode_sound h30)
          · rename_i y33 y34
            have h35 : State.Sound y33 := of_eq Sys2Proof.Machine.HarqFind.Sound y34 (State.findHarq_sound h10)
            exact (State.runCode_sound h35)
      · split
        · exact (State.rejectEntry_sound h10)
        · split
          · rename_i y42 y43
            have h44 : State.Sound y42 := of_eq Sys2Proof.Machine.HarqFind.Sound y43 (State.findHarq_sound h10)
            exact (State.engineFault_sound h44)
          · rename_i y46 y47
            have h48 : State.Sound y46 := of_eq Sys2Proof.Machine.HarqFind.Sound y47 (State.findHarq_sound h10)
            exact (State.runCode_sound h48)
          · rename_i y51 y52
            have h53 : State.Sound y51 := of_eq Sys2Proof.Machine.HarqFind.Sound y52 (State.findHarq_sound h10)
            exact (State.runCode_sound h53)

/-! ### Machine/Encoder.lean -/

theorem State.clearDec_sound {s : State} (hs : State.Sound s) :
    State.Sound (State.clearDec s) := by
  unfold State.clearDec
  extract_lets -underBinder +lift x0
  have h1 : State.Sound x0 := (foldl_sound (State.wr_sound hs) (fun a2 a3 h4 => (State.setFld_sound h4)))
  exact (foldl_sound h1 (fun a5 a6 h7 => (State.setFld_sound h7)))

theorem State.writeGrid_sound {s : State} {base : Nat} {stride : Nat} {nsc : Nat} {a : List ((Nat × Nat × Nat) × Cplx)} (hs : State.Sound s) :
    State.Sound (State.writeGrid s base stride nsc a).2 := by
  induction a generalizing s base stride nsc
  · unfold State.writeGrid
    exact hs
  · rename_i ih
    unfold State.writeGrid
    extract_lets -underBinder +lift x12 x13
    have h14 : State.Sound x13.2 := (State.agentWrite_sound hs)
    split
    · exact h14
    · exact (ih h14)

theorem State.encodeJob_sound {s : State} {m : Nat} {lte : Bool} (hs : State.Sound s) :
    State.Sound (State.encodeJob s m lte) := by
  unfold State.encodeJob
  extract_lets -underBinder +lift x0
  split
  · rename_i y2 y3
    have h4 : State.Sound y2 := of_eq Sys2Proof.Machine.CodeStart.Sound y3 (State.startCoding_sound hs)
    exact h4
  · rename_i y8 y9
    have h10 : State.Sound y8 := of_eq Sys2Proof.Machine.CodeStart.Sound y9 (State.startCoding_sound hs)
    extract_lets -underBinder +lift x11
    split
    · exact (State.markRan_sound h10)
    · extract_lets -underBinder +lift x17 x18 x19 x20 x21 x22 x23 x24 x25 x26 x27 x28 x29
      have h30 : State.Sound x21.2 := (State.agentRead_sound h10)
      have h31 : State.Sound x29.2 := (State.writeGrid_sound h30)
      split
      · split
        · exact (State.rejectEntry_sound h10)
        · split
          · exact (State.rejectEntry_sound h10)
          · split
            · exact (State.engineFault_sound h30)
            · split
              · exact (State.engineFault_sound h31)
              · exact (State.markRan_sound h31)
      · split
        · exact (State.rejectEntry_sound h10)
        · split
          · exact (State.rejectEntry_sound h10)
          · split
            · exact (State.engineFault_sound h30)
            · split
              · exact (State.engineFault_sound h31)
              · exact (State.markRan_sound h31)

/-! ### Machine/Control.lean -/

theorem State.writeLteControl_sound {s : State} {e : List Byte} {out : Nat} {xs : List Cplx} (hs : State.Sound s) :
    State.Sound (State.writeLteControl s e out xs).2 := by
  unfold State.writeLteControl
  extract_lets -underBinder +lift x0 x1 x2
  have h3 : State.Sound x1.2 := by
    unfold x1
    split
    · exact (State.agentRead_sound hs)
    · exact hs
  have h6 : State.Sound x2.2 := (State.agentWrite_sound h3)
  split
  · exact h3
  · exact h6

theorem State.encodePbch_sound {s : State} {m : Nat} (hs : State.Sound s) :
    State.Sound (State.encodePbch s m) := by
  unfold State.encodePbch
  split
  · rename_i y1 y2
    have h3 : State.Sound y1 := of_eq Sys2Proof.Machine.CodeStart.Sound y2 (State.startCoding_sound hs)
    exact h3
  · rename_i y7 y8
    have h9 : State.Sound y7 := of_eq Sys2Proof.Machine.CodeStart.Sound y8 (State.startCoding_sound hs)
    extract_lets -underBinder +lift x10 x11 x12 x13 x14 x15 x16 x17 x18 x19 x20
    have h21 : State.Sound x20.2 := (State.writeGrid_sound h9)
    split
    · exact (State.engineFault_sound h21)
    · exact (State.markRan_sound h21)

theorem State.encodeControl_sound {s : State} {m : Nat} (hs : State.Sound s) :
    State.Sound (State.encodeControl s m) := by
  unfold State.encodeControl
  split
  · rename_i y1 y2
    have h3 : State.Sound y1 := of_eq Sys2Proof.Machine.CodeStart.Sound y2 (State.startCoding_sound hs)
    exact h3
  · rename_i y7 y8
    have h9 : State.Sound y7 := of_eq Sys2Proof.Machine.CodeStart.Sound y8 (State.startCoding_sound hs)
    extract_lets -underBinder +lift x10
    split
    · exact (State.markRan_sound h9)
    · extract_lets -underBinder +lift x16 x17 x18 x19 x20
      have h21 : State.Sound x17.2 := (State.agentRead_sound h9)
      have h22 : State.Sound x20.2 := by
        unfold x20
        split
        · exact (State.writeGrid_sound h21)
        · exact (State.writeLteControl_sound h21)
        · exact (State.writeLteControl_sound h21)
        · exact (State.writeLteControl_sound h21)
      split
      · exact (State.rejectEntry_sound h9)
      · split
        · exact (State.rejectEntry_sound h9)
        · split
          · exact (State.engineFault_sound h21)
          · split
            · exact (State.engineFault_sound h22)
            · exact (State.markRan_sound h22)

theorem State.readControl_sound {s : State} {buf : Nat} {pci : Nat} {ports : Nat} {nsc : Nat}
    {a : List ((Nat × Nat) × Nat × Option Bool)} (hs : State.Sound s) :
    State.Sound (State.readControl s buf pci ports nsc a).2.2 := by
  induction a generalizing s buf pci ports nsc
  · unfold State.readControl
    exact hs
  · rename_i ih
    unfold State.readControl
    extract_lets -underBinder +lift x12 x13 x14
    have h15 : State.Sound x12.2 := (State.agentRead_sound hs)
    have h16 : State.Sound x14.2.2 := (ih h15)
    split
    · exact h15
    · exact h16

theorem State.mapControl_sound {s : State} {m : Nat} (hs : State.Sound s) :
    State.Sound (State.mapControl s m) := by
  unfold State.mapControl
  split
  · rename_i y1 y2
    have h3 : State.Sound y1 := of_eq Sys2Proof.Machine.CodeStart.Sound y2 (State.startCoding_sound hs)
    exact h3
  · rename_i y7 y8
    have h9 : State.Sound y7 := of_eq Sys2Proof.Machine.CodeStart.Sound y8 (State.startCoding_sound hs)
    extract_lets -underBinder +lift x10 x11 x12 x13 x14
    have h15 : State.Sound x14.2.2 := (State.readControl_sound h9)
    split
    · exact (State.engineFault_sound h15)
    · extract_lets -underBinder +lift x21
      have h22 : State.Sound x21.2 := (State.writeGrid_sound h15)
      split
      · exact (State.engineFault_sound h22)
      · exact (State.markRan_sound h22)

/-! ### Machine/Kernels.lean -/

theorem State.drawPositive_sound {s : State} (hs : State.Sound s) :
    State.Sound (State.drawPositive s).2 := by
  unfold State.drawPositive
  extract_lets -underBinder +lift x0
  have h1 : State.Sound x0.2 := (State.draw_sound hs)
  exact h1

theorem State.idftEach_sound {s : State} {f : Nat} {n : Nat} {a : List Nat} (hs : State.Sound s) :
    State.Sound (State.idftEach s f n a).2 := by
  induction a generalizing s f n
  · unfold State.idftEach
    exact hs
  · rename_i n ih
    unfold State.idftEach
    extract_lets -underBinder +lift x14 x15 x16
    have h17 : State.Sound x14.2 := (State.agentRead_sound hs)
    have h18 : State.Sound x15.2 := (State.slacken_sound h17)
    have h19 : State.Sound x16.2 := (State.agentWrite_sound h18)
    split
    · exact h17
    · split
      · exact h19
      · exact (ih h19)

theorem State.weightBlocks_sound {s : State} {rows : Nat} {cols : Nat} {stride : Nat} {a : List CMat} (hs : State.Sound s) :
    State.Sound (State.weightBlocks s rows cols stride a).2 := by
  induction a generalizing s rows cols stride
  · unfold State.weightBlocks
    exact hs
  · rename_i ih
    unfold State.weightBlocks
    extract_lets -underBinder +lift x11 x12 x13 x14
    have h15 : State.Sound x11.2 := (State.draw_sound hs)
    have h16 : State.Sound x12.2 := (State.roundSamples_sound h15)
    have h17 : State.Sound x14.2 := (ih h16)
    exact h17

theorem State.kernelEnd_sound {s : State} {f : Nat} {c : Nat} {r : Release} {fault : Option (Nat × Reply)} (hs : State.Sound s) :
    State.Sound (State.kernelEnd s f c r fault) := by
  unfold State.kernelEnd
  split
  · exact (State.engineFault_sound hs)
  · exact (State.markRan_sound hs)

theorem State.antennaLevel_sound {s : State} {f : Nat} {eaxc : Nat} {cell : Nat} {slot : Nat} {g : Nat} {a : List (Nat × Nat)}
    {a7 : Level} (hs : State.Sound s) :
    State.Sound (State.antennaLevel s f eaxc cell slot g a a7).2.2 := by
  induction a generalizing s f eaxc cell slot g a7
  · unfold State.antennaLevel
    exact hs
  · rename_i ih
    unfold State.antennaLevel
    extract_lets -underBinder +lift x13 x14
    have h15 : State.Sound x14.2 := (State.agentRead_sound hs)
    split
    · split
      · exact h15
      · exact (ih h15)
    · exact (ih hs)

theorem State.gainAntennas_sound {s : State} {f : Nat} {cell : Nat} {slot : Nat} {a : List Nat} {a5 : List Byte} (hs : State.Sound s) :
    State.Sound (State.gainAntennas s f cell slot a a5).2.2 := by
  induction a generalizing s a5 with
  | nil => exact hs
  | cons n ns ih =>
    unfold State.gainAntennas
    extract_lets ant g where_ r key hold cfg g' hold' t
    have h1 : State.Sound r.2.2 := State.antennaLevel_sound hs
    split
    · exact h1
    · split
      · exact ih h1
      · exact ih (sound_mk h1)

theorem State.kernelWrite_sound {s : State} {f : Nat} {c : Nat} {r : Release} {a : Nat} {bytes : List Byte} (hs : State.Sound s) :
    State.Sound (State.kernelWrite s f c r a bytes) := by
  unfold State.kernelWrite
  extract_lets -underBinder +lift x0
  have h1 : State.Sound x0.2 := (State.agentWrite_sound hs)
  exact (sound_ite (State.engineFault_sound h1) (State.markRan_sound h1))

theorem State.gainSelect_sound {s : State} {f : Nat} {c : Nat} {a : Nat} (hs : State.Sound s) :
    State.Sound (State.gainSelect s f c a) := by
  unfold State.gainSelect
  extract_lets -underBinder +lift t
  have h1 : State.Sound t := State.whenServed_sound hs
  split
  · exact h1
  · extract_lets -underBinder +lift cell slot v w
    have hv : State.Sound v.2 := by
      simp only [v]
      exact State.agentRead_sound h1
    have hw : State.Sound w.2.2 := by
      simp only [w]
      exact State.gainAntennas_sound hv
    refine sound_ite h1 (sound_ite (State.engineFault_sound hv) ?_)
    split
    · exact State.engineFault_sound hw
    · exact State.kernelWrite_sound hw

theorem State.writeSamples_sound {s : State} {f : Nat} {a : List (Nat × List Cplx)} (hs : State.Sound s) :
    State.Sound (State.writeSamples s f a).2 := by
  induction a generalizing s f
  · unfold State.writeSamples
    exact hs
  · rename_i ih
    unfold State.writeSamples
    extract_lets -underBinder +lift x9
    have h10 : State.Sound x9.2 := (State.agentWrite_sound hs)
    split
    · exact h10
    · exact (ih h10)

theorem State.writeRefs_sound {s : State} {f : Nat} {grid : Nat} {nsc : Nat} {stride : Nat} {xs : List RefSample} (hs : State.Sound s) :
    State.Sound (State.writeRefs s f grid nsc stride xs).2 := by
  unfold State.writeRefs
  extract_lets -underBinder +lift x0
  have h1 : State.Sound x0.2 := (State.slacken_sound hs)
  exact (State.writeSamples_sound h1)

theorem State.uciParts_sound {s : State} {decode : State → Nat → Nat → List Int → List Bool × Option Bool × State}
    {a : List (Nat × Nat × List Int)} (hs : State.Sound s) (hdecode : ∀ t0 t1 t2 t3, State.Sound t0 → State.Sound (decode t0 t1 t2 t3).2.2) :
    State.Sound (State.uciParts s decode a).2.2 := by
  induction a generalizing s
  · unfold State.uciParts
    exact hs
  · rename_i ih
    unfold State.uciParts
    extract_lets -underBinder +lift x10 x11
    have h12 : State.Sound x10.2.2 := (hdecode _ _ _ _ hs)
    have h13 : State.Sound x11.2.2 := (ih h12)
    exact h13

theorem State.kernel_sound {s : State} {f : Nat} {c : Nat} {kinds : List Nat}
    {body : Release → List Byte → State → State} (hs : State.Sound s) (hbody : ∀ t0 t1 t2, State.Sound t2 → State.Sound (body t0 t1 t2)) :
    State.Sound (State.kernel s f c kinds body) := by
  unfold State.kernel
  extract_lets -underBinder +lift x0
  have h1 : State.Sound x0 := (State.whenServed_sound hs)
  split
  · exact h1
  · split
    · exact h1
    · split
      · exact (sound_ite (hbody _ _ _ h1) (State.rejectEntry_sound h1))
      · exact (hbody _ _ _ h1)

theorem State.readAntennas_sound {s : State} {f : Nat} {slot : Nat} {e : List Byte} {a : List (Nat × Nat)} (hs : State.Sound s) :
    State.Sound (State.readAntennas s f slot e a).2 := by
  induction a generalizing s f slot e
  · unfold State.readAntennas
    exact hs
  · rename_i ih
    unfold State.readAntennas
    extract_lets -underBinder +lift x10 x11
    have h12 : State.Sound x11.2 := (State.agentRead_sound hs)
    split
    · exact h12
    · exact (ih h12)

theorem State.uciDecode_sound {s : State} {qm : Nat} {n : Nat} {llrs : List Int} (hs : State.Sound s) :
    State.Sound (State.uciDecode s qm n llrs).2.2 := by
  unfold State.uciDecode
  extract_lets -underBinder +lift x0 x1 x2 x3
  have h4 : State.Sound x1.2 := (State.draw_sound hs)
  split
  · exact hs
  · split
    · exact h4
    · exact hs

theorem State.pucchDecode_sound {s : State} {e : List Byte} (hs : State.Sound s) :
    State.Sound (State.pucchDecode s e).2.2 := by
  unfold State.pucchDecode
  extract_lets -underBinder +lift x0 x1 x2 x3 x4 x5 x6 x7 x8
  have h9 : State.Sound x2.2 := (State.draw_sound hs)
  have h10 : State.Sound x5.2 := (State.drawBytes_sound hs)
  have h11 : State.Sound x7.2.2 := (State.uciDecode_sound h10)
  have h12 : State.Sound x8.2.2 := (State.uciDecode_sound h11)
  split
  · exact h9
  · exact h12

theorem State.pucchKernel_sound {s : State} {f : Nat} {c : Nat} (hs : State.Sound s) :
    State.Sound (State.pucchKernel s f c) := by
  unfold State.pucchKernel
  exact (State.kernel_sound hs (fun a4 a5 a6 h7 => (by
      split
      · exact (State.markRan_sound h7)
      · extract_lets -underBinder +lift x13 x14
        have h15 : State.Sound x14.2 := (State.readAntennas_sound h7)
        split
        · exact (State.engineFault_sound h15)
        · extract_lets -underBinder +lift x21 x22 x23 x24 x25 x26 x27 x28 x29 x30 x31 x32 x33 x34
          have h35 : State.Sound x24.2.2 := (State.pucchDecode_sound h15)
          have h36 : State.Sound x30.2 := (State.draw_sound h35)
          have h37 : State.Sound x34 := (sound_ite h36 (State.write70_sound h36))
          exact (State.markRan_sound (State.entryResult_sound h37)))))

theorem State.estimateAnts_sound {s : State} {f : Nat} {slot : Nat} {sym : Nat} {first : Nat} {count : Nat}
    {est : Nat → List Cplx → List (Nat × List CRat)} {a : List Nat} (hs : State.Sound s) :
    State.Sound (State.estimateAnts s f slot sym first count est a).2 := by
  induction a generalizing s f slot sym first count
  · unfold State.estimateAnts
    exact hs
  · rename_i ih
    unfold State.estimateAnts
    extract_lets -underBinder +lift x20 x21 x22 x23 x24 x25
    have h26 : State.Sound x21.2 := (State.agentRead_sound hs)
    have h27 : State.Sound x23.2 := (State.roundSamples_sound h26)
    have h28 : State.Sound x25.2 := (State.writeSamples_sound h27)
    split
    · exact h26
    · split
      · exact h28
      · exact (ih h28)

theorem State.puschChest_sound {s : State} {f : Nat} {c : Nat} {gain : Nat} {out : Nat} {gLog2 : Nat} (hs : State.Sound s) :
    State.Sound (State.puschChest s f c gain out gLog2) := by
  unfold State.puschChest
  refine State.kernel_sound hs fun r e t ht => ?_
  split
  · exact State.markRan_sound ht
  · extract_lets v t1 g sym groups w
    have h1 : State.Sound t1 := State.entryResult_sound (State.draw_sound ht)
    have hg : State.Sound g.2 := by
      simp only [g]
      exact State.agentRead_sound h1
    exact sound_ite (State.engineFault_sound hg) (State.kernelEnd_sound (State.estimateAnts_sound hg))

theorem State.srsSymbols_sound {s : State} {f : Nat} {q : Request} {e : List Byte} {base : Nat} {syms : List Nat} (hs : State.Sound s) :
    State.Sound (State.srsSymbols s f q e base syms).2 := by
  unfold State.srsSymbols
  exact foldl_keeps (fun p : (Option (Nat × Reply)) × State => p.2.Sound) hs fun p sym h =>
    sound_ite_snd h (State.estimateAnts_sound h)

theorem State.puschIdft_sound {s : State} {f : Nat} {c : Nat} {base : Nat} {nsc : Nat} {stride : Nat} (hs : State.Sound s) :
    State.Sound (State.puschIdft s f c base nsc stride) := by
  unfold State.puschIdft
  exact (State.kernel_sound hs (fun a4 a5 a6 h7 => (sound_ite (State.markRan_sound h7) (by
      extract_lets -underBinder +lift x8
      have h9 : State.Sound x8.2 := (State.idftEach_sound h7)
      exact (State.kernelEnd_sound h9)))))

theorem State.foUpdate_sound {s : State} {cell : Nat} {rnti : Nat} {est : Int} (hs : State.Sound s) :
    State.Sound (State.foUpdate s cell rnti est) := by
  unfold State.foUpdate
  extract_lets -underBinder +lift x0 x1 x2 x3 x4 x5 x6
  have h7 : State.Sound x2.2 := (State.drawBool_sound hs)
  have h8 : State.Sound x5 := h7
  exact (sound_mk h8)

theorem State.foTrack_sound {s : State} {f : Nat} {c : Nat} {est : List (BitVec 16 × BitVec 32)} (hs : State.Sound s) :
    State.Sound (State.foTrack s f c est) := by
  unfold State.foTrack
  extract_lets -underBinder +lift x0
  have h1 : State.Sound x0 := (State.whenServed_sound hs)
  split
  · exact h1
  · exact (sound_ite h1 (State.markRan_sound (foldl_sound h1 (fun a7 a8 h9 => (State.foUpdate_sound h9)))))

theorem State.readStores_sound {s : State} {f : Nat} {cell : Nat} {prb : Nat} {ants : Nat} {a : List (List Byte)} (hs : State.Sound s) :
    State.Sound (State.readStores s f cell prb ants a).2.2 := by
  induction a generalizing s f cell prb ants
  · unfold State.readStores
    exact hs
  · rename_i ih
    unfold State.readStores
    extract_lets -underBinder +lift x10 x11 x12 x13
    have h14 : State.Sound x11.2 := (State.agentRead_sound hs)
    have h15 : State.Sound x13.2.2 := (ih h14)
    split
    · exact h14
    · exact h15

theorem State.puschPhase_sound {s : State} {f : Nat} {c : Nat} {a : Nat} (hs : State.Sound s) :
    State.Sound (State.puschPhase s f c a) := by
  unfold State.puschPhase
  exact (State.kernel_sound hs (fun a4 a5 a6 h7 => (by
      extract_lets -underBinder +lift x8 x9 x10 x11 x12
      have h13 : State.Sound x10.2 := (State.draw_sound h7)
      have h14 : State.Sound x12.2 := (State.roundSamples_sound h13)
      exact (State.kernelWrite_sound h14))))

theorem State.readEstimates_sound {s : State} {f : Nat} {base : Nat} {ants : Nat} {ports : Nat} {a : List Nat} (hs : State.Sound s) :
    State.Sound (State.readEstimates s f base ants ports a).2.2 := by
  induction a generalizing s f base ants ports
  · unfold State.readEstimates
    exact hs
  · rename_i ih
    unfold State.readEstimates
    extract_lets -underBinder +lift x10 x11 x12 x13
    have h14 : State.Sound x11.2 := (State.agentRead_sound hs)
    have h15 : State.Sound x13.2.2 := (ih h14)
    split
    · exact h14
    · exact h15

theorem State.puschMmse_sound {s : State} {f : Nat} {c : Nat} {est : Nat} {weights : Nat} {scale : Nat} {rows : Nat} {cols : Nat}
    {first : Nat} {groups : Nat} {stride : Nat} {gLog2 : Nat} {unitLog2 : Nat} (hs : State.Sound s) :
    State.Sound (State.puschMmse s f c est weights scale rows cols first groups stride gLog2 unitLog2) := by
  unfold State.puschMmse
  exact (State.kernel_sound hs (fun a4 a5 a6 h7 => (by
      extract_lets -underBinder +lift x8 x9
      have h10 : State.Sound x9.2.2 := (State.readEstimates_sound h7)
      split
      · exact (State.engineFault_sound h10)
      · extract_lets -underBinder +lift x16 x17 x18 x19 x20 x21 x22
        have h23 : State.Sound x18.2 := (State.drawPositive_sound h10)
        have h24 : State.Sound x20.2 := (State.weightBlocks_sound h23)
        have h25 : State.Sound x21.2 := (State.agentWrite_sound h24)
        have h26 : State.Sound x22.2 := (State.roundFree_sound h25)
        exact (sound_ite (State.engineFault_sound h25) (State.kernelWrite_sound h26)))))

theorem State.uciFlag_sound {s : State} {p : Nat × Option Bool} (hs : State.Sound s) :
    State.Sound (State.uciFlag s p).2 := by
  unfold State.uciFlag
  split
  · exact hs
  · split
    · exact hs
    · exact (State.drawBool_sound hs)

theorem State.uciFlags_sound {s : State} {a : List (Nat × Option Bool)} {a2 : Nat} (hs : State.Sound s) :
    State.Sound (State.uciFlags s a a2).2 := by
  induction a generalizing s a2 with
  | nil => exact hs
  | cons p ps ih =>
    unfold State.uciFlags
    exact ih (State.uciFlag_sound hs)

theorem State.zeroForcings_sound {s : State} {f : Nat} {cell : Nat} {start : Nat} {gLog2 : Nat} {ants : Nat} {cols : Nat}
    {a : List Nat} (hs : State.Sound s) :
    State.Sound (State.zeroForcings s f cell start gLog2 ants cols a).2.2 := by
  induction a generalizing s f cell start gLog2 ants cols
  · unfold State.zeroForcings
    exact hs
  · rename_i ih
    unfold State.zeroForcings
    extract_lets -underBinder +lift x18 x19
    have h20 : State.Sound x19.2.2 := (State.readStores_sound hs)
    split
    · exact h20
    · extract_lets -underBinder +lift x26 x27 x28
      have h29 : State.Sound x26.2 := (State.drawPositive_sound h20)
      have h30 : State.Sound x27.2 := (State.drawPositive_sound h29)
      have h31 : State.Sound x28.2.2 := (ih h30)
      exact h31

theorem State.lteUciDecode_sound {s : State} {cqi : Bool} {qm : Nat} {n : Nat} {llrs : List Int} (hs : State.Sound s) :
    State.Sound (State.lteUciDecode s cqi qm n llrs).2.2 := by
  unfold State.lteUciDecode
  extract_lets -underBinder +lift x0 x1
  have h2 : State.Sound x1.2 := (State.draw_sound hs)
  split
  · exact (State.uciDecode_sound hs)
  · split
    · exact hs
    · exact h2

theorem State.puschUci_sound {s : State} {f : Nat} {c : Nat} {llrs : Nat} {ulsch : Nat} {lte : Bool} (hs : State.Sound s) :
    State.Sound (State.puschUci s f c llrs ulsch lte) := by
  unfold State.puschUci
  refine State.kernel_sound hs fun r e t ht => ?_
  extract_lets n src plan l slot init parts u part fl t1 t2
  have hsrc : State.Sound src.2 := State.agentRead_sound ht
  have hu : State.Sound u.2.2 := State.uciParts_sound hsrc fun x i k ls hx => by
    split
    · exact State.lteUciDecode_sound hx
    · exact State.uciDecode_sound hx
  have hfl : State.Sound fl.2 := State.uciFlags_sound hu
  exact sound_ite (State.engineFault_sound hsrc)
    (State.kernelWrite_sound (State.entryResult_sound (sound_ite hfl (State.write70_sound hfl))))

theorem State.dlWeights_sound {s : State} {f : Nat} {c : Nat} {weights : Nat} {rows : Nat} {cols : Nat} {first : Nat} {groups : Nat}
    {stride : Nat} {gLog2 : Nat} (hs : State.Sound s) :
    State.Sound (State.dlWeights s f c weights rows cols first groups stride gLog2) := by
  unfold State.dlWeights
  exact (State.kernel_sound hs (fun a4 a5 a6 h7 => (by
      extract_lets -underBinder +lift x8 x9 x10
      have h11 : State.Sound x10.2.2 := (State.zeroForcings_sound h7)
      split
      · exact (State.engineFault_sound h11)
      · extract_lets -underBinder +lift x17
        have h18 : State.Sound x17.2 := (State.weightBlocks_sound h11)
        exact (State.kernelWrite_sound h18))))

theorem State.srsEst_sound {s : State} {f : Nat} {c : Nat} (hs : State.Sound s) :
    State.Sound (State.srsEst s f c) := by
  unfold State.srsEst
  exact (State.kernel_sound hs (fun a4 a5 a6 h7 => (by
      split
      · exact (State.markRan_sound h7)
      · extract_lets -underBinder +lift x13 x14 x15
        have h16 : State.Sound x13.2 := (State.draw_sound h7)
        have h17 : State.Sound x14 := (State.entryResult_sound h16)
        have h18 : State.Sound x15.2 := (State.srsSymbols_sound h17)
        exact (State.kernelEnd_sound h18))))

theorem State.dlRs_sound {s : State} {f : Nat} {c : Nat} {grid : Nat} {nsc : Nat} {stride : Nat} {ssb : Nat} {second : Bool} (hs : State.Sound s) :
    State.Sound (State.dlRs s f c grid nsc stride ssb second) := by
  unfold State.dlRs
  exact (State.kernel_sound hs (fun a4 a5 a6 h7 => (by
      extract_lets -underBinder +lift x8 x9
      have h10 : State.Sound x9.2 := (State.writeRefs_sound h7)
      exact (State.kernelEnd_sound h10))))

/-! ### Machine/Accel.lean -/

theorem State.accReadFault_sound {s : State} {c : AccCmd} {a : Nat} {r : Reply} (hs : State.Sound s) :
    State.Sound (State.accReadFault s c a r) := by
  unfold State.accReadFault
  exact (sound_ite (State.uncorrectables_sound hs) (State.engineFault_sound hs))

theorem State.accRan_sound {s : State} {c : AccCmd} (hs : State.Sound s) :
    State.Sound (State.accRan s c) := by
  unfold State.accRan
  exact (sound_mk hs)

theorem State.accRead_sound {s : State} {c : AccCmd} {a : List (Nat × Nat)} (hs : State.Sound s) :
    State.Sound (State.accRead s c a).2.2 := by
  induction a generalizing s c
  · unfold State.accRead
    exact hs
  · rename_i ih
    unfold State.accRead
    extract_lets -underBinder +lift x9 x10
    have h11 : State.Sound x9.2 := (State.agentRead_sound hs)
    have h12 : State.Sound x10.2.2 := (ih h11)
    split
    · exact h11
    · exact h12

theorem State.accWrite_sound {s : State} {c : AccCmd} {rows : List (Nat × List Byte)} (hs : State.Sound s) :
    State.Sound (State.accWrite s c rows) := by
  unfold State.accWrite
  exact (foldl_sound hs (fun a3 a4 h5 => (by
      extract_lets -underBinder +lift x6
      have h7 : State.Sound x6.2 := (State.agentWrite_sound h5)
      exact (State.uncorrectables_sound h7))))

theorem State.accRun_sound {s : State} {f : Nat} {unit : Nat} {op : Nat}
    {work : List Byte → List (List (List Byte)) → State → List (Nat × List Byte) × State} (hs : State.Sound s) (hwork : ∀ t0 t1 t2, State.Sound t2 → State.Sound (work t0 t1 t2).2) :
    State.Sound (State.accRun s f unit op work) := by
  unfold State.accRun
  split
  · exact hs
  · extract_lets -underBinder +lift x5 x6
    have h7 : State.Sound x6.2.2 := (State.accRead_sound hs)
    split
    · exact hs
    · split
      · exact (State.accReadFault_sound h7)
      · extract_lets -underBinder +lift x15 x16
        have h17 : State.Sound x16.2 := (hwork _ _ _ h7)
        exact (State.accRan_sound (State.accWrite_sound h17))

theorem State.mxuRows_sound {s : State} {d : List Byte} {x : CMat} {rows : Nat} {cols : Nat} {exact_ : Nat → Nat → Bool}
    {real : Nat → Nat → Bool} (hs : State.Sound s) :
    State.Sound (State.mxuRows s d x rows cols exact_ real).2 := by
  unfold State.mxuRows
  extract_lets -underBinder +lift x0 x1 x2 x3 x4
  have h5 : State.Sound x3.2 := (State.draw_sound hs)
  exact h5

theorem State.accSolve_sound {s : State} {f : Nat} (hs : State.Sound s) :
    State.Sound (State.accSolve s f) := by
  refine State.accRun_sound hs fun _ _ t ht => ?_
  extract_lets n k g b v
  exact (State.mxuRows_sound ht : State.Sound v.2)

theorem State.accSamples_sound {s : State} {d : List Byte} {xs : List Cplx} (hs : State.Sound s) :
    State.Sound (State.accSamples s d xs).2 := by
  unfold State.accSamples
  extract_lets -underBinder +lift x0
  have h1 : State.Sound x0.2 := (State.slacken_sound hs)
  exact h1

theorem State.accGoldQpsk_sound {s : State} {f : Nat} (hs : State.Sound s) :
    State.Sound (State.accGoldQpsk s f) := by
  exact State.accRun_sound hs fun d _ t ht => State.draw_sound (w := 4 * accField d 0x10 4) ht

theorem State.accGoldBits_sound {s : State} {f : Nat} (hs : State.Sound s) :
    State.Sound (State.accGoldBits s f) := by
  exact State.accRun_sound hs fun _ _ t ht => ht

theorem State.freeRows_sound {s : State} {unit : Nat} {d : List Byte} (hs : State.Sound s) :
    State.Sound (State.freeRows s unit d).2 := by
  unfold State.freeRows
  split
  · extract_lets -underBinder +lift x3
    have h4 : State.Sound x3.2 := (State.drawBytes_sound hs)
    exact h4
  · exact hs

theorem State.accTrsv_sound {s : State} {f : Nat} (hs : State.Sound s) :
    State.Sound (State.accTrsv s f) := by
  refine State.accRun_sound hs fun _ _ t ht => ?_
  extract_lets n k l b col v
  refine sound_ite_snd (State.freeRows_sound ht) ?_
  exact (State.mxuRows_sound ht : State.Sound v.2)

theorem State.accGram_sound {s : State} {f : Nat} (hs : State.Sound s) :
    State.Sound (State.accGram s f) := by
  exact State.accRun_sound hs fun _ _ t ht => ht

theorem State.accDecode_sound {s : State} {f : Nat} (hs : State.Sound s) :
    State.Sound (State.accDecode s f) := by
  exact State.accRun_sound hs fun _ _ t ht => ht

theorem State.accZc_sound {s : State} {f : Nat} (hs : State.Sound s) :
    State.Sound (State.accZc s f) := by
  exact State.accRun_sound hs fun _ _ t ht => State.accSamples_sound ht

theorem State.accChol_sound {s : State} {f : Nat} (hs : State.Sound s) :
    State.Sound (State.accChol s f) := by
  refine State.accRun_sound hs fun _ _ t ht => ?_
  extract_lets n g l v
  exact (State.mxuRows_sound ht : State.Sound v.2)

theorem State.accDft_sound {s : State} {f : Nat} {inverse : Bool} (hs : State.Sound s) :
    State.Sound (State.accDft s f inverse) := by
  refine State.accRun_sound hs fun d _ t ht => ?_
  exact foldl_keeps (fun p : List (List Byte) × State => p.2.Sound) ht fun p row h =>
    State.slacken_sound (s := p.2) (lim := 2) (xs := dft inverse (accField d 8 2) (signedOf 8 (accField d 11 1)) (cplxList row)) h

theorem State.accLowpapr_sound {s : State} {f : Nat} (hs : State.Sound s) :
    State.Sound (State.accLowpapr s f) := by
  exact State.accRun_sound hs fun _ _ t ht => State.accSamples_sound ht

end Sys2Proof.Machine
end

