-- ==== Sys2Proof/Laws/SoundChip.lean ====
section
/-!
SUPPORT. That the almanac, the tick, upkeep and start-up keep the sound form of a state: one lemma for each operation.
-/
namespace Sys2Proof.Machine

/-! ### Machine/Almanac.lean -/

theorem State.endArm_sound {s : State} (hs : State.Sound s) :
    State.Sound (State.endArm s) := by
  unfold State.endArm
  extract_lets -underBinder +lift x0 x1 x2
  have h3 : State.Sound x1 := (sound_mk hs)
  have h4 : State.Sound x2 := (State.setFld_sound (State.setFld_sound h3))
  exact (sound_ite (State.refreshRails_sound (foldl_sound h4 (fun a5 a6 h7 => (State.planDomain_sound h7)))) h4)

theorem State.endLoad_sound {s : State} {code : Nat} {section_ : Nat} {offset : Nat} (hs : State.Sound s) :
    State.Sound (State.endLoad s code section_ offset) := by
  unfold State.endLoad
  extract_lets -underBinder +lift x0 x1
  have h2 : State.Sound x1 := (sound_mk hs)
  exact (State.almEvent_sound (State.wr_sound h2))

theorem State.shadowState_sound {s : State} {n : Nat} (hs : State.Sound s) :
    State.Sound (State.shadowState s n) := by
  unfold State.shadowState
  exact (State.setFld_sound hs)

theorem State.abortLoad_sound {s : State} (hs : State.Sound s) :
    State.Sound (State.abortLoad s) := by
  unfold State.abortLoad
  exact (sound_ite hs (State.endLoad_sound (State.shadowState_sound hs)))

theorem State.startLoad_sound {s : State} (hs : State.Sound s) :
    State.Sound (State.startLoad s) := by
  unfold State.startLoad
  extract_lets -underBinder +lift x0 x1
  exact (sound_ite hs (sound_ite (State.endLoad_sound hs) (State.wr_sound (State.shadowState_sound (sound_mk hs)))))

theorem State.swapCode_sound {s : State} {n : Nat} (hs : State.Sound s) :
    State.Sound (State.swapCode s n) := by
  unfold State.swapCode
  exact (State.setFld_sound hs)

theorem State.disarm_sound {s : State} (hs : State.Sound s) :
    State.Sound (State.disarm s) := by
  unfold State.disarm
  split
  · exact hs
  · extract_lets -underBinder +lift x5
    exact (sound_ite (State.swapCode_sound hs) (State.endArm_sound hs))

theorem State.armAt_sound {s : State} {f : Nat} {pool : Bool} {arming : Bool} {from_ : Nat} {members : Word} {nak : Bool} (hs : State.Sound s) :
    State.Sound (State.armAt s f pool arming from_ members nak) := by
  unfold State.armAt
  extract_lets -underBinder +lift x0 x1
  exact (State.setFld_sound (State.swapCode_sound (sound_mk hs)))

theorem State.armSwap_sound {s : State} {pool : Bool} (hs : State.Sound s) :
    State.Sound (State.armSwap s pool) := by
  unfold State.armSwap
  extract_lets -underBinder +lift x0
  split
  · exact (State.swapCode_sound hs)
  · extract_lets -underBinder +lift x6 x7
    have h8 : State.Sound x7 := (State.armAt_sound hs)
    exact (sound_ite (foldl_sound h8 (fun a9 a10 h11 => (State.sendMsg_sound h11))) h8)

theorem State.showInfo_sound {s : State} {info : Reg} {build : Reg} {img : List Byte} {state : Nat} (hs : State.Sound s) :
    State.Sound (State.showInfo s info build img state) := by
  unfold State.showInfo
  exact (State.wr_sound (State.wr_sound hs))

theorem State.loadWords_sound {s : State} {len : Nat} (hs : State.Sound s) :
    State.Sound (State.loadWords s len) := by
  unfold State.loadWords
  extract_lets -underBinder +lift x0 x1 x2 x3
  have h4 : State.Sound x3 := (sound_mk hs)
  exact (sound_ite (State.freshWord_sound h4) h4)

theorem State.acceptShadow_sound {s : State} {img : List Byte} {fw : List Byte} {fwLen : Nat} (hs : State.Sound s) :
    State.Sound (State.acceptShadow s img fw fwLen) := by
  unfold State.acceptShadow
  extract_lets -underBinder +lift x0 x1 x2 x3
  have h4 : State.Sound x0 := (State.showInfo_sound (State.setShadow_sound hs))
  have h5 : State.Sound x2 := (State.loadWords_sound (sound_mk h4))
  have h6 : State.Sound x3.2 := (State.agentWrite_sound h5)
  exact (sound_ite h5 (State.replyErrors_sound h6))

theorem State.restartControl_sound {s : State} {c : Nat} (hs : State.Sound s) :
    State.Sound (State.restartControl s c) := by
  unfold State.restartControl
  exact (State.setCore_sound hs)

theorem State.unitResult_sound {s : State} {n : Nat} (hs : State.Sound s) :
    State.Sound (State.unitResult s n) := by
  unfold State.unitResult
  exact (State.setFld_sound hs)

theorem State.copyCellCfg_sound {s : State} (hs : State.Sound s) :
    State.Sound (State.copyCellCfg s) := by
  unfold State.copyCellCfg
  exact (foldl_sound hs (fun a0 a1 h2 => (State.wr_sound h2)))

theorem State.bind_sound {s : State} {n : Nat} {u : Option (Nat × Nat)} (hs : State.Sound s) :
    State.Sound (State.bind s n u) := by
  unfold State.bind
  split
  · exact (State.wr_sound hs)
  · exact (State.setFld_sound (State.setFld_sound hs))

theorem State.setFallow_sound {s : State} {l : List (Nat × Nat)} (hs : State.Sound s) :
    State.Sound (State.setFallow s l) := by
  unfold State.setFallow
  exact (foldl_sound hs (fun a0 a1 h2 => (State.wr_sound h2)))

theorem State.remap_sound {s : State} {n : Nat} {old : Nat × Nat} {new : Nat × Nat} (hs : State.Sound s) :
    State.Sound (State.remap s n old new) := by
  unfold State.remap
  extract_lets -underBinder +lift x0 x1 x2
  have h3 : State.Sound x0 := (State.setFallow_sound (State.bind_sound hs))
  have h4 : State.Sound x2 := (sound_mk h3)
  exact (State.record_sound (State.bump_sound h4))

theorem State.rebindOne_sound {acc : State × List (Nat × Nat)} {b : Nat × Nat × Nat} (hacc : State.Sound acc.1) :
    State.Sound (State.rebindOne acc b).1 := by
  unfold State.rebindOne
  extract_lets -underBinder +lift x0
  have h1 : State.Sound x0 := hacc
  split
  · extract_lets -underBinder +lift x5 x6
    have h7 : State.Sound x5 := (State.remap_sound h1)
    exact (sound_mk h7)
  · exact h1

theorem State.dropCells_sound {s : State} {cells : List Nat} (hs : State.Sound s) :
    State.Sound (State.dropCells s cells) := by
  unfold State.dropCells
  extract_lets -underBinder +lift x0 x1 x2 x3
  have h4 : State.Sound x1 := (foldl_sound hs (fun a5 a6 h7 => (sound_ite h7 (State.setCellState_sound h7))))
  have h8 : State.Sound x3 := (sound_mk h4)
  exact (State.completeWhere_sound h8)

theorem State.donate_sound {s : State} {n : Nat} {cls : Nat} (hs : State.Sound s) :
    State.Sound (State.donate s n cls) := by
  unfold State.donate
  extract_lets -underBinder +lift x0 x1
  split
  · extract_lets -underBinder +lift x6 x7
    have h8 : State.Sound x6 := (State.bind_sound hs)
    exact (sound_mk h8)
  · exact (State.record_sound (State.bind_sound hs))
  · exact hs

theorem State.shed_sound {s : State} {lost : List (Nat × Nat)} (hs : State.Sound s) :
    State.Sound (State.shed s lost) := by
  unfold State.shed
  extract_lets -underBinder +lift x0 x1 x2 x3 x4 x5
  have h6 : State.Sound x1 := (sound_mk hs)
  have h7 : State.Sound x4 := (sound_ite h6 (State.record_sound (State.setFld_sound (State.dropCells_sound h6))))
  exact (sound_ite hs (foldl_sound h7 (fun a8 a9 h10 => (State.donate_sound h10))))

theorem State.installMap_sound {s : State} (hs : State.Sound s) :
    State.Sound (State.installMap s) := by
  unfold State.installMap
  extract_lets -underBinder +lift x0 x1 x2 x3 x4 x5 x6 x7 x8
  have h9 : State.Sound x2 := (State.setFld_sound (sound_mk hs))
  have h10 : State.Sound x4 := (foldl_sound h9 (fun a11 a12 h13 => (sound_ite (State.bind_sound h13) (State.wr_sound h13))))
  have h14 : State.Sound x6 := (State.setFallow_sound h10)
  have h15 : State.Sound x8.1 := (foldl_keeps (fun z : State × List (Nat × Nat) => State.Sound z.1) h14 (fun a16 a17 h18 => (State.rebindOne_sound h18)))
  exact (State.shed_sound h15)

theorem State.installCells_sound {s : State} {fresh : Bool} (hs : State.Sound s) :
    State.Sound (State.installCells s fresh) := by
  unfold State.installCells
  exact (foldl_sound hs (fun a3 a4 h5 => (by
      extract_lets -underBinder +lift x6 x7 x8 x9
      exact (sound_ite h5 (State.setCellState_sound h5)))))

theorem State.install_sound {s : State} {fresh : Bool} (hs : State.Sound s) :
    State.Sound (State.install s fresh) := by
  unfold State.install
  extract_lets -underBinder +lift x0 x1 x2
  have h3 : State.Sound x0 := (State.showInfo_sound (State.copyCellCfg_sound hs))
  have h4 : State.Sound x1 := (State.installMap_sound (State.installCells_sound h3))
  have h5 : State.Sound x2 := (State.swapWindows_sound (State.loadTimers_sound h4))
  exact (State.refreshRails_sound (foldl_sound h5 (fun a6 a7 h8 => (State.setPlanned_sound h8))))

theorem State.startAlmanac_sound {s : State} (hs : State.Sound s) :
    State.Sound (State.startAlmanac s) := by
  unfold State.startAlmanac
  exact (sound_ite hs (State.install_sound (State.setReadyBits_sound hs)))

theorem State.barUnits_sound {s : State} (hs : State.Sound s) :
    State.Sound (State.barUnits s) := by
  unfold State.barUnits
  extract_lets -underBinder +lift x3
  exact (foldl_sound (sound_mk hs) (fun a7 a8 h9 => (sound_ite h9 (by
      extract_lets -underBinder +lift x10
      have h11 : State.Sound x10.1 := (State.discard_sound h9)
      exact (State.outOfService_sound h11)))))

theorem State.returnUnit_sound {s : State} {u : Nat × Nat} (hs : State.Sound s) :
    State.Sound (State.returnUnit s u) := by
  unfold State.returnUnit
  extract_lets -underBinder +lift x0 x1 x2 x3
  have h4 : State.Sound x0 := (sound_ite (State.clearLines_sound hs) (sound_ite (State.loadEnable_sound hs) hs))
  have h5 : State.Sound x1 := (State.setFallow_sound (State.setUnitState_sound h4))
  have h6 : State.Sound x3 := (sound_mk h5)
  exact (sound_ite hs (sound_ite (State.unitResult_sound hs) (State.record_sound (State.refreshDead_sound h6))))

theorem State.returnUnits_sound {s : State} (hs : State.Sound s) :
    State.Sound (State.returnUnits s) := by
  unfold State.returnUnits
  exact (foldl_sound (sound_mk hs) (fun a0 a1 h2 => (State.returnUnit_sound h2)))

theorem State.cancelSwap_sound {s : State} {code : Nat} (hs : State.Sound s) :
    State.Sound (State.cancelSwap s code) := by
  unfold State.cancelSwap
  exact (sound_ite hs (State.almEvent_sound (State.record_sound (State.setFld_sound (State.swapCode_sound (State.endArm_sound hs))))))

theorem State.poolDecide_sound {s : State} (hs : State.Sound s) :
    State.Sound (State.poolDecide s) := by
  unfold State.poolDecide
  split
  · extract_lets -underBinder +lift x3 x4 x5
    have h6 : State.Sound x5 := (foldl_sound hs (fun a7 a8 h9 => (State.sendMsg_sound h9)))
    exact (sound_ite (sound_ite (State.setFld_sound h6) (State.cancelSwap_sound h6)) hs)
  · exact hs

theorem State.swapHalves_sound {s : State} (hs : State.Sound s) :
    State.Sound (State.swapHalves s) := by
  unfold State.swapHalves
  exact (foldl_sound hs (fun a3 a4 h5 => (by
      extract_lets -underBinder +lift x6 x7
      exact (State.loadEnable_sound (sound_mk h5)))))

theorem State.poolCommit_sound {s : State} {from_ : Nat} {frame : Nat} (hs : State.Sound s) :
    State.Sound (State.poolCommit s from_ frame) := by
  unfold State.poolCommit
  split
  · exact (sound_ite (State.setFld_sound hs) hs)
  · exact hs

theorem State.announced_sound {s : State} {h : Word} {f : Nat} {build : Nat} (hs : State.Sound s) :
    State.Sound (State.announced s h f build) := by
  unfold State.announced
  extract_lets -underBinder +lift x0
  clear_value x0
  split
  · exact (State.sendMsg_sound hs)
  · exact (State.sendMsg_sound (State.armAt_sound hs))

theorem State.shadowLost_sound {s : State} (hs : State.Sound s) :
    State.Sound (State.shadowLost s) := by
  unfold State.shadowLost
  extract_lets -underBinder +lift x0 x1 x2
  have h3 : State.Sound x1 := (State.cancelSwap_sound (State.shadowState_sound hs))
  exact (sound_ite (sound_mk h3) h3)

theorem State.almanacEcc_sound {s : State} {g : Nat} (hs : State.Sound s) :
    State.Sound (State.almanacEcc s g) := by
  unfold State.almanacEcc
  exact (sound_ite (State.shadowLost_sound hs) hs)

theorem State.poolAnswer_sound {s : State} {from_ : Nat} {frame : Nat} {ack : Bool} (hs : State.Sound s) :
    State.Sound (State.poolAnswer s from_ frame ack) := by
  unfold State.poolAnswer
  split
  · exact (sound_ite (sound_mk hs) hs)
  · exact hs

theorem State.restartFirmware_sound {s : State} (hs : State.Sound s) :
    State.Sound (State.restartFirmware s) := by
  unfold State.restartFirmware
  split
  · exact hs
  · extract_lets -underBinder +lift x5 x6 x7
    have h8 : State.Sound x7 := (sound_mk hs)
    exact (foldl_sound (State.setFld_sound h8) (fun a9 a10 h11 => (State.restartControl_sound h11)))

theorem State.abortMoves_sound {s : State} (hs : State.Sound s) :
    State.Sound (State.abortMoves s) := by
  unfold State.abortMoves
  extract_lets -underBinder +lift x0
  exact (foldl_sound hs (fun a1 a2 h3 => (sound_ite (foldl_sound h3 (fun a4 a5 h6 => (State.movSwapAbort_sound h6))) (State.movServe_sound h3))))

theorem State.swapNow_sound {s : State} {w : Swap} (hs : State.Sound s) :
    State.Sound (State.swapNow s w) := by
  unfold State.swapNow
  extract_lets -underBinder +lift x0 x1 x2 x3 x4 x5 x6 x7 x8 x9 x10 x11 x12 x13 x14 x15 x16 x17 x18
  have h19 : State.Sound x2 := (sound_ite (State.mapStore_sound (State.completeWhere_sound hs)) hs)
  have h20 : State.Sound x4 := (State.setFld_sound h19)
  have h21 : State.Sound x6 := (State.swapHalves_sound (sound_mk h20))
  have h22 : State.Sound x7 := (State.setFld_sound (State.setFld_sound h21))
  have h23 : State.Sound x8 := (State.install_sound (sound_ite h22 (State.setReadyBits_sound h22)))
  have h24 : State.Sound x9 := (State.showInfo_sound h23)
  have h25 : State.Sound x11 := (sound_mk h24)
  have h26 : State.Sound x12 := (State.completeWhere_sound h25)
  have h27 : State.Sound x15 := (sound_mk h26)
  have h28 : State.Sound x16 := by
    unfold x16
    exact (foldl_sound h27 (fun a35 a36 h37 => (by
        split
        · exact (State.sendCellResult_sound h37)
        · exact (State.postCmd_sound h37))))
  have h43 : State.Sound x17 := (State.restartFirmware_sound (State.abortMoves_sound h28))
  have h44 : State.Sound x18 := (State.setFld_sound (State.setFld_sound h43))
  exact (State.almEvent_sound (State.bump_sound h44))

theorem State.swapAt_sound {s : State} (hs : State.Sound s) :
    State.Sound (State.swapAt s) := by
  unfold State.swapAt
  split
  · exact (sound_ite (State.swapNow_sound hs) hs)
  · exact hs

theorem State.rebindAt_sound {s : State} (hs : State.Sound s) :
    State.Sound (State.rebindAt s) := by
  unfold State.rebindAt
  extract_lets -underBinder +lift x0 x1 x2 x3 x4 x5
  have h6 : State.Sound x2 := (sound_mk hs)
  have h7 : State.Sound x3 := (State.setFallow_sound h6)
  have h8 : State.Sound x5.1 := (foldl_keeps (fun z : State × List (Nat × Nat) => State.Sound z.1) h7 (fun a9 a10 h11 => (State.rebindOne_sound h11)))
  exact (sound_ite hs (State.refreshRails_sound (State.shed_sound h8)))

theorem State.poolTimeout_sound {s : State} (hs : State.Sound s) :
    State.Sound (State.poolTimeout s) := by
  unfold State.poolTimeout
  split
  · exact (sound_ite (State.cancelSwap_sound hs) hs)
  · exact hs

theorem State.overridePower_sound {s : State} (hs : State.Sound s) :
    State.Sound (State.overridePower s) := by
  unfold State.overridePower
  split
  · exact hs
  · extract_lets -underBinder +lift x5 x6
    have h7 : State.Sound x6 := (sound_mk hs)
    exact (sound_ite hs (State.refreshRails_sound (foldl_sound h7 (fun a8 a9 h10 => (State.setPlanned_sound h10)))))

theorem State.readImage_sound {s : State} {addr : Nat} {a : Nat} {a3 : Nat} {a4 : Nat} (hs : State.Sound s) :
    State.Sound (State.readImage s addr a a3 a4).2.2 := by
  induction a generalizing s a3 a4 with
  | zero => exact hs
  | succ n ih =>
    unfold State.readImage
    extract_lets k r rest
    have h1 : State.Sound r.2 := State.agentRead_sound hs
    split
    · exact hs
    · split
      · exact State.replyErrors_sound h1
      · exact ih h1

theorem State.poolCancel_sound {s : State} {from_ : Nat} {frame : Nat} (hs : State.Sound s) :
    State.Sound (State.poolCancel s from_ frame) := by
  unfold State.poolCancel
  split
  · exact (sound_ite (State.cancelSwap_sound hs) hs)
  · exact hs

theorem State.completeLoad_sound {s : State} (hs : State.Sound s) :
    State.Sound (State.completeLoad s) := by
  unfold State.completeLoad
  split
  · exact hs
  · extract_lets -underBinder +lift x5
    have h6 : State.Sound x5.2.2 := (State.readImage_sound hs)
    split
    · exact (State.endLoad_sound (State.shadowState_sound h6))
    · extract_lets -underBinder +lift x12 x13
      have h14 : State.Sound x13.2.2 := (State.readImage_sound h6)
      split
      · exact (State.endLoad_sound (State.shadowState_sound h6))
      · exact (State.endLoad_sound (State.shadowState_sound h14))
      · split
        · exact (State.endLoad_sound (State.shadowState_sound h14))
        · exact (State.endLoad_sound (State.acceptShadow_sound h14))

/-! ### Machine/Tick.lean -/

theorem State.discardTemplate_sound {s : State} {idx : Nat} (hs : State.Sound s) :
    State.Sound (State.discardTemplate s idx) := by
  unfold State.discardTemplate
  extract_lets -underBinder +lift x0
  split
  · exact hs
  · extract_lets -underBinder +lift x6
    have h7 : State.Sound x6.1 := (State.discard_sound hs)
    exact (State.record_sound h7)

theorem State.discardUnbound_sound {s : State} (hs : State.Sound s) :
    State.Sound (State.discardUnbound s) := by
  unfold State.discardUnbound
  extract_lets -underBinder +lift x0 x1
  exact (sound_ite hs (State.bump_sound (State.discard_sound hs)))

theorem State.releaseTick_sound {s : State} (hs : State.Sound s) :
    State.Sound (State.releaseTick s) := by
  unfold State.releaseTick
  dsimp only
  have h1 := sound_mk (e := s) hs (p := s.pending) (f := s.freeCtr) (o := s.out) (ecc := s.ecc)
    (drv := { s.drv with rels := s.drv.next.map s.release, next := [], nextIdx := none, accepts := 64 }) (alm := s.alm)
    (flt := s.flt) (dsp := s.dsp) (noc := s.noc) (mov := s.mov) (pwr := s.pwr) (sys := s.sys) (fh := s.fh) (mce := s.mce)
    (pra := s.pra) (dec := s.dec) (sds := s.sds) (drl := s.drl) (fab := s.fab) (dbg := s.dbg) (uart := s.uart)
  refine State.settle_sound (State.discardUnbound_sound ?_)
  split
  · exact State.discardTemplate_sound (sound_ite h1 (State.bump_sound h1))
  · exact sound_ite h1 (State.bump_sound h1)

theorem State.completeOn_sound {s : State} {e : Eng} (hs : State.Sound s) :
    State.Sound (State.completeOn s e) := by
  unfold State.completeOn
  split
  · exact (State.finish_sound hs)
  · exact hs

theorem State.guardAt_sound {s : State} (hs : State.Sound s) :
    State.Sound (State.guardAt s) := by
  unfold State.guardAt
  exact (State.demote_sound (State.passTo_sound hs))

theorem State.commitAt_sound {s : State} (hs : State.Sound s) :
    State.Sound (State.commitAt s) := by
  unfold State.commitAt
  split
  · exact (sound_ite (State.setFld_sound (State.passTo_sound hs)) hs)
  · exact hs

theorem State.checkFetch_sound {s : State} {f : Fetch} (hs : State.Sound s) :
    State.Sound (State.checkFetch s f) := by
  unfold State.checkFetch
  exact (foldl_sound hs (fun a3 a4 h5 => (by
      split
      · exact h5
      · exact (State.noteCorrected_sound h5)
      · exact (State.noteUncorrectable_sound h5))))

theorem State.loadTemplate_sound {s : State} {f : Fetch} (hs : State.Sound s) :
    State.Sound (State.loadTemplate s f) := by
  unfold State.loadTemplate
  extract_lets -underBinder +lift x0 x1 x2
  have h3 : State.Sound x0 := (State.checkFetch_sound hs)
  exact (sound_mk h3)

theorem State.fetchNext_sound {s : State} (hs : State.Sound s) :
    State.Sound (State.fetchNext s) := by
  unfold State.fetchNext
  split
  · exact (sound_mk hs)
  · extract_lets -underBinder +lift x5 x6
    have h7 : State.Sound x5 := (State.cancelSwap_sound (State.shadowState_sound (State.checkFetch_sound hs)))
    have h8 : State.Sound x6 := (State.loadTemplate_sound hs)
    split
    · split
      · exact (State.loadTemplate_sound h7)
      · exact (sound_mk h7)
    · exact (sound_ite (State.setFld_sound h8) h8)

theorem State.fetchAt_sound {s : State} (hs : State.Sound s) :
    State.Sound (State.fetchAt s) := by
  unfold State.fetchAt
  exact (sound_ite hs (State.passTo_sound (State.fetchNext_sound hs)))

/-! ### Machine/Upkeep.lean -/

theorem State.clearNoc_sound {s : State} (hs : State.Sound s) :
    State.Sound (State.clearNoc s) := by
  unfold State.clearNoc
  exact (foldl_sound (foldl_sound hs (fun a0 a1 h2 => (State.wr_sound h2))) (fun a3 a4 h5 => (State.wr_sound h5)))

theorem State.writeRtData_sound {s : State} {v : Word} (hs : State.Sound s) :
    State.Sound (State.writeRtData s v) := by
  unfold State.writeRtData
  exact (State.rtAdvance_sound (sound_ite hs (State.setRtEntry_sound hs)))

theorem State.writeIsolate_sound {s : State} {i : Nat} {v : Word} (hs : State.Sound s) :
    State.Sound (State.writeIsolate s i v) := by
  unfold State.writeIsolate
  extract_lets -underBinder +lift x0
  exact (foldl_sound hs (fun a1 a2 h3 => (State.setIsolated_sound h3)))

theorem State.writeRelease_sound {s : State} {i : Nat} {v : Word} (hs : State.Sound s) :
    State.Sound (State.writeRelease s i v) := by
  unfold State.writeRelease
  extract_lets -underBinder +lift x0
  exact (foldl_sound hs (fun a1 a2 h3 => (sound_ite h3 (State.setIsolated_sound h3))))

theorem State.clearMem_sound {s : State} (hs : State.Sound s) :
    State.Sound (State.clearMem s) := by
  unfold State.clearMem
  extract_lets -underBinder +lift x0 x1 x2
  have h3 : State.Sound x0 := (foldl_sound hs (fun a4 a5 h6 => (State.setFld_sound (State.setFld_sound (State.setFld_sound h6)))))
  have h7 : State.Sound x1 := (foldl_sound h3 (fun a8 a9 h10 => (State.wr_sound h10)))
  exact (State.wr_sound (sound_mk h7))

theorem State.writeFltStatus_sound {s : State} {v : Word} (hs : State.Sound s) :
    State.Sound (State.writeFltStatus s v) := by
  unfold State.writeFltStatus
  extract_lets -underBinder +lift x0
  have h1 : State.Sound x0 := (State.wrAccess_sound hs)
  exact (State.setFld_sound h1)

theorem State.resetUnit_sound {s : State} {cls : Nat} {phys : Nat} (hs : State.Sound s) :
    State.Sound (State.resetUnit s cls phys) := by
  induction cls generalizing s phys
  · unfold State.resetUnit
    extract_lets -underBinder +lift x10
    have h11 : State.Sound x10 := (State.setFrozenFlag_sound hs)
    split
    · exact (State.clearLines_sound h11)
    · exact (foldl_sound (sound_mk h11) (fun a16 a17 h18 => (State.setCore_sound h18)))
    · exact (sound_mk h11)
    · exact (State.movReset_sound h11)
    · exact h11
  · unfold State.resetUnit
    extract_lets -underBinder +lift x28
    have h29 : State.Sound x28 := (State.setFrozenFlag_sound hs)
    split
    · exact (State.clearLines_sound h29)
    · exact (foldl_sound (sound_mk h29) (fun a34 a35 h36 => (State.setCore_sound h36)))
    · exact (sound_mk h29)
    · exact (State.movReset_sound h29)
    · exact h29

theorem State.opReset_sound {s : State} {cls : Nat} {phys : Nat} (hs : State.Sound s) :
    State.Sound (State.opReset s cls phys) := by
  unfold State.opReset
  extract_lets -underBinder +lift x0 x1
  exact (sound_ite (sound_ite (State.unitResult_sound (State.restartControl_sound (sound_mk hs))) (State.unitResult_sound hs)) (sound_ite (State.unitResult_sound hs) (sound_ite (State.unitResult_sound hs) (sound_ite (State.unitResult_sound hs) (sound_ite (State.unitResult_sound (State.setUnitState_sound (State.resetUnit_sound hs))) (State.unitResult_sound hs))))))

theorem State.unitBusy_sound {s : State} {b : Bool} (hs : State.Sound s) :
    State.Sound (State.unitBusy s b) := by
  unfold State.unitBusy
  exact (State.setFld_sound hs)

theorem State.opRestore_sound {s : State} {cls : Nat} {phys : Nat} (hs : State.Sound s) :
    State.Sound (State.opRestore s cls phys) := by
  unfold State.opRestore
  extract_lets -underBinder +lift x0 x1 x2
  have h3 : State.Sound x1 := (State.unitBusy_sound (State.unitResult_sound (State.setUnitState_sound hs)))
  have h4 : State.Sound x2 := by
    unfold x2
    split
    · extract_lets -underBinder +lift x8 x9
      have h10 : State.Sound x8 := (State.zeroGroup_sound h3)
      exact (sound_mk h10)
    · exact h3
  exact (sound_ite (State.unitResult_sound hs) (sound_ite (State.unitResult_sound hs) (sound_ite (State.unitResult_sound hs) (sound_ite (State.unitResult_sound hs) (sound_ite (State.unitResult_sound hs) (sound_ite (State.clearLines_sound h4) h4))))))

theorem State.opReturn_sound {s : State} {cls : Nat} {phys : Nat} (hs : State.Sound s) :
    State.Sound (State.opReturn s cls phys) := by
  unfold State.opReturn
  extract_lets -underBinder +lift x0 x1
  exact (sound_ite (State.unitResult_sound hs) (sound_ite (State.unitResult_sound hs) (sound_ite (State.unitResult_sound hs) (sound_ite (State.unitResult_sound hs) (sound_ite (State.unitResult_sound hs) (sound_ite (State.unitResult_sound hs) (State.unitResult_sound (sound_mk hs))))))))

theorem State.writeUnitCtrl_sound {s : State} {v : Word} (hs : State.Sound s) :
    State.Sound (State.writeUnitCtrl s v) := by
  unfold State.writeUnitCtrl
  extract_lets -underBinder +lift x0 x1 x2
  have h3 : State.Sound x0 := (State.wrAccess_sound hs)
  split
  · exact (State.opReset_sound h3)
  · exact (State.opRestore_sound h3)
  · exact (State.opReturn_sound h3)
  · exact h3

theorem State.showPasses_sound {s : State} (hs : State.Sound s) :
    State.Sound (State.showPasses s) := by
  unfold State.showPasses
  extract_lets -underBinder +lift x0
  exact (State.setFld_sound hs)

theorem State.selftestFail_sound {s : State} {g : Nat} (hs : State.Sound s) :
    State.Sound (State.selftestFail s g) := by
  unfold State.selftestFail
  extract_lets -underBinder +lift x0
  have h1 : State.Sound x0 := (sound_ite (State.setFld_sound hs) hs)
  split
  · exact (State.markDead_sound h1)
  · exact (State.record_sound h1)

theorem State.initDone_sound {s : State} {g : Nat} {ok : Bool} (hs : State.Sound s) :
    State.Sound (State.initDone s g ok) := by
  unfold State.initDone
  extract_lets -underBinder +lift x0 x1 x2
  have h3 : State.Sound x1 := (sound_mk hs)
  exact (sound_ite hs (sound_ite (State.selftestFail_sound h3) (sound_ite (State.raiseReady_sound (State.setFld_sound (State.zeroGroup_sound h3))) (sound_ite (foldl_sound h3 (fun a4 a5 h6 => (State.raiseReady_sound h6))) (State.raiseReady_sound (State.setFld_sound (sound_ite h3 (State.zeroGroup_sound h3))))))))

theorem State.scrubDdr_sound {s : State} {c : Nat} {l : Nat} (hs : State.Sound s) :
    State.Sound (State.scrubDdr s c l) := by
  unfold State.scrubDdr
  split
  · extract_lets -underBinder +lift x4 x5
    have h6 : State.Sound x5 := (sound_mk hs)
    exact (State.eccLast_sound (State.setFld_sound h6))
  · exact hs
  · exact (State.uncorrectable_sound (State.eccLast_sound hs))

theorem State.checkerFault_sound {s : State} {cls : Nat} {phys : Nat} {sram : Bool} (hs : State.Sound s) :
    State.Sound (State.checkerFault s cls phys sram) := by
  unfold State.checkerFault
  extract_lets -underBinder +lift x0
  have h1 : State.Sound x0.2 := (State.draw_sound hs)
  exact (sound_ite hs (sound_ite (State.markDead_sound (State.noteUncorrectable_sound h1)) (State.markDead_sound hs)))

theorem State.scrubSram_sound {s : State} {g : Nat} {w : Nat} (hs : State.Sound s) :
    State.Sound (State.scrubSram s g w) := by
  unfold State.scrubSram
  split
  · exact hs
  · extract_lets -underBinder +lift x7 x8
    have h9 : State.Sound x8 := (sound_ite (sound_mem hs (Memory.wf_writeLE _ _ _ _ hs.mem)) hs)
    exact (State.noteCorrected_sound (State.setFlips_sound h9))
  · exact (State.almanacEcc_sound (State.uncorrectable_sound (State.noteUncorrectable_sound hs)))

theorem State.scrubOne_sound {s : State} {g : Nat} {w : Nat} (hs : State.Sound s) :
    State.Sound (State.scrubOne s g w) := by
  unfold State.scrubOne
  exact (sound_ite (State.scrubSram_sound hs) (State.scrubDdr_sound hs))

theorem State.endPass_sound {s : State} {g : Nat} (hs : State.Sound s) :
    State.Sound (State.endPass s g) := by
  unfold State.endPass
  extract_lets -underBinder +lift x0 x1
  exact (State.showPasses_sound (sound_mk hs))

theorem State.scrubWords_sound {s : State} {g : Nat} {n : Nat} (hs : State.Sound s) :
    State.Sound (State.scrubWords s g n) := by
  unfold State.scrubWords
  extract_lets -underBinder +lift x0 x1 x2 x3 x4 x5 x6 x7 x8 x9
  have h10 : State.Sound x3 := (foldl_sound hs (fun a11 a12 h13 => (State.scrubOne_sound h13)))
  have h14 : State.Sound x5 := (sound_mk h10)
  have h15 : State.Sound x6 := (sound_ite (State.endPass_sound h14) h14)
  have h16 : State.Sound x8 := (foldl_sound h15 (fun a17 a18 h19 => (State.scrubOne_sound h19)))
  exact (sound_ite h15 (sound_mk h16))

theorem State.scrubTick_sound {s : State} (hs : State.Sound s) :
    State.Sound (State.scrubTick s) := by
  unfold State.scrubTick
  extract_lets -underBinder +lift x0 x1
  have h2 : State.Sound x0 := by
    unfold x0
    exact (foldl_sound hs (fun a9 a10 h11 => (by
        extract_lets -underBinder +lift x12
        exact (sound_ite h11 (State.scrubWords_sound h11)))))
  exact (sound_mk h2)

theorem State.restoreDone_sound {s : State} {cls : Nat} {phys : Nat} {ok : Bool} (hs : State.Sound s) :
    State.Sound (State.restoreDone s cls phys ok) := by
  unfold State.restoreDone
  extract_lets -underBinder +lift x0 x1 x2
  have h3 : State.Sound x0 := (State.unitBusy_sound hs)
  have h4 : State.Sound x1 := by
    unfold x1
    split
    · exact (State.setFld_sound h3)
    · exact h3
  have h10 : State.Sound x2 := (sound_ite (State.loadEnable_sound h4) h4)
  split
  · exact hs
  · split
    · exact (State.refreshDead_sound (State.setUnitState_sound h10))
    · split
      · exact (State.selftestFail_sound h3)
      · exact (State.markDead_sound h3)

theorem State.scrubNext_sound {s : State} {g : Nat} (hs : State.Sound s) :
    State.Sound (State.scrubNext s g) := by
  unfold State.scrubNext
  extract_lets -underBinder +lift x0 x1
  exact (sound_ite hs (State.scrubWords_sound (sound_mk hs)))

/-! ### Machine/Startup.lean -/

theorem State.keepUnits_sound {s : State} {old : State} (hs : State.Sound s) (_ : State.Sound old) :
    State.Sound (State.keepUnits s old) := by
  unfold State.keepUnits
  exact (foldl_sound hs (fun a6 a7 h8 => (foldl_sound h8 (fun a9 a10 h11 => (by
      extract_lets -underBinder +lift x12
      exact (sound_ite h11 (State.refreshDead_sound (State.setIsolated_sound (State.setUnitState_sound h11)))))))))

theorem State.deviceReset_sound {s : State} (hs : State.Sound s) :
    State.Sound (State.deviceReset s) := by
  unfold State.deviceReset
  dsimp only
  refine State.keepUnits_sound (foldl_sound (State.setFld_sound (State.setFld_sound (foldl_sound (foldl_sound (foldl_sound ?_
    fun t a h => State.setBit_sound h) fun t a h => State.setFld_sound h) fun t a h => State.setFld_sound h))) fun t a h =>
    State.loadEnable_sound h) hs
  exact ⟨SMap.wf_filter _ _ _ hs.regs, SMap.wf_filter _ _ _ hs.mem, hs.tick, hs.cycle⟩

theorem State.setBootLock_sound {s : State} (hs : State.Sound s) :
    State.Sound (State.setBootLock s) := by
  unfold State.setBootLock
  extract_lets -underBinder +lift x0
  have h1 : State.Sound x0 := (State.setFld_sound hs)
  exact (sound_ite hs (State.setReadyBits_sound h1))

theorem State.writeSysCtrl_sound {s : State} {v : Word} (hs : State.Sound s) :
    State.Sound (State.writeSysCtrl s v) := by
  unfold State.writeSysCtrl
  extract_lets -underBinder +lift x0
  have h1 : State.Sound x0 := (sound_ite (State.setBootLock_sound hs) hs)
  exact (sound_ite (State.deviceReset_sound hs) (sound_ite (State.setReadyBit_sound (State.setFld_sound h1)) h1))

theorem State.hostImage_sound {s : State} (hs : State.Sound s) :
    State.Sound (State.hostImage s).2 := by
  have hl : ∀ (t : State) a n k, t.Sound → State.Sound (t.readMem a n k).2.1 := fun _ _ _ _ h => State.readMem_sound h
  have h := hl s (s.fld .SYS_BOOT_SRC Fld.SYS_BOOT_SRC_ADDR) 1025 1024 hs
  unfold State.hostImage
  dsimp only
  generalize s.readMem (s.fld .SYS_BOOT_SRC Fld.SYS_BOOT_SRC_ADDR) 1025 1024 = head at h ⊢
  split
  · exact State.uncorrectables_sound h
  · rename_i hd _
    have hr := hl head.2.1 (s.fld .SYS_BOOT_SRC Fld.SYS_BOOT_SRC_ADDR + 1024) (bootLen hd + 1) (max 1024 (bootLen hd) - 1024) h
    generalize head.2.1.readMem (s.fld .SYS_BOOT_SRC Fld.SYS_BOOT_SRC_ADDR + 1024) (bootLen hd + 1) (max 1024 (bootLen hd) - 1024) = r
      at hr ⊢
    exact sound_ite_snd (State.uncorrectables_sound hr) h

theorem State.showBoot_sound {s : State} {code : Nat} {sec : Nat} {bare : Bool} {signed : Bool} {fromHost : Bool} {fw : Nat} (hs : State.Sound s) :
    State.Sound (State.showBoot s code sec bare signed fromHost fw) := by
  unfold State.showBoot
  extract_lets -underBinder +lift x0
  exact (State.wr_sound hs)

theorem State.bootRefused_sound {s : State} {e : BootErr} {fromHost : Bool} (hs : State.Sound s) :
    State.Sound (State.bootRefused s e fromHost) := by
  unfold State.bootRefused
  extract_lets -underBinder +lift x0 x1
  exact (State.showBoot_sound (sound_mk hs))

theorem State.bootStore_sound {s : State} {addr : Nat} {bs : List Byte} (hs : State.Sound s) :
    State.Sound (State.bootStore s addr bs) := by
  unfold State.bootStore
  exact (State.writeMem_sound hs)

theorem State.copySection_sound {s : State} {img : List Byte} {d : BootSec} (hs : State.Sound s) :
    State.Sound (State.copySection s img d) := by
  unfold State.copySection
  split
  · exact (State.bootStore_sound hs)
  · exact (foldl_sound hs (fun a4 a5 h6 => (State.bootStore_sound h6)))
  · exact (State.bootStore_sound hs)
  · exact (State.bootStore_sound hs)
  · exact (State.bootStore_sound hs)
  · exact hs

theorem State.applyFabricId_sound {s : State} {img : List Byte} (hs : State.Sound s) :
    State.Sound (State.applyFabricId s img) := by
  unfold State.applyFabricId
  exact (foldl_sound hs (fun a3 a4 h5 => (by
      extract_lets -underBinder +lift x6
      exact (State.setFld_sound (State.setFld_sound (State.setFld_sound (State.setFld_sound h5)))))))

theorem State.bootActive_sound {s : State} {img : List Byte} (hs : State.Sound s) :
    State.Sound (State.bootActive s img) := by
  unfold State.bootActive
  exact (foldl_sound hs (fun a3 a4 h5 => (by
      extract_lets -underBinder +lift x6 x7
      exact (State.showInfo_sound (State.setFld_sound (sound_mk h5))))))

theorem State.claimLanes_sound {s : State} {cs : List Nat} (hs : State.Sound s) :
    State.Sound (State.claimLanes s cs) := by
  unfold State.claimLanes
  exact (foldl_sound hs (fun a0 a1 h2 => (State.setFld_sound h2)))

theorem State.bootShadow_sound {s : State} {img : List Byte} {fwVersion : Nat} (hs : State.Sound s) :
    State.Sound (State.bootShadow s img fwVersion) := by
  unfold State.bootShadow
  exact (foldl_sound hs (fun a3 a4 h5 => (by
      extract_lets -underBinder +lift x6
      split
      · exact (State.shadowState_sound h5)
      · exact (State.acceptShadow_sound h5))))

theorem State.bootAccepted_sound {s : State} {img : List Byte} {fromHost : Bool} (hs : State.Sound s) :
    State.Sound (State.bootAccepted s img fromHost) := by
  unfold State.bootAccepted
  extract_lets -underBinder +lift x0 x1 x2 x3 x4 x5 x6 x7 x8 x9
  have h10 : State.Sound x2 := (foldl_sound (State.applyFabricId_sound hs) (fun a11 a12 h13 => (State.copySection_sound h13)))
  have h14 : State.Sound x4 := (State.bootActive_sound (sound_mk h10))
  have h15 : State.Sound x5 := (State.claimLanes_sound (State.bootShadow_sound h14))
  have h16 : State.Sound x7 := (sound_mk h15)
  have h17 : State.Sound x8 := (State.setReadyBit_sound (State.showBoot_sound h16))
  have h18 : State.Sound x9 := (foldl_sound (State.setFld_sound h17) (fun a19 a20 h21 => (State.restartControl_sound h21)))
  exact (foldl_sound h18 (fun a22 a23 h24 => (State.raiseReady_sound (State.loadEnable_sound h24))))

theorem State.bootImage_sound {s : State} {img : List Byte} {fromHost : Bool} (hs : State.Sound s) :
    State.Sound (State.bootImage s img fromHost) := by
  unfold State.bootImage
  split
  · exact (State.bootRefused_sound hs)
  · split
    · exact (State.bootRefused_sound (State.endLoad_sound hs))
    · exact (State.bootAccepted_sound hs)

theorem State.bootFromHost_sound {s : State} (hs : State.Sound s) :
    State.Sound (State.bootFromHost s) := by
  unfold State.bootFromHost
  extract_lets -underBinder +lift x0 x1
  have h2 : State.Sound x1 := (sound_mk hs)
  split
  · rename_i y4 y5
    have h6 : State.Sound y4 := of_eq (fun z => State.Sound z.2) y5 (State.hostImage_sound h2)
    exact (State.bootRefused_sound h6)
  · rename_i y9 y10
    have h11 : State.Sound y9 := of_eq (fun z => State.Sound z.2) y10 (State.hostImage_sound h2)
    exact (sound_ite (State.bootImage_sound h11) h2)

theorem State.bootGo_sound {s : State} (hs : State.Sound s) :
    State.Sound (State.bootGo s) := by
  unfold State.bootGo
  exact (sound_ite (State.bootFromHost_sound hs) hs)

theorem State.judgeTherm_sound {s : State} (hs : State.Sound s) :
    State.Sound (State.judgeTherm s) := by
  unfold State.judgeTherm
  extract_lets -underBinder +lift x0 x1
  exact (sound_ite (State.setFld_sound hs) (sound_ite (State.setFld_sound hs) hs))

theorem State.bootFlashFails_sound {s : State} {code : Nat} {sec : Nat} (hs : State.Sound s) :
    State.Sound (State.bootFlashFails s code sec) := by
  unfold State.bootFlashFails
  exact (sound_ite (State.bootRefused_sound hs) hs)

theorem State.failHostRead_sound {s : State} {p : Packet} {status : Nat} (hs : State.Sound s) :
    State.Sound (State.failHostRead s p status) := by
  unfold State.failHostRead
  exact (State.respond_sound (State.bump_sound hs))

theorem State.pcieStarts_sound {s : State} (hs : State.Sound s) :
    State.Sound (State.pcieStarts s) := by
  unfold State.pcieStarts
  exact (sound_ite hs (State.setReadyBit_sound (sound_mk hs)))

theorem State.failHostReads_sound {s : State} (hs : State.Sound s) :
    State.Sound (State.failHostReads s) := by
  unfold State.failHostReads
  exact (foldl_sound (sound_mk hs) (fun a0 a1 h2 => (State.failHostRead_sound h2)))

theorem State.linkChange_sound {s : State} {up : Bool} {speed : Nat} {width : Nat} (hs : State.Sound s) :
    State.Sound (State.linkChange s up speed width) := by
  unfold State.linkChange
  extract_lets -underBinder +lift x0 x1
  have h2 : State.Sound x0 := (sound_ite hs (State.setFld_sound hs))
  have h3 : State.Sound x1 := (State.setFld_sound (State.setFld_sound (State.setFld_sound h2)))
  exact (sound_ite hs (sound_ite h3 (State.failHostReads_sound h3)))

theorem State.writeCfgByte_sound {s : State} {o : Nat} {v : Byte} (hs : State.Sound s) :
    State.Sound (State.writeCfgByte s o v) := by
  unfold State.writeCfgByte
  extract_lets -underBinder +lift x0 x1
  exact (sound_mk hs)

theorem State.configRequest_sound {s : State} {write : Bool} {offset : Nat} {v : Nat} (hs : State.Sound s) :
    State.Sound (State.configRequest s write offset v) := by
  unfold State.configRequest
  extract_lets -underBinder +lift x0
  exact (sound_ite hs (sound_ite (State.emit_sound hs) (sound_ite (State.emit_sound (foldl_sound hs (fun a1 a2 h3 => (State.writeCfgByte_sound h3)))) (State.emit_sound hs))))

theorem State.copyStatus_sound {s : State} (hs : State.Sound s) :
    State.Sound (State.copyStatus s) := by
  unfold State.copyStatus
  exact (sound_mk hs)

theorem State.pllLocks_sound {s : State} (hs : State.Sound s) :
    State.Sound (State.pllLocks s) := by
  unfold State.pllLocks
  extract_lets -underBinder +lift x0 x1 x2
  have h3 : State.Sound x0 := (State.setReadyBit_sound (State.setReadyBit_sound hs))
  have h4 : State.Sound x1 := (foldl_sound h3 (fun a5 a6 h7 => (State.beginInit_sound h7)))
  exact (sound_ite hs (sound_mk h4))

theorem State.takeHostRead_sound {s : State} {i : Nat} (hs : State.Sound s) :
    State.Sound (State.takeHostRead s i).2 := by
  unfold State.takeHostRead
  split
  · exact hs
  · exact (sound_mk hs)

theorem State.statusRead_sound {s : State} {a : Nat} (hs : State.Sound s) :
    State.Sound (State.statusRead s a) := by
  unfold State.statusRead
  exact (sound_ite hs (sound_ite (State.emit_sound (sound_mk hs)) (sound_ite (State.emit_sound (sound_mk hs)) (State.emit_sound hs))))

theorem State.aonLost_sound {s : State} (hs : State.Sound s) :
    State.Sound (State.aonLost s) := by
  unfold State.aonLost
  exact (State.setReadyBits_sound hs)

theorem State.resetPcie_sound {s : State} (hs : State.Sound s) :
    State.Sound (State.resetPcie s) := by
  unfold State.resetPcie
  extract_lets -underBinder +lift x0 x1 x2 x3
  have h4 : State.Sound x0 := (State.wr_sound hs)
  have h5 : State.Sound x1 := (foldl_sound h4 (fun a6 a7 h8 => (State.wr_sound (State.wr_sound h8))))
  have h9 : State.Sound x3 := (sound_mk h5)
  exact (State.failHostReads_sound (State.setReadyBit_sound (State.wr_sound h9)))

theorem State.statusWrite_sound {s : State} {a : Nat} {v : Nat} (hs : State.Sound s) :
    State.Sound (State.statusWrite s a v) := by
  unfold State.statusWrite
  extract_lets -underBinder +lift x0 x1
  have h2 : State.Sound x1 := (sound_ite (State.setFld_sound hs) hs)
  exact (sound_ite hs (sound_ite (State.bump_sound hs) (State.shepIrq_sound (State.setBit_sound (State.setFld_sound h2)))))

theorem State.aonGood_sound {s : State} (hs : State.Sound s) :
    State.Sound (State.aonGood s) := by
  unfold State.aonGood
  exact (State.setReadyBits_sound hs)

theorem State.hostReadTimeout_sound {s : State} {i : Nat} (hs : State.Sound s) :
    State.Sound (State.hostReadTimeout s i) := by
  unfold State.hostReadTimeout
  split
  · rename_i y1 y2
    have h3 : State.Sound y1 := of_eq (fun z => State.Sound z.2) y2 (State.takeHostRead_sound hs)
    exact h3
  · rename_i y6 y7
    have h8 : State.Sound y6 := of_eq (fun z => State.Sound z.2) y7 (State.takeHostRead_sound hs)
    exact (State.failHostRead_sound h8)

theorem State.dcoStarts_sound {s : State} (hs : State.Sound s) :
    State.Sound (State.dcoStarts s) := by
  unfold State.dcoStarts
  exact (sound_ite hs (State.setReadyBit_sound (State.setFld_sound hs)))

theorem State.bootReadDone_sound {s : State} {img : List Byte} (hs : State.Sound s) :
    State.Sound (State.bootReadDone s img) := by
  unfold State.bootReadDone
  split
  · exact hs
  · exact (State.bootFromHost_sound hs)
  · exact (sound_ite (State.bootImage_sound hs) hs)

theorem State.hostReadDone_sound {s : State} {i : Nat} {status : Nat} {data : List Byte} (hs : State.Sound s) :
    State.Sound (State.hostReadDone s i status data) := by
  unfold State.hostReadDone
  split
  · rename_i y1 y2
    have h3 : State.Sound y1 := of_eq (fun z => State.Sound z.2) y2 (State.takeHostRead_sound hs)
    exact h3
  · rename_i y6 y7
    have h8 : State.Sound y6 := of_eq (fun z => State.Sound z.2) y7 (State.takeHostRead_sound hs)
    exact (sound_ite (State.respond_sound h8) (State.failHostRead_sound h8))

theorem State.powerOn_sound {s : State} (_ : State.Sound s) :
    State.Sound (State.powerOn s) := by
  exact State.setBit_sound (State.setBit_sound (sound_mk sound_empty))

theorem State.pwronReleased_sound {s : State} (hs : State.Sound s) :
    State.Sound (State.pwronReleased s) := by
  unfold State.pwronReleased
  exact (sound_mk hs)

end Sys2Proof.Machine
end

