-- ==== Sys2Proof/Laws/SoundFabric.lean ====
section
/-!
SUPPORT. That the fabric between devices keep the sound form of a state: one lemma for each operation.
-/
namespace Sys2Proof.Machine

/-! ### Machine/Fabric.lean -/

theorem State.fabEvent_sound {s : State} (hs : State.Sound s) :
    State.Sound (State.fabEvent s) := by
  unfold State.fabEvent
  exact (State.msixIf_sound hs)

theorem State.setPartials_sound {s : State} {l : List Partial} (hs : State.Sound s) :
    State.Sound (State.setPartials s l) := by
  unfold State.setPartials
  exact (sound_mk hs)

theorem State.setTxq_sound {s : State} {q : List FabSeg} (hs : State.Sound s) :
    State.Sound (State.setTxq s q) := by
  unfold State.setTxq
  exact (sound_mk hs)

theorem State.sendResponse_sound {s : State} {h : Word} {tr : Nat} {status : Nat} {ld : Nat} {data : List Byte} (hs : State.Sound s) :
    State.Sound (State.sendResponse s h tr status ld data) := by
  unfold State.sendResponse
  extract_lets -underBinder +lift x0 x1 x2
  exact (State.sendTransaction_sound hs)

theorem State.transitDown_sound {s : State} {h : Word} {payload : List Byte} (hs : State.Sound s) :
    State.Sound (State.transitDown s h payload) := by
  unfold State.transitDown
  extract_lets -underBinder +lift x0
  exact (sound_ite hs (sound_ite (State.sendResponse_sound hs) hs))

theorem State.freeBuffer_sound {s : State} {g : Nat} (hs : State.Sound s) :
    State.Sound (State.freeBuffer s g) := by
  unfold State.freeBuffer
  exact (sound_mk hs)

theorem State.release_kept_sound {s : State} {q : FabSeg} (hs : State.Sound s) :
    State.Sound (State.release_ s q) := by
  unfold State.release_
  split
  · exact (sound_ite hs (State.freeBuffer_sound hs))
  · exact hs

theorem State.fabErr_sound {s : State} {code : Nat} {ftag : Nat} {dev : Nat} {srcNi : Nat} {group : Nat} (hs : State.Sound s) :
    State.Sound (State.fabErr s code ftag dev srcNi group) := by
  unfold State.fabErr
  exact (State.wr_sound hs)

theorem State.failRequest_sound {s : State} {r : FabReq} {code : Nat} (hs : State.Sound s) :
    State.Sound (State.failRequest s r code) := by
  unfold State.failRequest
  extract_lets -underBinder +lift x0 x1 x2 x3 x4
  have h5 : State.Sound x2 := (sound_mk hs)
  have h6 : State.Sound x3 := (State.record_sound h5)
  have h7 : State.Sound x4 := (State.fabCount_sound (State.fabErr_sound h6))
  exact (State.respond_sound h7)

theorem State.writeMsgTx_sound {s : State} {v : Word} (hs : State.Sound s) :
    State.Sound (State.writeMsgTx s v) := by
  unfold State.writeMsgTx
  extract_lets -underBinder +lift x0 x1 x2 x3 x4 x5 x6 x7
  have h8 : State.Sound x0 := (State.wrAccess_sound hs)
  have h9 : State.Sound x2.2 := (State.agentRead_sound h8)
  have h10 : State.Sound x3 := (State.replyErrors_sound h9)
  have h11 : State.Sound x6.2 := (State.agentRead_sound h10)
  have h12 : State.Sound x7 := (State.replyErrors_sound h11)
  exact (sound_ite h8 (sound_ite h10 (sound_ite h12 (State.sendTransaction_sound h12))))

theorem State.spendCredit_sound {s : State} {g : Nat} (hs : State.Sound s) :
    State.Sound (State.spendCredit s g) := by
  unfold State.spendCredit
  exact (State.setFld_sound hs)

theorem State.takeSeg_sound {s : State} {p : FabSeg → Bool} (hs : State.Sound s) :
    Sys2Proof.Machine.OptSegSound (State.takeSeg s p) := by
  unfold State.takeSeg
  split
  · trivial
  · exact (State.setTxq_sound hs)

theorem State.segmentFor_sound {s : State} {g : Nat} {quarter : Nat} {pos : Nat} (hs : State.Sound s) :
    Sys2Proof.Machine.OptSegSound (State.segmentFor s g quarter pos) := by
  unfold State.segmentFor
  dsimp only
  have hgt : OptSegSound (match s.positionOwner g quarter pos with
      | some o => s.takeSeg (gtSegment g o)
      | none => none) := by
    split
    · exact State.takeSeg_sound hs
    · trivial
  split
  · rename_i r y
    exact of_eq OptSegSound y hgt
  · split
    · trivial
    · split
      · rename_i r y
        exact State.spendCredit_sound (of_eq OptSegSound y (State.takeSeg_sound hs) : State.Sound r.2)
      · split
        · trivial
        · split
          · rename_i r y
            exact sound_mk (State.spendCredit_sound (of_eq OptSegSound y (State.takeSeg_sound hs) : State.Sound r.2))
          · trivial

theorem State.segmentBytes_sound {s : State} {q : FabSeg} (hs : State.Sound s) :
    State.Sound (State.segmentBytes s q).2 := by
  unfold State.segmentBytes
  extract_lets -underBinder +lift x0 x1
  have h2 : State.Sound x0.2 := (State.drawBytes_sound hs)
  exact h2

theorem State.takePosition_sound {s : State} {g : Nat} {quarter : Nat} {pos : Nat} (hs : State.Sound s) :
    State.Sound (State.takePosition s g quarter pos).2 := by
  unfold State.takePosition
  split
  · exact hs
  · split
    · exact hs
    · rename_i y6 y7
      have h8 : State.Sound y6 := of_eq Sys2Proof.Machine.OptSegSound y7 (State.segmentFor_sound hs)
      exact (State.segmentBytes_sound (State.fabCount_sound (State.release_kept_sound h8)))

theorem State.reachTime_sound {s : State} {t : Word} (hs : State.Sound s) :
    Sys2Proof.Machine.OptSound (State.reachTime s t) := by
  unfold State.reachTime
  extract_lets -underBinder +lift x0
  split
  · exact hs
  · split
    · exact (State.passTo_sound hs)
    · trivial

theorem State.dropNoPos_sound {s : State} {g : Nat} {quarter : Nat} {a : List Nat} (hs : State.Sound s) :
    State.Sound (State.dropNoPos s g quarter a).2 := by
  induction a generalizing s g quarter
  · unfold State.dropNoPos
    exact hs
  · rename_i ih
    unfold State.dropNoPos
    extract_lets -underBinder +lift x40 x41
    have h42 : State.Sound x40.2 := by
      unfold x40
      split
      · split
        · rename_i y47 y48
          have h49 : State.Sound y47.2 := of_eq Sys2Proof.Machine.OptSegSound y48 (State.takeSeg_sound hs)
          exact (State.release_kept_sound h49)
        · exact hs
      · exact hs
    have h54 : State.Sound x41.2 := (ih h42)
    exact h54

theorem State.remoteAccess_sound {s : State} {type : Nat} {offset : Nat} {n : Nat} {data : List Byte} (hs : State.Sound s) :
    State.Sound (State.remoteAccess s type offset n data).2.2 := by
  unfold State.remoteAccess
  extract_lets -underBinder +lift x0 x1
  have h2 : State.Sound x0.2 := (State.agentRead_sound hs)
  have h3 : State.Sound x1.2 := (State.agentWrite_sound hs)
  split
  · exact hs
  · split
    · exact (State.replyErrors_sound h2)
    · exact (State.replyErrors_sound h3)

theorem State.serveTransaction_sound {s : State} {h : Word} {tr : Nat} {data : List Byte} (hs : State.Sound s) :
    State.Sound (State.serveTransaction s h tr data) := by
  unfold State.serveTransaction
  extract_lets -underBinder +lift x0
  have h1 : State.Sound x0.2.2 := (State.remoteAccess_sound hs)
  exact (sound_ite h1 (State.sendResponse_sound h1))

theorem State.answerRequest_sound {s : State} {tr : Nat} {data : List Byte} (hs : State.Sound s) :
    State.Sound (State.answerRequest s tr data) := by
  unfold State.answerRequest
  split
  · exact (State.fabCount_sound hs)
  · exact (sound_ite (State.failRequest_sound hs) (State.respond_sound (sound_mk hs)))

theorem State.receiveMsg_sound {s : State} {h : Word} {bytes : List Byte} (hs : State.Sound s) :
    State.Sound (State.receiveMsg s h bytes) := by
  unfold State.receiveMsg
  extract_lets -underBinder +lift x0
  split
  · exact (State.fabCount_sound hs)
  · split
    · rename_i y4 y5
      have h6 : State.Sound y4 := of_eq Sys2Proof.Machine.OptSound y5 (State.pushRing_sound hs)
      exact h6
    · exact (State.fabCount_sound hs)

theorem State.receiveTransaction_sound {s : State} {h : Word} {bytes : List Byte} (hs : State.Sound s) :
    State.Sound (State.receiveTransaction s h bytes) := by
  unfold State.receiveTransaction
  extract_lets -underBinder +lift x0 x1
  exact (sound_ite (State.fabCount_sound hs) (sound_ite (State.serveTransaction_sound hs) (sound_ite (State.answerRequest_sound hs) (sound_ite (State.receiveMsg_sound hs) hs))))

theorem State.arrive_sound {s : State} {g : Nat} {h : Word} {payload : List Byte} (hs : State.Sound s) :
    State.Sound (State.arrive s g h payload) := by
  unfold State.arrive
  extract_lets -underBinder +lift x0 x1 x2 x3 x4
  have h5 : State.Sound x3 := (sound_ite (State.setPartials_sound (State.fabCount_sound hs)) hs)
  split
  · exact (sound_ite (State.fabCount_sound h5) (sound_ite (State.receiveTransaction_sound h5) (State.setPartials_sound h5)))
  · split
    · exact (sound_ite (State.fabCount_sound hs) hs)
    · exact (sound_ite (State.receiveTransaction_sound (State.setPartials_sound hs)) (State.setPartials_sound hs))

theorem State.forward_sound {s : State} {g : Nat} {h : Word} {payload : List Byte} (hs : State.Sound s) :
    State.Sound (State.forward s g h payload) := by
  unfold State.forward
  extract_lets -underBinder +lift x0 x1 x2 x3 x4 x5
  have h6 : State.Sound x5 := (sound_ite (State.fabCount_sound hs) hs)
  exact (sound_ite (State.transitDown_sound (sound_ite hs (State.freeBuffer_sound hs))) (sound_ite (State.freeBuffer_sound (State.fabCount_sound hs)) (sound_ite (State.fabCount_sound (sound_ite hs (State.freeBuffer_sound hs))) (State.setTxq_sound h6))))

theorem State.receiveSegment_sound {s : State} {g : Nat} {bytes : List Byte} (hs : State.Sound s) :
    State.Sound (State.receiveSegment s g bytes) := by
  unfold State.receiveSegment
  extract_lets -underBinder +lift x0 x1 x2 x3 x4 x5 x6
  have h7 : State.Sound x0 := (State.fabCount_sound hs)
  exact (sound_ite (State.fabCount_sound h7) (sound_ite h7 (sound_ite (State.arrive_sound (sound_ite h7 (State.freeBuffer_sound h7))) (State.forward_sound h7))))

theorem State.takeInbox_sound {s : State} {g : Nat} (hs : State.Sound s) :
    State.Sound (State.takeInbox s g) := by
  unfold State.takeInbox
  split
  · exact hs
  · exact (State.receiveSegment_sound (sound_mk hs))

theorem State.expireTransit_sound {s : State} {g : Nat} (hs : State.Sound s) :
    State.Sound (State.expireTransit s g) := by
  unfold State.expireTransit
  extract_lets -underBinder +lift x0
  exact (foldl_sound (State.setTxq_sound hs) (fun a1 a2 h3 => (State.fabCount_sound (State.release_kept_sound h3))))

theorem State.timeoutTag_sound {s : State} {tag : Nat} (hs : State.Sound s) :
    State.Sound (State.timeoutTag s tag) := by
  unfold State.timeoutTag
  split
  · exact hs
  · split
    · rename_i y6 y7
      have h8 : State.Sound y6 := of_eq Sys2Proof.Machine.OptSound y7 (State.reachTime_sound hs)
      exact (State.failRequest_sound h8)
    · exact hs

theorem State.refuseRemote_sound {s : State} {p : Packet} {status : Nat} (hs : State.Sound s) :
    State.Sound (State.refuseRemote s p status) := by
  unfold State.refuseRemote
  exact (State.respond_sound hs)

theorem State.fabricRequest_sound {s : State} {p : Packet} (hs : State.Sound s) :
    State.Sound (State.fabricRequest s p) := by
  unfold State.fabricRequest
  extract_lets -underBinder +lift x0 x1 x2
  have h3 : State.Sound x1.2.2 := (State.remoteAccess_sound hs)
  exact (sound_ite (State.respond_sound h3) (sound_ite (State.refuseRemote_sound hs) (sound_mk hs)))

theorem State.takePositions_sound {s : State} {g : Nat} {quarter : Nat} {a : List Nat} (hs : State.Sound s) :
    State.Sound (State.takePositions s g quarter a).2 := by
  induction a generalizing s g quarter
  · unfold State.takePositions
    exact hs
  · rename_i ih
    unfold State.takePositions
    extract_lets -underBinder +lift x8 x9
    have h10 : State.Sound x8.2 := (State.takePosition_sound hs)
    have h11 : State.Sound x9.2 := (ih h10)
    exact h11

theorem State.sendRequest_sound {s : State} (hs : State.Sound s) :
    State.Sound (State.sendRequest s) := by
  unfold State.sendRequest
  split
  · exact hs
  · extract_lets -underBinder +lift x6 x7 x8 x9 x10 x11 x12 x13
    have h14 : State.Sound x9 := (sound_mk hs)
    split
    · exact (State.refuseRemote_sound h14)
    · split
      · exact (State.sendTransaction_sound h14)
      · split
        · exact hs
        · extract_lets -underBinder +lift x24 x25 x26
          exact (sound_ite (State.sendTransaction_sound (sound_mk h14)) (State.failRequest_sound h14))

theorem State.ageSegments_sound {s : State} {g : Nat} (hs : State.Sound s) :
    State.Sound (State.ageSegments s g) := by
  unfold State.ageSegments
  exact (State.setTxq_sound hs)

theorem State.endQuarantine_sound {s : State} {tag : Nat} (hs : State.Sound s) :
    State.Sound (State.endQuarantine s tag) := by
  unfold State.endQuarantine
  split
  · exact hs
  · split
    · rename_i y6 y7
      have h8 : State.Sound y6 := of_eq Sys2Proof.Machine.OptSound y7 (State.reachTime_sound hs)
      exact (sound_mk h8)
    · exact hs

/-! ### Machine/Muster.lean -/

theorem State.setMusState_sound {s : State} {n : Nat} (hs : State.Sound s) :
    State.Sound (State.setMusState s n) := by
  unfold State.setMusState
  exact (State.setFld_sound hs)

theorem State.mapMuster_sound {s : State} {f : Muster → Muster} (hs : State.Sound s) :
    State.Sound (State.mapMuster s f) := by
  unfold State.mapMuster
  exact (sound_mk hs)

theorem State.enterMuster_sound {s : State} {m : Nat} (hs : State.Sound s) :
    State.Sound (State.enterMuster s m) := by
  unfold State.enterMuster
  extract_lets -underBinder +lift x0
  have h1 : State.Sound x0 := (State.setMusState_sound (State.setFld_sound hs))
  exact (State.mapMuster_sound h1)

theorem State.completeMuster_sound {s : State} {next : Nat} (hs : State.Sound s) :
    State.Sound (State.completeMuster s next) := by
  unfold State.completeMuster
  exact (State.mapMuster_sound (State.setMusState_sound (State.setFld_sound hs)))

theorem State.becomeLone_sound {s : State} (hs : State.Sound s) :
    State.Sound (State.becomeLone s) := by
  unfold State.becomeLone
  extract_lets -underBinder +lift x0 x1 x2
  have h3 : State.Sound x1 := (sound_ite hs (State.setFld_sound (State.setFld_sound (State.setFld_sound hs))))
  have h4 : State.Sound x2 := (State.setFld_sound (State.setFld_sound h3))
  exact (foldl_sound h4 (fun a5 a6 h7 => (State.wr_sound h7)))

theorem State.coordinate_sound {s : State} (hs : State.Sound s) :
    State.Sound (State.coordinate s) := by
  unfold State.coordinate
  extract_lets -underBinder +lift x0 x1 x2 x3 x4 x5 x6 x7
  have h8 : State.Sound x7 := (State.mapMuster_sound (State.setMusState_sound hs))
  exact (foldl_sound h8 (fun a12 a13 h14 => (by
      extract_lets -underBinder +lift x15
      split
      · exact h14
      · split
        · exact (State.sendMsg_sound h14)
        · exact h14)))

theorem State.takeDone_sound {s : State} {coord : Nat} {epoch : Nat} {pool : List Nat} (hs : State.Sound s) :
    State.Sound (State.takeDone s coord epoch pool) := by
  unfold State.takeDone
  extract_lets -underBinder +lift x0 x1 x2 x3
  have h4 : State.Sound x1 := (foldl_sound hs (fun a5 a6 h7 => (State.wr_sound h7)))
  have h8 : State.Sound x2 := (State.setFld_sound h4)
  have h9 : State.Sound x3 := (State.mapMuster_sound h8)
  exact (State.completeMuster_sound h9)

theorem State.acknowledge_sound {s : State} {uid : Nat} (hs : State.Sound s) :
    State.Sound (State.acknowledge s uid) := by
  unfold State.acknowledge
  extract_lets -underBinder +lift x0 x1 x2 x3
  have h4 : State.Sound x0 := (State.mapMuster_sound hs)
  exact (sound_ite (State.takeDone_sound (State.flood_sound (State.mapMuster_sound h4))) h4)

theorem State.stageAssign_sound {s : State} {addr : Nat} {epoch : Nat} {routes : List Nat} (hs : State.Sound s) :
    State.Sound (State.stageAssign s addr epoch routes) := by
  unfold State.stageAssign
  extract_lets -underBinder +lift x0 x1
  have h2 : State.Sound x0 := (foldl_sound hs (fun a3 a4 h5 => (State.wr_sound h5)))
  have h6 : State.Sound x1 := (sound_ite (State.setFld_sound (State.setFld_sound (State.setFld_sound h2))) (State.setFld_sound (State.setFld_sound h2)))
  exact (State.wr_sound h6)

theorem State.checkSet_sound {s : State} (hs : State.Sound s) :
    State.Sound (State.checkSet s) := by
  unfold State.checkSet
  extract_lets -underBinder +lift x0 x1
  have h2 : State.Sound x1 := (State.coordinate_sound hs)
  split
  · exact hs
  · split
    · exact (State.completeMuster_sound (State.becomeLone_sound hs))
    · split
      · split
        · exact (State.acknowledge_sound (State.stageAssign_sound h2))
        · exact h2
      · exact (State.setMusState_sound hs)

theorem State.startMuster_sound {s : State} (hs : State.Sound s) :
    State.Sound (State.startMuster s) := by
  unfold State.startMuster
  extract_lets -underBinder +lift x0 x1 x2 x3
  have h4 : State.Sound x1 := (State.enterMuster_sound hs)
  have h5 : State.Sound x2 := (State.mapMuster_sound h4)
  have h6 : State.Sound x3 := (State.flood_sound h5)
  exact (State.checkSet_sound (State.flood_sound h6))

theorem State.discardStaged_sound {s : State} (hs : State.Sound s) :
    State.Sound (State.discardStaged s) := by
  unfold State.discardStaged
  exact (State.mapMuster_sound (State.wr_sound (foldl_sound hs (fun a0 a1 h2 => (State.wr_sound h2)))))

theorem State.againIf_sound {s : State} (hs : State.Sound s) :
    State.Sound (State.againIf s) := by
  unfold State.againIf
  exact (sound_ite (State.startMuster_sound hs) hs)

theorem State.abortMuster_sound {s : State} {saw : Bool} (hs : State.Sound s) :
    State.Sound (State.abortMuster s saw) := by
  unfold State.abortMuster
  extract_lets -underBinder +lift x0 x1 x2 x3 x4
  have h5 : State.Sound x1 := (sound_ite hs (State.discardStaged_sound hs))
  have h6 : State.Sound x2 := (State.setMusState_sound (State.bump_sound h5))
  have h7 : State.Sound x3 := (State.flood_sound (State.mapMuster_sound h6))
  exact (sound_ite (State.againIf_sound h6) (sound_ite (State.startMuster_sound h7) (State.mapMuster_sound (State.setMusState_sound h7))))

theorem State.groupEvent_sound {s : State} {g : Nat} {left : Bool} (hs : State.Sound s) :
    State.Sound (State.groupEvent s g left) := by
  unfold State.groupEvent
  extract_lets -underBinder +lift x0
  exact (sound_ite hs (sound_ite (State.startMuster_sound hs) (sound_ite (sound_ite (State.abortMuster_sound hs) hs) (State.mapMuster_sound hs))))

theorem State.leaveService_sound {s : State} {g : Nat} (hs : State.Sound s) :
    State.Sound (State.leaveService s g) := by
  unfold State.leaveService
  extract_lets -underBinder +lift x0 x1 x2 x3 x4 x5
  have h6 : State.Sound x0 := (State.setFld_sound hs)
  have h7 : State.Sound x2 := (State.fabCount_sound (State.setPartials_sound h6))
  have h8 : State.Sound x4 := (State.setTxq_sound h7)
  have h9 : State.Sound x5 := by
    unfold x5
    exact (foldl_sound h8 (fun a16 a17 h18 => (by
        split
        · exact (State.transitDown_sound (State.release_kept_sound h18))
        · extract_lets -underBinder +lift x24
          exact (sound_ite (State.fabCount_sound h18) h18))))
  exact (foldl_sound h9 (fun a25 a26 h27 => (State.failRequest_sound h27)))

theorem State.judgeGroup_sound {s : State} {g : Nat} (hs : State.Sound s) :
    State.Sound (State.judgeGroup s g) := by
  unfold State.judgeGroup
  extract_lets -underBinder +lift x0 x1 x2 x3 x4 x5 x6 x7 x8
  have h9 : State.Sound x6 := (State.setFld_sound (State.setFld_sound hs))
  have h10 : State.Sound x7 := (State.setFld_sound (State.setFld_sound h9))
  exact (sound_ite (sound_ite (State.groupEvent_sound (State.fabEvent_sound (State.setFld_sound (State.leaveService_sound hs)))) (sound_ite (State.fabEvent_sound (State.setFld_sound (State.setFld_sound hs))) hs)) (sound_ite hs (sound_ite (State.fabEvent_sound (State.setFld_sound (State.fabErr_sound (State.record_sound (State.setFld_sound hs))))) (State.groupEvent_sound (State.fabEvent_sound (State.setFld_sound (sound_mk h10)))))))

theorem State.writeFabCtrl_sound {s : State} {v : Word} (hs : State.Sound s) :
    State.Sound (State.writeFabCtrl s v) := by
  unfold State.writeFabCtrl
  extract_lets -underBinder +lift x0 x1
  have h2 : State.Sound x0 := (State.wrAccess_sound hs)
  have h3 : State.Sound x1 := (sound_ite (foldl_sound h2 (fun a4 a5 h6 => (State.wr_sound h6))) h2)
  exact (sound_ite (State.startMuster_sound h3) h3)

theorem State.relay_sound {s : State} {h : Word} {type : Nat} {m : Nat} {uid : Nat} {p : List Byte} (hs : State.Sound s) :
    State.Sound (State.relay s h type m uid p).2 := by
  unfold State.relay
  extract_lets -underBinder +lift x0
  have h1 : State.Sound x0 := (State.mapMuster_sound hs)
  split
  · exact hs
  · exact (State.flood_sound h1)

theorem State.takeAbort_sound {s : State} {h : Word} {p : List Byte} (hs : State.Sound s) :
    State.Sound (State.takeAbort s h p) := by
  unfold State.takeAbort
  extract_lets -underBinder +lift x0
  have h1 : State.Sound x0.2 := (State.relay_sound hs)
  exact (sound_ite hs (sound_ite (State.abortMuster_sound h1) hs))

theorem State.loneProbe_sound {s : State} (hs : State.Sound s) :
    State.Sound (State.loneProbe s) := by
  unfold State.loneProbe
  generalize hw : s.fab.mus.lastProbe + msUnits 10 = w
  split
  · exact hs
  · split
    · rename_i t y
      have h : State.Sound t := of_eq OptSound y (State.reachTime_sound hs)
      exact State.startMuster_sound (State.mapMuster_sound h)
    · exact hs

theorem State.takeAck_sound {s : State} {p : List Byte} (hs : State.Sound s) :
    State.Sound (State.takeAck s p) := by
  unfold State.takeAck
  exact (sound_ite hs (State.againIf_sound (State.acknowledge_sound hs)))

theorem State.takeCall_sound {s : State} {h : Word} {p : List Byte} (hs : State.Sound s) :
    State.Sound (State.takeCall s h p) := by
  unfold State.takeCall
  extract_lets -underBinder +lift x0 x1 x2
  have h3 : State.Sound x1 := (State.enterMuster_sound hs)
  have h4 : State.Sound x2 := (State.relay_sound h3)
  exact (sound_ite hs (sound_ite (State.relay_sound hs) (State.checkSet_sound (State.flood_sound h4))))

theorem State.takeAssign_sound {s : State} {h : Word} {p : List Byte} (hs : State.Sound s) :
    State.Sound (State.takeAssign s h p) := by
  unfold State.takeAssign
  extract_lets -underBinder +lift x0
  exact (sound_ite hs (State.sendMsg_sound (State.setMusState_sound (State.stageAssign_sound hs))))

theorem State.takeDoneMsg_sound {s : State} {h : Word} {p : List Byte} (hs : State.Sound s) :
    State.Sound (State.takeDoneMsg s h p) := by
  unfold State.takeDoneMsg
  extract_lets -underBinder +lift x0 x1
  have h2 : State.Sound x0.2 := (State.relay_sound hs)
  exact (sound_ite hs (sound_ite hs (sound_ite (State.startMuster_sound h2) (State.againIf_sound (State.takeDone_sound h2)))))

theorem State.epochAt_sound {s : State} (hs : State.Sound s) :
    State.Sound (State.epochAt s) := by
  unfold State.epochAt
  extract_lets -underBinder +lift x0 x1 x2 x3 x4 x5 x6
  have h7 : State.Sound x0 := (foldl_sound hs (fun a8 a9 h10 => (State.wr_sound h10)))
  have h11 : State.Sound x2 := (State.setFld_sound (State.setFld_sound h7))
  have h12 : State.Sound x3 := (foldl_sound h11 (fun a13 a14 h15 => (State.setFld_sound h15)))
  have h16 : State.Sound x4 := (State.mapMuster_sound (State.wr_sound h12))
  have h17 : State.Sound x5 := (sound_ite (State.setMusState_sound h16) h16)
  exact (sound_ite hs (State.fabEvent_sound (sound_ite (State.cancelSwap_sound h17) h17)))

theorem State.periodicCall_sound {s : State} (hs : State.Sound s) :
    State.Sound (State.periodicCall s) := by
  unfold State.periodicCall
  split
  · exact hs
  · split
    · rename_i y3 y4
      have h5 : State.Sound y3 := of_eq Sys2Proof.Machine.OptSound y4 (State.reachTime_sound hs)
      exact (State.startMuster_sound h5)
    · exact hs

theorem State.timeoutMuster_sound {s : State} (hs : State.Sound s) :
    State.Sound (State.timeoutMuster s) := by
  unfold State.timeoutMuster
  generalize hw : s.fab.mus.started + msUnits 5 = w
  split
  · exact hs
  · split
    · rename_i t y
      have h : State.Sound t := of_eq OptSound y (State.reachTime_sound hs)
      exact State.abortMuster_sound h
    · exact hs

theorem State.takeLinks_sound {s : State} {h : Word} {p : List Byte} (hs : State.Sound s) :
    State.Sound (State.takeLinks s h p) := by
  unfold State.takeLinks
  extract_lets -underBinder +lift x0
  have h1 : State.Sound x0.2 := (State.relay_sound hs)
  exact (sound_ite hs (sound_ite (State.checkSet_sound (State.mapMuster_sound h1)) h1))

theorem State.endBackoff_sound {s : State} (hs : State.Sound s) :
    State.Sound (State.endBackoff s) := by
  unfold State.endBackoff
  split
  · exact hs
  · split
    · rename_i y3 y4
      have h5 : State.Sound y3 := of_eq Sys2Proof.Machine.OptSound y4 (State.reachTime_sound hs)
      exact (State.startMuster_sound h5)
    · exact hs

/-! ### Machine/Serdes.lean -/

theorem State.clearSds_sound {s : State} (hs : State.Sound s) :
    State.Sound (State.clearSds s) := by
  unfold State.clearSds
  exact (foldl_sound hs (fun a0 a1 h2 => (State.wr_sound h2)))

theorem State.startQuad_sound {s : State} {q : Nat} (hs : State.Sound s) :
    State.Sound (State.startQuad s q) := by
  unfold State.startQuad
  exact (State.setQuad_sound (State.setQuad_sound (State.setQuadReady_sound hs)))

theorem State.writeQuadCfg_sound {s : State} {q : Nat} {v : Word} (hs : State.Sound s) :
    State.Sound (State.writeQuadCfg s q v) := by
  unfold State.writeQuadCfg
  extract_lets -underBinder +lift x0 x1
  have h2 : State.Sound x1 := (State.wrAccess_sound hs)
  exact (sound_ite hs (sound_ite (State.startQuad_sound h2) h2))

theorem State.startAdapt_sound {s : State} {l : Nat} (hs : State.Sound s) :
    State.Sound (State.startAdapt s l) := by
  unfold State.startAdapt
  extract_lets -underBinder +lift x0 x1
  have h2 : State.Sound x0 := (State.setLane_sound hs)
  exact (sound_mk h2)

theorem State.writeLaneCfg_sound {s : State} {l : Nat} {v : Word} (hs : State.Sound s) :
    State.Sound (State.writeLaneCfg s l v) := by
  unfold State.writeLaneCfg
  extract_lets -underBinder +lift x0 x1 x2 x3 x4 x5
  have h6 : State.Sound x1 := (State.wrAccess_sound hs)
  have h7 : State.Sound x3 := (State.setLane_sound (State.setLane_sound (State.setLane_sound h6)))
  have h8 : State.Sound x4 := (State.setFld_sound h7)
  exact (sound_ite (sound_mk h8) (sound_ite h6 (sound_ite (State.startAdapt_sound (State.dropLane_sound h6)) (sound_ite (State.startAdapt_sound h6) h6))))

theorem State.writeFfe_sound {s : State} {l : Nat} {v : Word} (hs : State.Sound s) :
    State.Sound (State.writeFfe s l v) := by
  unfold State.writeFfe
  exact (sound_ite (State.wrAccess_sound hs) (State.setFld_sound hs))

theorem State.countErrors_sound {s : State} {l : Nat} {n : Nat} (hs : State.Sound s) :
    State.Sound (State.countErrors s l n) := by
  unfold State.countErrors
  exact (State.bump_sound hs)

theorem State.writePrbs_sound {s : State} {l : Nat} {v : Word} (hs : State.Sound s) :
    State.Sound (State.writePrbs s l v) := by
  unfold State.writePrbs
  extract_lets -underBinder +lift x0 x1 x2 x3 x4 x5
  have h6 : State.Sound x1 := (State.wrAccess_sound hs)
  have h7 : State.Sound x3 := (sound_ite (State.wr_sound h6) h6)
  have h8 : State.Sound x4 := (sound_ite (State.setFld_sound h7) h7)
  have h9 : State.Sound x5 := (State.emit_sound h8)
  exact (sound_ite (sound_ite (State.countErrors_sound h9) h9) h8)

theorem State.lockPll_sound {s : State} {q : Nat} (hs : State.Sound s) :
    State.Sound (State.lockPll s q) := by
  unfold State.lockPll
  exact (sound_ite hs (State.setQuad_sound hs))

theorem State.setSignal_sound {s : State} {l : Nat} {present : Bool} (hs : State.Sound s) :
    State.Sound (State.setSignal s l present) := by
  unfold State.setSignal
  extract_lets -underBinder +lift x0
  have h1 : State.Sound x0 := (State.setLane_sound hs)
  exact (sound_ite hs (sound_ite (sound_ite (State.startAdapt_sound h1) h1) (State.dropLane_sound hs)))

theorem State.losePll_sound {s : State} {q : Nat} (hs : State.Sound s) :
    State.Sound (State.losePll s q) := by
  unfold State.losePll
  exact (sound_ite (State.setQuad_sound (State.setQuadReady_sound hs)) hs)

theorem State.pllNoLock_sound {s : State} {q : Nat} (hs : State.Sound s) :
    State.Sound (State.pllNoLock s q) := by
  unfold State.pllNoLock
  extract_lets -underBinder +lift x0
  have h1 : State.Sound x0 := (State.setQuad_sound hs)
  split
  · exact hs
  · split
    · exact (sound_ite (State.failDomain_sound h1) (State.record_sound h1))
    · exact (State.record_sound h1)

theorem State.checkerLock_sound {s : State} {l : Nat} {lock : Bool} {mismatches : Nat} (hs : State.Sound s) :
    State.Sound (State.checkerLock s l lock mismatches) := by
  unfold State.checkerLock
  extract_lets -underBinder +lift x0
  exact (sound_ite hs (sound_ite (sound_ite (State.countErrors_sound hs) (State.setFld_sound (State.bump_sound (State.countErrors_sound hs)))) (sound_ite (State.setFld_sound hs) hs)))

theorem State.readyQuad_sound {s : State} {q : Nat} (hs : State.Sound s) :
    State.Sound (State.readyQuad s q) := by
  unfold State.readyQuad
  exact (sound_ite (State.setQuadReady_sound hs) hs)

theorem State.setEq_sound {s : State} {l : Nat} {fom : Nat} {ctle : Nat} {taps : Nat} (hs : State.Sound s) :
    State.Sound (State.setEq s l fom ctle taps) := by
  unfold State.setEq
  exact (State.wr_sound hs)

theorem State.judgeFom_sound {s : State} {l : Nat} {fom : Nat} (hs : State.Sound s) :
    State.Sound (State.judgeFom s l fom) := by
  unfold State.judgeFom
  extract_lets -underBinder +lift x0 x1 x2 x3 x4
  have h5 : State.Sound x4 := (sound_mk hs)
  exact (sound_ite h5 (sound_ite (State.setLane_sound h5) (sound_ite (State.setLane_sound h5) h5)))

theorem State.measureFom_sound {s : State} {l : Nat} {taps : Nat} {h : Nat} {v : Nat} (hs : State.Sound s) :
    State.Sound (State.measureFom s l taps h v) := by
  unfold State.measureFom
  extract_lets -underBinder +lift x0 x1
  exact (sound_ite hs (State.judgeFom_sound (State.setEq_sound hs)))

theorem State.setLock_sound {s : State} {l : Nat} {tracking : Bool} (hs : State.Sound s) :
    State.Sound (State.setLock s l tracking) := by
  unfold State.setLock
  exact (sound_ite hs (sound_ite (sound_ite (State.setLane_sound hs) hs) (State.setLane_sound (State.setLane_sound hs))))

theorem State.endAdapt_sound {s : State} {l : Nat} {ctle : Nat} {taps : Nat} {h : Nat} {v : Nat} (hs : State.Sound s) :
    State.Sound (State.endAdapt s l ctle taps h v) := by
  unfold State.endAdapt
  extract_lets -underBinder +lift x0 x1 x2
  have h3 : State.Sound x2 := (sound_mk hs)
  exact (sound_ite hs (State.judgeFom_sound (State.setLane_sound (State.setEq_sound h3))))

/-! ### Machine/Drove.lean -/

theorem State.clearDrl_sound {s : State} (hs : State.Sound s) :
    State.Sound (State.clearDrl s) := by
  unfold State.clearDrl
  exact (foldl_sound hs (fun a0 a1 h2 => (foldl_sound h2 (fun a3 a4 h5 => (State.wr_sound h5)))))

theorem State.drawKey_sound {s : State} (hs : State.Sound s) :
    State.Sound (State.drawKey s).2 := by
  unfold State.drawKey
  extract_lets -underBinder +lift x0
  have h1 : State.Sound x0.2 := (State.draw_sound hs)
  exact h1

theorem State.setGrp_sound {s : State} {g : Nat} {x : GrpSt} (hs : State.Sound s) :
    State.Sound (State.setGrp s g x) := by
  unfold State.setGrp
  exact (sound_mk hs)

theorem State.setLaneRx_sound {s : State} {l : Nat} {r : LaneRx} (hs : State.Sound s) :
    State.Sound (State.setLaneRx s l r) := by
  unfold State.setLaneRx
  exact (sound_mk hs)

theorem State.drlEvent_sound {s : State} (hs : State.Sound s) :
    State.Sound (State.drlEvent s) := by
  unfold State.drlEvent
  exact (State.msixIf_sound hs)

theorem State.showLane_sound {s : State} {l : Nat} {on : Bool} (hs : State.Sound s) :
    State.Sound (State.showLane s l on) := by
  unfold State.showLane
  extract_lets -underBinder +lift x0
  exact (sound_ite hs (State.drlEvent_sound (State.setFld_sound (State.setFld_sound hs))))

theorem State.refreshGroup_sound {s : State} {g : Nat} (hs : State.Sound s) :
    State.Sound (State.refreshGroup s g) := by
  unfold State.refreshGroup
  extract_lets -underBinder +lift x0 x1 x2 x3 x4 x5
  have h6 : State.Sound x1 := (foldl_sound hs (fun a7 a8 h9 => (State.showLane_sound h9)))
  have h10 : State.Sound x5 := (sound_ite h6 (State.drlEvent_sound (State.setFld_sound (State.setFld_sound (State.setFld_sound h6)))))
  exact (State.judgeGroup_sound h10)

theorem State.refreshKey_sound {s : State} {g : Nat} (hs : State.Sound s) :
    State.Sound (State.refreshKey s g) := by
  unfold State.refreshKey
  extract_lets -underBinder +lift x0
  exact (State.setFld_sound hs)

theorem State.enableGroup_sound {s : State} {g : Nat} (hs : State.Sound s) :
    State.Sound (State.enableGroup s g) := by
  unfold State.enableGroup
  extract_lets -underBinder +lift x0 x1 x2 x3 x4 x5
  have h6 : State.Sound x0.2 := (State.drawKey_sound hs)
  have h7 : State.Sound x3 := (State.setGrp_sound h6)
  have h8 : State.Sound x4 := (foldl_sound h7 (fun a9 a10 h11 => (State.setFld_sound (State.setLaneRx_sound h11))))
  have h12 : State.Sound x5 := (State.setFld_sound (State.setFld_sound h8))
  exact (State.refreshGroup_sound (State.refreshKey_sound h12))

theorem State.disableGroup_sound {s : State} {g : Nat} (hs : State.Sound s) :
    State.Sound (State.disableGroup s g) := by
  unfold State.disableGroup
  extract_lets -underBinder +lift x0 x1
  have h2 : State.Sound x1 := (foldl_sound (State.setGrp_sound hs) (fun a3 a4 h5 => (State.setFld_sound (State.setLaneRx_sound h5))))
  exact (State.refreshGroup_sound (State.refreshKey_sound (State.setFld_sound h2)))

theorem State.writeGrpCfg_sound {s : State} {g : Nat} {v : Word} (hs : State.Sound s) :
    State.Sound (State.writeGrpCfg s g v) := by
  unfold State.writeGrpCfg
  extract_lets -underBinder +lift x0 x1 x2 x3 x4 x5 x6
  have h7 : State.Sound x5 := (State.wrAccess_sound hs)
  have h8 : State.Sound x6 := (sound_ite (State.setFld_sound h7) h7)
  exact (sound_ite (State.enableGroup_sound h8) (sound_ite (State.disableGroup_sound h8) h8))

theorem State.writeGrpLanes_sound {s : State} {g : Nat} {v : Word} (hs : State.Sound s) :
    State.Sound (State.writeGrpLanes s g v) := by
  unfold State.writeGrpLanes
  extract_lets -underBinder +lift x0 x1
  exact (sound_ite hs (sound_ite (State.setFld_sound hs) (State.wrAccess_sound hs)))

theorem State.alignLane_sound {s : State} {l : Nat} {correct : Bool} (hs : State.Sound s) :
    State.Sound (State.alignLane s l correct) := by
  unfold State.alignLane
  extract_lets -underBinder +lift x0 x1 x2 x3 x4 x5 x6 x7 x8
  exact (State.setLaneRx_sound (State.setFld_sound hs))

theorem State.pmCount_sound {s : State} {x : Nat} {k : Nat} {n : optParam Nat 1} (hs : State.Sound s) :
    State.Sound (State.pmCount s x k n) := by
  unfold State.pmCount
  exact (State.tally_sound hs)

theorem State.pmLane_sound {s : State} {l : Nat} {g : Option Nat} {k : Nat} {n : optParam Nat 1} (hs : State.Sound s) :
    State.Sound (State.pmLane s l g k n) := by
  unfold State.pmLane
  split
  · exact (State.pmCount_sound (State.pmCount_sound hs))
  · exact (State.pmCount_sound hs)

theorem State.setPm_sound {s : State} {x : Nat} {p : PmSt} (hs : State.Sound s) :
    State.Sound (State.setPm s x p) := by
  unfold State.setPm
  exact (sound_mk hs)

theorem State.takeFrame_sound {s : State} {g : Nat} {l : Nat} {p : RxParse} {correct : Bool} {exact : Bool} {skew : Nat} (hs : State.Sound s) :
    State.Sound (State.takeFrame s g l p correct exact skew) := by
  unfold State.takeFrame
  extract_lets -underBinder +lift x0 x1 x2 x3 x4 x5 x6 x7 x8 x9 x10 x11 x12 x13 x14 x15 x16 x17
  have h18 : State.Sound x2 := (sound_ite (State.pmCount_sound hs) hs)
  have h19 : State.Sound x3 := (sound_ite h18 (State.pmLane_sound h18))
  have h20 : State.Sound x4 := (sound_ite (State.pmLane_sound h19) h19)
  have h21 : State.Sound x5 := (sound_ite (State.pmLane_sound h20) h20)
  have h22 : State.Sound x6 := (sound_ite (State.pmLane_sound h21) h21)
  have h23 : State.Sound x8 := (sound_ite h22 (State.pmLane_sound h22))
  have h24 : State.Sound x11 := (State.setLaneRx_sound h23)
  have h25 : State.Sound x13 := (State.setPm_sound h24)
  exact (State.setGrp_sound h25)

theorem State.takeNothing_sound {s : State} {g : Nat} {l : Nat} {skew : Nat} (hs : State.Sound s) :
    State.Sound (State.takeNothing s g l skew) := by
  unfold State.takeNothing
  extract_lets -underBinder +lift x0 x1
  exact (State.setGrp_sound hs)

theorem State.takePeer_sound {s : State} {g : Nat} {f : LaneFrame} (hs : State.Sound s) :
    State.Sound (State.takePeer s g f) := by
  unfold State.takePeer
  extract_lets -underBinder +lift x0 x1 x2 x3 x4 x5 x6 x7
  have h8 : State.Sound x2 := (State.setFld_sound (State.setFld_sound (State.setFld_sound (State.setFld_sound hs))))
  have h9 : State.Sound x4 := (State.setFld_sound (State.setFld_sound (State.setFld_sound (State.setFld_sound h8))))
  have h10 : State.Sound x5 := (State.wr_sound h9)
  have h11 : State.Sound x6.2 := (State.drawKey_sound h10)
  exact (sound_ite hs (sound_ite (State.setFld_sound h10) (sound_ite (State.setFld_sound (State.setGrp_sound h11)) h10)))

theorem State.takeCredits_sound {s : State} {g : Nat} {f : LaneFrame} (hs : State.Sound s) :
    State.Sound (State.takeCredits s g f) := by
  unfold State.takeCredits
  exact (sound_ite (State.bump_sound hs) hs)

theorem State.deliver_sound {s : State} {g : Nat} {fs : List LaneFrame} {ais : Bool} (hs : State.Sound s) :
    State.Sound (State.deliver s g fs ais) := by
  unfold State.deliver
  extract_lets -underBinder +lift x0
  split
  · exact hs
  · exact (foldl_sound hs (fun a9 a10 h11 => (sound_ite (State.fabCount_sound h11) (by
        extract_lets -underBinder +lift x12 x13
        exact (sound_ite h11 (sound_mk h11))))))

theorem State.groupFrame_sound {s : State} {g : Nat} (hs : State.Sound s) :
    State.Sound (State.groupFrame s g) := by
  unfold State.groupFrame
  extract_lets ls fs inSync x was s1 s2 s3 s4 s5 d s6 _ s7 s8
  have h1 : State.Sound s1 := State.setGrp_sound hs
  have h2 : State.Sound s2 := sound_ite (foldl_sound h1 fun t a h => State.setLaneRx_sound h) h1
  have h3 : State.Sound s3 := foldl_sound h2 fun t a h => State.takePeer_sound h
  have h4 : State.Sound s4 := foldl_sound h3 fun t a h => State.setFld_sound h
  have h5 : State.Sound s5 := State.refreshGroup_sound (State.refreshKey_sound h4)
  have h6 : State.Sound s6 := sound_ite (State.pmCount_sound h5) h5
  have h7 : State.Sound s7 := sound_ite h6 (State.setPm_sound h6)
  have h8 : State.Sound s8 := by
    have h : ∀ l : List LaneFrame, State.Sound (match l with
        | f :: _ =>
          let t := s7.takeCredits g f
          if f.errorFree = true ∧ rxField f.fields 144 8 ≠ t.fabricProfile ∧ t.inService g = true then
            t.fabCount cntMapMismatch
          else t
        | [] => s7) := fun l => by
      split
      · exact sound_ite (State.fabCount_sound (State.takeCredits_sound h7)) (State.takeCredits_sound h7)
      · exact h7
    exact h fs
  exact State.deliver_sound h8

theorem State.receiveLane_sound {s : State} {l : Nat} {line : List Bool} {skew : Nat} (hs : State.Sound s) :
    State.Sound (State.receiveLane s l line skew) := by
  unfold State.receiveLane
  split
  · exact hs
  · extract_lets -underBinder +lift x5 x6 x7 x8 x9 x10 x11 x12 x13 x14 x15
    have h16 : State.Sound x8 := (State.alignLane_sound hs)
    have h17 : State.Sound x9 := (sound_ite h16 (State.pmLane_sound h16))
    have h18 : State.Sound x10 := (sound_ite (State.takeFrame_sound h17) (State.takeNothing_sound h17))
    have h19 : State.Sound x12 := (sound_ite (State.pmCount_sound h18) h18)
    have h20 : State.Sound x15 := (sound_ite h19 (State.setPm_sound h19))
    exact (sound_ite hs (sound_ite (State.groupFrame_sound h20) (State.refreshGroup_sound (State.refreshKey_sound h20))))

theorem State.sendLane_sound {s : State} {g : Nat} {i : Nat} {lane : Nat} {fn : Nat} {credits : Nat}
    {positions : List (List Byte)} (hs : State.Sound s) :
    State.Sound (State.sendLane s g i lane fn credits positions) := by
  unfold State.sendLane
  extract_lets -underBinder +lift x0 x1 x2 x3 x4 x5 x6 x7 x8 x9
  have h10 : State.Sound x8 := (sound_mk hs)
  have h11 : State.Sound x9 := (sound_ite (State.pmCount_sound h10) h10)
  exact (sound_ite h11 (State.emit_sound h11))

theorem State.pmPeriod_sound {s : State} {x : Nat} {k : Nat} {at_ : PmSec} {add : Bool} (hs : State.Sound s) :
    State.Sound (State.pmPeriod s x k at_ add) := by
  unfold State.pmPeriod
  extract_lets -underBinder +lift x0 x1
  have h2 : State.Sound x1 := (sound_ite (State.wr_sound hs) (sound_ite (State.wr_sound hs) hs))
  exact (sound_ite (State.wr_sound h2) h2)

theorem State.countSecond_sound {s : State} {x : Nat} (hs : State.Sound s) :
    State.Sound (State.countSecond s x) := by
  unfold State.countSecond
  extract_lets -underBinder +lift x0 x1 x2 x3 x4 x5 x6 x7 x8 x9
  have h10 : State.Sound x6 := (State.wr_sound hs)
  have h11 : State.Sound x8 := (foldl_sound h10 (fun a12 a13 h14 => (State.pmPeriod_sound (State.pmPeriod_sound (State.pmPeriod_sound h14)))))
  have h15 : State.Sound x9 := (foldl_sound h10 (fun a16 a17 h18 => (sound_ite (State.pmPeriod_sound h18) h18)))
  exact (sound_ite (sound_ite (State.setPm_sound (sound_ite (State.pmPeriod_sound h10) h10)) (sound_ite (State.setPm_sound (State.pmPeriod_sound (State.pmPeriod_sound h10))) (State.setPm_sound (State.setFld_sound (State.pmPeriod_sound h11))))) (sound_ite (State.setPm_sound (State.pmPeriod_sound h10)) (sound_ite (State.setPm_sound (State.pmPeriod_sound h10)) (State.setPm_sound (State.setFld_sound (foldl_sound h15 (fun a19 a20 h21 => (State.pmPeriod_sound h21))))))))

theorem State.judgeDeg_sound {s : State} {l : Nat} (hs : State.Sound s) :
    State.Sound (State.judgeDeg s l) := by
  unfold State.judgeDeg
  extract_lets -underBinder +lift x0 x1 x2 x3
  exact (sound_ite hs (sound_ite (State.setLaneRx_sound hs) (sound_ite (State.setLaneRx_sound hs) (State.setLaneRx_sound hs))))

theorem State.endSecond_sound {s : State} (hs : State.Sound s) :
    State.Sound (State.endSecond s) := by
  unfold State.endSecond
  extract_lets -underBinder +lift x0 x1 x2
  have h3 : State.Sound x2 := (sound_mk hs)
  split
  · exact hs
  · exact (foldl_sound h3 (fun a12 a13 h14 => (by
        extract_lets -underBinder +lift x15
        have h16 : State.Sound x15 := (foldl_sound h14 (fun a17 a18 h19 => (State.countSecond_sound (State.judgeDeg_sound h19))))
        exact (State.refreshGroup_sound (State.countSecond_sound h16)))))

theorem State.endPeriod_sound {s : State} (hs : State.Sound s) :
    State.Sound (State.endPeriod s) := by
  unfold State.endPeriod
  extract_lets -underBinder +lift x0 x1 x2 x3 x4 x5
  have h6 : State.Sound x0 := (sound_ite (State.endSecond_sound hs) hs)
  have h7 : State.Sound x1 := (foldl_sound h6 (fun a8 a9 h10 => (foldl_sound h10 (fun a11 a12 h13 => (State.wr_sound (State.wr_sound h13))))))
  have h14 : State.Sound x3 := (sound_ite h6 (sound_mk h7))
  have h15 : State.Sound x4 := (foldl_sound h14 (fun a16 a17 h18 => (foldl_sound h18 (fun a19 a20 h21 => (State.wr_sound h21)))))
  exact (sound_ite h14 (sound_mk h15))

theorem State.secondBegins_sound {s : State} (hs : State.Sound s) :
    State.Sound (State.secondBegins s) := by
  unfold State.secondBegins
  extract_lets -underBinder +lift x0 x1 x2
  have h3 : State.Sound x0 := (State.endSecond_sound (State.endPeriod_sound hs))
  exact (sound_mk h3)

theorem State.transmitGroup_sound {s : State} {g : Nat} (hs : State.Sound s) :
    State.Sound (State.transmitGroup s g) := by
  unfold State.transmitGroup
  extract_lets -underBinder +lift x0 x1 x2 x3 x4 x5 x6 x7 x8 x9 x10 x11 x12 x13
  have h14 : State.Sound x2 := (State.passTo_sound hs)
  have h15 : State.Sound x5 := (State.expireTransit_sound (State.setGrp_sound h14))
  have h16 : State.Sound x8 := (sound_mk h15)
  have h17 : State.Sound x10.2 := (State.takePositions_sound h16)
  have h18 : State.Sound x11.2 := (State.dropNoPos_sound h17)
  have h19 : State.Sound x12 := (sound_ite h18 (State.pmCount_sound h18))
  have h20 : State.Sound x13 := (foldl_sound h19 (fun a21 a22 h23 => (State.sendLane_sound h23)))
  exact (sound_ite hs (sound_ite hs (State.ageSegments_sound h20)))

end Sys2Proof.Machine
end

