-- ==== Sys2Proof/Laws/SoundPorts.lean ====
section
/-!
SUPPORT. That the debug and register ports keep the sound form of a state: one lemma for each operation.
-/
namespace Sys2Proof.Machine

/-! ### Machine/Debug.lean -/

theorem State.writeWindow_sound {s : State} {off : Nat} {v : Nat} (hs : State.Sound s) :
    State.Sound (State.writeWindow s off v) := by
  unfold State.writeWindow
  exact (State.mapCore_sound hs)

theorem State.haltNow_sound {s : State} (hs : State.Sound s) :
    State.Sound (State.haltNow s) := by
  unfold State.haltNow
  exact sound_ite hs (State.bump_sound (State.setFld_sound (sound_cycle hs hs.tick (Nat.min_le_left _ _))))

theorem State.requestResume_sound {s : State} (hs : State.Sound s) :
    State.Sound (State.requestResume s) := by
  unfold State.requestResume
  exact sound_ite hs (sound_cycle hs hs.tick (Nat.min_le_left _ _))

theorem State.endAttach_sound {s : State} (hs : State.Sound s) :
    State.Sound (State.endAttach s) := by
  unfold State.endAttach
  extract_lets -underBinder +lift x0 x1
  have h2 : State.Sound x0 := (State.setFld_sound hs)
  exact (sound_ite hs (sound_mk h2))

theorem State.detachNow_sound {s : State} (hs : State.Sound s) :
    State.Sound (State.detachNow s) := by
  unfold State.detachNow
  extract_lets -underBinder +lift x0 x1
  have h2 : State.Sound x0 := (State.requestResume_sound hs)
  exact (sound_ite hs (sound_ite (sound_mk h2) (State.endAttach_sound hs)))

theorem State.writeDbgCtrl_sound {s : State} {v : Word} (hs : State.Sound s) :
    State.Sound (State.writeDbgCtrl s v) := by
  unfold State.writeDbgCtrl
  extract_lets -underBinder +lift x0 x1
  have h2 : State.Sound x0 := (sound_ite (State.haltNow_sound hs) hs)
  have h3 : State.Sound x1 := (sound_ite (State.requestResume_sound h2) h2)
  exact (sound_ite (State.detachNow_sound h3) h3)

theorem State.writeUartCfg_sound {s : State} {v : Word} (hs : State.Sound s) :
    State.Sound (State.writeUartCfg s v) := by
  unfold State.writeUartCfg
  extract_lets -underBinder +lift x0 x1
  have h2 : State.Sound x0 := (State.wrAccess_sound hs)
  exact (sound_ite hs (sound_ite (State.wrAccess_sound hs) (sound_mk h2)))

theorem State.uartSend_sound {s : State} {c : Nat} (hs : State.Sound s) :
    State.Sound (State.uartSend s c) := by
  unfold State.uartSend
  exact (sound_ite hs (sound_ite (sound_mk hs) (sound_ite (sound_mk hs) (State.setFld_sound hs))))

theorem State.uartIrq_sound {s : State} (hs : State.Sound s) :
    State.Sound (State.uartIrq s) := by
  unfold State.uartIrq
  exact (sound_ite (State.shepIrq_sound hs) (State.msix_sound hs))

theorem State.writeUartIrq_sound {s : State} {v : Word} (hs : State.Sound s) :
    State.Sound (State.writeUartIrq s v) := by
  unfold State.writeUartIrq
  extract_lets -underBinder +lift x0
  have h1 : State.Sound x0 := (State.wrAccess_sound hs)
  exact (sound_ite (State.uartIrq_sound h1) h1)

theorem State.dropWork_sound {s : State} (hs : State.Sound s) :
    State.Sound (State.dropWork s).1 := by
  unfold State.dropWork
  extract_lets -underBinder +lift x0 x1 x2 x3 x4 x5 x6
  have h7 : State.Sound x1 := (foldl_sound hs (fun a8 a9 h10 => (State.markBusy_sound h10)))
  have h11 : State.Sound x5 := (sound_mk h7)
  have h12 : State.Sound x6 := (foldl_sound h11 (fun a13 a14 h15 => (State.mapCore_sound h15)))
  exact (foldl_sound h12 (fun a16 a17 h18 => (State.restartFold_sound h18)))

theorem State.tap_sound {s : State} {ir : Nat} {f : State → State} (hs : State.Sound s) (hf : ∀ t0, State.Sound t0 → State.Sound (f t0)) :
    State.Sound (State.tap s ir f) := by
  unfold State.tap
  exact (sound_ite (hf _ (sound_mk hs)) hs)

theorem State.uartReceive_sound {s : State} {data : Nat} {parity : Bool} {stop : Bool} (hs : State.Sound s) :
    State.Sound (State.uartReceive s data parity stop) := by
  unfold State.uartReceive
  extract_lets -underBinder +lift x0 x1 x2 x3 x4 x5 x6
  have h7 : State.Sound x4 := (sound_ite (State.setFld_sound hs) hs)
  have h8 : State.Sound x6 := (sound_mk h7)
  exact (sound_ite hs (sound_ite (State.setFld_sound h7) (sound_ite (State.uartIrq_sound h8) h8)))

theorem State.uartDrain_sound {s : State} (hs : State.Sound s) :
    State.Sound (State.uartDrain s) := by
  unfold State.uartDrain
  extract_lets -underBinder +lift x0 x1 x2 x3
  have h4 : State.Sound x1 := (foldl_sound hs (fun a5 a6 h7 => (State.emit_sound h7)))
  have h8 : State.Sound x3 := (sound_mk h4)
  exact (sound_ite hs (sound_ite (State.uartIrq_sound h8) h8))

theorem State.lateTimers_sound {s : State} (hs : State.Sound s) :
    State.Sound (State.lateTimers s) := by
  unfold State.lateTimers
  exact (foldl_sound hs (fun a0 a1 h2 => (sound_ite (State.armTimer_sound h2) h2)))

theorem State.realign_sound {s : State} (hs : State.Sound s) :
    State.Sound (State.realign s) := by
  unfold State.realign
  exact (foldl_sound hs (fun a3 a4 h5 => (by
      extract_lets -underBinder +lift x6 x7
      have h8 : State.Sound x6 := (foldl_sound h5 (fun a9 a10 h11 => (State.setFld_sound (State.setLaneRx_sound h11))))
      exact (State.refreshGroup_sound (State.refreshKey_sound (State.setGrp_sound h8))))))

theorem State.resumeAt_sound {s : State} (hs : State.Sound s) :
    State.Sound (State.resumeAt s) := by
  unfold State.resumeAt
  extract_lets _ s0 runs f _ _ s1 w s2 s3 s4 _ _ s5
  have h0 : State.Sound s0 := sound_cycle hs hs.tick (by dsimp only; split <;> decide)
  have h1 : State.Sound s1 := sound_mk (State.setFld_sound h0)
  have h2 : State.Sound s2 := State.completeWhere_sound (State.dropWork_sound (State.resetPcie_sound h1))
  have h3 : State.Sound s3 := State.lateTimers_sound (State.realign_sound h2)
  have h4 : State.Sound s4 := by
    unfold s4
    split
    · exact sound_ite (State.cancelSwap_sound h3) h3
    · exact h3
  have h5 : State.Sound s5 := sound_ite (sound_mk (State.setFld_sound (State.setFld_sound h4)))
    (foldl_sound h4 fun t a h => State.aim_sound h)
  exact sound_ite hs (sound_ite (State.endAttach_sound h5) h5)

theorem State.restartAlmanac_sound {s : State} (hs : State.Sound s) :
    State.Sound (State.restartAlmanac s) := by
  unfold State.restartAlmanac
  extract_lets -underBinder +lift x0 x1 x2 x3
  have h4 : State.Sound x0 := (State.setFld_sound hs)
  have h5 : State.Sound x2 := (sound_mk h4)
  have h6 : State.Sound x3 := (State.swapWindows_sound (State.loadTimers_sound h5))
  exact (sound_ite hs (foldl_sound (State.effectAt_sound (State.resolveAt_sound h6)) (fun a7 a8 h9 => (State.aim_sound h9))))

theorem State.endEmulation_sound {s : State} (hs : State.Sound s) :
    State.Sound (State.endEmulation s) := by
  unfold State.endEmulation
  exact (sound_ite hs (foldl_sound (sound_mk hs) (fun a0 a1 h2 => (sound_ite (State.aim_sound (State.domChange_sound (State.setFld_sound (State.setFld_sound h2)))) h2))))

theorem State.authFailed_sound {s : State} (hs : State.Sound s) :
    State.Sound (State.authFailed s) := by
  unfold State.authFailed
  extract_lets -underBinder +lift x0 x1 x2 x3
  have h4 : State.Sound x1 := (State.setFld_sound hs)
  exact (sound_ite h4 (State.record_sound (sound_mk h4)))

theorem State.attach_sound {s : State} (hs : State.Sound s) :
    State.Sound (State.attach s) := by
  unfold State.attach
  extract_lets -underBinder +lift x0 x1
  have h2 : State.Sound x0 := (State.setFld_sound (State.setFld_sound hs))
  exact (foldl_sound (sound_mk h2) (fun a3 a4 h5 => (sound_ite (State.startWake_sound h5) h5)))

theorem State.authorise_sound {s : State} {mac : List Byte} (hs : State.Sound s) :
    State.Sound (State.authorise s mac) := by
  unfold State.authorise
  extract_lets -underBinder +lift x0 x1 x2
  have h3 : State.Sound x2 := (sound_mk hs)
  exact (sound_ite hs (sound_ite (State.attach_sound h3) (State.authFailed_sound h3)))

theorem State.capture_sound {s : State} {w : Nat} {v : Nat} (hs : State.Sound s) :
    State.Sound (State.capture s w v) := by
  unfold State.capture
  exact (State.emit_sound hs)

theorem State.bypassed_sound {s : State} (hs : State.Sound s) :
    State.Sound (State.bypassed s) := by
  unfold State.bypassed
  exact (State.capture_sound hs)

theorem State.endLockout_sound {s : State} (hs : State.Sound s) :
    State.Sound (State.endLockout s) := by
  unfold State.endLockout
  split
  · exact hs
  · split
    · rename_i y6 y7
      have h8 : State.Sound y6 := of_eq Sys2Proof.Machine.OptSound y7 (State.reachTime_sound hs)
      exact (sound_mk h8)
    · exact hs

theorem State.drawNonce_sound {s : State} (hs : State.Sound s) :
    State.Sound (State.drawNonce s) := by
  unfold State.drawNonce
  extract_lets -underBinder +lift x0 x1 x2
  have h3 : State.Sound x0.2 := (State.drawBytes_sound hs)
  have h4 : State.Sound x1 := h3
  exact (sound_ite (State.capture_sound hs) (State.capture_sound (sound_mk h4)))

/-! ### Machine/Prach.lean -/

theorem State.clearPra_sound {s : State} (hs : State.Sound s) :
    State.Sound (State.clearPra s) := by
  unfold State.clearPra
  exact (foldl_sound hs (fun a0 a1 h2 => (State.wr_sound h2)))

theorem State.writePraCfg_sound {s : State} {r : Nat} {v : Word} (hs : State.Sound s) :
    State.Sound (State.writePraCfg s r v) := by
  unfold State.writePraCfg
  extract_lets -underBinder +lift x0 x1 x2 x3
  have h4 : State.Sound x1 := (State.wrAccess_sound hs)
  have h5 : State.Sound x2 := (State.setFld_sound (State.setFld_sound (State.setFld_sound h4)))
  exact (sound_ite hs (sound_ite (sound_mk h5) h4))

theorem State.praPost_sound {s : State} {p : PraRec} (hs : State.Sound s) :
    State.Sound (State.praPost s p) := by
  unfold State.praPost
  extract_lets -underBinder +lift x0 x1 x2 x3 x4 x5 x6 x7 x8 x9 x10
  have h11 : State.Sound x7 := (State.write70_sound hs)
  have h12 : State.Sound x8 := (State.setFld_sound h11)
  have h13 : State.Sound x9 := (sound_ite (State.setFld_sound h12) h12)
  have h14 : State.Sound x10 := (sound_ite (State.bump_sound h13) h13)
  exact (sound_ite (State.bump_sound hs) (State.countRecord_sound h14))

theorem State.praRecords_sound {s : State} {e : Nat} (hs : State.Sound s) :
    State.Sound (State.praRecords s e) := by
  unfold State.praRecords
  extract_lets -underBinder +lift x0 x1
  exact (foldl_sound (sound_mk hs) (fun a2 a3 h4 => (State.praPost_sound h4)))

theorem State.ratioDb_sound {s : State} {a : Nat} {b : Nat} (hs : State.Sound s) :
    State.Sound (State.ratioDb s a b).2 := by
  unfold State.ratioDb
  extract_lets -underBinder +lift x0 x1
  have h2 : State.Sound x0.2 := (State.draw_sound hs)
  split
  · exact h2
  · exact h2

theorem State.startPrach_sound {s : State} {e : Nat} {op : Nat} (hs : State.Sound s) :
    State.Sound (State.startPrach s e op).2 := by
  unfold State.startPrach
  extract_lets -underBinder +lift x0
  have h1 : State.Sound x0 := (State.whenServed_sound hs)
  split
  · exact h1
  · extract_lets -underBinder +lift x7 x8
    split
    · exact h1
    · split
      · exact (State.freeze_sound h1)
      · exact h1

theorem State.praTiming_sound {s : State} {i : Nat} {sel : Nat} {d : Nat} {a : Nat} {b : Nat} {c : Nat} (hs : State.Sound s) :
    State.Sound (State.praTiming s i sel d a b c).2 := by
  unfold State.praTiming
  extract_lets -underBinder +lift x0 x1 x2 x3 x4
  have h5 : State.Sound x0.2 := (State.draw_sound hs)
  exact h5

theorem State.praPeaks_sound {s : State} {e : Nat} {i : Nat} {sel : Nat} {profile : Array Nat} {sum : Nat} {count : Nat}
    {rec : Nat → Nat → Nat → Nat → PraRec} {a : List Nat} (hs : State.Sound s) :
    State.Sound (State.praPeaks s e i sel profile sum count rec a).2 := by
  induction a generalizing s e i sel profile sum count
  · unfold State.praPeaks
    exact hs
  · rename_i ih
    unfold State.praPeaks
    extract_lets -underBinder +lift x13 x14 x15 x16 x17
    have h18 : State.Sound x14.2 := (State.ratioDb_sound hs)
    have h19 : State.Sound x15.2 := (State.praTiming_sound h18)
    have h20 : State.Sound x16.2 := (State.ratioDb_sound h19)
    have h21 : State.Sound x17.2 := (ih h20)
    exact h21

theorem State.bankRead_sound {s : State} {g base : Nat} {profile : Array Nat} {a : List Nat} (hs : State.Sound s) :
    State.Sound (State.bankRead s g base profile a).2.2 := by
  induction a generalizing s
  · unfold State.bankRead
    exact hs
  · rename_i ih
    unfold State.bankRead
    extract_lets -underBinder +lift x0 x1 x2
    split
    · exact ih hs
    · exact ih (State.noteCorrected_sound hs)
    · exact (State.noteUncorrectable_sound hs)

theorem State.readBank_sound {s : State} {e : Nat} {b : Bank} (hs : State.Sound s) : State.Sound (State.readBank s e b).2.2 :=
  State.bankRead_sound hs

theorem State.heldBank_sound {s : State} {e size : Nat} {b : Option Bank} (hs : State.Sound s) :
    State.Sound (State.heldBank s e size b).2.2 := by
  cases b
  · exact hs
  · exact State.readBank_sound hs

theorem State.writeBank_sound {s : State} {e : Nat} {b : Bank} (hs : State.Sound s) : State.Sound (State.writeBank s e b) :=
  foldl_sound hs (fun _ _ h => State.freshWord_sound h)

theorem State.praDetect_sound {s : State} {e : Nat} (hs : State.Sound s) :
    State.Sound (State.praDetect s e) := by
  unfold State.praDetect
  split
  · rename_i y1 y2
    have h3 : State.Sound y1 := of_eq (fun z => State.Sound z.2) y2 (State.startPrach_sound hs)
    exact h3
  · rename_i y6 y7
    have h8 : State.Sound y6 := of_eq (fun z => State.Sound z.2) y7 (State.startPrach_sound hs)
    extract_lets -underBinder +lift x9 x10 x11 x12 x13 x14 x15 x16 x17 x18 x19 x20
    have h21 : State.Sound x20.2.2 := (State.heldBank_sound h8)
    split
    · exact (State.uncorrectables_sound h21)
    · extract_lets -underBinder +lift z1 z2 z3 z4 z5 z6 z7
      have h27 : State.Sound z4.2 := (State.praPeaks_sound h21)
      have h28 : State.Sound z5.2 := (State.ratioDb_sound h27)
      exact (State.markRan_sound (sound_mk h28))

theorem State.praAdd_sound {s : State} {i : Nat} {fdm : Nat} {sel : Nat} {occ : Nat} {words : List Nat} {a : List Nat} (hs : State.Sound s) :
    State.Sound (State.praAdd s i fdm sel occ words a).2 := by
  induction a generalizing s i fdm sel occ words
  · unfold State.praAdd
    exact hs
  · rename_i ih
    unfold State.praAdd
    split
    · exact (ih hs)
    · extract_lets -underBinder +lift x11
      have h12 : State.Sound x11.2 := (State.roundFree_sound hs)
      exact (ih h12)

theorem State.praAccum_sound {s : State} {e : Nat} (hs : State.Sound s) :
    State.Sound (State.praAccum s e) := by
  unfold State.praAccum
  split
  · rename_i y1 y2
    have h3 : State.Sound y1 := of_eq (fun z => State.Sound z.2) y2 (State.startPrach_sound hs)
    exact h3
  · rename_i y6 y7
    have h8 : State.Sound y6 := of_eq (fun z => State.Sound z.2) y7 (State.startPrach_sound hs)
    extract_lets -underBinder +lift x9 x10 x11 x12 x13 x14 x15 x16 x17 x18
    have h19 : State.Sound x18.2.2 := (State.heldBank_sound h8)
    split
    · exact (State.uncorrectables_sound h19)
    · extract_lets -underBinder +lift z1 z2 z3
      have h22 : State.Sound z1.2 := (State.praAdd_sound h19)
      have h23 : State.Sound z3 := (State.writeBank_sound h22)
      exact (State.markRan_sound (sound_mk h23))

/-! ### Machine/RegIf.lean -/

theorem State.onBit_sound {s : State} {f : BitField} {v : Word}
    {g : State → State} (hs : State.Sound s) (hg : ∀ t0, State.Sound t0 → State.Sound (g t0)) :
    State.Sound (State.onBit s f v g) := by
  unfold State.onBit
  exact (sound_ite (hg _ hs) hs)

theorem State.writeAlmCtrl_sound {s : State} {v : Word} (hs : State.Sound s) :
    State.Sound (State.writeAlmCtrl s v) := by
  unfold State.writeAlmCtrl
  exact (State.onBit_sound (State.onBit_sound (State.onBit_sound hs (fun a0 h1 => (State.wr_sound h1))) (fun a2 h3 => (State.abortLoad_sound h3))) (fun a4 h5 => (State.startLoad_sound h5)))

theorem State.writeSwapCtrl_sound {s : State} {v : Word} (hs : State.Sound s) :
    State.Sound (State.writeSwapCtrl s v) := by
  unfold State.writeSwapCtrl
  exact (State.onBit_sound (State.onBit_sound hs (fun a0 h1 => (State.disarm_sound h1))) (fun a2 h3 => (State.armSwap_sound h3)))

theorem State.writeSwapFrame_sound {s : State} {v : Word} (hs : State.Sound s) :
    State.Sound (State.writeSwapFrame s v) := by
  unfold State.writeSwapFrame
  exact (sound_ite hs (State.wrAccess_sound hs))

theorem State.writeDdrCfg_sound {s : State} {c : Nat} {v : Word} (hs : State.Sound s) :
    State.Sound (State.writeDdrCfg s c v) := by
  unfold State.writeDdrCfg
  exact (sound_ite hs (State.wrAccess_sound hs))

theorem State.writeStepArm_sound {s : State} {v : Word} (hs : State.Sound s) :
    State.Sound (State.writeStepArm s v) := by
  unfold State.writeStepArm
  exact (State.onBit_sound (State.wrAccess_sound hs) (fun a0 h1 => (State.setFld_sound h1)))

theorem State.clearPwr_sound {s : State} (hs : State.Sound s) :
    State.Sound (State.clearPwr s) := by
  unfold State.clearPwr
  exact (State.wr_sound hs)

theorem State.writeTherm_sound {s : State} {v : Word} (hs : State.Sound s) :
    State.Sound (State.writeTherm s v) := by
  unfold State.writeTherm
  exact (State.judgeTherm_sound (State.wrAccess_sound hs))

theorem State.writeMsixCtrl_sound {s : State} {i : Nat} {v : Word} (hs : State.Sound s) :
    State.Sound (State.writeMsixCtrl s i v) := by
  unfold State.writeMsixCtrl
  extract_lets -underBinder +lift x0
  have h1 : State.Sound x0 := (State.wrAccess_sound hs)
  exact (sound_ite (State.msix_sound (State.setBit_sound h1)) h1)

theorem State.regWrite_sound {s : State} {port : Nat} {r : Reg} {v : Word} (hs : State.Sound s) :
    State.Sound (State.regWrite s port r v) := by
  unfold State.regWrite
  split
  · exact (State.writeAlmCtrl_sound hs)
  · exact (State.writeSwapCtrl_sound hs)
  · exact (State.writeSwapFrame_sound hs)
  · exact (State.onBit_sound hs (fun a4 h5 => (State.clearDrv_sound h5)))
  · exact (State.writeRqCfg_sound hs)
  · exact (State.writeRqDb_sound hs)
  · exact (State.writeCqCfg_sound hs)
  · exact (State.onBit_sound (State.wrAccess_sound hs) (fun a13 h14 => (State.clearFhl_sound h14)))
  · exact (State.writeDlyCtrl_sound hs)
  · exact (State.writePort_sound hs)
  · exact (State.onBit_sound hs (fun a19 h20 => (State.clearMce_sound h20)))
  · exact (State.onBit_sound hs (fun a22 h23 => (State.clearPra_sound h23)))
  · exact (State.writePraCfg_sound hs)
  · exact (State.onBit_sound hs (fun a27 h28 => (State.clearDec_sound h28)))
  · exact (State.onBit_sound hs (fun a30 h31 => (State.clearNoc_sound h31)))
  · exact (State.writeRtData_sound hs)
  · exact (State.writeIsolate_sound hs)
  · exact (State.writeRelease_sound hs)
  · exact (State.onBit_sound hs (fun a38 h39 => (State.clearMem_sound h39)))
  · exact (State.writeDdrCfg_sound hs)
  · exact (State.onBit_sound hs (fun a43 h44 => (State.clearMov_sound h44)))
  · exact (State.writeMovCfg_sound hs)
  · exact (State.writeShadow_sound hs)
  · exact (State.writeShadow_sound hs)
  · exact (State.writeXfer_sound hs)
  · exact (State.writeRing_sound hs)
  · exact (State.onBit_sound (State.wrAccess_sound hs) (fun a61 h62 => (State.clearDrl_sound h62)))
  · exact (State.writeGrpCfg_sound hs)
  · exact (State.writeGrpLanes_sound hs)
  · exact (State.writeFabCtrl_sound hs)
  · exact (State.writeMsgTx_sound hs)
  · exact (State.writeRingCfg_sound hs)
  · exact (State.onBit_sound (State.wrAccess_sound hs) (fun a71 h72 => (State.clearSds_sound h72)))
  · exact (State.writeQuadCfg_sound hs)
  · exact (State.writeLaneCfg_sound hs)
  · exact (State.writeFfe_sound hs)
  · exact (State.writePrbs_sound hs)
  · exact (State.onBit_sound (State.wrAccess_sound hs) (fun a82 h83 => (State.clearTim_sound h83)))
  · exact (State.writeTimCfg_sound hs)
  · exact (State.writeStepArm_sound hs)
  · exact (State.commitSample_sound hs)
  · exact (State.writeRingCfg_sound hs)
  · exact (State.writeRingCfg_sound hs)
  · exact (State.writeRefCfg_sound hs)
  · exact (State.addOutStep_sound hs)
  · exact (State.writeEvtCmp_sound hs)
  · exact (State.writeEvtCtrl_sound hs)
  · exact (State.onBit_sound (State.wrAccess_sound hs) (fun a98 h99 => (State.clearPwr_sound h99)))
  · exact (State.refreshRails_sound (State.wrAccess_sound hs))
  · exact (State.writeForceOn_sound hs)
  · exact (State.writeDomCfg_sound hs)
  · exact (State.writeSysCtrl_sound hs)
  · exact (State.onBit_sound hs (fun a108 h109 => (State.bootGo_sound h109)))
  · exact (State.writeTherm_sound hs)
  · exact (State.writeMsixCtrl_sound hs)
  · exact (State.onBit_sound (State.wrAccess_sound hs) (fun a114 h115 => (State.wr_sound h115)))
  · exact (State.writeFltStatus_sound hs)
  · exact (State.writeUnitCtrl_sound hs)
  · exact (sound_ite (State.writeDbgCtrl_sound hs) hs)
  · exact (State.writeUartCfg_sound hs)
  · exact (State.uartSend_sound hs)
  · exact (State.writeUartIrq_sound hs)
  · exact (State.wrAccess_sound hs)

theorem State.writeAt_sound {s : State} {port : Nat} {off : Nat} {v : Word} (hs : State.Sound s) :
    State.Sound (State.writeAt s port off v) := by
  unfold State.writeAt
  split
  · exact (sound_ite (State.writeWindow_sound hs) hs)
  · split
    · exact (State.regWrite_sound hs)
    · exact hs

theorem State.readAt_sound {s : State} {off : Nat} (hs : State.Sound s) :
    State.Sound (State.readAt s off).2 := by
  unfold State.readAt
  split
  · exact hs
  · split
    · exact (State.regRead_sound hs)
    · exact hs

theorem State.regBytes_sound {s : State} {port : Nat} {off : Nat} {bs : List Byte} (hs : State.Sound s) :
    State.Sound (State.regBytes s port off bs) := by
  unfold State.regBytes
  exact (sound_ite (State.writeAt_sound hs) (sound_ite (State.writeAt_sound hs) hs))

theorem State.regRange_sound {s : State} {off : Nat} {n : Nat} (hs : State.Sound s) :
    State.Sound (State.regRange s off n).2 := by
  unfold State.regRange
  extract_lets -underBinder +lift x0
  have h1 : State.Sound x0.2 := (State.readAt_sound hs)
  split
  · exact h1
  · split
    · exact hs
    · exact hs

theorem State.readsOf_sound {s : State} {as : List Nat} (hs : State.Sound s) :
    State.Sound (State.readsOf s as) := by
  unfold State.readsOf
  exact (foldl_sound hs (fun a3 a4 h5 => (by
      extract_lets -underBinder +lift x6
      have h7 : State.Sound x6.2 := by
        unfold x6
        split
        · exact (State.regRange_sound h5)
        · exact h5
      exact (State.emit_sound h7))))

theorem State.latchCollision_sound {s : State} {ws : List RegWrite} (hs : State.Sound s) :
    State.Sound (State.latchCollision s ws) := by
  unfold State.latchCollision
  split
  · exact (State.wr_sound hs)
  · exact hs

theorem State.writesOf_sound {s : State} {ws : List RegWrite} (hs : State.Sound s) :
    State.Sound (State.writesOf s ws) := by
  unfold State.writesOf
  exact (State.latchCollision_sound (foldl_sound hs (fun a0 a1 h2 => (foldl_sound h2 (fun a3 a4 h5 => (State.regBytes_sound h5))))))

/-! ### Machine/Bus.lean -/

theorem State.busWrite_sound {s : State} {a : Nat} {bs : List Byte} (hs : State.Sound s) :
    State.Sound (State.busWrite s a bs).2 := by
  unfold State.busWrite
  split
  · exact (State.regBytes_sound hs)
  · exact (State.agentWrite_sound hs)

theorem State.busRead_sound {s : State} {a : Nat} {n : Nat} (hs : State.Sound s) :
    State.Sound (State.busRead s a n).2 := by
  unfold State.busRead
  extract_lets -underBinder +lift x0
  have h1 : State.Sound x0.2 := (State.regRange_sound hs)
  split
  · exact h1
  · exact (State.agentRead_sound hs)

theorem State.askWakes_sound {s : State} (hs : State.Sound s) :
    State.Sound (State.askWakes s) := by
  unfold State.askWakes
  exact (foldl_sound hs (fun a3 a4 h5 => (sound_ite h5 (by
      extract_lets -underBinder +lift x6 x7 x8
      have h9 : State.Sound x8 := (sound_mk h5)
      split
      · exact (State.demandWake_sound h9)
      · exact h9))))

theorem State.carry_sound {p : Packet} {a : Nat} {a2 : State} (ha2 : State.Sound a2) :
    State.Sound (State.carry p a a2) := by
  induction a generalizing p a2
  · unfold State.carry
    exact ha2
  · rename_i ih
    unfold State.carry
    exact (sound_ite ha2 (ih (State.askWakes_sound (State.passTo_sound ha2))))

theorem State.writeAtTarget_sound {s : State} {p : Packet} (hs : State.Sound s) :
    State.Sound (State.writeAtTarget s p) := by
  unfold State.writeAtTarget
  extract_lets -underBinder +lift x0
  have h1 : State.Sound x0.2 := (State.targetWrite_sound hs)
  exact (sound_ite (State.respond_sound hs) (State.respond_sound (State.uncorrectables_sound h1)))

theorem State.hostServe_sound {s : State} {p : Packet} (hs : State.Sound s) :
    State.Sound (State.hostServe s p) := by
  unfold State.hostServe
  exact (sound_ite (State.respond_sound hs) (sound_ite (sound_ite (State.failHostRead_sound hs) (State.emit_sound (sound_mk hs))) (State.respond_sound (State.hostWrite_sound hs))))

theorem State.crookResult_sound {s : State} {data : Word} {status : Nat} (hs : State.Sound s) :
    State.Sound (State.crookResult s data status) := by
  unfold State.crookResult
  exact (sound_mk hs)

theorem State.crookAccess_sound {s : State} {c : CrookAcc} (hs : State.Sound s) :
    State.Sound (State.crookAccess s c) := by
  unfold State.crookAccess
  dsimp only
  generalize s.place (8 * (c.addr / 8)) = p
  generalize 8 * (c.addr / 8) - regBase = i
  generalize 8 * (c.addr / 8) = a
  cases p with
  | reg => exact sound_ite (State.crookResult_sound (State.regBytes_sound hs)) (State.crookResult_sound (State.readAt_sound hs))
  | none => exact State.crookResult_sound hs
  | remote => exact State.crookResult_sound hs
  | _ =>
    refine sound_ite (State.crookResult_sound hs) (sound_ite (sound_ite (State.crookResult_sound (State.draw_sound hs))
      (State.crookResult_sound (State.uncorrectables_sound (State.targetWrite_sound hs)))) ?_)
    have h : State.Sound (s.readMem a 9 8).2.1 := State.readMem_sound hs
    cases (s.readMem a 9 8).1 with
    | some bs => exact State.crookResult_sound h
    | none => exact State.crookResult_sound (State.uncorrectables_sound h)

theorem State.takeResponse_sound {s : State} {p : Packet} (hs : State.Sound s) :
    State.Sound (State.takeResponse s p) := by
  unfold State.takeResponse
  extract_lets -underBinder +lift x0
  exact (sound_ite (State.movResponse_sound hs) hs)

theorem State.wakeDone_sound {s : State} {d : Nat} (hs : State.Sound s) :
    State.Sound (State.wakeDone s d) := by
  unfold State.wakeDone
  exact (sound_ite (State.endWake_sound hs) hs)

theorem State.flushBar_sound {s : State} (hs : State.Sound s) :
    State.Sound (State.flushBar s) := by
  unfold State.flushBar
  exact (sound_ite hs (foldl_sound (sound_mk hs) (fun a0 a1 h2 => (State.regBytes_sound h2))))

theorem State.wakeFails_sound {s : State} {d : Nat} (hs : State.Sound s) :
    State.Sound (State.wakeFails s d) := by
  unfold State.wakeFails
  split
  · exact (sound_ite (State.failDomain_sound hs) hs)
  · exact hs

theorem State.registersServe_sound {s : State} {p : Packet} (hs : State.Sound s) :
    State.Sound (State.registersServe s p) := by
  unfold State.registersServe
  extract_lets -underBinder +lift x0 x1
  have h2 : State.Sound x1.2 := (State.regRange_sound hs)
  exact (sound_ite (State.respond_sound hs) (sound_ite (State.respond_sound h2) (State.respond_sound (State.regBytes_sound hs))))

theorem State.readAtTarget_sound {s : State} {p : Packet} (hs : State.Sound s) :
    State.Sound (State.readAtTarget s p) := by
  unfold State.readAtTarget
  extract_lets -underBinder +lift x0 x1
  have h2 : State.Sound x1.2.1 := (State.readMem_sound hs)
  split
  · exact (State.respond_sound hs)
  · split
    · exact (State.respond_sound h2)
    · exact (State.respond_sound (State.uncorrectables_sound h2))

theorem State.serveAt_sound {s : State} {p : Packet} (hs : State.Sound s) :
    State.Sound (State.serveAt s p) := by
  unfold State.serveAt
  extract_lets -underBinder +lift x0
  exact (sound_ite (State.takeResponse_sound hs) (sound_ite hs (sound_ite (State.fabricRequest_sound hs) (sound_ite (State.hostServe_sound hs) (sound_ite (State.registersServe_sound hs) (sound_ite (State.readAtTarget_sound hs) (State.writeAtTarget_sound hs)))))))

theorem State.deliverPacket_sound {s : State} {p : Packet} (hs : State.Sound s) :
    State.Sound (State.deliverPacket s p) := by
  unfold State.deliverPacket
  extract_lets -underBinder +lift x0 x1
  have h2 : State.Sound x1 := (State.carry_sound (sound_ite hs (State.inject_sound hs)))
  exact (sound_ite (State.flushBar_sound (State.attempt_sound h2 (fun a3 h4 => (State.serveAt_sound (sound_mk h4))))) h2)

theorem State.crookEnd_sound {s : State} (hs : State.Sound s) :
    State.Sound (State.crookEnd s) := by
  unfold State.crookEnd
  split
  · exact hs
  · exact (sound_ite (State.crookAccess_sound hs) (State.crookResult_sound hs))

theorem State.barWrite_sound {s : State} {bar2 : Bool} {o : Nat} {data : List Byte} (hs : State.Sound s) :
    State.Sound (State.barWrite s bar2 o data) := by
  unfold State.barWrite
  extract_lets -underBinder +lift x0
  split
  · exact hs
  · split
    · split
      · exact hs
      · extract_lets -underBinder +lift x9
        have h10 : State.Sound x9.2 := (State.agentPost_sound hs)
        exact (State.replyErrors_sound h10)
    · exact (sound_ite (sound_mk hs) (State.regBytes_sound hs))

theorem State.barRead_sound {s : State} {bar2 : Bool} {o : Nat} {n : Nat} (hs : State.Sound s) :
    State.Sound (State.barRead s bar2 o n) := by
  unfold State.barRead
  extract_lets -underBinder +lift x0
  have h1 : State.Sound x0.2 := (State.regRange_sound hs)
  split
  · exact hs
  · split
    · split
      · exact (State.emit_sound hs)
      · extract_lets -underBinder +lift x10
        have h11 : State.Sound x10.2 := (State.agentRead_sound hs)
        exact (State.emit_sound (State.replyErrors_sound h11))
    · exact (State.emit_sound h1)

theorem State.crookStart_sound {s : State} {write : Bool} {addr : Nat} {data : Word} (hs : State.Sound s) :
    State.Sound (State.crookStart s write addr data) := by
  unfold State.crookStart
  extract_lets -underBinder +lift x0 x1
  exact (sound_ite (State.bypassed_sound hs) (sound_ite (State.capture_sound hs) (State.capture_sound (sound_mk hs))))

theorem State.planAtEdge_sound {s : State} {d : Nat} (hs : State.Sound s) :
    State.Sound (State.planAtEdge s d) := by
  unfold State.planAtEdge
  exact (State.setPlanned_sound hs)

end Sys2Proof.Machine
end

