-- ==== Sys2Proof/Laws/SoundCore.lean ====
section
/-!
SUPPORT. That the cores, the tick edge and idling keep the sound form of a state: one lemma for each operation.
-/
namespace Sys2Proof.Machine

/-! ### Machine/DspIssue.lean -/

theorem State.pend_sound {s : State} {n : Nat} {bit : Nat} (hs : State.Sound s) :
    State.Sound (State.pend s n bit) := by
  unfold State.pend
  exact (State.mapCore_sound hs)

theorem State.tryDone_sound {s : State} {n : Nat} (hs : State.Sound s) :
    State.Sound (State.tryDone s n) := by
  unfold State.tryDone
  extract_lets -underBinder +lift x0
  split
  · exact hs
  · split
    · exact (State.completeOn_sound (State.markRan_sound (State.setCore_sound hs)))
    · exact hs

theorem State.cleanLine_sound {s : State} {n : Nat} {l : Nat} (hs : State.Sound s) :
    State.Sound (State.cleanLine s n l) := by
  unfold State.cleanLine
  split
  · extract_lets -underBinder +lift x3
    have h4 : State.Sound x3.2 := (State.agentWrite_sound hs)
    exact (sound_ite hs (State.mapCore_sound (State.replyErrors_sound h4)))
  · exact hs

theorem State.evictSome_sound {s : State} {n : Nat} (hs : State.Sound s) :
    State.Sound (State.evictSome s n) := by
  unfold State.evictSome
  extract_lets -underBinder +lift x0 x1 x2
  have h3 : State.Sound x0.2 := (State.drawBool_sound hs)
  have h4 : State.Sound x1.2 := (State.draw_sound h3)
  split
  · exact (sound_ite (State.mapCore_sound (State.cleanLine_sound h4)) h4)
  · exact h4

theorem State.fillLine_sound {s : State} {n : Nat} {l : Nat} (hs : State.Sound s) :
    State.Sound (State.fillLine s n l).2 := by
  unfold State.fillLine
  extract_lets s1 r
  have h1 : State.Sound r.2 := State.agentRead_sound (State.evictSome_sound hs)
  split
  · exact hs
  · split
    · dsimp only
      exact State.mapCore_sound h1
    · exact State.replyErrors_sound h1

theorem State.storeCached_sound {s : State} {n : Nat} {a : Nat} {bs : List Byte} (hs : State.Sound s) :
    State.Sound (State.storeCached s n a bs) := by
  unfold State.storeCached
  extract_lets -underBinder +lift x0 x1
  have h2 : State.Sound x1.2 := (State.fillLine_sound hs)
  exact (State.mapCore_sound h2)

theorem State.drainOne_sound {s : State} {n : Nat} (hs : State.Sound s) :
    State.Sound (State.drainOne s n) := by
  unfold State.drainOne
  split
  · exact hs
  · extract_lets -underBinder +lift x6
    have h7 : State.Sound x6 := (State.mapCore_sound hs)
    split
    · exact (foldl_sound h7 (fun a12 a13 h14 => (State.storeCached_sound h14)))
    · exact (foldl_sound h7 (fun a19 a20 h21 => (by
          extract_lets -underBinder +lift x22
          have h23 : State.Sound x22.1 := (State.writeMem_sound h21)
          exact (State.uncorrectables_sound h23))))

theorem State.drainAll_sound {s : State} {n : Nat} (hs : State.Sound s) :
    State.Sound (State.drainAll s n) := by
  unfold State.drainAll
  exact (foldl_sound hs (fun a0 a1 h2 => (State.drainOne_sound h2)))

theorem State.storeOp_sound {s : State} {n : Nat} {m : MemOp} (hs : State.Sound s) :
    State.Sound (State.storeOp s n m).2 := by
  unfold State.storeOp
  extract_lets put r w
  have hp : ∀ t a, State.Sound t → State.Sound (put t a) := fun t a h => State.mapCore_sound h
  have h1 : State.Sound r.2 := State.fillLine_sound hs
  split
  · exact hs
  · split
    · exact hp _ _ hs
    · split
      · split
        · exact hp _ _ h1
        · exact h1
      · exact State.replyErrors_sound (State.busWrite_sound (State.drainAll_sound hs))

theorem State.loadControl_sound {s : State} {n : Nat} {m : MemOp} (hs : State.Sound s) :
    State.Sound (State.loadControl s n m).2.2 := by
  unfold State.loadControl
  extract_lets -underBinder +lift x0 x1 x2 x3
  have h4 : State.Sound x0.2 := (State.fillLine_sound hs)
  have h5 : State.Sound x3.2 := (State.busRead_sound (State.drainAll_sound hs))
  split
  · exact hs
  · split
    · split
      · exact h4
      · exact h4
    · split
      · exact h5
      · exact (State.replyErrors_sound h5)

theorem State.foldWords_sound {s : State} {f : Nat} {a : List Nat} (hs : State.Sound s) :
    State.Sound (State.foldWords s f a).2.2 := by
  induction a generalizing s f
  · unfold State.foldWords
    exact hs
  · rename_i ih
    unfold State.foldWords
    extract_lets -underBinder +lift x8 x9
    have h10 : State.Sound x8.2.1 := (State.readMem_sound hs)
    have h11 : State.Sound x9.2.2 := (ih h10)
    exact h11

theorem State.loadFold_sound {s : State} {n : Nat} {m : MemOp} (hs : State.Sound s) :
    State.Sound (State.loadFold s n m).2.2 := by
  unfold State.loadFold
  extract_lets -underBinder +lift x0 x1 x2 x3
  have h5 : State.Sound x1.2.2 := (State.foldWords_sound hs)
  split
  · exact hs
  · exact h5

theorem State.loads_sound {s : State} {n : Nat} {a : List (Nat × MemOp)} (hs : State.Sound s) :
    State.Sound (State.loads s n a).2.2.2 := by
  induction a generalizing s n
  · unfold State.loads
    exact hs
  · rename_i n ih
    unfold State.loads
    extract_lets -underBinder +lift x18 x19 x20 x21 x22
    have h23 : State.Sound x18.2 := (State.storeOp_sound hs)
    have h24 : State.Sound x19.2.2 := (State.loadControl_sound hs)
    have h25 : State.Sound x20.2.2.2 := (ih h24)
    have h26 : State.Sound x21.2.2 := (State.loadFold_sound hs)
    have h27 : State.Sound x22.2.2.2 := (ih h26)
    split
    · split
      · exact h23
      · exact (ih hs)
    · split
      · split
        · exact h24
        · exact h25
      · exact h27

theorem State.freezeControl_sound {s : State} {c : Nat} {code : Nat} {addr : Nat} (hs : State.Sound s) :
    State.Sound (State.freezeControl s c code addr) := by
  unfold State.freezeControl
  exact (sound_ite hs (State.record_sound (sound_mk hs)))

theorem State.freezeCore_sound {s : State} {n : Nat} {code : Nat} {addr : Nat} (hs : State.Sound s) :
    State.Sound (State.freezeCore s n code addr) := by
  unfold State.freezeCore
  exact (sound_ite (State.freezeControl_sound hs) (State.freeze_sound hs))

theorem State.ctlAct_sound {s : State} {n : Nat} {a : Ctl} (hs : State.Sound s) :
    State.Sound (State.ctlAct s n a) := by
  unfold State.ctlAct
  split
  · exact (State.mapCore_sound hs)
  · exact (State.mapCore_sound hs)
  · exact (State.pend_sound hs)
  · exact (State.mapCore_sound hs)
  · extract_lets -underBinder +lift x9 x10
    have h11 : State.Sound x10 := (State.drainAll_sound hs)
    exact (sound_ite (State.cleanLine_sound h11) (sound_ite (State.mapCore_sound h11) (sound_ite (State.mapCore_sound (State.cleanLine_sound h11)) (State.mapCore_sound h11))))
  · exact (State.freezeCore_sound hs)
  · exact hs

theorem State.goesOn_sound {s : State} {n : Nat} {old : Core} {pc : Nat} {nextPc : Nat} {ctl : Ctl} (hs : State.Sound s) :
    State.Sound (State.goesOn s n old pc nextPc ctl) := by
  unfold State.goesOn
  extract_lets -underBinder +lift x0 x1
  split
  · exact (sound_ite (State.freezeCore_sound hs) (State.setCore_sound hs))
  · exact (sound_ite (State.setCore_sound hs) (State.setCore_sound hs))
  · extract_lets -underBinder +lift x9 x10
    exact (sound_ite (State.setCore_sound hs) (State.setCore_sound hs))
  · extract_lets -underBinder +lift x12
    exact (sound_ite (State.freezeCore_sound (State.setCore_sound hs)) (State.setCore_sound hs))
  · extract_lets -underBinder +lift x18
    exact (sound_ite (State.setCore_sound hs) (State.setCore_sound hs))

theorem State.commit_sound {s : State} {n : Nat} {sl : List Slot} {after : State → State}
    {bus : Nat × Nat × Nat → State → State} (hs : State.Sound s) (hafter : ∀ t0, State.Sound t0 → State.Sound (after t0)) (hbus : ∀ t0 t1, State.Sound t1 → State.Sound (bus t0 t1)) :
    State.Sound (State.commit s n sl after bus) := by
  unfold State.commit
  extract_lets -underBinder +lift x0 x1 x2
  have h3 : State.Sound x2.2.2.2 := (State.loads_sound hs)
  split
  · exact (hbus _ _ h3)
  · extract_lets -underBinder +lift x9 x10 x11 x12
    have h13 : State.Sound x9.2.2.2 := by
      unfold x9
      split
      · extract_lets -underBinder +lift x17
        have h18 : State.Sound x17.2 := (State.storeOp_sound h3)
        exact h18
      · exact h3
    have h21 : State.Sound x10 := (State.mapCore_sound h13)
    have h22 : State.Sound x11 := (foldl_sound h21 (fun a23 a24 h25 => (State.ctlAct_sound h25)))
    have h26 : State.Sound x12 := (State.goesOn_sound h22)
    exact (sound_ite (State.uncorrectables_sound h3) (sound_ite (hbus _ _ h13) (sound_ite h22 (sound_ite (hafter _ h26) h26))))

theorem State.raiseAt_sound {s : State} {n : Nat} {code : Nat} {addr : Nat} {slot : Nat} {blen : Nat} {epc : Nat} (hs : State.Sound s) :
    State.Sound (State.raiseAt s n code addr slot blen epc) := by
  unfold State.raiseAt
  extract_lets -underBinder +lift x0 x1
  exact (sound_ite (State.setCore_sound hs) (sound_ite (State.freezeCore_sound hs) (State.setCore_sound hs)))

theorem State.dropResume_sound {s : State} {n : Nat} (hs : State.Sound s) :
    State.Sound (State.dropResume s n) := by
  unfold State.dropResume
  exact (State.mapCore_sound hs)

theorem State.fault_sound {s : State} {n : Nat} {code : Nat} {addr : Nat} {slot : Nat} (hs : State.Sound s) :
    State.Sound (State.fault s n code addr slot) := by
  unfold State.fault
  extract_lets -underBinder +lift x0
  exact (State.raiseAt_sound (State.dropResume_sound hs))

theorem State.busError_sound {s : State} {n : Nat} {e : Nat × Nat × Nat} (hs : State.Sound s) :
    State.Sound (State.busError s n e) := by
  unfold State.busError
  exact (State.fault_sound hs)

theorem State.busBelow_sound {s : State} {n : Nat} {sl : List Slot} {k : Nat} (hs : State.Sound s) :
    State.Sound (State.busBelow s n sl k).2 := by
  unfold State.busBelow
  extract_lets -underBinder +lift x0
  have h1 : State.Sound x0.2.2.2 := (State.loads_sound hs)
  split
  · exact hs
  · exact h1

theorem State.loopEndAt_sound {s : State} {n : Nat} (hs : State.Sound s) :
    State.Sound (State.loopEndAt s n) := by
  unfold State.loopEndAt
  exact (sound_ite (State.mapCore_sound hs) hs)

theorem State.performPart_sound {s : State} {n : Nat} {m : MemOp} (hs : State.Sound s) :
    State.Sound (State.performPart s n m) := by
  unfold State.performPart
  extract_lets -underBinder +lift x0
  have h1 : State.Sound x0.2.2 := (State.loadFold_sound hs)
  split
  · exact hs
  · split
    · exact (State.storeOp_sound hs)
    · split
      · exact (State.uncorrectables_sound (State.mapCore_sound h1))
      · exact (State.uncorrectables_sound h1)

theorem State.windowFault_sound {s : State} {n : Nat} {sl : List Slot} {k : Nat} {addr : Nat} {elem : Nat} (hs : State.Sound s) :
    State.Sound (State.windowFault s n sl k addr elem) := by
  unfold State.windowFault
  extract_lets -underBinder +lift x0 x1 x2 x3 x4
  have h5 : State.Sound x3 := (foldl_sound hs (fun a6 a7 h8 => (State.performPart_sound h8)))
  have h9 : State.Sound x4 := (State.mapCore_sound h5)
  exact (State.raiseAt_sound h9)

theorem State.stopAt_sound {s : State} {n : Nat} {sl : List Slot} {k : Nat} {a : SlotStop} (hs : State.Sound s) :
    State.Sound (State.stopAt s n sl k a) := by
  unfold State.stopAt
  split
  · exact (State.windowFault_sound hs)
  · exact (State.fault_sound hs)
  · exact (State.freezeCore_sound hs)
  · exact hs

theorem State.settleBundle_sound {s : State} {n : Nat} {sl : List Slot} (hs : State.Sound s) :
    State.Sound (State.settleBundle s n sl) := by
  unfold State.settleBundle
  have below : ∀ k, State.Sound (s.busBelow n sl k).2 := fun k => State.busBelow_sound hs
  dsimp only
  split
  · exact State.commit_sound hs (fun t h => h) fun e u h => State.busError_sound h
  · split
    · split
      · exact State.busError_sound (below _)
      · exact State.raiseAt_sound (State.dropResume_sound (below _))
    · exact State.commit_sound hs (fun t h => State.raiseAt_sound (State.dropResume_sound (State.loopEndAt_sound h))) fun e u h =>
        sound_ite (State.busError_sound h) (State.raiseAt_sound (State.dropResume_sound h))
  · split
    · exact State.busError_sound (below _)
    · exact State.stopAt_sound (below _)

theorem State.tryIssue_sound {s : State} {n : Nat} (hs : State.Sound s) :
    State.Sound (State.tryIssue s n) := by
  unfold State.tryIssue
  extract_lets -underBinder +lift x0
  exact (sound_ite hs (sound_ite hs (State.settleBundle_sound hs)))

theorem State.accComplete_sound {s : State} {f : Nat} {unit : Nat} (hs : State.Sound s) :
    State.Sound (State.accComplete s f unit) := by
  unfold State.accComplete
  split
  · exact hs
  · extract_lets -underBinder +lift x5 x6 x7 x8 x9
    have h10 : State.Sound x7 := (sound_mk hs)
    have h11 : State.Sound x8 := (State.mapCore_sound h10)
    have h12 : State.Sound x9 := (sound_ite (State.pend_sound h11) h11)
    exact (sound_ite hs (State.tryDone_sound (State.tryIssue_sound h12)))

theorem State.fetchFold_sound {s : State} {n : Nat} (hs : State.Sound s) :
    State.Sound (State.fetchFold s n).2 := by
  unfold State.fetchFold
  extract_lets -underBinder +lift x0 x1
  have h2 : State.Sound x1.2.1 := (State.readMem_sound hs)
  split
  · exact hs
  · exact h2

theorem State.fetchControl_sound {s : State} {n : Nat} (hs : State.Sound s) :
    State.Sound (State.fetchControl s n).2 := by
  unfold State.fetchControl
  refine foldl_keeps (fun z : Option (Nat × Nat) × State => State.Sound z.2) hs fun t l h => ?_
  dsimp only
  split
  · exact h
  · split
    · dsimp only
      exact State.mapCore_sound (State.agentRead_sound h)
    · exact State.replyErrors_sound (State.agentRead_sound h)

theorem State.issueFresh_sound {s : State} {n : Nat} (hs : State.Sound s) :
    State.Sound (State.issueFresh s n) := by
  unfold State.issueFresh
  extract_lets -underBinder +lift x0 x1 x2 x3
  have h4 : State.Sound x0.2 := (State.fetchFold_sound hs)
  have h5 : State.Sound x3.2 := (State.fetchControl_sound hs)
  split
  · exact (sound_ite (State.tryIssue_sound h4) (State.uncorrectables_sound h4))
  · split
    · exact (State.freezeCore_sound hs)
    · split
      · exact (State.fault_sound h5)
      · exact (State.tryIssue_sound h5)

theorem State.feedCore_sound {s : State} {n : Nat} {i : Instr} (hs : State.Sound s) :
    State.Sound (State.feedCore s n i) := by
  unfold State.feedCore
  extract_lets -underBinder +lift x0 x1 x2 x3
  have h4 : State.Sound x0 := (State.loopEndAt_sound hs)
  have h5 : State.Sound x3 := (State.setCore_sound h4)
  exact (sound_ite hs (sound_ite (State.freezeCore_sound h4) (sound_ite (State.tryDone_sound (State.issueFresh_sound h5)) h5)))

theorem State.feed_sound {s : State} {i : Instr} (hs : State.Sound s) :
    State.Sound (State.feed s i) := by
  unfold State.feed
  split
  · exact hs
  · extract_lets -underBinder +lift x5
    exact (sound_ite (State.attempt_sound hs (fun a6 h7 => (State.feedCore_sound h7))) (State.feedCore_sound (State.whenServed_sound hs)))

theorem State.acqAt_sound {s : State} {n : Nat} (hs : State.Sound s) :
    State.Sound (State.acqAt s n) := by
  unfold State.acqAt
  extract_lets -underBinder +lift x0 x1
  split
  · exact hs
  · split
    · exact hs
    · extract_lets -underBinder +lift x12
      have h13 : State.Sound x12.2.1 := (State.readMem_sound hs)
      split
      · exact hs
      · split
        · exact (State.fault_sound hs)
        · split
          · exact (State.uncorrectables_sound h13)
          · extract_lets -underBinder +lift x23
            split
            · exact (State.fault_sound h13)
            · split
              · exact (State.settleBundle_sound h13)
              · exact (State.tryDone_sound (State.commit_sound h13 (fun a35 h36 => (by
                    extract_lets -underBinder +lift x37 x38
                    have h39 : State.Sound x37 := (State.mapCore_sound h36)
                    exact (sound_mk h39))) (fun a40 a41 h42 => (State.busError_sound h42))))

theorem State.cacheAct_sound {s : State} {c : Nat} {r : Nat} {a : Nat} (hs : State.Sound s) :
    State.Sound (State.cacheAct s c r a) := by
  unfold State.cacheAct
  extract_lets -underBinder +lift x0
  exact (sound_ite hs (sound_ite (State.freezeCore_sound hs) (State.ctlAct_sound hs)))

theorem State.cycMatch_sound {s : State} {n : Nat} (hs : State.Sound s) :
    State.Sound (State.cycMatch s n) := by
  unfold State.cycMatch
  extract_lets -underBinder +lift x0
  exact (sound_ite (State.pend_sound (State.passTo_sound hs)) hs)

theorem State.drainStep_sound {s : State} {n : Nat} (hs : State.Sound s) :
    State.Sound (State.drainStep s n) := by
  unfold State.drainStep
  exact (sound_ite hs (sound_ite (State.attempt_sound hs (fun a0 h1 => (State.tryIssue_sound (State.drainOne_sound h1)))) (State.tryDone_sound (State.tryIssue_sound (State.drainOne_sound hs)))))

theorem State.interruptAt_sound {s : State} {n : Nat} (hs : State.Sound s) :
    State.Sound (State.interruptAt s n) := by
  unfold State.interruptAt
  extract_lets -underBinder +lift x0 x1
  have h2 : State.Sound x0 := (sound_ite (State.loopEndAt_sound hs) hs)
  split
  · exact hs
  · split
    · extract_lets -underBinder +lift x8 x9
      have h10 : State.Sound x8.2 := (State.draw_sound h2)
      exact (sound_ite hs (State.setCore_sound h10))
    · exact hs

/-! ### Machine/Edge.lean -/

theorem State.tidy_sound {s : State} (hs : State.Sound s) :
    State.Sound (State.tidy s) := by
  unfold State.tidy
  extract_lets -underBinder +lift x0 x1 x2 x3 x4 x5
  have h6 : State.Sound x1 := (sound_mk hs)
  have h7 : State.Sound x3 := (sound_mk h6)
  have h8 : State.Sound x5 := (sound_mk h7)
  exact (State.ageFronthaul_sound h8)

theorem State.advanceTick_sound {s : State} (hs : State.Sound s) :
    State.Sound (State.advanceTick s) := by
  unfold State.advanceTick
  split
  · exact sound_cycle hs (by assumption) (Nat.zero_le _)
  · exact sound_cycle hs (show 0 < ticksPerSecond by decide) (Nat.zero_le _)

theorem State.planEdge_sound {s : State} (hs : State.Sound s) :
    State.Sound (State.planEdge s) := by
  unfold State.planEdge
  exact (sound_ite hs (foldl_sound hs (fun a0 a1 h2 => (State.planDomain_sound h2))))

theorem State.idle_sound {s : State} (hs : State.Sound s) :
    State.Sound (State.idle s) := by
  unfold State.idle
  exact (sound_ite hs (sound_ite (State.toCycle_sound hs) (State.flushBar_sound (State.askWakes_sound (State.passTo_sound hs)))))

theorem State.tickIrq_sound {s : State} (hs : State.Sound s) :
    State.Sound (State.tickIrq s) := by
  unfold State.tickIrq
  exact (foldl_sound hs (fun a0 a1 h2 => (sound_ite (State.pend_sound h2) h2)))

theorem State.showPos_sound {s : State} (hs : State.Sound s) :
    State.Sound (State.showPos s) := by
  unfold State.showPos
  exact (sound_ite hs (State.setFld_sound (State.setFld_sound hs)))

theorem State.beginTick_sound {s : State} (hs : State.Sound s) :
    State.Sound (State.beginTick s) := by
  unfold State.beginTick
  extract_lets -underBinder +lift x0 x1
  have h2 : State.Sound x0 := (State.advanceTick_sound hs)
  have h3 : State.Sound x1 := (sound_ite (State.secondBegins_sound h2) h2)
  exact (State.refreshRails_sound (State.tidy_sound (State.tickIrq_sound (State.copyStatus_sound (State.showPos_sound (State.releaseTick_sound h3))))))

theorem State.cellEdge_sound {s : State} (hs : State.Sound s) :
    State.Sound (State.cellEdge s) := by
  unfold State.cellEdge
  extract_lets -underBinder +lift x0
  have h1 : State.Sound x0 := (sound_ite (State.resolveAt_sound hs) hs)
  exact (sound_ite hs (sound_ite (State.effectAt_sound h1) h1))

theorem State.endTick_sound {s : State} (hs : State.Sound s) :
    State.Sound (State.endTick s) := by
  unfold State.endTick
  extract_lets -underBinder +lift x0 x1 x2 x3 x4
  have h5 : State.Sound x0 := (State.scrubTick_sound (State.closeTick_sound hs))
  have h6 : State.Sound x1 := (sound_ite (State.fetchNext_sound h5) h5)
  have h7 : State.Sound x2 := (State.swapAt_sound (State.startAlmanac_sound (State.restartAlmanac_sound (State.applyStep_sound h6))))
  have h8 : State.Sound x3 := (State.cellEdge_sound (State.rebindAt_sound (State.barUnits_sound (State.returnUnits_sound h7))))
  have h9 : State.Sound x4 := (State.planEdge_sound (State.epochAt_sound (State.poolTimeout_sound (State.poolDecide_sound (State.overridePower_sound h8)))))
  exact (State.endEmulation_sound (foldl_sound h9 (fun a10 a11 h12 => (State.applyOutStep_sound h12))))

theorem State.tickEdge_sound {s : State} (hs : State.Sound s) :
    State.Sound (State.tickEdge s) := by
  unfold State.tickEdge
  extract_lets _ s0
  have h : State.Sound s0 := sound_ite (State.resumeAt_sound (sound_cycle hs hs.tick (Nat.le_refl _))) hs
  exact sound_ite hs (sound_ite (State.advanceTick_sound h) (State.beginTick_sound (State.endTick_sound h)))

/-! ### Machine/Step.lean -/

theorem State.withPending_sound {s : State} {q : List Instr} (hs : State.Sound s) :
    State.Sound (State.withPending s q) := by
  unfold State.withPending
  exact (sound_mk hs)

theorem State.withFetchWord_sound {s : State} {nbits : Nat} {w : Nat} (hs : State.Sound s) :
    State.Sound (State.withFetchWord s nbits w) := by
  unfold State.withFetchWord
  split
  · exact (State.withPending_sound hs)
  · exact hs

end Sys2Proof.Machine
end

