-- ==== Sys2Proof/Laws/SoundExec.lean ====
section
/-!
SUPPORT. That every command keep the sound form of a state: one lemma for each operation.
-/
namespace Sys2Proof.Machine

theorem working_sound {f : State → State} {s u : State} (hs : s.Sound) (hf : ∀ t, t.Sound → (f t).Sound)
    (h : working f s = .next u) : u.Sound := by
  cases h
  exact sound_ite hs (keepQueue_sound (State.attempt_sound hs hf))

theorem execDomainWakeFail_sound {d : Fin 69} {s s' : State} (hs : State.Sound s) (h : execDomainWakeFail d s = .next s') : State.Sound s' :=
  always_sound hs (fun _ h1 => (State.wakeFails_sound h1)) h

theorem execVrd_sound {y : Syl} {s s' : State} (hs : State.Sound s) (h : execVrd y s = .next s') : State.Sound s' :=
  running_sound hs (fun _ h1 => (State.feed_sound h1)) h

theorem execAndn_sound {y : Syl} {s s' : State} (hs : State.Sound s) (h : execAndn y s = .next s') : State.Sound s' :=
  running_sound hs (fun _ h1 => (State.feed_sound h1)) h

theorem execMemoryInitComplete_sound {g : Fin 64} {ok : Bool}
    {s s' : State} (hs : State.Sound s) (h : execMemoryInitComplete g ok s = .next s') : State.Sound s' :=
  running_sound hs (fun _ h1 => (State.initDone_sound h1)) h

theorem execLdb_sound {y : Syl} {s s' : State} (hs : State.Sound s) (h : execLdb y s = .next s') : State.Sound s' :=
  running_sound hs (fun _ h1 => (State.feed_sound h1)) h

theorem execDrvCqDb_sound {q : Fin 16} {v : BitVec 64} {s s' : State} (hs : State.Sound s) (h : execDrvCqDb q v s = .next s') : State.Sound s' :=
  running_sound hs (fun _ h1 => (State.wrAccess_sound h1)) h

theorem execMovStatClr_sound {s s' : State} (hs : State.Sound s) (h : execMovStatClr s = .next s') : State.Sound s' :=
  running_sound hs (fun _ h1 => (State.clearMov_sound h1)) h

theorem execPuschUci_sound {fold : Fin 16} {core : Fin 8} {llrs : BitVec 48} {ulsch : BitVec 48}
    {s s' : State} (hs : State.Sound s) (h : execPuschUci fold core llrs ulsch s = .next s') : State.Sound s' :=
  working_sound hs (fun _ h1 => (State.puschUci_sound h1)) h

theorem execEntryComplete_sound {d : Fin 69} {s s' : State} (hs : State.Sound s) (h : execEntryComplete d s = .next s') : State.Sound s' :=
  always_sound hs (fun _ h1 => (State.endEntry_sound h1)) h

theorem execLdhu_sound {y : Syl} {s s' : State} (hs : State.Sound s) (h : execLdhu y s = .next s') : State.Sound s' :=
  running_sound hs (fun _ h1 => (State.feed_sound h1)) h

theorem execSext_sound {y : Syl} {s s' : State} (hs : State.Sound s) (h : execSext y s = .next s') : State.Sound s' :=
  running_sound hs (fun _ h1 => (State.feed_sound h1)) h

theorem execLoopi_sound {y : Syl} {s s' : State} (hs : State.Sound s) (h : execLoopi y s = .next s') : State.Sound s' :=
  running_sound hs (fun _ h1 => (State.feed_sound h1)) h

theorem execVcmplt_sound {y : Syl} {s s' : State} (hs : State.Sound s) (h : execVcmplt y s = .next s') : State.Sound s' :=
  running_sound hs (fun _ h1 => (State.feed_sound h1)) h

theorem execAlmSwapArm_sound {s s' : State} (hs : State.Sound s) (h : execAlmSwapArm s = .next s') : State.Sound s' :=
  running_sound hs (fun _ h1 => (State.armSwap_sound h1)) h

theorem execRead_sound {p : Packet} {s s' : State} (hs : State.Sound s) (h : execRead p s = .next s') : State.Sound s' :=
  running_sound hs (fun _ h1 => (State.deliverPacket_sound h1)) h

theorem execVshl_sound {y : Syl} {s s' : State} (hs : State.Sound s) (h : execVshl y s = .next s') : State.Sound s' :=
  running_sound hs (fun _ h1 => (State.feed_sound h1)) h

theorem execVsub_sound {y : Syl} {s s' : State} (hs : State.Sound s) (h : execVsub y s = .next s') : State.Sound s' :=
  running_sound hs (fun _ h1 => (State.feed_sound h1)) h

theorem execAddpi_sound {y : Syl} {s s' : State} (hs : State.Sound s) (h : execAddpi y s = .next s') : State.Sound s' :=
  running_sound hs (fun _ h1 => (State.feed_sound h1)) h

theorem execAlmSwapPoolArm_sound {s s' : State} (hs : State.Sound s) (h : execAlmSwapPoolArm s = .next s') : State.Sound s' :=
  running_sound hs (fun _ h1 => (State.armSwap_sound h1)) h

theorem execPraRingDb_sound {r : Fin 4} {v : BitVec 64} {s s' : State} (hs : State.Sound s) (h : execPraRingDb r v s = .next s') : State.Sound s' :=
  running_sound hs (fun _ h1 => (State.wrAccess_sound h1)) h

theorem execGoldQpsk_sound {fold : Fin 16} {s s' : State} (hs : State.Sound s) (h : execGoldQpsk fold s = .next s') : State.Sound s' :=
  working_sound hs (fun _ h1 => (State.accGoldQpsk_sound h1)) h

theorem execWindowOpen_sound {w : BitVec 16} {s s' : State} (hs : State.Sound s) (h : execWindowOpen w s = .next s') : State.Sound s' :=
  running_sound hs (fun _ h1 => (State.openWindow_sound h1)) h

theorem execAcq_sound {y : Syl} {s s' : State} (hs : State.Sound s) (h : execAcq y s = .next s') : State.Sound s' :=
  running_sound hs (fun _ h1 => (State.feed_sound h1)) h

theorem execAdd_sound {y : Syl} {s s' : State} (hs : State.Sound s) (h : execAdd y s = .next s') : State.Sound s' :=
  running_sound hs (fun _ h1 => (State.feed_sound h1)) h

theorem execSignalChange_sound {l : Fin 64} {present : Bool}
    {s s' : State} (hs : State.Sound s) (h : execSignalChange l present s = .next s') : State.Sound s' :=
  running_sound hs (fun _ h1 => (State.setSignal_sound h1)) h

theorem execAlmSwapDisarm_sound {s s' : State} (hs : State.Sound s) (h : execAlmSwapDisarm s = .next s') : State.Sound s' :=
  running_sound hs (fun _ h1 => (State.disarm_sound h1)) h

theorem execPllNoLock_sound {q : Fin 16} {s s' : State} (hs : State.Sound s) (h : execPllNoLock q s = .next s') : State.Sound s' :=
  running_sound hs (fun _ h1 => (State.pllNoLock_sound h1)) h

theorem execFltRestore_sound {cls : Fin 6} {phys : Fin 32}
    {s s' : State} (hs : State.Sound s) (h : execFltRestore cls phys s = .next s') : State.Sound s' :=
  running_sound hs (fun _ h1 => (State.writeUnitCtrl_sound h1)) h

theorem execSdsQuadCfg_sound {q : Fin 16} {v : BitVec 64}
    {s s' : State} (hs : State.Sound s) (h : execSdsQuadCfg q v s = .next s') : State.Sound s' :=
  running_sound hs (fun _ h1 => (State.writeQuadCfg_sound h1)) h

theorem execTemplateFetch_sound {s s' : State} (hs : State.Sound s) (h : execTemplateFetch s = .next s') : State.Sound s' :=
  running_sound hs (fun _ h1 => (State.fetchAt_sound h1)) h

theorem execFrameReceive_sound {f : RxFrame} {s s' : State} (hs : State.Sound s) (h : execFrameReceive f s = .next s') : State.Sound s' :=
  running_sound hs (fun _ h1 => (State.receiveFrame_sound h1)) h

theorem execRebind_sound {s s' : State} (hs : State.Sound s) (h : execRebind s = .next s') : State.Sound s' :=
  running_sound hs (fun _ h1 => (State.edgeIf_sound h1 (fun _ h3 => (State.rebindAt_sound h3)))) h

theorem execMceStatClr_sound {s s' : State} (hs : State.Sound s) (h : execMceStatClr s = .next s') : State.Sound s' :=
  running_sound hs (fun _ h1 => (State.clearMce_sound h1)) h

theorem execLdh_sound {y : Syl} {s s' : State} (hs : State.Sound s) (h : execLdh y s = .next s') : State.Sound s' :=
  running_sound hs (fun _ h1 => (State.feed_sound h1)) h

theorem execTimTodSecRead_sound {s s' : State} (hs : State.Sound s) (h : execTimTodSecRead s = .next s') : State.Sound s' :=
  running_sound hs (fun _ h1 => (State.readTodSec_sound h1)) h

theorem execTimStatClr_sound {s s' : State} (hs : State.Sound s) (h : execTimStatClr s = .next s') : State.Sound s' :=
  running_sound hs (fun _ h1 => (State.clearTim_sound h1)) h

theorem execDemap_sound {m : Fin 12} {s s' : State} (hs : State.Sound s) (h : execDemap m s = .next s') : State.Sound s' :=
  working_sound hs (fun _ h1 => (State.demapJob_sound h1)) h

theorem execTxWindowClose_sound {w : BitVec 16} {started : BitVec 16}
    {s s' : State} (hs : State.Sound s) (h : execTxWindowClose w started s = .next s') : State.Sound s' :=
  running_sound hs (fun _ h1 => (State.closeWindow_sound h1)) h

theorem execVpack_sound {y : Syl} {s s' : State} (hs : State.Sound s) (h : execVpack y s = .next s') : State.Sound s' :=
  running_sound hs (fun _ h1 => (State.feed_sound h1)) h

theorem execThermCrossing_sound {temp : BitVec 16} {s s' : State} (hs : State.Sound s) (h : execThermCrossing temp s = .next s') : State.Sound s' :=
  always_sound hs (fun _ h1 => (State.judgeTherm_sound (State.setFld_sound h1))) h

theorem execPllLossOfLock_sound {q : Fin 16} {s s' : State} (hs : State.Sound s) (h : execPllLossOfLock q s = .next s') : State.Sound s' :=
  running_sound hs (fun _ h1 => (State.losePll_sound h1)) h

theorem execAbs_sound {y : Syl} {s s' : State} (hs : State.Sound s) (h : execAbs y s = .next s') : State.Sound s' :=
  running_sound hs (fun _ h1 => (State.feed_sound h1)) h

theorem execUnitHwFault_sound {cls : Fin 6} {phys : Fin 32} {sram : Bool}
    {s s' : State} (hs : State.Sound s) (h : execUnitHwFault cls phys sram s = .next s') : State.Sound s' :=
  running_sound hs (fun _ h1 => (State.checkerFault_sound h1)) h

theorem execMaxu_sound {y : Syl} {s s' : State} (hs : State.Sound s) (h : execMaxu y s = .next s') : State.Sound s' :=
  running_sound hs (fun _ h1 => (State.feed_sound h1)) h

theorem execSysBootGo_sound {s s' : State} (hs : State.Sound s) (h : execSysBootGo s = .next s') : State.Sound s' :=
  running_sound hs (fun _ h1 => (State.bootGo_sound h1)) h

theorem execNocRtDataRead_sound {s s' : State} (hs : State.Sound s) (h : execNocRtDataRead s = .next s') : State.Sound s' :=
  running_sound hs (fun _ h1 => (State.rtAdvance_sound h1)) h

theorem execDrvCqCfg_sound {q : Fin 16} {v : BitVec 64} {s s' : State} (hs : State.Sound s) (h : execDrvCqCfg q v s = .next s') : State.Sound s' :=
  running_sound hs (fun _ h1 => (State.writeCqCfg_sound h1)) h

theorem execDemapReplay_sound {m : Fin 12} {s s' : State} (hs : State.Sound s) (h : execDemapReplay m s = .next s') : State.Sound s' :=
  working_sound hs (fun _ h1 => (State.demapJob_sound h1)) h

theorem execSwap_sound {s s' : State} (hs : State.Sound s) (h : execSwap s = .next s') : State.Sound s' :=
  running_sound hs (fun _ h1 => (State.edgeIf_sound h1 (fun _ h3 => (State.swapAt_sound h3)))) h

theorem execQtos_sound {y : Syl} {s s' : State} (hs : State.Sound s) (h : execQtos y s = .next s') : State.Sound s' :=
  running_sound hs (fun _ h1 => (State.feed_sound h1)) h

theorem execSolve_sound {fold : Fin 16} {s s' : State} (hs : State.Sound s) (h : execSolve fold s = .next s') : State.Sound s' :=
  working_sound hs (fun _ h1 => (State.accSolve_sound h1)) h

theorem execLdbu_sound {y : Syl} {s s' : State} (hs : State.Sound s) (h : execLdbu y s = .next s') : State.Sound s' :=
  running_sound hs (fun _ h1 => (State.feed_sound h1)) h

theorem execPucch_sound {fold : Fin 16} {core : Fin 8} {s s' : State} (hs : State.Sound s) (h : execPucch fold core s = .next s') : State.Sound s' :=
  working_sound hs (fun _ h1 => (State.pucchKernel_sound h1)) h

theorem execQnot_sound {y : Syl} {s s' : State} (hs : State.Sound s) (h : execQnot y s = .next s') : State.Sound s' :=
  running_sound hs (fun _ h1 => (State.feed_sound h1)) h

theorem execMtc_sound {y : Syl} {s s' : State} (hs : State.Sound s) (h : execMtc y s = .next s') : State.Sound s' :=
  running_sound hs (fun _ h1 => (State.feed_sound h1)) h

theorem execPowerGood_sound {d : Fin 69} {s s' : State} (hs : State.Sound s) (h : execPowerGood d s = .next s') : State.Sound s' :=
  always_sound hs (fun _ h1 => (State.powerGood_sound h1)) h

theorem execFhlStatClr_sound {s s' : State} (hs : State.Sound s) (h : execFhlStatClr s = .next s') : State.Sound s' :=
  running_sound hs (fun _ h1 => (State.clearFhl_sound h1)) h

theorem execTimeStep_sound {s s' : State} (hs : State.Sound s) (h : execTimeStep s = .next s') : State.Sound s' :=
  running_sound hs (fun _ h1 => (State.stepNow_sound h1)) h

theorem execSample_sound {s s' : State} (hs : State.Sound s) (h : execSample s = .next s') : State.Sound s' :=
  always_sound hs (fun a0 h1 => (State.tap_sound h1 (fun a2 h3 => (by
    extract_lets -underBinder +lift x4
    have h5 : State.Sound x4.2 := (State.draw_sound h3)
    exact (State.capture_sound h5))))) h

theorem execTrap_sound {y : Syl} {s s' : State} (hs : State.Sound s) (h : execTrap y s = .next s') : State.Sound s' :=
  running_sound hs (fun _ h1 => (State.feed_sound h1)) h

theorem execMax_sound {y : Syl} {s s' : State} (hs : State.Sound s) (h : execMax y s = .next s') : State.Sound s' :=
  running_sound hs (fun _ h1 => (State.feed_sound h1)) h

theorem execVconj_sound {y : Syl} {s s' : State} (hs : State.Sound s) (h : execVconj y s = .next s') : State.Sound s' :=
  running_sound hs (fun _ h1 => (State.feed_sound h1)) h

theorem execCombine_sound {m : Fin 12} {s s' : State} (hs : State.Sound s) (h : execCombine m s = .next s') : State.Sound s' :=
  working_sound hs (fun _ h1 => (State.arrayJob_sound h1)) h

theorem execLteUci_sound {fold : Fin 16} {core : Fin 8} {llrs : BitVec 48} {ulsch : BitVec 48}
    {s s' : State} (hs : State.Sound s) (h : execLteUci fold core llrs ulsch s = .next s') : State.Sound s' :=
  working_sound hs (fun _ h1 => (State.puschUci_sound h1)) h

theorem execPcieLinkChange_sound {up : Bool} {speed : BitVec 3} {width : BitVec 4}
    {s s' : State} (hs : State.Sound s) (h : execPcieLinkChange up speed width s = .next s') : State.Sound s' :=
  running_sound hs (fun _ h1 => (State.linkChange_sound h1)) h

theorem execMovsp_sound {y : Syl} {s s' : State} (hs : State.Sound s) (h : execMovsp y s = .next s') : State.Sound s' :=
  running_sound hs (fun _ h1 => (State.feed_sound h1)) h

theorem execCellStart_sound {h : BitVec 64} {p : List Byte}
    {s s' : State} (hs : State.Sound s) (h : execCellStart h p s = .next s') : State.Sound s' :=
  running_sound hs (fun _ h1 => (State.acceptPeer_sound h1)) h

theorem execJr_sound {y : Syl} {s s' : State} (hs : State.Sound s) (h : execJr y s = .next s') : State.Sound s' :=
  running_sound hs (fun _ h1 => (State.feed_sound h1)) h

theorem execFabMsgTx_sound {v : BitVec 64} {s s' : State} (hs : State.Sound s) (h : execFabMsgTx v s = .next s') : State.Sound s' :=
  working_sound hs (fun _ h1 => (State.writeMsgTx_sound h1)) h

theorem execMovTransferComplete_sound {e : Fin 8} {s s' : State} (hs : State.Sound s) (h : execMovTransferComplete e s = .next s') : State.Sound s' :=
  running_sound hs (fun _ h1 => (State.movComplete_sound h1)) h

theorem execConfigurationRequest_sound {write : Bool} {offset : BitVec 12} {v : BitVec 32}
    {s s' : State} (hs : State.Sound s) (h : execConfigurationRequest write offset v s = .next s') : State.Sound s' :=
  running_sound hs (fun _ h1 => (State.configRequest_sound h1)) h

theorem execCommandResolve_sound {s s' : State} (hs : State.Sound s) (h : execCommandResolve s = .next s') : State.Sound s' :=
  running_sound hs (fun _ h1 => (State.edgeIf_sound h1 (fun _ h3 => (State.resolveAt_sound h3)))) h

theorem execVcmulc_sound {y : Syl} {s s' : State} (hs : State.Sound s) (h : execVcmulc y s = .next s') : State.Sound s' :=
  running_sound hs (fun _ h1 => (State.feed_sound h1)) h

theorem execCompletionPost_sound {q : Fin 16} {ring : BitVec 16}
    {s s' : State} (hs : State.Sound s) (h : execCompletionPost q ring s = .next s') : State.Sound s' :=
  running_sound hs (fun _ h1 => (State.postCompletion_sound h1)) h

theorem execAlmCtrlAbort_sound {s s' : State} (hs : State.Sound s) (h : execAlmCtrlAbort s = .next s') : State.Sound s' :=
  running_sound hs (fun _ h1 => (State.abortLoad_sound h1)) h

theorem execTestLogicReset_sound {s s' : State} (hs : State.Sound s) (h : execTestLogicReset s = .next s') : State.Sound s' :=
  always_sound hs (fun _ h1 => (State.tap_sound h1 (fun _ h3 => (State.detachNow_sound h3)))) h

theorem execSari_sound {y : Syl} {s s' : State} (hs : State.Sound s) (h : execSari y s = .next s') : State.Sound s' :=
  running_sound hs (fun _ h1 => (State.feed_sound h1)) h

theorem execMin_sound {y : Syl} {s s' : State} (hs : State.Sound s) (h : execMin y s = .next s') : State.Sound s' :=
  running_sound hs (fun _ h1 => (State.feed_sound h1)) h

theorem execSrsEst_sound {fold : Fin 16} {core : Fin 8}
    {s s' : State} (hs : State.Sound s) (h : execSrsEst fold core s = .next s') : State.Sound s' :=
  working_sound hs (fun _ h1 => (State.srsEst_sound h1)) h

theorem execZc_sound {fold : Fin 16} {s s' : State} (hs : State.Sound s) (h : execZc fold s = .next s') : State.Sound s' :=
  working_sound hs (fun _ h1 => (State.accZc_sound h1)) h

theorem execVmac_sound {y : Syl} {s s' : State} (hs : State.Sound s) (h : execVmac y s = .next s') : State.Sound s' :=
  running_sound hs (fun _ h1 => (State.feed_sound h1)) h

theorem execNonce_sound {s s' : State} (hs : State.Sound s) (h : execNonce s = .next s') : State.Sound s' :=
  always_sound hs (fun _ h1 => (State.tap_sound h1 (fun _ h3 => (State.drawNonce_sound h3)))) h

theorem execPuschPhase_sound {fold : Fin 16} {core : Fin 8} {out : BitVec 48}
    {s s' : State} (hs : State.Sound s) (h : execPuschPhase fold core out s = .next s') : State.Sound s' :=
  working_sound hs (fun _ h1 => (State.puschPhase_sound h1)) h

theorem execDrlGrpLanes_sound {g : Fin 32} {v : BitVec 64}
    {s s' : State} (hs : State.Sound s) (h : execDrlGrpLanes g v s = .next s') : State.Sound s' :=
  running_sound hs (fun _ h1 => (State.writeGrpLanes_sound h1)) h

theorem execDetect_sound {e : Fin 4} {s s' : State} (hs : State.Sound s) (h : execDetect e s = .next s') : State.Sound s' :=
  running_sound hs (fun _ h1 => (State.praDetect_sound h1)) h

theorem execRemoteRequestSend_sound {s s' : State} (hs : State.Sound s) (h : execRemoteRequestSend s = .next s') : State.Sound s' :=
  running_sound hs (fun _ h1 => (State.sendRequest_sound h1)) h

theorem execPopc_sound {y : Syl} {s s' : State} (hs : State.Sound s) (h : execPopc y s = .next s') : State.Sound s' :=
  running_sound hs (fun _ h1 => (State.feed_sound h1)) h

theorem execQfroms_sound {y : Syl} {s s' : State} (hs : State.Sound s) (h : execQfroms y s = .next s') : State.Sound s' :=
  running_sound hs (fun _ h1 => (State.feed_sound h1)) h

theorem execHostBarWrite_sound {bar2 : Bool} {offset : BitVec 37} {data : List (BitVec 8)}
    {s s' : State} (hs : State.Sound s) (h : execHostBarWrite bar2 offset data s = .next s') : State.Sound s' :=
  running_sound hs (fun _ h1 => (State.flushBar_sound (State.barWrite_sound h1))) h

theorem execPuschChest_sound {fold : Fin 16} {core : Fin 8} {gain : BitVec 48} {out : BitVec 48} {gLog2 : Fin 5}
    {s s' : State} (hs : State.Sound s) (h : execPuschChest fold core gain out gLog2 s = .next s') : State.Sound s' :=
  working_sound hs (fun _ h1 => (State.puschChest_sound h1)) h

theorem execPtpTxDeparture_sound {sfd : BitVec 64} {s s' : State} (hs : State.Sound s) (h : execPtpTxDeparture sfd s = .next s') : State.Sound s' :=
  working_sound hs (fun _ h1 => (State.departTx_sound h1)) h

theorem execStw_sound {y : Syl} {s s' : State} (hs : State.Sound s) (h : execStw y s = .next s') : State.Sound s' :=
  running_sound hs (fun _ h1 => (State.feed_sound h1)) h

theorem execAccum_sound {e : Fin 4} {s s' : State} (hs : State.Sound s) (h : execAccum e s = .next s') : State.Sound s' :=
  running_sound hs (fun _ h1 => (State.praAccum_sound h1)) h

theorem execGoldBits_sound {fold : Fin 16} {s s' : State} (hs : State.Sound s) (h : execGoldBits fold s = .next s') : State.Sound s' :=
  working_sound hs (fun _ h1 => (State.accGoldBits_sound h1)) h

theorem execRequestAccept_sound {q : Fin 16} {desc : HostData} {ext : HostData} {data : List HostData}
    {s s' : State} (hs : State.Sound s) (h : execRequestAccept q desc ext data s = .next s') : State.Sound s' :=
  working_sound hs (fun _ h1 => (State.acceptRequest_sound h1)) h

theorem execAvsExchangeStart_sound {s s' : State} (hs : State.Sound s) (h : execAvsExchangeStart s = .next s') : State.Sound s' :=
  always_sound hs (fun _ h1 => (State.startAvs_sound h1)) h

theorem execNocStatClr_sound {s s' : State} (hs : State.Sound s) (h : execNocStatClr s = .next s') : State.Sound s' :=
  running_sound hs (fun _ h1 => (State.clearNoc_sound h1)) h

theorem execTbDoneReplay_sound {u : Fin 32} {s s' : State} (hs : State.Sound s) (h : execTbDoneReplay u s = .next s') : State.Sound s' :=
  working_sound hs (fun _ h1 => (State.tbDone_sound h1)) h

theorem execPowerPlanTransition_sound {d : Fin 69}
    {s s' : State} (hs : State.Sound s) (h : execPowerPlanTransition d s = .next s') : State.Sound s' :=
  running_sound hs (fun _ h1 => (State.edgeIf_sound h1 (fun _ h3 => (State.planAtEdge_sound h3)))) h

theorem execFabStatClr_sound {s s' : State} (hs : State.Sound s) (h : execFabStatClr s = .next s') : State.Sound s' :=
  running_sound hs (fun _ h1 => (foldl_sound h1 (fun _ _ h4 => (State.wr_sound h4)))) h

theorem execStb_sound {y : Syl} {s s' : State} (hs : State.Sound s) (h : execStb y s = .next s') : State.Sound s' :=
  running_sound hs (fun _ h1 => (State.feed_sound h1)) h

theorem execVand_sound {y : Syl} {s s' : State} (hs : State.Sound s) (h : execVand y s = .next s') : State.Sound s' :=
  running_sound hs (fun _ h1 => (State.feed_sound h1)) h

theorem execCoalTicksExpiry_sound {ring : Fin 20} {s s' : State} (hs : State.Sound s) (h : execCoalTicksExpiry ring s = .next s') : State.Sound s' :=
  running_sound hs (fun _ h1 => (State.coalExpired_sound h1)) h

theorem execMusterBackoffEnd_sound {s s' : State} (hs : State.Sound s) (h : execMusterBackoffEnd s = .next s') : State.Sound s' :=
  running_sound hs (fun _ h1 => (State.endBackoff_sound h1)) h

theorem execCommandEffect_sound {s s' : State} (hs : State.Sound s) (h : execCommandEffect s = .next s') : State.Sound s' :=
  running_sound hs (fun _ h1 => (State.edgeIf_sound h1 (fun _ h3 => (State.effectAt_sound h3)))) h

theorem execUnitBarred_sound {s s' : State} (hs : State.Sound s) (h : execUnitBarred s = .next s') : State.Sound s' :=
  running_sound hs (fun _ h1 => (State.edgeIf_sound h1 (fun _ h3 => (State.barUnits_sound h3)))) h

theorem execDeviceReset_sound {v : BitVec 64} {s s' : State} (hs : State.Sound s) (h : execDeviceReset v s = .next s') : State.Sound s' :=
  always_sound hs (fun _ h1 => (State.writeSysCtrl_sound h1)) h

theorem execSwapNak_sound {h : BitVec 64} {p : List Byte} {s s' : State} (hs : State.Sound s) (h : execSwapNak h p s = .next s') : State.Sound s' :=
  running_sound hs (fun _ h1 => (State.poolAnswer_sound h1)) h

theorem execVcmacc_sound {y : Syl} {s s' : State} (hs : State.Sound s) (h : execVcmacc y s = .next s') : State.Sound s' :=
  running_sound hs (fun _ h1 => (State.feed_sound h1)) h

theorem execTimVrefSub_sound {v : BitVec 64} {s s' : State} (hs : State.Sound s) (h : execTimVrefSub v s = .next s') : State.Sound s' :=
  running_sound hs (fun _ h1 => (State.commitSample_sound (State.wrAccess_sound h1))) h

theorem execMovi_sound {y : Syl} {s s' : State} (hs : State.Sound s) (h : execMovi y s = .next s') : State.Sound s' :=
  running_sound hs (fun _ h1 => (State.feed_sound h1)) h

theorem execRemoteRequest_sound {f : RxFrame} {s s' : State} (hs : State.Sound s) (h : execRemoteRequest f s = .next s') : State.Sound s' :=
  running_sound hs (fun _ h1 => (State.receiveIf_sound h1)) h

theorem execResumeRestart_sound {s s' : State} (hs : State.Sound s) (h : execResumeRestart s = .next s') : State.Sound s' :=
  always_sound hs (fun _ h1 => (State.resumeAt_sound h1)) h

theorem execLpbk_sound {l : Fin 64} {v : BitVec 64} {s s' : State} (hs : State.Sound s) (h : execLpbk l v s = .next s') : State.Sound s' :=
  running_sound hs (fun _ h1 => (State.writeLaneCfg_sound h1)) h

theorem execOutputStepApply_sound {o : Fin 6} {s s' : State} (hs : State.Sound s) (h : execOutputStepApply o s = .next s') : State.Sound s' :=
  running_sound hs (fun _ h1 => (State.edgeIf_sound h1 (fun _ h3 => (State.applyOutStep_sound h3)))) h

theorem execCmpeqi_sound {y : Syl} {s s' : State} (hs : State.Sound s) (h : execCmpeqi y s = .next s') : State.Sound s' :=
  running_sound hs (fun _ h1 => (State.feed_sound h1)) h

theorem execMusterPeriodicCall_sound {s s' : State} (hs : State.Sound s) (h : execMusterPeriodicCall s = .next s') : State.Sound s' :=
  running_sound hs (fun _ h1 => (State.periodicCall_sound h1)) h

theorem execWindowClose_sound {w : BitVec 16} {s s' : State} (hs : State.Sound s) (h : execWindowClose w s = .next s') : State.Sound s' :=
  running_sound hs (fun _ h1 => (State.closeWindow_sound h1)) h

theorem execStop_sound {q : Fin 16} {ring : BitVec 16} {tag : BitVec 32} {cell : Fin 128} {frame : BitVec 20}
    {s s' : State} (hs : State.Sound s) (h : execStop q ring tag cell frame s = .next s') : State.Sound s' :=
  running_sound hs (fun _ h1 => (State.cellCmd_sound h1)) h

theorem execVsel_sound {y : Syl} {s s' : State} (hs : State.Sound s) (h : execVsel y s = .next s') : State.Sound s' :=
  running_sound hs (fun _ h1 => (State.feed_sound h1)) h

theorem execMusterCall_sound {h : BitVec 64} {p : List Byte}
    {s s' : State} (hs : State.Sound s) (h : execMusterCall h p s = .next s') : State.Sound s' :=
  running_sound hs (fun _ h1 => (State.takeCall_sound h1)) h

theorem execVneg_sound {y : Syl} {s s' : State} (hs : State.Sound s) (h : execVneg y s = .next s') : State.Sound s' :=
  running_sound hs (fun _ h1 => (State.feed_sound h1)) h

theorem execMusterEpoch_sound {s s' : State} (hs : State.Sound s) (h : execMusterEpoch s = .next s') : State.Sound s' :=
  running_sound hs (fun _ h1 => (State.edgeIf_sound h1 (fun _ h3 => (State.epochAt_sound h3)))) h

theorem execVld_sound {y : Syl} {s s' : State} (hs : State.Sound s) (h : execVld y s = .next s') : State.Sound s' :=
  running_sound hs (fun _ h1 => (State.feed_sound h1)) h

theorem execAcwait_sound {y : Syl} {s s' : State} (hs : State.Sound s) (h : execAcwait y s = .next s') : State.Sound s' :=
  running_sound hs (fun _ h1 => (State.feed_sound h1)) h

theorem execQxor_sound {y : Syl} {s s' : State} (hs : State.Sound s) (h : execQxor y s = .next s') : State.Sound s' :=
  running_sound hs (fun _ h1 => (State.feed_sound h1)) h

theorem execPowerOnReset_sound {s s' : State} (hs : State.Sound s) (h : execPowerOnReset s = .next s') : State.Sound s' :=
  always_sound hs (fun _ h1 => (State.powerOn_sound h1)) h

theorem execSwapPowerOverride_sound {s s' : State} (hs : State.Sound s) (h : execSwapPowerOverride s = .next s') : State.Sound s' :=
  running_sound hs (fun _ h1 => (State.edgeIf_sound h1 (fun _ h3 => (State.overridePower_sound h3)))) h

theorem execFhReady_sound {s s' : State} (hs : State.Sound s) (h : execFhReady s = .next s') : State.Sound s' :=
  running_sound hs (fun _ h1 => (State.writeSysCtrl_sound h1)) h

theorem execSth_sound {y : Syl} {s s' : State} (hs : State.Sound s) (h : execSth y s = .next s') : State.Sound s' :=
  running_sound hs (fun _ h1 => (State.feed_sound h1)) h

theorem execVstw_sound {y : Syl} {s s' : State} (hs : State.Sound s) (h : execVstw y s = .next s') : State.Sound s' :=
  running_sound hs (fun _ h1 => (State.feed_sound h1)) h

theorem execQseti_sound {y : Syl} {s s' : State} (hs : State.Sound s) (h : execQseti y s = .next s') : State.Sound s' :=
  running_sound hs (fun _ h1 => (State.feed_sound h1)) h

theorem execVadd_sound {y : Syl} {s s' : State} (hs : State.Sound s) (h : execVadd y s = .next s') : State.Sound s' :=
  running_sound hs (fun _ h1 => (State.feed_sound h1)) h

theorem execChkEn_sound {l : Fin 64} {v : BitVec 64} {s s' : State} (hs : State.Sound s) (h : execChkEn l v s = .next s') : State.Sound s' :=
  running_sound hs (fun _ h1 => (State.writePrbs_sound h1)) h

theorem execQor_sound {y : Syl} {s s' : State} (hs : State.Sound s) (h : execQor y s = .next s') : State.Sound s' :=
  running_sound hs (fun _ h1 => (State.feed_sound h1)) h

theorem execAuth_sound {mac : BitVec 256} {s s' : State} (hs : State.Sound s) (h : execAuth mac s = .next s') : State.Sound s' :=
  always_sound hs (fun _ h1 => (State.tap_sound h1 (fun _ h3 => (State.authorise_sound h3)))) h

theorem execNop_sound {y : Syl} {s s' : State} (hs : State.Sound s) (h : execNop y s = .next s') : State.Sound s' :=
  running_sound hs (fun _ h1 => (State.feed_sound h1)) h

theorem execSwapCommit_sound {h : BitVec 64} {p : List Byte}
    {s s' : State} (hs : State.Sound s) (h : execSwapCommit h p s = .next s') : State.Sound s' :=
  running_sound hs (fun _ h1 => (State.poolCommit_sound h1)) h

theorem execAddi_sound {y : Syl} {s s' : State} (hs : State.Sound s) (h : execAddi y s = .next s') : State.Sound s' :=
  running_sound hs (fun _ h1 => (State.feed_sound h1)) h

theorem execSystemPllLock_sound {s s' : State} (hs : State.Sound s) (h : execSystemPllLock s = .next s') : State.Sound s' :=
  always_sound hs (fun _ h1 => (State.pllLocks_sound h1)) h

theorem execCopy_sound {e : Fin 8} {host : HostData} {s s' : State} (hs : State.Sound s) (h : execCopy e host s = .next s') : State.Sound s' :=
  working_sound hs (fun _ h1 => (State.copyRelease_sound h1)) h

theorem execBootReadComplete_sound {image : List (BitVec 8)}
    {s s' : State} (hs : State.Sound s) (h : execBootReadComplete image s = .next s') : State.Sound s' :=
  running_sound hs (fun _ h1 => (State.bootReadDone_sound h1)) h

theorem execPwronNRelease_sound {s s' : State} (hs : State.Sound s) (h : execPwronNRelease s = .next s') : State.Sound s' :=
  always_sound hs (fun _ h1 => (State.pwronReleased_sound h1)) h

theorem execVabs_sound {y : Syl} {s s' : State} (hs : State.Sound s) (h : execVabs y s = .next s') : State.Sound s' :=
  running_sound hs (fun _ h1 => (State.feed_sound h1)) h

theorem execShl_sound {y : Syl} {s s' : State} (hs : State.Sound s) (h : execShl y s = .next s') : State.Sound s' :=
  running_sound hs (fun _ h1 => (State.feed_sound h1)) h

theorem execMovps_sound {y : Syl} {s s' : State} (hs : State.Sound s) (h : execMovps y s = .next s') : State.Sound s' :=
  running_sound hs (fun _ h1 => (State.feed_sound h1)) h

theorem execRfe_sound {y : Syl} {s s' : State} (hs : State.Sound s) (h : execRfe y s = .next s') : State.Sound s' :=
  running_sound hs (fun _ h1 => (State.feed_sound h1)) h

theorem execAccessComplete_sound {s s' : State} (hs : State.Sound s) (h : execAccessComplete s = .next s') : State.Sound s' :=
  always_sound hs (fun _ h1 => (State.crookEnd_sound h1)) h

theorem execFltReturn_sound {cls : Fin 6} {phys : Fin 32}
    {s s' : State} (hs : State.Sound s) (h : execFltReturn cls phys s = .next s') : State.Sound s' :=
  running_sound hs (fun _ h1 => (State.writeUnitCtrl_sound h1)) h

theorem execRegisterWrite_sound {ws : List RegWrite} {reads : List (BitVec 48)}
    {s s' : State} (hs : State.Sound s) (h : execRegisterWrite ws reads s = .next s') : State.Sound s' :=
  always_sound hs (fun _ h1 => (sound_ite (State.writesOf_sound h1) (State.writesOf_sound (State.readsOf_sound h1)))) h

theorem execOr_sound {y : Syl} {s s' : State} (hs : State.Sound s) (h : execOr y s = .next s') : State.Sound s' :=
  running_sound hs (fun _ h1 => (State.feed_sound h1)) h

theorem execReadResp_sound {p : Packet} {s s' : State} (hs : State.Sound s) (h : execReadResp p s = .next s') : State.Sound s' :=
  running_sound hs (fun _ h1 => (State.deliverPacket_sound h1)) h

theorem execXor_sound {y : Syl} {s s' : State} (hs : State.Sound s) (h : execXor y s = .next s') : State.Sound s' :=
  running_sound hs (fun _ h1 => (State.feed_sound h1)) h

theorem execOri_sound {y : Syl} {s s' : State} (hs : State.Sound s) (h : execOri y s = .next s') : State.Sound s' :=
  running_sound hs (fun _ h1 => (State.feed_sound h1)) h

theorem execOneWayDelayRequest_sound {f : RxFrame} {s s' : State} (hs : State.Sound s) (h : execOneWayDelayRequest f s = .next s') : State.Sound s' :=
  running_sound hs (fun _ h1 => (State.receiveIf_sound h1)) h

theorem execPtpFrameReceive_sound {f : RxFrame} {s s' : State} (hs : State.Sound s) (h : execPtpFrameReceive f s = .next s') : State.Sound s' :=
  running_sound hs (fun _ h1 => (State.receiveIf_sound h1)) h

theorem execPraRingCfg_sound {r : Fin 4} {v : BitVec 64} {s s' : State} (hs : State.Sound s) (h : execPraRingCfg r v s = .next s') : State.Sound s' :=
  running_sound hs (fun _ h1 => (State.writePraCfg_sound h1)) h

theorem execUartCfg_sound {v : BitVec 64} {s s' : State} (hs : State.Sound s) (h : execUartCfg v s = .next s') : State.Sound s' :=
  running_sound hs (fun _ h1 => (State.writeUartCfg_sound h1)) h

theorem execUartRxCharacter_sound {data : BitVec 8} {parity : Bool} {stop : Bool}
    {s s' : State} (hs : State.Sound s) (h : execUartRxCharacter data parity stop s = .next s') : State.Sound s' :=
  running_sound hs (fun _ h1 => (State.uartReceive_sound h1)) h

theorem execInterruptEntry_sound {core : Fin 136} {s s' : State} (hs : State.Sound s) (h : execInterruptEntry core s = .next s') : State.Sound s' :=
  running_sound hs (fun _ h1 => (State.interruptAt_sound h1)) h

theorem execDroveFrameReceive_sound {l : Fin 64} {line : List Bool} {skew : BitVec 16}
    {s s' : State} (hs : State.Sound s) (h : execDroveFrameReceive l line skew s = .next s') : State.Sound s' :=
  running_sound hs (fun _ h1 => (State.receiveLane_sound (State.endSecond_sound (State.endPeriod_sound h1)))) h

theorem execGpioPulseEnd_sound {n : Fin 32} {s s' : State} (hs : State.Sound s) (h : execGpioPulseEnd n s = .next s') : State.Sound s' :=
  running_sound hs (fun _ h1 => (State.endPulse_sound h1)) h

theorem execReleaseComplete_sound {e : EngRef} {s s' : State} (hs : State.Sound s) (h : execReleaseComplete e s = .next s') : State.Sound s' :=
  running_sound hs (fun _ h1 => (State.completeOn_sound h1)) h

theorem execNoFlash_sound {s s' : State} (hs : State.Sound s) (h : execNoFlash s = .next s') : State.Sound s' :=
  running_sound hs (fun _ h1 => (State.bootFlashFails_sound h1)) h

theorem execCmple_sound {y : Syl} {s s' : State} (hs : State.Sound s) (h : execCmple y s = .next s') : State.Sound s' :=
  running_sound hs (fun _ h1 => (State.feed_sound h1)) h

theorem execMusterAbort_sound {h : BitVec 64} {p : List Byte}
    {s s' : State} (hs : State.Sound s) (h : execMusterAbort h p s = .next s') : State.Sound s' :=
  running_sound hs (fun _ h1 => (State.takeAbort_sound h1)) h

theorem execDlRs_sound {fold : Fin 16} {core : Fin 8} {grid : BitVec 48} {nsc : BitVec 12} {stride : BitVec 32} {ssb : BitVec 6}
    {second : Bool} {s s' : State} (hs : State.Sound s) (h : execDlRs fold core grid nsc stride ssb second s = .next s') : State.Sound s' :=
  working_sound hs (fun _ h1 => (State.dlRs_sound h1)) h

theorem execPcieReady_sound {s s' : State} (hs : State.Sound s) (h : execPcieReady s = .next s') : State.Sound s' :=
  running_sound hs (fun _ h1 => (State.pcieStarts_sound h1)) h

theorem execPrecode_sound {m : Fin 12} {s s' : State} (hs : State.Sound s) (h : execPrecode m s = .next s') : State.Sound s' :=
  working_sound hs (fun _ h1 => (State.arrayJob_sound h1)) h

theorem execTbDone_sound {u : Fin 32} {s s' : State} (hs : State.Sound s) (h : execTbDone u s = .next s') : State.Sound s' :=
  working_sound hs (fun _ h1 => (State.tbDone_sound h1)) h

theorem execAlmanacLoadComplete_sound {s s' : State} (hs : State.Sound s) (h : execAlmanacLoadComplete s = .next s') : State.Sound s' :=
  working_sound hs (fun _ h1 => (State.completeLoad_sound h1)) h

theorem execDecStatClr_sound {s s' : State} (hs : State.Sound s) (h : execDecStatClr s = .next s') : State.Sound s' :=
  running_sound hs (fun _ h1 => (State.clearDec_sound h1)) h

theorem execCellResult_sound {p : List Byte} {s s' : State} (hs : State.Sound s) (h : execCellResult p s = .next s') : State.Sound s' :=
  running_sound hs (fun _ h1 => (State.cellResult_sound h1)) h

theorem execVcmag_sound {y : Syl} {s s' : State} (hs : State.Sound s) (h : execVcmag y s = .next s') : State.Sound s' :=
  running_sound hs (fun _ h1 => (State.feed_sound h1)) h

theorem execMusterTimeout_sound {s s' : State} (hs : State.Sound s) (h : execMusterTimeout s = .next s') : State.Sound s' :=
  running_sound hs (fun _ h1 => (State.timeoutMuster_sound h1)) h

theorem execVcmpeq_sound {y : Syl} {s s' : State} (hs : State.Sound s) (h : execVcmpeq y s = .next s') : State.Sound s' :=
  running_sound hs (fun _ h1 => (State.feed_sound h1)) h

theorem execSdsLaneFfe_sound {l : Fin 64} {v : BitVec 64}
    {s s' : State} (hs : State.Sound s) (h : execSdsLaneFfe l v s = .next s') : State.Sound s' :=
  running_sound hs (fun _ h1 => (State.writeFfe_sound h1)) h

theorem execClear_sound {e : Fin 8} {h : Fin 16} {s s' : State} (hs : State.Sound s) (h : execClear e h s = .next s') : State.Sound s' :=
  running_sound hs (fun _ h1 => (State.writeMovCfg_sound h1)) h

theorem execUartRx_sound {s s' : State} (hs : State.Sound s) (h : execUartRx s = .next s') : State.Sound s' :=
  running_sound hs (fun _ h1 => (State.uartRead_sound h1)) h

theorem execPwrForceOn_sound {n : Fin 2} {v : BitVec 64} {s s' : State} (hs : State.Sound s) (h : execPwrForceOn n v s = .next s') : State.Sound s' :=
  running_sound hs (fun _ h1 => (State.writeForceOn_sound h1)) h

theorem execConsume_sound {n : BitVec 8} {s s' : State} (hs : State.Sound s) (h : execConsume n s = .next s') : State.Sound s' :=
  running_sound hs (fun _ h1 => (State.writeFltStatus_sound h1)) h

theorem execReadapt_sound {l : Fin 64} {v : BitVec 64} {s s' : State} (hs : State.Sound s) (h : execReadapt l v s = .next s') : State.Sound s' :=
  running_sound hs (fun _ h1 => (State.writeLaneCfg_sound h1)) h

theorem execLteCtrlMap_sound {m : Fin 8} {s s' : State} (hs : State.Sound s) (h : execLteCtrlMap m s = .next s') : State.Sound s' :=
  working_sound hs (fun _ h1 => (State.mapControl_sound h1)) h

theorem execLdp_sound {y : Syl} {s s' : State} (hs : State.Sound s) (h : execLdp y s = .next s') : State.Sound s' :=
  running_sound hs (fun _ h1 => (State.feed_sound h1)) h

theorem execAvsNoAck_sound {s s' : State} (hs : State.Sound s) (h : execAvsNoAck s = .next s') : State.Sound s' :=
  always_sound hs (fun _ h1 => (State.noAckAvs_sound h1)) h

theorem execVmin_sound {y : Syl} {s s' : State} (hs : State.Sound s) (h : execVmin y s = .next s') : State.Sound s' :=
  running_sound hs (fun _ h1 => (State.feed_sound h1)) h

theorem execVswapiq_sound {y : Syl} {s s' : State} (hs : State.Sound s) (h : execVswapiq y s = .next s') : State.Sound s' :=
  running_sound hs (fun _ h1 => (State.feed_sound h1)) h

theorem execDecLdpcReplay_sound {u : Fin 32} {s s' : State} (hs : State.Sound s) (h : execDecLdpcReplay u s = .next s') : State.Sound s' :=
  working_sound hs (fun _ h1 => (State.decodeJob_sound h1)) h

theorem execFltReset_sound {cls : Fin 7} {phys : Fin 32}
    {s s' : State} (hs : State.Sound s) (h : execFltReset cls phys s = .next s') : State.Sound s' :=
  running_sound hs (fun _ h1 => (State.writeUnitCtrl_sound h1)) h

theorem execVcmac_sound {y : Syl} {s s' : State} (hs : State.Sound s) (h : execVcmac y s = .next s') : State.Sound s' :=
  running_sound hs (fun _ h1 => (State.feed_sound h1)) h

theorem execHostBarRead_sound {bar2 : Bool} {offset : BitVec 37} {len : BitVec 13}
    {s s' : State} (hs : State.Sound s) (h : execHostBarRead bar2 offset len s = .next s') : State.Sound s' :=
  working_sound hs (fun _ h1 => (State.barRead_sound h1)) h

theorem execVor_sound {y : Syl} {s s' : State} (hs : State.Sound s) (h : execVor y s = .next s') : State.Sound s' :=
  running_sound hs (fun _ h1 => (State.feed_sound h1)) h

theorem execAonPowerGood_sound {s s' : State} (hs : State.Sound s) (h : execAonPowerGood s = .next s') : State.Sound s' :=
  always_sound hs (fun _ h1 => (State.aonGood_sound h1)) h

theorem execTimTxDb_sound {v : BitVec 64} {s s' : State} (hs : State.Sound s) (h : execTimTxDb v s = .next s') : State.Sound s' :=
  running_sound hs (fun _ h1 => (State.writeTxDb_sound h1)) h

theorem execTickEdge_sound {s s' : State} (hs : State.Sound s) (h : execTickEdge s = .next s') : State.Sound s' :=
  always_sound hs (fun _ h1 => (State.tickEdge_sound h1)) h

theorem execPraStatClr_sound {s s' : State} (hs : State.Sound s) (h : execPraStatClr s = .next s') : State.Sound s' :=
  running_sound hs (fun _ h1 => (State.clearPra_sound h1)) h

theorem execVsplat_sound {y : Syl} {s s' : State} (hs : State.Sound s) (h : execVsplat y s = .next s') : State.Sound s' :=
  running_sound hs (fun _ h1 => (State.feed_sound h1)) h

theorem execCmplt_sound {y : Syl} {s s' : State} (hs : State.Sound s) (h : execCmplt y s = .next s') : State.Sound s' :=
  running_sound hs (fun _ h1 => (State.feed_sound h1)) h

theorem execAcpoll_sound {y : Syl} {s s' : State} (hs : State.Sound s) (h : execAcpoll y s = .next s') : State.Sound s' :=
  running_sound hs (fun _ h1 => (State.feed_sound h1)) h

theorem execEncDlsch_sound {m : Fin 8} {s s' : State} (hs : State.Sound s) (h : execEncDlsch m s = .next s') : State.Sound s' :=
  working_sound hs (fun _ h1 => (State.encodeJob_sound h1)) h

theorem execTrsv_sound {fold : Fin 16} {s s' : State} (hs : State.Sound s) (h : execTrsv fold s = .next s') : State.Sound s' :=
  working_sound hs (fun _ h1 => (State.accTrsv_sound h1)) h

theorem execPraRecordPost_sound {e : Fin 4} {s s' : State} (hs : State.Sound s) (h : execPraRecordPost e s = .next s') : State.Sound s' :=
  running_sound hs (fun _ h1 => (State.praRecords_sound h1)) h

theorem execDecTurboReplay_sound {u : Fin 32} {s s' : State} (hs : State.Sound s) (h : execDecTurboReplay u s = .next s') : State.Sound s' :=
  working_sound hs (fun _ h1 => (State.decodeJob_sound h1)) h

theorem execStpDb_sound {addr : BitVec 16} {v : BitVec 32} {s s' : State} (hs : State.Sound s) (h : execStpDb addr v s = .next s') : State.Sound s' :=
  always_sound hs (fun _ h1 => (State.statusWrite_sound h1)) h

theorem execSwapAck_sound {h : BitVec 64} {p : List Byte} {s s' : State} (hs : State.Sound s) (h : execSwapAck h p s = .next s') : State.Sound s' :=
  running_sound hs (fun _ h1 => (State.poolAnswer_sound h1)) h

theorem execVperm_sound {y : Syl} {s s' : State} (hs : State.Sound s) (h : execVperm y s = .next s') : State.Sound s' :=
  running_sound hs (fun _ h1 => (State.feed_sound h1)) h

theorem execCmpltu_sound {y : Syl} {s s' : State} (hs : State.Sound s) (h : execCmpltu y s = .next s') : State.Sound s' :=
  running_sound hs (fun _ h1 => (State.feed_sound h1)) h

theorem execMfc_sound {y : Syl} {s s' : State} (hs : State.Sound s) (h : execMfc y s = .next s') : State.Sound s' :=
  running_sound hs (fun _ h1 => (State.feed_sound h1)) h

theorem execFabTimeout_sound {tag : BitVec 8} {s s' : State} (hs : State.Sound s) (h : execFabTimeout tag s = .next s') : State.Sound s' :=
  running_sound hs (fun _ h1 => (State.timeoutTag_sound h1)) h

theorem execDone_sound {y : Syl} {s s' : State} (hs : State.Sound s) (h : execDone y s = .next s') : State.Sound s' :=
  running_sound hs (fun _ h1 => (State.feed_sound h1)) h

theorem execSleepEmulationEnd_sound {s s' : State} (hs : State.Sound s) (h : execSleepEmulationEnd s = .next s') : State.Sound s' :=
  running_sound hs (fun _ h1 => (State.edgeIf_sound h1 (fun _ h3 => (State.endEmulation_sound h3)))) h

theorem execVmul_sound {y : Syl} {s s' : State} (hs : State.Sound s) (h : execVmul y s = .next s') : State.Sound s' :=
  running_sound hs (fun _ h1 => (State.feed_sound h1)) h

theorem execScrubWord_sound {g : Fin 64} {s s' : State} (hs : State.Sound s) (h : execScrubWord g s = .next s') : State.Sound s' :=
  running_sound hs (fun _ h1 => (State.scrubNext_sound h1)) h

theorem execPoolSwapDecision_sound {s s' : State} (hs : State.Sound s) (h : execPoolSwapDecision s = .next s') : State.Sound s' :=
  running_sound hs (fun _ h1 => (State.edgeIf_sound h1 (fun _ h3 => (State.poolDecide_sound h3)))) h

theorem execAdaptationComplete_sound {l : Fin 64} {ctle : BitVec 4} {taps : BitVec 51} {h : Fin 65} {v : Fin 129}
    {s s' : State} (hs : State.Sound s) (h : execAdaptationComplete l ctle taps h v s = .next s') : State.Sound s' :=
  running_sound hs (fun _ h1 => (State.endAdapt_sound h1)) h

theorem execVcmul_sound {y : Syl} {s s' : State} (hs : State.Sound s) (h : execVcmul y s = .next s') : State.Sound s' :=
  running_sound hs (fun _ h1 => (State.feed_sound h1)) h

theorem execReferenceEvaluation_sound {obs : List RefObs} {dco : BitVec 32}
    {s s' : State} (hs : State.Sound s) (h : execReferenceEvaluation obs dco s = .next s') : State.Sound s' :=
  running_sound hs (fun _ h1 => (State.evaluateRefs_sound h1)) h

theorem execBypass_sound {s s' : State} (hs : State.Sound s) (h : execBypass s = .next s') : State.Sound s' :=
  always_sound hs (fun _ h1 => (State.tap_sound h1 (fun _ h3 => (State.bypassed_sound h3)))) h

theorem execLdwu_sound {y : Syl} {s s' : State} (hs : State.Sound s) (h : execLdwu y s = .next s') : State.Sound s' :=
  running_sound hs (fun _ h1 => (State.feed_sound h1)) h

theorem execUartTx_sound {v : BitVec 64} {s s' : State} (hs : State.Sound s) (h : execUartTx v s = .next s') : State.Sound s' :=
  running_sound hs (fun _ h1 => (State.uartSend_sound h1)) h

theorem execAcceleratorCommandComplete_sound {fold : Fin 16} {unit : Fin 4}
    {s s' : State} (hs : State.Sound s) (h : execAcceleratorCommandComplete fold unit s = .next s') : State.Sound s' :=
  running_sound hs (fun _ h1 => (State.accComplete_sound h1)) h

theorem execTimStepArm_sound {s s' : State} (hs : State.Sound s) (h : execTimStepArm s = .next s') : State.Sound s' :=
  running_sound hs (fun _ h1 => (State.setFld_sound h1)) h

theorem execVunpkh_sound {y : Syl} {s s' : State} (hs : State.Sound s) (h : execVunpkh y s = .next s') : State.Sound s' :=
  running_sound hs (fun _ h1 => (State.feed_sound h1)) h

theorem execResume_sound {s s' : State} (hs : State.Sound s) (h : execResume s = .next s') : State.Sound s' :=
  always_sound hs (fun _ h1 => (sound_ite (State.writeDbgCtrl_sound h1) h1)) h

theorem execPuschMmse_sound {fold : Fin 16} {core : Fin 8} {est : BitVec 48} {weights : BitVec 48} {scale : BitVec 48} {rows : BitVec 8}
    {cols : BitVec 8} {first : BitVec 8} {groups : BitVec 8} {stride : BitVec 16} {gLog2 : Fin 5} {unitLog2 : Fin 15} {s s' : State} (hs : State.Sound s) (h : execPuschMmse fold core est weights scale rows cols first groups stride gLog2 unitLog2 s = .next s') : State.Sound s' :=
  working_sound hs (fun _ h1 => (State.puschMmse_sound h1)) h

theorem execCdrLockChange_sound {l : Fin 64} {tracking : Bool}
    {s s' : State} (hs : State.Sound s) (h : execCdrLockChange l tracking s = .next s') : State.Sound s' :=
  running_sound hs (fun _ h1 => (State.setLock_sound h1)) h

theorem execFabRxDb_sound {v : BitVec 64} {s s' : State} (hs : State.Sound s) (h : execFabRxDb v s = .next s') : State.Sound s' :=
  running_sound hs (fun _ h1 => (State.wrAccess_sound h1)) h

theorem execMovGo_sound {e : Fin 8} {h : Fin 16} {v : BitVec 64}
    {s s' : State} (hs : State.Sound s) (h : execMovGo e h v s = .next s') : State.Sound s' :=
  running_sound hs (fun _ h1 => (State.writeXfer_sound h1)) h

theorem execChol_sound {fold : Fin 16} {s s' : State} (hs : State.Sound s) (h : execChol fold s = .next s') : State.Sound s' :=
  working_sound hs (fun _ h1 => (State.accChol_sound h1)) h

theorem execVacsh_sound {y : Syl} {s s' : State} (hs : State.Sound s) (h : execVacsh y s = .next s') : State.Sound s' :=
  running_sound hs (fun _ h1 => (State.feed_sound h1)) h

theorem execWriteBufferDrain_sound {core : Fin 136}
    {s s' : State} (hs : State.Sound s) (h : execWriteBufferDrain core s = .next s') : State.Sound s' :=
  running_sound hs (fun _ h1 => (State.drainStep_sound h1)) h

theorem execLdw_sound {y : Syl} {s s' : State} (hs : State.Sound s) (h : execLdw y s = .next s') : State.Sound s' :=
  running_sound hs (fun _ h1 => (State.feed_sound h1)) h

theorem execHandshakeReask_sound {d : Fin 69} {s s' : State} (hs : State.Sound s) (h : execHandshakeReask d s = .next s') : State.Sound s' :=
  always_sound hs (fun _ h1 => (State.askDomain_sound h1)) h

theorem execUplaneReceive_sound {f : RxFrame} {s s' : State} (hs : State.Sound s) (h : execUplaneReceive f s = .next s') : State.Sound s' :=
  running_sound hs (fun _ h1 => (State.receiveIf_sound h1)) h

theorem execLoadWeights_sound {m : Fin 12} {s s' : State} (hs : State.Sound s) (h : execLoadWeights m s = .next s') : State.Sound s' :=
  working_sound hs (fun _ h1 => (State.loadWeights_sound h1)) h

theorem execEncCtrl_sound {m : Fin 8} {s s' : State} (hs : State.Sound s) (h : execEncCtrl m s = .next s') : State.Sound s' :=
  working_sound hs (fun _ h1 => (State.encodeControl_sound h1)) h

theorem execDcoFreerunStart_sound {s s' : State} (hs : State.Sound s) (h : execDcoFreerunStart s = .next s') : State.Sound s' :=
  always_sound hs (fun _ h1 => (State.dcoStarts_sound h1)) h

theorem execVunpkl_sound {y : Syl} {s s' : State} (hs : State.Sound s) (h : execVunpkl y s = .next s') : State.Sound s' :=
  running_sound hs (fun _ h1 => (State.feed_sound h1)) h

theorem execFhlDlySend_sound {v : BitVec 64} {s s' : State} (hs : State.Sound s) (h : execFhlDlySend v s = .next s') : State.Sound s' :=
  running_sound hs (fun _ h1 => (State.writeDlyCtrl_sound h1)) h

theorem execMusterDone_sound {h : BitVec 64} {p : List Byte}
    {s s' : State} (hs : State.Sound s) (h : execMusterDone h p s = .next s') : State.Sound s' :=
  running_sound hs (fun _ h1 => (State.takeDoneMsg_sound h1)) h

theorem execFence_sound {y : Syl} {s s' : State} (hs : State.Sound s) (h : execFence y s = .next s') : State.Sound s' :=
  running_sound hs (fun _ h1 => (State.feed_sound h1)) h

theorem execNocRelease_sound {n : Fin 2} {v : BitVec 64} {s s' : State} (hs : State.Sound s) (h : execNocRelease n v s = .next s') : State.Sound s' :=
  running_sound hs (fun _ h1 => (State.writeRelease_sound h1)) h

theorem execDomainWakeComplete_sound {d : Fin 69} {s s' : State} (hs : State.Sound s) (h : execDomainWakeComplete d s = .next s') : State.Sound s' :=
  always_sound hs (fun _ h1 => (State.wakeDone_sound h1)) h

theorem execFlashError_sound {section_ : Fin 32} {s s' : State} (hs : State.Sound s) (h : execFlashError section_ s = .next s') : State.Sound s' :=
  running_sound hs (fun _ h1 => (State.bootFlashFails_sound h1)) h

theorem execIdcode_sound {s s' : State} (hs : State.Sound s) (h : execIdcode s = .next s') : State.Sound s' :=
  always_sound hs (fun _ h1 => (State.tap_sound h1 (fun _ h3 => (State.capture_sound h3)))) h

theorem execEsmcReceive_sound {f : RxFrame} {s s' : State} (hs : State.Sound s) (h : execEsmcReceive f s = .next s') : State.Sound s' :=
  running_sound hs (fun _ h1 => (State.receiveIf_sound h1)) h

theorem execRep_sound {y : Syl} {s s' : State} (hs : State.Sound s) (h : execRep y s = .next s') : State.Sound s' :=
  running_sound hs (fun _ h1 => (State.feed_sound h1)) h

theorem execXori_sound {y : Syl} {s s' : State} (hs : State.Sound s) (h : execXori y s = .next s') : State.Sound s' :=
  running_sound hs (fun _ h1 => (State.feed_sound h1)) h

theorem execDcClean_sound {core : Fin 8} {addr : BitVec 48}
    {s s' : State} (hs : State.Sound s) (h : execDcClean core addr s = .next s') : State.Sound s' :=
  working_sound hs (fun _ h1 => (State.cacheAct_sound h1)) h

theorem execMusterAck_sound {p : List Byte} {s s' : State} (hs : State.Sound s) (h : execMusterAck p s = .next s') : State.Sound s' :=
  running_sound hs (fun _ h1 => (State.takeAck_sound h1)) h

theorem execTagQuarantineEnd_sound {tag : BitVec 8}
    {s s' : State} (hs : State.Sound s) (h : execTagQuarantineEnd tag s = .next s') : State.Sound s' :=
  running_sound hs (fun _ h1 => (State.endQuarantine_sound h1)) h

theorem execPmPeriodEnd_sound {s s' : State} (hs : State.Sound s) (h : execPmPeriodEnd s = .next s') : State.Sound s' :=
  running_sound hs (fun _ h1 => (State.endPeriod_sound h1)) h

theorem execAcqCommit_sound {core : Fin 128} {s s' : State} (hs : State.Sound s) (h : execAcqCommit core s = .next s') : State.Sound s' :=
  running_sound hs (fun _ h1 => (State.acqAt_sound h1)) h

theorem execTimStepDisarm_sound {s s' : State} (hs : State.Sound s) (h : execTimStepDisarm s = .next s') : State.Sound s' :=
  running_sound hs (fun _ h1 => (State.setFld_sound h1)) h

theorem execLockoutEnd_sound {s s' : State} (hs : State.Sound s) (h : execLockoutEnd s = .next s') : State.Sound s' :=
  always_sound hs (fun _ h1 => (State.endLockout_sound h1)) h

theorem execBr_sound {y : Syl} {s s' : State} (hs : State.Sound s) (h : execBr y s = .next s') : State.Sound s' :=
  running_sound hs (fun _ h1 => (State.feed_sound h1)) h

theorem execMemStatClr_sound {s s' : State} (hs : State.Sound s) (h : execMemStatClr s = .next s') : State.Sound s' :=
  running_sound hs (fun _ h1 => (State.clearMem_sound h1)) h

theorem execTimRxDb_sound {v : BitVec 64} {s s' : State} (hs : State.Sound s) (h : execTimRxDb v s = .next s') : State.Sound s' :=
  running_sound hs (fun _ h1 => (State.wrAccess_sound h1)) h

theorem execVxor_sound {y : Syl} {s s' : State} (hs : State.Sound s) (h : execVxor y s = .next s') : State.Sound s' :=
  running_sound hs (fun _ h1 => (State.feed_sound h1)) h

theorem execMigrate_sound {q : Fin 16} {ring : BitVec 16} {tag : BitVec 32} {cell : Fin 128} {frame : BitVec 20} {dest : Fin 64}
    {s s' : State} (hs : State.Sound s) (h : execMigrate q ring tag cell frame dest s = .next s') : State.Sound s' :=
  running_sound hs (fun _ h1 => (State.cellCmd_sound h1)) h

theorem execEsmcTimeout_sound {n : Fin 2} {s s' : State} (hs : State.Sound s) (h : execEsmcTimeout n s = .next s') : State.Sound s' :=
  running_sound hs (fun _ h1 => (State.esmcSilent_sound h1)) h

theorem execAlmStatClr_sound {s s' : State} (hs : State.Sound s) (h : execAlmStatClr s = .next s') : State.Sound s' :=
  running_sound hs (fun _ h1 => (State.wr_sound h1)) h

theorem execSar_sound {y : Syl} {s s' : State} (hs : State.Sound s) (h : execSar y s = .next s') : State.Sound s' :=
  running_sound hs (fun _ h1 => (State.feed_sound h1)) h

theorem execMusterAssign_sound {h : BitVec 64} {p : List Byte}
    {s s' : State} (hs : State.Sound s) (h : execMusterAssign h p s = .next s') : State.Sound s' :=
  running_sound hs (fun _ h1 => (State.takeAssign_sound h1)) h

theorem execAlmanacStart_sound {s s' : State} (hs : State.Sound s) (h : execAlmanacStart s = .next s') : State.Sound s' :=
  running_sound hs (fun _ h1 => (State.edgeIf_sound h1 (fun _ h3 => (State.startAlmanac_sound h3)))) h

theorem execDcInv_sound {core : Fin 8} {addr : BitVec 48}
    {s s' : State} (hs : State.Sound s) (h : execDcInv core addr s = .next s') : State.Sound s' :=
  working_sound hs (fun _ h1 => (State.cacheAct_sound h1)) h

theorem execVacsl_sound {y : Syl} {s s' : State} (hs : State.Sound s) (h : execVacsl y s = .next s') : State.Sound s' :=
  running_sound hs (fun _ h1 => (State.feed_sound h1)) h

theorem execQandn_sound {y : Syl} {s s' : State} (hs : State.Sound s) (h : execQandn y s = .next s') : State.Sound s' :=
  running_sound hs (fun _ h1 => (State.feed_sound h1)) h

theorem execMov_sound {y : Syl} {s s' : State} (hs : State.Sound s) (h : execMov y s = .next s') : State.Sound s' :=
  running_sound hs (fun _ h1 => (State.feed_sound h1)) h

theorem execIcInv_sound {core : Fin 8} {addr : BitVec 48}
    {s s' : State} (hs : State.Sound s) (h : execIcInv core addr s = .next s') : State.Sound s' :=
  working_sound hs (fun _ h1 => (State.cacheAct_sound h1)) h

theorem execLinkStateChange_sound {port : Fin 64} {started : BitVec 16} {busy : Bool} {locked : Bool} {fecLock : Bool} {localFault : Bool}
    {remoteFault : Bool} {s s' : State} (hs : State.Sound s) (h : execLinkStateChange port started busy locked fecLock localFault remoteFault s = .next s') : State.Sound s' :=
  running_sound hs (fun _ h1 => (State.changeLink_sound h1)) h

theorem execGram_sound {fold : Fin 16} {s s' : State} (hs : State.Sound s) (h : execGram fold s = .next s') : State.Sound s' :=
  working_sound hs (fun _ h1 => (State.accGram_sound h1)) h

theorem execPoolNoCommit_sound {s s' : State} (hs : State.Sound s) (h : execPoolNoCommit s = .next s') : State.Sound s' :=
  running_sound hs (fun _ h1 => (State.edgeIf_sound h1 (fun _ h3 => (State.poolTimeout_sound h3)))) h

theorem execMovsk_sound {y : Syl} {s s' : State} (hs : State.Sound s) (h : execMovsk y s = .next s') : State.Sound s' :=
  running_sound hs (fun _ h1 => (State.feed_sound h1)) h

theorem execVmov_sound {y : Syl} {s s' : State} (hs : State.Sound s) (h : execVmov y s = .next s') : State.Sound s' :=
  running_sound hs (fun _ h1 => (State.feed_sound h1)) h

theorem execShr_sound {y : Syl} {s s' : State} (hs : State.Sound s) (h : execShr y s = .next s') : State.Sound s' :=
  running_sound hs (fun _ h1 => (State.feed_sound h1)) h

theorem execPullComplete_sound {s s' : State} (hs : State.Sound s) (h : execPullComplete s = .next s') : State.Sound s' :=
  running_sound hs (fun _ h1 => (State.endPull_sound h1)) h

theorem execBootLock_sound {s s' : State} (hs : State.Sound s) (h : execBootLock s = .next s') : State.Sound s' :=
  running_sound hs (fun _ h1 => (State.writeSysCtrl_sound h1)) h

theorem execVmsu_sound {y : Syl} {s s' : State} (hs : State.Sound s) (h : execVmsu y s = .next s') : State.Sound s' :=
  running_sound hs (fun _ h1 => (State.feed_sound h1)) h

theorem execAndi_sound {y : Syl} {s s' : State} (hs : State.Sound s) (h : execAndi y s = .next s') : State.Sound s' :=
  running_sound hs (fun _ h1 => (State.feed_sound h1)) h

theorem execLoop_sound {y : Syl} {s s' : State} (hs : State.Sound s) (h : execLoop y s = .next s') : State.Sound s' :=
  running_sound hs (fun _ h1 => (State.feed_sound h1)) h

theorem execLoopEnd_sound {core : Fin 136} {s s' : State} (hs : State.Sound s) (h : execLoopEnd core s = .next s') : State.Sound s' :=
  running_sound hs (fun _ h1 => (sound_ite (State.loopEndAt_sound h1) h1)) h

theorem execWrite_sound {p : Packet} {s s' : State} (hs : State.Sound s) (h : execWrite p s = .next s') : State.Sound s' :=
  running_sound hs (fun _ h1 => (State.deliverPacket_sound h1)) h

theorem execWriteResp_sound {p : Packet} {s s' : State} (hs : State.Sound s) (h : execWriteResp p s = .next s') : State.Sound s' :=
  running_sound hs (fun _ h1 => (State.deliverPacket_sound h1)) h

theorem execVshr_sound {y : Syl} {s s' : State} (hs : State.Sound s) (h : execVshr y s = .next s') : State.Sound s' :=
  running_sound hs (fun _ h1 => (State.feed_sound h1)) h

theorem execCompletionTimeout_sound {n : Fin 256} {s s' : State} (hs : State.Sound s) (h : execCompletionTimeout n s = .next s') : State.Sound s' :=
  running_sound hs (fun _ h1 => (State.hostReadTimeout_sound h1)) h

theorem execMulq_sound {y : Syl} {s s' : State} (hs : State.Sound s) (h : execMulq y s = .next s') : State.Sound s' :=
  running_sound hs (fun _ h1 => (State.feed_sound h1)) h

theorem execPwrStatClr_sound {s s' : State} (hs : State.Sound s) (h : execPwrStatClr s = .next s') : State.Sound s' :=
  running_sound hs (fun _ h1 => (State.clearPwr_sound h1)) h

theorem execSwapCancel_sound {h : BitVec 64} {p : List Byte}
    {s s' : State} (hs : State.Sound s) (h : execSwapCancel h p s = .next s') : State.Sound s' :=
  running_sound hs (fun _ h1 => (State.poolCancel_sound h1)) h

theorem execVmax_sound {y : Syl} {s s' : State} (hs : State.Sound s) (h : execVmax y s = .next s') : State.Sound s' :=
  running_sound hs (fun _ h1 => (State.feed_sound h1)) h

theorem execPrbsCheckerLock_sound {l : Fin 64} {lock : Bool} {mismatches : BitVec 32}
    {s s' : State} (hs : State.Sound s) (h : execPrbsCheckerLock l lock mismatches s = .next s') : State.Sound s' :=
  running_sound hs (fun _ h1 => (State.checkerLock_sound h1)) h

theorem execMuli_sound {y : Syl} {s s' : State} (hs : State.Sound s) (h : execMuli y s = .next s') : State.Sound s' :=
  running_sound hs (fun _ h1 => (State.feed_sound h1)) h

theorem execOneWayDelayResponse_sound {f : RxFrame}
    {s s' : State} (hs : State.Sound s) (h : execOneWayDelayResponse f s = .next s') : State.Sound s' :=
  running_sound hs (fun _ h1 => (State.receiveIf_sound h1)) h

theorem execEncPbch_sound {m : Fin 8} {s s' : State} (hs : State.Sound s) (h : execEncPbch m s = .next s') : State.Sound s' :=
  working_sound hs (fun _ h1 => (State.encodePbch_sound h1)) h

theorem execMuster_sound {v : BitVec 64} {s s' : State} (hs : State.Sound s) (h : execMuster v s = .next s') : State.Sound s' :=
  running_sound hs (fun _ h1 => (State.writeFabCtrl_sound h1)) h

theorem execSegmentReceive_sound {g : Fin 32} {s s' : State} (hs : State.Sound s) (h : execSegmentReceive g s = .next s') : State.Sound s' :=
  working_sound hs (fun _ h1 => (State.takeInbox_sound h1)) h

theorem execAnd_sound {y : Syl} {s s' : State} (hs : State.Sound s) (h : execAnd y s = .next s') : State.Sound s' :=
  running_sound hs (fun _ h1 => (State.feed_sound h1)) h

theorem execGuardTimeStart_sound {s s' : State} (hs : State.Sound s) (h : execGuardTimeStart s = .next s') : State.Sound s' :=
  running_sound hs (fun _ h1 => (State.guardAt_sound h1)) h

theorem execDlWeights_sound {fold : Fin 16} {core : Fin 8} {weights : BitVec 48} {rows : BitVec 8} {cols : BitVec 8} {first : BitVec 8}
    {groups : BitVec 8} {stride : BitVec 16} {gLog2 : Fin 5} {s s' : State} (hs : State.Sound s) (h : execDlWeights fold core weights rows cols first groups stride gLog2 s = .next s') : State.Sound s' :=
  working_sound hs (fun _ h1 => (State.dlWeights_sound h1)) h

theorem execNocIsolate_sound {n : Fin 2} {v : BitVec 64} {s s' : State} (hs : State.Sound s) (h : execNocIsolate n v s = .next s') : State.Sound s' :=
  running_sound hs (fun _ h1 => (State.writeIsolate_sound h1)) h

theorem execPcieReset_sound {s s' : State} (hs : State.Sound s) (h : execPcieReset s = .next s') : State.Sound s' :=
  always_sound hs (fun _ h1 => (State.resetPcie_sound h1)) h

theorem execDetach_sound {s s' : State} (hs : State.Sound s) (h : execDetach s = .next s') : State.Sound s' :=
  always_sound hs (fun _ h1 => (sound_ite (State.writeDbgCtrl_sound h1) h1)) h

theorem execMul_sound {y : Syl} {s s' : State} (hs : State.Sound s) (h : execMul y s = .next s') : State.Sound s' :=
  running_sound hs (fun _ h1 => (State.feed_sound h1)) h

theorem execCmplti_sound {y : Syl} {s s' : State} (hs : State.Sound s) (h : execCmplti y s = .next s') : State.Sound s' :=
  running_sound hs (fun _ h1 => (State.feed_sound h1)) h

theorem execAvsAck_sound {s s' : State} (hs : State.Sound s) (h : execAvsAck s = .next s') : State.Sound s' :=
  always_sound hs (fun _ h1 => (State.ackAvs_sound h1)) h

theorem execRestoreComplete_sound {cls : Fin 6} {phys : Fin 32} {ok : Bool}
    {s s' : State} (hs : State.Sound s) (h : execRestoreComplete cls phys ok s = .next s') : State.Sound s' :=
  running_sound hs (fun _ h1 => (State.restoreDone_sound h1)) h

theorem execStp_sound {y : Syl} {s s' : State} (hs : State.Sound s) (h : execStp y s = .next s') : State.Sound s' :=
  running_sound hs (fun _ h1 => (State.feed_sound h1)) h

theorem execAccess_sound {write : Bool} {addr : BitVec 48} {data : BitVec 64}
    {s s' : State} (hs : State.Sound s) (h : execAccess write addr data s = .next s') : State.Sound s' :=
  always_sound hs (fun _ h1 => (State.tap_sound h1 (fun _ h3 => (State.crookStart_sound h3)))) h

theorem execAddp_sound {y : Syl} {s s' : State} (hs : State.Sound s) (h : execAddp y s = .next s') : State.Sound s' :=
  running_sound hs (fun _ h1 => (State.feed_sound h1)) h

theorem execFwState_sound {d : Fin 69} {v : BitVec 64} {s s' : State} (hs : State.Sound s) (h : execFwState d v s = .next s') : State.Sound s' :=
  running_sound hs (fun _ h1 => (State.writeDomCfg_sound h1)) h

theorem execRepi_sound {y : Syl} {s s' : State} (hs : State.Sound s) (h : execRepi y s = .next s') : State.Sound s' :=
  running_sound hs (fun _ h1 => (State.feed_sound h1)) h

theorem execPuschTpIdft_sound {fold : Fin 16} {core : Fin 8} {layers : BitVec 48} {nsc : BitVec 12} {stride : BitVec 32}
    {s s' : State} (hs : State.Sound s) (h : execPuschTpIdft fold core layers nsc stride s = .next s') : State.Sound s' :=
  working_sound hs (fun _ h1 => (State.puschIdft_sound h1)) h

theorem execStatusPortRead_sound {addr : BitVec 16} {s s' : State} (hs : State.Sound s) (h : execStatusPortRead addr s = .next s') : State.Sound s' :=
  always_sound hs (fun _ h1 => (State.statusRead_sound h1)) h

theorem execSwapAnnounce_sound {h : BitVec 64} {p : List Byte}
    {s s' : State} (hs : State.Sound s) (h : execSwapAnnounce h p s = .next s') : State.Sound s' :=
  running_sound hs (fun _ h1 => (State.announced_sound h1)) h

theorem execLdd_sound {y : Syl} {s s' : State} (hs : State.Sound s) (h : execLdd y s = .next s') : State.Sound s' :=
  running_sound hs (fun _ h1 => (State.feed_sound h1)) h

theorem execAlmCtrlStart_sound {s s' : State} (hs : State.Sound s) (h : execAlmCtrlStart s = .next s') : State.Sound s' :=
  running_sound hs (fun _ h1 => (State.startLoad_sound h1)) h

theorem execDft_sound {fold : Fin 16} {s s' : State} (hs : State.Sound s) (h : execDft fold s = .next s') : State.Sound s' :=
  working_sound hs (fun _ h1 => (State.accDft_sound h1)) h

theorem execVaclr_sound {y : Syl} {s s' : State} (hs : State.Sound s) (h : execVaclr y s = .next s') : State.Sound s' :=
  running_sound hs (fun _ h1 => (State.feed_sound h1)) h

theorem execLowpapr_sound {fold : Fin 16} {s s' : State} (hs : State.Sound s) (h : execLowpapr fold s = .next s') : State.Sound s' :=
  working_sound hs (fun _ h1 => (State.accLowpapr_sound h1)) h

theorem execCommitPoint_sound {s s' : State} (hs : State.Sound s) (h : execCommitPoint s = .next s') : State.Sound s' :=
  running_sound hs (fun _ h1 => (State.commitAt_sound h1)) h

theorem execIdft_sound {fold : Fin 16} {s s' : State} (hs : State.Sound s) (h : execIdft fold s = .next s') : State.Sound s' :=
  working_sound hs (fun _ h1 => (State.accDft_sound h1)) h

theorem execAonPowerLoss_sound {s s' : State} (hs : State.Sound s) (h : execAonPowerLoss s = .next s') : State.Sound s' :=
  always_sound hs (fun _ h1 => (State.aonLost_sound h1)) h

theorem execEncLteDlsch_sound {m : Fin 8} {s s' : State} (hs : State.Sound s) (h : execEncLteDlsch m s = .next s') : State.Sound s' :=
  working_sound hs (fun _ h1 => (State.encodeJob_sound h1)) h

theorem execMinu_sound {y : Syl} {s s' : State} (hs : State.Sound s) (h : execMinu y s = .next s') : State.Sound s' :=
  running_sound hs (fun _ h1 => (State.feed_sound h1)) h

theorem execMovks_sound {y : Syl} {s s' : State} (hs : State.Sound s) (h : execMovks y s = .next s') : State.Sound s' :=
  running_sound hs (fun _ h1 => (State.feed_sound h1)) h

theorem execSignal_sound {y : Syl} {s s' : State} (hs : State.Sound s) (h : execSignal y s = .next s') : State.Sound s' :=
  running_sound hs (fun _ h1 => (State.feed_sound h1)) h

theorem execAlmanacRestart_sound {s s' : State} (hs : State.Sound s) (h : execAlmanacRestart s = .next s') : State.Sound s' :=
  running_sound hs (fun _ h1 => (State.edgeIf_sound h1 (fun _ h3 => (State.restartAlmanac_sound h3)))) h

theorem execWriteAck_sound {p : Packet} {s s' : State} (hs : State.Sound s) (h : execWriteAck p s = .next s') : State.Sound s' :=
  running_sound hs (fun _ h1 => (State.deliverPacket_sound h1)) h

theorem execDecLdpc_sound {u : Fin 32} {s s' : State} (hs : State.Sound s) (h : execDecLdpc u s = .next s') : State.Sound s' :=
  working_sound hs (fun _ h1 => (State.decodeJob_sound h1)) h

theorem execStart_sound {q : Fin 16} {ring : BitVec 16} {tag : BitVec 32} {cell : Fin 128} {frame : BitVec 20}
    {s s' : State} (hs : State.Sound s) (h : execStart q ring tag cell frame s = .next s') : State.Sound s' :=
  running_sound hs (fun _ h1 => (State.cellCmd_sound h1)) h

theorem execEventTimerFire_sound {n : Fin 8} {s s' : State} (hs : State.Sound s) (h : execEventTimerFire n s = .next s') : State.Sound s' :=
  running_sound hs (fun _ h1 => (State.fireTimer_sound h1)) h

theorem execSdsStatClr_sound {s s' : State} (hs : State.Sound s) (h : execSdsStatClr s = .next s') : State.Sound s' :=
  running_sound hs (fun _ h1 => (State.clearSds_sound h1)) h

theorem execCmpeq_sound {y : Syl} {s s' : State} (hs : State.Sound s) (h : execCmpeq y s = .next s') : State.Sound s' :=
  running_sound hs (fun _ h1 => (State.feed_sound h1)) h

theorem execGainSelect_sound {fold : Fin 16} {core : Fin 8} {gain : BitVec 48}
    {s s' : State} (hs : State.Sound s) (h : execGainSelect fold core gain s = .next s') : State.Sound s' :=
  working_sound hs (fun _ h1 => (State.gainSelect_sound h1)) h

theorem execPmSecondEnd_sound {s s' : State} (hs : State.Sound s) (h : execPmSecondEnd s = .next s') : State.Sound s' :=
  running_sound hs (fun _ h1 => (State.endSecond_sound h1)) h

theorem execFomMeasurement_sound {l : Fin 64} {taps : BitVec 51} {h : Fin 65} {v : Fin 129}
    {s s' : State} (hs : State.Sound s) (h : execFomMeasurement l taps h v s = .next s') : State.Sound s' :=
  running_sound hs (fun _ h1 => (State.measureFom_sound h1)) h

theorem execCmpltui_sound {y : Syl} {s s' : State} (hs : State.Sound s) (h : execCmpltui y s = .next s') : State.Sound s' :=
  running_sound hs (fun _ h1 => (State.feed_sound h1)) h

theorem execNocRtDataWrite_sound {v : BitVec 64} {s s' : State} (hs : State.Sound s) (h : execNocRtDataWrite v s = .next s') : State.Sound s' :=
  running_sound hs (fun _ h1 => (State.writeRtData_sound h1)) h

theorem execMovKick_sound {e : Fin 8} {h : Fin 16} {s s' : State} (hs : State.Sound s) (h : execMovKick e h s = .next s') : State.Sound s' :=
  running_sound hs (fun _ h1 => (State.writeXfer_sound h1)) h

theorem execPcieReadCompletion_sound {n : Fin 256} {status : Fin 4} {data : List (BitVec 8)}
    {s s' : State} (hs : State.Sound s) (h : execPcieReadCompletion n status data s = .next s') : State.Sound s' :=
  running_sound hs (fun _ h1 => (State.hostReadDone_sound h1)) h

theorem execClz_sound {y : Syl} {s s' : State} (hs : State.Sound s) (h : execClz y s = .next s') : State.Sound s' :=
  running_sound hs (fun _ h1 => (State.feed_sound h1)) h

theorem execMusterLinks_sound {h : BitVec 64} {p : List Byte}
    {s s' : State} (hs : State.Sound s) (h : execMusterLinks h p s = .next s') : State.Sound s' :=
  running_sound hs (fun _ h1 => (State.takeLinks_sound h1)) h

theorem execFoTrack_sound {fold : Fin 16} {core : Fin 8} {est : List (BitVec 16 × BitVec 32)}
    {s s' : State} (hs : State.Sound s) (h : execFoTrack fold core est s = .next s') : State.Sound s' :=
  working_sound hs (fun _ h1 => (State.foTrack_sound h1)) h

theorem execErrInj_sound {l : Fin 64} {v : BitVec 64} {s s' : State} (hs : State.Sound s) (h : execErrInj l v s = .next s') : State.Sound s' :=
  running_sound hs (fun _ h1 => (State.writePrbs_sound h1)) h

theorem execQand_sound {y : Syl} {s s' : State} (hs : State.Sound s) (h : execQand y s = .next s') : State.Sound s' :=
  running_sound hs (fun _ h1 => (State.feed_sound h1)) h

theorem execExtest_sound {cells : List Bool} {s s' : State} (hs : State.Sound s) (h : execExtest cells s = .next s') : State.Sound s' :=
  always_sound hs (fun _ h1 => (State.tap_sound h1 (fun _ h3 => (sound_ite (sound_mk h3) (State.bypassed_sound h3))))) h

theorem execVldw_sound {y : Syl} {s s' : State} (hs : State.Sound s) (h : execVldw y s = .next s') : State.Sound s' :=
  running_sound hs (fun _ h1 => (State.feed_sound h1)) h

theorem execShli_sound {y : Syl} {s s' : State} (hs : State.Sound s) (h : execShli y s = .next s') : State.Sound s' :=
  running_sound hs (fun _ h1 => (State.feed_sound h1)) h

theorem execVst_sound {y : Syl} {s s' : State} (hs : State.Sound s) (h : execVst y s = .next s') : State.Sound s' :=
  running_sound hs (fun _ h1 => (State.feed_sound h1)) h

theorem execTxWindowOpen_sound {w : BitVec 16} {started : BitVec 16}
    {s s' : State} (hs : State.Sound s) (h : execTxWindowOpen w started s = .next s') : State.Sound s' :=
  running_sound hs (fun _ h1 => (State.openWindow_sound h1)) h

theorem execDrlStatClr_sound {s s' : State} (hs : State.Sound s) (h : execDrlStatClr s = .next s') : State.Sound s' :=
  running_sound hs (fun _ h1 => (State.clearDrl_sound h1)) h

theorem execCycCmpMatch_sound {core : Fin 136} {s s' : State} (hs : State.Sound s) (h : execCycCmpMatch core s = .next s') : State.Sound s' :=
  running_sound hs (fun _ h1 => (State.cycMatch_sound h1)) h

theorem execSub_sound {y : Syl} {s s' : State} (hs : State.Sound s) (h : execSub y s = .next s') : State.Sound s' :=
  running_sound hs (fun _ h1 => (State.feed_sound h1)) h

theorem execQuadReady_sound {q : Fin 16} {s s' : State} (hs : State.Sound s) (h : execQuadReady q s = .next s') : State.Sound s' :=
  running_sound hs (fun _ h1 => (State.readyQuad_sound h1)) h

theorem execPllLock_sound {q : Fin 16} {s s' : State} (hs : State.Sound s) (h : execPllLock q s = .next s') : State.Sound s' :=
  running_sound hs (fun _ h1 => (State.lockPll_sound h1)) h

theorem execShri_sound {y : Syl} {s s' : State} (hs : State.Sound s) (h : execShri y s = .next s') : State.Sound s' :=
  running_sound hs (fun _ h1 => (State.feed_sound h1)) h

theorem execExt_sound {core : Fin 136} {stop : Bool} {hi : BitVec 28}
    {s s' : State} (hs : State.Sound s) (h : execExt core stop hi s = .next s') : State.Sound s' :=
  running_sound hs (fun _ h1 => (State.feed_sound h1)) h

theorem execDrvRqDb_sound {q : Fin 16} {v : BitVec 64} {s s' : State} (hs : State.Sound s) (h : execDrvRqDb q v s = .next s') : State.Sound s' :=
  running_sound hs (fun _ h1 => (State.writeRqDb_sound h1)) h

theorem execEventTimerArm_sound {n : Fin 2} {v : BitVec 64}
    {s s' : State} (hs : State.Sound s) (h : execEventTimerArm n v s = .next s') : State.Sound s' :=
  running_sound hs (fun _ h1 => (State.armEvent_sound h1)) h

theorem execStd_sound {y : Syl} {s s' : State} (hs : State.Sound s) (h : execStd y s = .next s') : State.Sound s' :=
  running_sound hs (fun _ h1 => (State.feed_sound h1)) h

theorem execCall_sound {y : Syl} {s s' : State} (hs : State.Sound s) (h : execCall y s = .next s') : State.Sound s' :=
  running_sound hs (fun _ h1 => (State.feed_sound h1)) h

theorem execMovChRing_sound {e : Fin 8} {h : Fin 16} {v : BitVec 64}
    {s s' : State} (hs : State.Sound s) (h : execMovChRing e h v s = .next s') : State.Sound s' :=
  running_sound hs (fun _ h1 => (State.writeRing_sound h1)) h

theorem execUartTxEmpty_sound {s s' : State} (hs : State.Sound s) (h : execUartTxEmpty s = .next s') : State.Sound s' :=
  running_sound hs (fun _ h1 => (State.uartDrain_sound h1)) h

theorem execHalt_sound {s s' : State} (hs : State.Sound s) (h : execHalt s = .next s') : State.Sound s' :=
  always_sound hs (fun _ h1 => (sound_ite (State.writeDbgCtrl_sound h1) h1)) h

theorem execDecode_sound {fold : Fin 16} {s s' : State} (hs : State.Sound s) (h : execDecode fold s = .next s') : State.Sound s' :=
  working_sound hs (fun _ h1 => (State.accDecode_sound h1)) h

theorem execVext_sound {y : Syl} {s s' : State} (hs : State.Sound s) (h : execVext y s = .next s') : State.Sound s' :=
  running_sound hs (fun _ h1 => (State.feed_sound h1)) h

theorem execTimeStepFix_sound {s s' : State} (hs : State.Sound s) (h : execTimeStepFix s = .next s') : State.Sound s' :=
  running_sound hs (fun _ h1 => (State.fixAt_sound h1)) h

theorem execViol_sound {y : Syl} {s s' : State} (hs : State.Sound s) (h : execViol y s = .next s') : State.Sound s' :=
  running_sound hs (fun _ h1 => (State.feed_sound h1)) h

theorem execBeHoldExpiry_sound {g : Fin 32} {s s' : State} (hs : State.Sound s) (h : execBeHoldExpiry g s = .next s') : State.Sound s' :=
  running_sound hs (fun _ h1 => (State.expireTransit_sound h1)) h

theorem execDrvRqCfg_sound {q : Fin 16} {v : BitVec 64} {s s' : State} (hs : State.Sound s) (h : execDrvRqCfg q v s = .next s') : State.Sound s' :=
  running_sound hs (fun _ h1 => (State.writeRqCfg_sound h1)) h

theorem execDroveFrameTransmit_sound {g : Fin 32} {s s' : State} (hs : State.Sound s) (h : execDroveFrameTransmit g s = .next s') : State.Sound s' :=
  running_sound hs (fun _ h1 => (State.transmitGroup_sound h1)) h

theorem execUnitReturned_sound {s s' : State} (hs : State.Sound s) (h : execUnitReturned s = .next s') : State.Sound s' :=
  running_sound hs (fun _ h1 => (State.edgeIf_sound h1 (fun _ h3 => (State.returnUnits_sound h3)))) h

theorem execSarri_sound {y : Syl} {s s' : State} (hs : State.Sound s) (h : execSarri y s = .next s') : State.Sound s' :=
  running_sound hs (fun _ h1 => (State.feed_sound h1)) h

theorem execLoneProbe_sound {s s' : State} (hs : State.Sound s) (h : execLoneProbe s = .next s') : State.Sound s' :=
  running_sound hs (fun _ h1 => (State.loneProbe_sound h1)) h

theorem execDrlGrpCfg_sound {g : Fin 32} {v : BitVec 64} {s s' : State} (hs : State.Sound s) (h : execDrlGrpCfg g v s = .next s') : State.Sound s' :=
  running_sound hs (fun _ h1 => (State.writeGrpCfg_sound h1)) h

theorem execDecTurbo_sound {u : Fin 32} {s s' : State} (hs : State.Sound s) (h : execDecTurbo u s = .next s') : State.Sound s' :=
  working_sound hs (fun _ h1 => (State.decodeJob_sound h1)) h

theorem execFltStatClr_sound {s s' : State} (hs : State.Sound s) (h : execFltStatClr s = .next s') : State.Sound s' :=
  running_sound hs (fun _ h1 => (State.wr_sound h1)) h

theorem execDcFlush_sound {core : Fin 8} {addr : BitVec 48}
    {s s' : State} (hs : State.Sound s) (h : execDcFlush core addr s = .next s') : State.Sound s' :=
  working_sound hs (fun _ h1 => (State.cacheAct_sound h1)) h

theorem execClearFail_sound {d : Fin 69} {s s' : State} (hs : State.Sound s) (h : execClearFail d s = .next s') : State.Sound s' :=
  running_sound hs (fun _ h1 => (State.writeDomCfg_sound h1)) h

theorem execMulh_sound {y : Syl} {s s' : State} (hs : State.Sound s) (h : execMulh y s = .next s') : State.Sound s' :=
  running_sound hs (fun _ h1 => (State.feed_sound h1)) h

theorem execTimOutStep_sound {o : Fin 6} {v : BitVec 64} {s s' : State} (hs : State.Sound s) (h : execTimOutStep o v s = .next s') : State.Sound s' :=
  running_sound hs (fun _ h1 => (State.addOutStep_sound h1)) h

theorem execDrvStatClr_sound {s s' : State} (hs : State.Sound s) (h : execDrvStatClr s = .next s') : State.Sound s' :=
  running_sound hs (fun _ h1 => (State.clearDrv_sound h1)) h

end Sys2Proof.Machine
end

