-- ==== Sys2Proof/Tests/Slice0.lean ====
section
/-!
SUPPORT. Tests of the model: ill-formed terms that the checks refuse, syllables from words written out by the spec's encoding, single steps
with results from the spec, and for each statement with premises concrete states and operands that meet them.
-/
namespace Sys2Proof.Tests
open Sys2Proof.Machine
set_option Elab.async false

/-! ### Well-formedness: one ill-formed term for each check, and its well-formed neighbour -/

def frameOf (n : Nat) : RxFrame := ⟨0, List.replicate n 0, true, 0, false, 0, 0⟩
def packetOf (type : BitVec 4) (dst len : BitVec 8) (n : Nat) : Packet := ⟨0, 0, 1, type, 0, dst, dst, 5, len, 0, false, 0, 0, List.replicate n 0⟩
def byteList (n : Nat) : List (BitVec 8) := List.replicate n 0

theorem test_request_short_descriptor : Instr.wellFormed (.requestAccept 0 (.data (byteList 255)) (.data []) []) = false := by decide +kernel
theorem test_request_ragged_table : Instr.wellFormed (.requestAccept 0 (.data (byteList 256)) (.data (byteList 63)) []) = false := by decide +kernel
theorem test_request_well_formed : Instr.wellFormed (.requestAccept 0 (.data (byteList 256)) (.data (byteList 64)) []) = true := by decide +kernel
theorem test_request_too_much_data :
    Instr.wellFormed (.requestAccept 0 .aborted .aborted (List.replicate 256 .aborted)) = false := by decide +kernel
theorem test_runt_frame : Instr.wellFormed (.frameReceive (frameOf 13)) = false := by decide +kernel
theorem test_frame_well_formed : Instr.wellFormed (.frameReceive (frameOf 14)) = true := by decide +kernel
theorem test_runt_frames : [Instr.uplaneReceive (frameOf 13), .oneWayDelayRequest (frameOf 13), .remoteRequest (frameOf 13),
    .oneWayDelayResponse (frameOf 13), .ptpFrameReceive (frameOf 13), .esmcReceive (frameOf 13)].all (fun c => !c.wellFormed) = true := by
  decide +kernel
theorem test_too_many_estimates : Instr.wellFormed (.foTrack 0 0 (List.replicate 257 (0, 0))) = false := by decide +kernel
theorem test_read_with_data : Instr.wellFormed (.read (packetOf 0 76 3 4)) = false := by decide +kernel
theorem test_write_data_short : Instr.wellFormed (.write (packetOf 1 76 3 3)) = false := by decide +kernel
theorem test_packets_well_formed : [Instr.read (packetOf 0 76 3 0), .write (packetOf 1 76 3 4), .writeAck (packetOf 2 76 3 4),
    .readResp (packetOf 3 0 3 4), .writeResp (packetOf 4 0 3 0)].all Instr.wellFormed = true := by decide +kernel
theorem test_type_5_packet : Instr.wellFormed (.writeResp (packetOf 5 0 0 0)) = false := by decide +kernel
theorem test_short_messages : [Instr.musterCall 0 (byteList 3), .musterLinks 0 (byteList 3), .musterAssign 0 (byteList 3), .musterAck (byteList 3),
    .musterDone 0 (byteList 3), .musterAbort 0 (byteList 3), .swapAnnounce 0 (byteList 3), .swapAck 0 (byteList 3), .swapNak 0 (byteList 3),
    .swapCommit 0 (byteList 3), .swapCancel 0 (byteList 3), .cellStart 0 (byteList 3), .cellResult (byteList 3)].all (fun c => !c.wellFormed) = true := by
  decide +kernel
theorem test_message_well_formed : Instr.wellFormed (.musterLinks 0 (byteList 3077)) = true := by decide +kernel
theorem test_message_too_long : Instr.wellFormed (.musterLinks 0 (byteList 3078)) = false := by decide +kernel
theorem test_seven_references : Instr.wellFormed (.referenceEvaluation (List.replicate 7 ⟨false, 0, 0⟩) 0) = false := by decide +kernel
theorem test_empty_bar_write : Instr.wellFormed (.hostBarWrite false 0 []) = false := by decide +kernel
theorem test_bar_read_too_long : Instr.wellFormed (.hostBarRead true 0 4097) = false := by decide +kernel
theorem test_completion_too_long : Instr.wellFormed (.pcieReadCompletion 0 0 (byteList 257)) = false := by decide +kernel
theorem test_one_port_twice : Instr.wellFormed (.registerWrite [⟨1, 0, byteList 8⟩, ⟨1, 8, byteList 8⟩] []) = false := by decide +kernel
theorem test_two_ports : Instr.wellFormed (.registerWrite [⟨1, 0, byteList 8⟩, ⟨2, 8, byteList 8⟩] []) = true := by decide +kernel
theorem test_empty_register_write : Instr.wellFormed (.registerWrite [⟨1, 0, []⟩] []) = false := by decide +kernel
/-- OPC 0x15 of group 0 is reserved and ADD stands for it; OPC 0x01 is SUB's own (R231). -/
theorem test_reserved_mark : Instr.wellFormed (.add ⟨0, true, 0, 0, some 0x15⟩) = true ∧ Instr.wellFormed (.add ⟨0, true, 0, 0, some 0x01⟩) = false ∧
    Instr.wellFormed (.sub ⟨0, true, 0, 0, some 0x15⟩) = false := by decide +kernel

/-! ### Syllables: STOP [31], GRP [30:28], PG [27:25], OPC [24:20], operands [19:0], written out by R226 and R231 to R239 -/

theorem test_decode_add : decodeSyllable 0 0b1_000_000_00000_00001_00010_00011_00000 = .add ⟨0, true, 0, 0b00001_00010_00011_00000, none⟩ := by decide +kernel
theorem test_decode_sext : decodeSyllable 7 0b0_000_011_10100_00001_00010_00011_00000 = .sext ⟨7, false, 3, 0b00001_00010_00011_00000, none⟩ := by
  decide +kernel
theorem test_decode_movi : decodeSyllable 0 0b1_001_000_10011_00101_00000_1111111111 = .movi ⟨0, true, 0, 0b00101_00000_1111111111, none⟩ := by
  decide +kernel
theorem test_decode_qseti : decodeSyllable 0 0b1_010_000_01111_00001_00000_0000000001 = .qseti ⟨0, true, 0, 0b00001_00000_0000000001, none⟩ := by
  decide +kernel
theorem test_decode_ldd : decodeSyllable 0 0b1_011_000_00110_00001_0010_001_00000001 = .ldd ⟨0, true, 0, 0b00001_0010_001_00000001, none⟩ := by
  decide +kernel
theorem test_decode_vext : decodeSyllable 0 0b1_100_000_10001_00001_00010_00011_00000 = .vext ⟨0, true, 0, 0b00001_00010_00011_00000, none⟩ := by
  decide +kernel
theorem test_decode_vcmag : (decodeSyllable 0 0b1_101_000_01000_00000_00010_00000_00000) = .vcmag ⟨0, true, 0, 0b00000_00010_00000_00000, none⟩ := by
  decide +kernel
theorem test_decode_trap : (decodeSyllable 0 0b1_110_000_01010_00000_00000_0000101010) = .trap ⟨0, true, 0, 42, none⟩ := by decide +kernel
theorem test_decode_ext : decodeSyllable 0 0b1_111_0000000000000000000000000101 = .ext 0 true 5 := by decide +kernel
theorem test_decode_reserved : decodeSyllable 0 0b1_000_000_10101_00000_00000_00000_00000 = .add ⟨0, true, 0, 0, some 0b10101⟩ := by decide +kernel

/-! ### States for the witnesses -/

/-- The state after reset with every bit of SYS_READY set. -/
def ready : State := State.reset.wr .SYS_READY (BitVec.ofNat 64 (2 ^ 64 - 1))

def atTime (tick cycle : Nat) (s : State) : State := { s with tm := { s.tm with tick := tick, cycle := cycle } }
def withSwap (w : Swap) (s : State) : State := { s with alm := { s.alm with swap := some w } }
def poolSwap (frame from_ : Nat) (arming nak : Bool) : Swap := ⟨frame, true, arming, from_, 0xFF, 0, nak, false⟩
def withRels (rs : List Release) (s : State) : State := { s with drv := { s.drv with rels := rs } }

/-- `n` bytes that are 0 but for the byte strings placed in them. -/
def bytesWith (n : Nat) (ps : List (Nat × List Byte)) : List Byte := (List.range n).map fun i =>
  ((ps.find? fun p => decide (p.1 ≤ i ∧ i < p.1 + p.2.length)).map fun p => p.2.getD (i - p.1) 0).getD 0

/-- A release in service at an engine: its OP_CODE and ARG. -/
def inService (cls phys core op arg : Nat) : Release := ⟨0, 2 ^ 48 * op + 2 ^ 64 * arg, 0, none, 0, .inService, ⟨cls, phys, core⟩, 0, false⟩

/-- A shadow almanac that may be armed for frame 20. -/
def armable : State := (ready.setFld .ALM_SHADOW_INFO Fld.ALM_SHADOW_INFO_STATE 2).setFld .ALM_SWAP_FRAME Fld.ALM_SWAP_FRAME_FRAME 20

/-! ### The whole block, registers, almanac and tick: premises met -/

theorem witness_StepOnEmptyQueue : (atTime 0 13998 ready).pending = [] ∧ (atTime 0 13998 ready).bit .SYS_READY 3 = true ∧
    (atTime 0 13998 ready).quiet ∧ (atTime 0 13998 ready).sys.barHeld = [] ∧ State.reset.bit .SYS_READY 3 = false ∧
    13999 ≤ (atTime 0 13999 ready).tm.cycle := by unfold State.quiet; decide +kernel

def halted : State := (ready.setFld .DBG_STATUS Fld.DBG_STATUS_HALTED 1).setFld .DBG_ATTACH Fld.DBG_ATTACH_ATTACHED 1

theorem witness_HaltedDoesNothing : halted.halted = true ∧ haltStops .swap = true ∧ haltStops (.muster 0) = true := by decide +kernel

theorem witness_StepKeepsSound : ready.Sound ∧ completes (step ready) = true := ⟨⟨by decide, by decide, by decide, by decide⟩, by decide +kernel⟩

theorem witness_MemoryIsCanonical : Memory.wf [] = true ∧ Memory.wf (Memory.writeBytes [] 7 [1, 0, 2]) = true := by decide +kernel

def fullRecords : State := ready.setFld .FLT_STATUS Fld.FLT_STATUS_COUNT 64

theorem witness_FaultRecordWritten : ready.fld .FLT_STATUS Fld.FLT_STATUS_COUNT < 64 ∧ fullRecords.fld .FLT_STATUS Fld.FLT_STATUS_COUNT = 64 := by
  decide +kernel

theorem witness_TickCounts : (atTime 111998 0 ready).tm.tick + 1 < ticksPerSecond ∧ (atTime 111999 0 ready).tm.tick + 1 = ticksPerSecond := by
  decide +kernel

def loading : State := { ready with alm := { ready.alm with load := some ⟨0, 256, 0, 0⟩ } }

theorem witness_AlmanacLoads : ready.halted = false ∧ ready.alm.load = none ∧ ready.alm.swap = none ∧ loading.halted = false ∧
    loading.alm.load.isSome = true ∧ loading.unhindered State.completeLoad ∧ (withSwap (poolSwap 20 0 true false) ready).alm.load = none ∧
    (withSwap (poolSwap 20 0 true false) ready).alm.swap.isSome = true := by unfold State.unhindered; decide +kernel

theorem witness_SwapArming : armable.halted = false ∧ armable.armRefusal 20 false = none ∧ armable.armRefusal 20 true = none ∧
    armable.otherMembers (armable.rd .ALM_SWAP_GROUP) = [] ∧ armable.armRefusal 1 false = some 0x22 ∧ armable.armRefusal 19 true = some 0x22 ∧
    ready.armRefusal 20 false = some 0x20 ∧
    posDiff (atTime 1119 0 ready).nextPos (posOf 1 0) = 0 ∧ posDiff (atTime 0 0 ready).nextPos (posOf 1 0) < 0 ∧
    posDiff (atTime 1120 0 ready).nextPos (posOf 1 0) > 0 ∧ (withSwap (poolSwap 1 0 true false) ready).powerOverride = false ∧
    (poolSwap 20 0 true false).frame = leAt (leBytes 8 (2 ^ 32 * 20)) 4 4 ∧ (poolSwap 20 0 true false).members.toNat.testBit (segSrc 0) = true ∧
    (poolSwap 20 0 false false).pool = true ∧ (poolSwap 20 0 false false).arming = false ∧ (poolSwap 20 0 false false).from_ = segSrc 0 := by
  decide +kernel

def startable : State := ((ready.setBit .SYS_READY 6 false).setFld .SYS_CTRL Fld.SYS_CTRL_BOOT_LOCK 1).setFld .ALM_ACTIVE_INFO
  Fld.ALM_ACTIVE_INFO_CYCLE_K 1

/-- A shadow almanac that does not continue the active one. -/
def fresh : State := { ready with alm := { ready.alm with set1 := bytesWith 0x20 [(0x18, [1])] } }

/-- The swap's events, each at the edge at which it is due; its frame is 1 but for the answers of its pool. -/
theorem witness_AlmanacEvents :
    let w := poolSwap 1 0 true true
    let p := leBytes 16 (2 ^ 32 * 20)
    (withSwap w (atTime 1056 0 fresh)).overrideDue = true ∧
    (withSwap w (atTime 1119 0 ready)).nextPos = posOf w.frame 0 ∧ (withSwap w (atTime 1119 0 ready)).quiet ∧
    (withSwap w (atTime 1120 0 ready)).edgePos = posOf w.frame 0 ∧ (withSwap (poolSwap 10 0 true true) ready).poolDue 10 true = true ∧
    (withSwap (poolSwap 2 0 false false) ready).poolDue 2 false = true ∧ ready.tm.cycle = 0 ∧
    ready.fld .ALM_SWAP_STATUS Fld.ALM_SWAP_STATUS_COMMITTED = 0 ∧ w.from_ = segSrc 0 ∧ w.from_ ≠ segSrc (BitVec.ofNat 64 (2 ^ 64 - 1)) ∧
    armable.armRefusal (leAt p 4 4 % 2 ^ 20) true = none ∧ imgBuild armable.shadow = leAt p 8 8 ∧ armable.poolVersions = true ∧
    (ready.armRefusal (leAt p 4 4 % 2 ^ 20) true).isSome = true ∧ startable.startsAt startable.edgePos = true ∧ startable.tm.cycle = 0 := by
  unfold State.quiet; decide +kernel

/-- An active almanac with one engine in its map, Fold 0, which has died; Fold 1 is fallow. -/
def rebinding : State :=
  let s : State := { ready with alm := { ready.alm with set0 := bytesWith 0x100 [(0x2E, [1])], rebindDue := [(0, 0)] } }
  ((s.setFld (.ALM_FALLOW 0) Fld.ALM_FALLOW_VALID 1).setFld (.ALM_FALLOW 0) Fld.ALM_FALLOW_PHYS 1).setFld (.FLT_UNIT_STATE 0 0) ⟨0, 3⟩ 1

theorem witness_RebindToFallow : rebinding.halted = false ∧ rebinding.tm.cycle = 0 ∧ rebinding.alm.rebindDue = [(0, 0)] ∧
    rebinding.boundTo [(0, 0)] = [(0, (0, 0))] ∧ eligibleFallow (fun x => rebinding.unitDead x.1 x.2) rebinding.plannedToBind 0
      (rebinding.fallow.filter fun x => !rebinding.unitDead x.1 x.2) = some (0, 1) ∧ ready.alm.rebindDue = [] := by decide +kernel

/-- A release of Fold 0, core 0, whose operation has run. -/
def ran : State := withRels [{ inService 0 0 0 0 0 with ran := true }] ready

theorem witness_TickEvents : ready.halted = false ∧ ready.bit .SYS_READY 3 = true ∧ ready.bit .SYS_READY 5 = true ∧ State.reset.bit .SYS_READY 3 = false ∧
    (ready.setBit .SYS_READY 5 false).bit .SYS_READY 3 = true ∧ (ready.setBit .SYS_READY 5 false).bit .SYS_READY 5 = false ∧
    (∀ r ∈ ready.drv.rels, r.live = false) ∧ ready.drv.nextIdx = none ∧ (atTime 0 11000 ready).tm.cycle ≤ 11000 ∧ (atTime 0 11000 ready).quiet ∧
    11000 < (atTime 0 11001 ready).tm.cycle ∧ (ready.setBit .SYS_READY 6 false).fetchPlan false = none ∧
    (ready.fetchPlan false).map (·.atSwap) = some false ∧
    (ran.drv.rels.find? fun r => r.status == .inService && r.eng == ⟨0, 0, 0⟩ && r.ran).isSome = true := by unfold State.quiet; decide +kernel

/-! ### The Drover: premises met -/

/-- Queue 0 with rings of 16 and one descriptor or command posted. -/
def queued : State :=
  let s := ((ready.setFld (.DRV_RQ_CFG 0) Fld.DRV_RQ_CFG_LOG2_SIZE 4).setFld (.DRV_RQ_CFG 0) Fld.DRV_RQ_CFG_ENABLE 1).setFld (.DRV_RQ_DB 0)
    Fld.DRV_RQ_DB_INDEX 1
  ((s.setFld (.DRV_CQ_CFG 0) Fld.DRV_CQ_CFG_LOG2_SIZE 4).setFld (.DRV_CQ_CFG 0) Fld.DRV_CQ_CFG_ENABLE 1).setFld .HST_STATUS Fld.HST_STATUS_LINK_UP 1

def unmasked : State := queued.setFld (.HST_MSIX_CTRL 0) Fld.HST_MSIX_CTRL_MASK 0

/-- With a ring of 16 and nothing consumed, index 16 fits and index 17 does not. -/
theorem witness_QueueDoorbell : queued.halted = false ∧ (16 + 2 ^ 16 - queued.fld (.DRV_RQ_CI 0) Fld.DRV_RQ_CI_INDEX) % 2 ^ 16
      ≤ 2 ^ queued.fld (.DRV_RQ_CFG 0) Fld.DRV_RQ_CFG_LOG2_SIZE ∧
    2 ^ queued.fld (.DRV_RQ_CFG 0) Fld.DRV_RQ_CFG_LOG2_SIZE < (17 + 2 ^ 16 - queued.fld (.DRV_RQ_CI 0) Fld.DRV_RQ_CI_INDEX) % 2 ^ 16 ∧
    unmasked.linkUp = true ∧
    unmasked.fld (.HST_MSIX_CTRL (unmasked.fld (.DRV_CQ_CFG 0) Fld.DRV_CQ_CFG_VECTOR)) Fld.HST_MSIX_CTRL_MASK = 0 := by decide +kernel

def coalesced : State := { unmasked with drv := { unmasked.drv with coal := SMap.set (fun _ => (0, 0)) [] 0 (3, 0) } }

/-- Sizes 3 and 13 are outside, 4 and 12 inside. -/
theorem witness_QueueRegisters : ready.halted = false ∧ ready.fld (.DRV_RQ_CFG 0) Fld.DRV_RQ_CFG_ENABLE = 0 ∧
    ready.fld (.DRV_CQ_CFG 0) Fld.DRV_CQ_CFG_ENABLE = 0 ∧ (0x14 : Nat) % 16 = 4 ∧ (0x14 : Nat) / 16 % 2 = 1 ∧ (2 ^ 28 + 12) % 16 = 12 ∧
    (2 ^ 28 + 12) / 2 ^ 28 % 2 = 1 ∧ (13 : Nat) % 16 = 13 ∧ (SMap.get (fun _ => (0, 0)) ready.drv.coal 0).1 = 0 ∧
    (SMap.get (fun _ => (0, 0)) coalesced.drv.coal 0).1 ≠ 0 ∧
    (SMap.get (fun _ => (0, 0)) coalesced.drv.coal 0).2 + (coalesced.coalOf 0).2 ≤ coalesced.absTick ∧ coalesced.linkUp = true ∧
    coalesced.fld (.HST_MSIX_CTRL ((coalesced.coalOf 0).1 % 64)) Fld.HST_MSIX_CTRL_MASK = 0 := by decide +kernel

/-- A request whose work has ended. -/
def finished : Request := ⟨0, 0, 5, 0, 0, 0, false, 0, 0, 0, 0, 0, true, [], 0, [], none, 0⟩
def holding : State := { queued with drv := { queued.drv with store := [finished] } }

theorem witness_RequestsAcceptedAndCompleted :
    let desc : HostData := .data (byteList 256)
    queued.halted = false ∧ queued.canAccept 0 0 = true ∧
    reqCount ((queued.trying.read70 niDrover (queued.rd (.DRV_RQ_BASE 0)).toNat 256 desc).1.getD []) = 0 ∧
    queued.unhindered (fun u => u.acceptRequest 0 desc (.data []) []) ∧ ready.canAccept 0 0 = false ∧
    (holding.drv.store.find? fun r => r.queue == 0 && r.ring == 5) = some finished ∧ (holding.markDegraded finished).discarded = none ∧
    holding.workEnded (holding.markDegraded finished) = true ∧ (holding.markDegraded finished).queue = 0 ∧
    holding.fld (.DRV_CQ_CFG 0) Fld.DRV_CQ_CFG_ENABLE = 1 := by unfold State.unhindered; decide +kernel

def startCmd : CellCmd := ⟨3, 3, 1, none, 0, 0, 0, 0, 0, false, false, none⟩
def stopCmd : CellCmd := { startCmd with cmd := 1, ring := 1 }

theorem witness_OneCommandPerCellAndFrame :
    (∀ c ∈ [startCmd, stopCmd], c.resolved = false ∧ c.lost = false ∧ posDiff (posOf 1 0) (posOf c.frame 0) ≥ 0) ∧
    (resolveCmds 1 [startCmd, stopCmd])[1]? = some { stopCmd with resolved := true } ∧ [startCmd, stopCmd][0]? = some startCmd := by decide +kernel

/-- Cell 3 is served in queue 0 and STOPPED. -/
def served : State := (queued.wr (.DRV_CELLCFG 0) (BitVec.ofNat 64 (2 ^ 24 * 8))).setFld (.DRV_CELL_STATE 0) ⟨6, 2⟩ 2
def withCmds (cs : List CellCmd) (s : State) : State := { s with drv := { s.drv with cmds := cs } }

theorem witness_CellCommands :
    let p := leBytes 16 (2 ^ 32 * 3 + 2 ^ 64 * 4)
    let done : CellCmd := { startCmd with resolved := true }
    served.halted = false ∧ served.canAccept 0 0 = true ∧ served.fld (.DRV_RQ_CI 0) Fld.DRV_RQ_CI_INDEX = 0 ∧
    served.judgeCmd 3 4 (some 0) = (0, 0) ∧ (served.judgeCmd 3 1 (some 0)).1 = 1 ∧ ready.canAccept 0 0 = false ∧
    served.judgeCmd (leAt p 4 1 % 128) (leAt p 8 4 % 2 ^ 20) none = (0, 0) ∧ (ready.judgeCmd (leAt p 4 1 % 128) (leAt p 8 4 % 2 ^ 20) none).1 ≠ 0 ∧
    served.tm.cycle = 0 ∧ (withCmds [startCmd] served).resolveDue = true ∧ served.resolveDue = false ∧
    (withCmds [done] (atTime 1120 0 served)).effectDue = true ∧ (withCmds [done] (atTime 1119 0 served)).effectDue = false ∧
    done.cell < 128 ∧ served.cellState 3 = 2 ∧ (served.setFld (.DRV_CELL_STATE 0) ⟨6, 2⟩ 1).cellState 3 = 1 := by decide +kernel

/-- A MIGRATE of the host, and the message that answers it. -/
theorem witness_CellCommands_result :
    let c : CellCmd := { startCmd with cmd := 2, token := 9 }
    (withCmds [c] served).drv.cmds[0]? = some c ∧ c.peer = none ∧ c.token = leAt (leBytes 9 (2 ^ 32 * 9)) 4 4 ∧
    c.token ≠ leAt (leBytes 9 (2 ^ 32 * 8)) 4 4 := by decide +kernel

/-! ### The fronthaul: premises met -/

/-- Port 0 up at 25G with RS-FEC, VID 5 received. -/
def linked : State :=
  let s := ((ready.setFld (.FHL_PORT_CFG 0) Fld.FHL_PORT_CFG_MODE 2).setFld (.FHL_PORT_CFG 0) Fld.FHL_PORT_CFG_FEC 1).setFld (.FHL_PORT_CFG 0)
    Fld.FHL_PORT_CFG_MAX_FRAME 1500
  (s.setFld (.FHL_PORT_STATUS 0) Fld.FHL_PORT_STATUS_LINK_UP 1).setFld (.FHL_PORT_VLAN 0) Fld.FHL_PORT_VLAN_VID_RX 5

def frameWith (ps : List (Nat × List Byte)) : RxFrame := ⟨0, bytesWith 60 ps, true, 0, false, 3, 1⟩
def ptpFrame : RxFrame := frameWith [(12, [0x88, 0xF7])]
def esmcFrame : RxFrame := frameWith [(12, [0x88, 0x09]), (14, [0x0A, 0, 0x19, 0xA7, 0, 1, 0x10])]
/-- eCPRI message type 5, id 7, with an action. -/
def delayFrame (action : Byte) : RxFrame :=
  frameWith [(12, [0x81, 0x00, 0, 5, 0xAE, 0xFE, 0x10, 5, 0, 20, 7, action])]

theorem witness_FramesClassified : linked.halted = false ∧ linked.bit .SYS_READY 39 = true ∧ State.reset.bit .SYS_READY 39 = false ∧
    linked.fld (.FHL_PORT_CFG 0) Fld.FHL_PORT_CFG_MODE ≠ 0 ∧ linked.fld (.FHL_PORT_STATUS 0) Fld.FHL_PORT_STATUS_LINK_UP = 1 ∧
    ready.fld (.FHL_PORT_CFG 0) Fld.FHL_PORT_CFG_MODE = 0 ∧ linked.fld (.FHL_PORT_CFG 0) Fld.FHL_PORT_CFG_FEC = 1 ∧
    2 ≤ linked.fld (.FHL_PORT_CFG 0) Fld.FHL_PORT_CFG_MODE ∧ ptpFrame.full = false ∧ { ptpFrame with full := true }.full = true ∧
    linked.classify { ptpFrame with fcsOk := false } = .drop 1 ∧ linked.classify (frameWith []) = .drop 4 ∧ linked.classify ptpFrame = .ptp ∧
    linked.classify esmcFrame = .esmc ∧ linked.classify (frameWith [(12, [8, 0])]) = .unsupported ∧
    isDelayAction (delayFrame 0) 0 (linked.classify (delayFrame 0)) = true ∧ isDelayAction (delayFrame 3) 3 (linked.classify (delayFrame 3)) = true ∧
    isDelayAction (delayFrame 2) 2 (linked.classify (delayFrame 2)) = true := by decide +kernel

/-- eAxC 0 of port 0, two PRBs, uncompressed 16-bit samples. -/
def streamed : State := ((linked.setFld (.FHL_EAXC 0) Fld.FHL_EAXC_NPRB 2).setFld (.FHL_EAXC 0) Fld.FHL_EAXC_VALID 1).setFld (.FHL_EAXC 0)
  Fld.FHL_EAXC_EAXC_ID 9
def uplaneFrame : RxFrame := frameWith [(12, [0x81, 0x00, 0, 5, 0xAE, 0xFE, 0x10, 0, 0, 20, 0, 9, 0, 0x80])]

theorem witness_FramesClassified_uplane : (streamed.classify uplaneFrame).isUplane = true ∧ (linked.classify uplaneFrame).isUplane = false := by
  decide +kernel

theorem witness_DelayMeasurement :
    let s : State := { linked with fh := { linked.fh with delays := [(0, 7, 100)] } }
    let o := ethBody (delayFrame 2).bytes
    s.halted = false ∧ s.bit .SYS_READY 39 = true ∧ (delayFrame 2).full = false ∧ s.classify (delayFrame 2) = .delay ∧
    beAt (delayFrame 2).bytes (o + 5) 1 = 2 ∧ beAt (delayFrame 0).bytes (o + 5) 1 = 0 ∧ beAt (delayFrame 3).bytes (o + 5) 1 = 3 ∧
    (s.fh.delays.find? fun d => d.1 == 0 && d.2.1 == beAt (delayFrame 2).bytes (o + 4) 1) = some (0, 7, 100) ∧
    (linked.fh.delays.find? fun d => d.1 == 0 && d.2.1 == beAt (delayFrame 2).bytes (o + 4) 1) = none ∧
    Fld.FHL_DLY_CTRL_SEND.get 0 = 0 ∧ linked.peerOf (Fld.FHL_DLY_CTRL_PEER.get 0) = none ∧
    ((linked.setFld (.FHL_PEER 0) Fld.FHL_PEER_VALID 1).peerOf (Fld.FHL_DLY_CTRL_PEER.get (Fld.FHL_DLY_CTRL_SEND.set 0 1))).isSome = true ∧
    Fld.FHL_DLY_CTRL_SEND.get (Fld.FHL_DLY_CTRL_SEND.set 0 1) = 1 := by decide +kernel

/-- A section of both PRBs at octet 22, at the end of its frame; one PRB more, or one octet less, is refused. -/
theorem witness_UplaneSections :
    let f := frameWith [(22, [0, 0, 0, 2])]
    let w := beAt f.bytes 22 4
    let next := 22 + 4 + 2 * streamed.prbBytes 0
    bitsOf w 18 2 = 0 ∧ w % 256 = 2 ∧ bitsOf w 8 10 + 2 ≤ streamed.eaxc 0 Fld.FHL_EAXC_NPRB ∧
    (streamed.fld (.FHL_PORT_CFG f.port) Fld.FHL_PORT_CFG_UDCOMP_HDR == 1) = false ∧ next ≤ next ∧ next - 1 < next ∧
    streamed.eaxcMethodOk 0 = true ∧ streamed.eaxc 0 Fld.FHL_EAXC_NPRB < bitsOf (beAt (frameWith [(22, [0, 0, 0, 3])]).bytes 22 4) 8 10 + 3 := by
  decide +kernel

/-- An almanac of one frame with a receive window and a transmit window for the C-plane, both due in its first tick. -/
def windowed : State :=
  let s : State := { ready with alm := { ready.alm with set0 := bytesWith 0xA0 [(0x78, leBytes 8 (0x80 + 2 ^ 32 * 0x20)), (0x90, leBytes 16 (2 ^ 4 * 2))] } }
  s.setFld .ALM_ACTIVE_INFO Fld.ALM_ACTIVE_INFO_CYCLE_K 1
def opened : State := { windowed with fh := { windowed.fh with wins := [windowed.windowAt 0 0, windowed.windowAt 1 0] } }

theorem witness_FronthaulWindows : windowed.halted = false ∧ windowed.windowDue 0 false = true ∧ winDir (windowed.winRecords.getD 0 0) = 0 ∧
    (windowed.fh.wins.any fun x => x.idx == 0) = false ∧ windowed.quiet ∧ windowed.windowDue 1 false = true ∧
    winDir (windowed.winRecords.getD 1 0) = 2 ∧ (∀ x ∈ windowed.fh.wins, x.port = (windowed.windowAt 1 0).port → x.frames = []) ∧
    (opened.openOf 0 false).isSome = true ∧ opened.windowDue 0 true = true ∧ opened.quiet ∧ (opened.openOf 1 true).isSome = true ∧
    opened.windowDue 1 true = true ∧
    (((opened.toCycle (winCloseCycle (opened.winRecords.getD 1 0))).startFrames 0 0).openOf 1 true).isSome = true ∧
    ready.windowDue 0 false = false ∧ ready.windowDue 1 true = false := by unfold State.quiet; decide +kernel

theorem witness_FronthaulLinks : linked.halted = false ∧ linked.fld (.FHL_PORT_CFG 0) Fld.FHL_PORT_CFG_MODE ≠ 0 ∧ linked.portUnused 0 = false ∧
    linked.fld (.FHL_PORT_STATUS 0) Fld.FHL_PORT_STATUS_LINK_UP = 1 ∧ ready.fld (.FHL_PORT_STATUS 0) Fld.FHL_PORT_STATUS_LINK_UP ≠ 1 := by
  decide +kernel

/-! ### Time: premises met -/

def stepped (p : Int) : State := { ready with tm := { ready.tm with outStep := p :: List.replicate 5 0 } }

/-- The largest pending step, and one more. -/
theorem witness_OutputSteps : ready.halted = false ∧ ready.tm.outStep.length = 6 ∧ (stepped 5).tm.outStep.getD 0 0 = 5 ∧ ready.tm.cycle = 0 ∧
    (stepped 1).tm.outStep.getD 0 0 + signedOf 32 (2 ^ 31 - 2) = 2 ^ 31 - 1 ∧ (stepped 1).tm.outStep.getD 0 0 + signedOf 32 (2 ^ 31 - 1) = 2 ^ 31 ∧
    signedOf 40 (ready.fld (.TIM_OUT 0) Fld.TIM_OUT_OFFSET) = 0 := by decide +kernel

/-- Timer 6, armed, with CMP behind it. -/
def timed : State :=
  let s := (atTime 0 100 ready).setFld (.TIM_EVT_CTRL 6) Fld.TIM_EVT_CTRL_ARM 1
  { s with tm := { s.tm with armedAt := SMap.set zeroNat [] 6 1, gpioPulse := SMap.set zeroNat [] 4 (14000 * (s.absTick + 1) - 1) } }

theorem witness_EventTimers : timed.halted = false ∧ (timed.fireCycle 6).isSome = true ∧ timed.fireCycle 7 = none ∧ timed.quiet ∧
    SMap.get zeroNat timed.tm.armedAt 6 % 2 = 1 ∧ timed.fld (.TIM_EVT_CTRL 6) Fld.TIM_EVT_CTRL_PERIOD = 0 ∧
    (timed.setFld (.TIM_EVT_CTRL 6) Fld.TIM_EVT_CTRL_PERIOD 1).fld (.TIM_EVT_CTRL 6) Fld.TIM_EVT_CTRL_PERIOD ≠ 0 ∧
    SMap.get zeroNat timed.tm.gpioPulse 4 ≠ 0 ∧ SMap.get zeroNat timed.tm.gpioPulse 4 < 14000 * (timed.absTick + 1) ∧
    SMap.get zeroNat timed.tm.gpioPulse 5 = 0 := by unfold State.quiet; decide +kernel

/-- The PTP rings, with one frame posted to send, and room for one more received. -/
def ringed : State :=
  ((linked.setFld .TIM_TX_CFG Fld.TIM_TX_CFG_ENABLE 1).setFld .TIM_TX_DB Fld.TIM_TX_DB_INDEX 1).setFld .TIM_RX_CFG Fld.TIM_RX_CFG_ENABLE 1

theorem witness_BellwetherRegisters : ringed.halted = false ∧ ringed.tm.refs.length = 8 ∧ dtDiff ringed.now (ringed.rd .TIM_VREF_AT) < (unitsPerSecond : Int) ∧
    ringed.fld .TIM_TX_CFG Fld.TIM_TX_CFG_ENABLE = 1 ∧ ringed.fld .TIM_TX_DB Fld.TIM_TX_DB_INDEX ≠ ringed.fld .TIM_TX_CI Fld.TIM_TX_CI_INDEX ∧
    ringed.unhindered (fun u => u.departTx 0) ∧ linked.fld .TIM_TX_CFG Fld.TIM_TX_CFG_ENABLE = 0 ∧ linked.bit .SYS_READY 39 = true ∧
    (linked.setBit .SYS_READY 3 false).bit .SYS_READY 3 = false ∧ (linked.setBit .SYS_READY 3 false).classify ptpFrame = .ptp ∧
    linked.fld .TIM_RX_CFG Fld.TIM_RX_CFG_ENABLE = 0 ∧ ringed.fld .TIM_RX_CFG Fld.TIM_RX_CFG_ENABLE = 1 ∧
    (ringed.fld .TIM_RX_PI Fld.TIM_RX_PI_INDEX + 2 ^ 16 - ringed.fld .TIM_RX_DB Fld.TIM_RX_DB_INDEX) % 2 ^ 16
      < 2 ^ ringed.fld .TIM_RX_CFG Fld.TIM_RX_CFG_LOG2_SIZE ∧
    (linked.setBit .SYS_READY 3 false).classify esmcFrame = .esmc ∧ esmcCode (frameWith [(12, [0x88, 0x09])]).bytes = none := by
  unfold State.unhindered; decide +kernel

theorem witness_BellwetherRegisters_esmc :
    let s := linked.setFld (.SDS_LANE_STATUS 0) Fld.SDS_LANE_STATUS_USER 1
    let f := frameWith [(12, [0x88, 0x09]), (14, [0x0A, 0, 0x19, 0xA7, 0, 1, 0x10, 0, 0, 0, 1, 0, 4, 2])]
    s.classify f = .esmc ∧ s.bit .SYS_READY 3 = true ∧ esmcCode f.bytes = some 2 ∧ s.tm.refs.length = 8 ∧
    s.fld (.SDS_LANE_STATUS (s.rclk 5).1) Fld.SDS_LANE_STATUS_USER = 1 ∧ s.portOfLane (s.rclk 5).1 = f.port.val := by decide +kernel

def refsWith (r : RefInput) (s : State) : State := { s with tm := { s.tm with refs := List.replicate 8 r } }

theorem witness_TimeSteps :
    let locked := ready.setFld .TIM_STATUS Fld.TIM_STATUS_STATE 3
    let esmc (n : Nat) : State := refsWith { RefInput.idleInput with esmcIdle := n } (ready.setFld (.SDS_LANE_STATUS 0) Fld.SDS_LANE_STATUS_USER 1)
    let timed : State := refsWith { RefInput.idleInput with samples := [(0, 600000000)] } (ready.setFld .TIM_STATUS Fld.TIM_STATUS_SEL_TIME 4)
    let fixed : State := { ready with tm := { ready.tm with step := some ⟨-3, 5, false⟩ } }
    (∀ i, i < 8 → locked.fld (.TIM_REF_CFG i) Fld.TIM_REF_CFG_EN = 0) ∧ locked.fld .TIM_STATUS Fld.TIM_STATUS_STATE = 3 ∧
    ((esmc 4999).tm.refs.getD 6 RefInput.idleInput).esmcIdle < 5000 ∧ 5000 ≤ ((esmc 5000).tm.refs.getD 6 RefInput.idleInput).esmcIdle ∧
    (esmc 5000).fld (.TIM_REF_CFG 6) Fld.TIM_REF_CFG_QL_OVR = 0 ∧
    (esmc 5000).fld (.SDS_LANE_STATUS ((esmc 5000).rclk 6).1) Fld.SDS_LANE_STATUS_USER = 1 ∧
    11000 < (atTime 0 11001 timed).tm.cycle ∧ (atTime 0 11000 timed).stepAllowed = true ∧ ready.stepAllowed = false ∧ (atTime 0 11000 timed).quiet ∧
    ((atTime 0 11000 timed).stepOffset 4).isSome = true ∧ fixed.tm.step = some ⟨-3, 5, false⟩ ∧ ready.tm.step = none ∧
    (ready.setFld .TIM_STATUS Fld.TIM_STATUS_STATE 2).fld .TIM_STATUS Fld.TIM_STATUS_STATE = 2 ∧ ready.fld .TIM_STATUS Fld.TIM_STATUS_STATE ≠ 2 := by
  unfold State.quiet; decide +kernel

/-! ### Power, network, memories, units: premises met -/

def withDom (d : Nat) (x : DomSt) (s : State) : State := { s with pwr := { s.pwr with dom := SMap.set domIdle s.pwr.dom d x } }
def entering (goal : Nat) (at_ : Option Nat) : DomSt := { domIdle 0 with entry := some ⟨goal, [], [], at_, false⟩ }
def waking (from_ goal : Nat) (switched good : Bool) : DomSt := { domIdle 0 with wake := some ⟨from_, goal, 700, switched, good⟩ }
def asleep (d : Nat) : State := (ready.setFld (.PWR_DOM d) Fld.PWR_DOM_STATE 2).setFld (.PWR_DOM d) Fld.PWR_DOM_PLANNED 2

theorem witness_PowerDomains :
    let busy := withDom 3 (entering 2 none) (withRels [inService 0 3 5 0 0] ready)
    let failed := (asleep 3).setFld (.PWR_DOM 3) Fld.PWR_DOM_FAILED 1
    (asleep 3).halted = false ∧ (asleep 3).planDue 3 = true ∧ ((asleep 3).dom 3).entry = none ∧ ((asleep 3).dom 3).wake = none ∧
    (asleep 3).domFailed 3 = false ∧ (asleep 3).forcedOn 3 = false ∧ (asleep 3).plannedNow 3 % 4 < (asleep 3).fld (.PWR_DOM 3) Fld.PWR_DOM_STATE ∧
    ((withDom 25 (entering 1 none) ready).dom 25).entry = some ⟨1, [], [], none, false⟩ ∧ (busy.dom 3).entry = some ⟨2, [], [], none, false⟩ ∧
    (∃ r ∈ busy.drv.rels, r.live = true ∧ r.eng = ⟨0, 3, 5⟩) ∧
    ((withDom 3 (entering 2 (some 7)) ready).dom 3).entry = some ⟨2, [], [], some 7, false⟩ ∧
    ((withDom 3 (entering 3 (some 7)) ready).dom 3).entry = some ⟨3, [], [], some 7, false⟩ ∧ ready.attached = false ∧ 4 ∈ groupsOfDomain 3 ∧
    ((withDom 3 (waking 3 0 true false) ready).dom 3).wake = some ⟨3, 0, 700, true, false⟩ ∧
    ((withDom 3 (waking 3 0 false false) ready).dom 3).wake = some ⟨3, 0, 700, false, false⟩ ∧
    (withDom 3 (waking 3 0 true true) ready).wakeReady 3 = true ∧ (withDom 3 (waking 3 0 true false) ready).wakeReady 3 = false ∧
    (asleep 3).bit (.PWR_FORCE_ON 0) 3 = false ∧ (8 : BitVec 64).toNat.testBit 3 = true ∧ rebinding.domainUsed 0 = true ∧
    (ready.setBit .SYS_READY 6 false).domainUsed 3 = false ∧ (ready.setBit .SYS_READY 6 false).almRuns = false ∧
    stateAllowed 3 2 = true ∧ stateAllowed 3 3 = false ∧ failed.domFailed 3 = true ∧ (failed.dom 3).entry = none := by decide +kernel

/-- Registers whose reset values the fuses give, set. -/
def fused (rs : List (Reg × Nat)) (s : State) : State :=
  rs.foldl (fun s r => { s with regs := SMap.insert r.1.off (BitVec.ofNat 64 r.2) s.regs }) s

/-- Both rails acknowledged at 750 mV and asked for more: VMIN is the fuses'. -/
def rails (vmin : Nat) : State := fused [(.PWR_AVS_CFG 0, 2 ^ 38 * vmin), (.PWR_AVS_CFG 1, 2 ^ 38 * vmin)]
  ((ready.setFld (.PWR_AVS_STATUS 0) Fld.PWR_AVS_STATUS_ACKED 750).setFld (.PWR_AVS_STATUS 1) Fld.PWR_AVS_STATUS_ACKED 750)
def exchanging (mv tries : Nat) : State := { rails 850 with pwr := { ready.pwr with exch := some ⟨0, mv, tries⟩ } }

theorem witness_VoltageExchanges :
    let asked : State := { rails 800 with pwr := { ready.pwr with queue := [⟨0, 0⟩] } }
    let waits := withDom 3 { domIdle 0 with wake := some ⟨2, 0, 800, false, false⟩ } (exchanging 750 3)
    asked.pwr.exch = none ∧ asked.nextAvs = some 1 ∧ ready.nextAvs = none ∧ (exchanging 750 2).pwr.exch = some ⟨0, 750, 2⟩ ∧
    (exchanging 750 3).pwr.exch = some ⟨0, 750, 3⟩ ∧ (waits.dom 3).wake = some ⟨2, 0, 800, false, false⟩ ∧ waits.railWaiters = [3] := by decide +kernel

/-- A packet of interface 0 to Shepherd memory at 64, by the built-in route. -/
def packet (type : BitVec 4) : Packet :=
  { packetOf type 76 3 (if type = 1 ∨ type = 2 then 4 else 0) with addr := 64, route := (ready.rtEntry 0 76).extractLsb' 0 32, ridx := 76, src := 0 }
def crossedAll (p : Packet) (sink : Bool) (eject : Option Nat) : Worm :=
  { ready.wormOf p false false with sink := sink, eject := eject, crossed := (ready.wormOf p false false).crossed.map fun _ => packetFlits p }
def inFlight (w : Worm) : State := { ready with noc := { ready.noc with flight := [w] } }
def arrived (p : Packet) : State := { ready with noc := { ready.noc with arrived := [p] } }

theorem witness_PacketsDelivered :
    (inFlight (crossedAll (packet 0) false (some 76))).noc.flight = [crossedAll (packet 0) false (some 76)] ∧
    (crossedAll (packet 0) false (some 76)).done = true ∧ (crossedAll (packet 1) false (some 75)).eject ≠ some 76 ∧
    (crossedAll (packet 2) true none).done = true ∧ (crossedAll (packet 4) true none).sink = true ∧
    13999 ≤ (atTime 0 13999 ready).tm.cycle ∧ ready.noc.flight = [] ∧ ready.noc.arrived = [] ∧ (packet 0).ch ≠ 0 ∧
    (∀ t ∈ [(0 : BitVec 4), 1, 2, 3, 4], (arrived (packet t)).nextArrived (packet t) = true ∧ (packet t).dst = 76 ∧ (packet t).space = false ∧
      (packet t).addr.toNat % 2 ^ 48 + (packet t).len.toNat + 1 ≤ 0x200000) ∧
    ready.sys.barHeld = [] ∧ ready.ecc.flips = [] ∧ ready.fld .MEM_INJECT Fld.MEM_INJECT_ARM = 0 ∧ ready.isolated 76 = false ∧
    (ready.rtEntry 76 0).toNat.testBit 63 = true ∧ ready.halted = false := by decide +kernel

theorem witness_NetworkRegisters :
    let last := (ready.setFld .NOC_RT_ADDR Fld.NOC_RT_ADDR_NI 78).setFld .NOC_RT_ADDR Fld.NOC_RT_ADDR_ENTRY 255
    ready.halted = false ∧ last.rtAddr.1 < 79 ∧ last.locked = false ∧ 79 ≤ (ready.setFld .NOC_RT_ADDR Fld.NOC_RT_ADDR_NI 79).rtAddr.1 ∧
    startable.locked = true := by decide +kernel

/-- Group 5, of whose words the first has one flipped bit. -/
def flipped : State := { ready with ecc := { ready.ecc with flips := SMap.set zeroNat [] (2 ^ 21 * 5) 4 } }

theorem witness_MemoryUpkeep :
    let due : State := { ready with ecc := { ready.ecc with initDue := [5, 61] } }
    ready.halted = false ∧ ready.scrubbed 5 = true ∧ SMap.get zeroNat ready.ecc.done 5 < ready.scrubRate 5 ∧
    SMap.get zeroNat ready.ecc.pos 5 < ready.scrubSpan 5 ∧ SMap.wf zeroNat flipped.ecc.flips = true ∧ flipped.flips 5 0 = 4 ∧
    checkWord (flipped.flips 5 0) = .corrected 0 (syndrome 4) ∧ ready.flips 5 0 = 0 ∧
    due.scrubbed 5 = false ∧ 5 ∈ due.ecc.initDue ∧ 61 ∈ due.ecc.initDue ∧ 5 ∉ ready.ecc.initDue ∧ unitOfGroup 5 = some (0, 4) ∧
    due.unitState 0 4 ∉ [1, 2, 6] := by decide +kernel

def unitIn (v : Nat) : State := ready.setFld (.FLT_UNIT_STATE 0 0) ⟨12, 3⟩ v

theorem witness_UnitsReturn :
    let returning : State := { unitIn 5 with flt := { ready.flt with returning := [(0, 3)], barDue := [(0, 3)], shepFrozen := [2] } }
    ready.halted = false ∧ unitOk 0 3 = true ∧ unitOk 0 16 = false ∧ unitOk 4 3 = true ∧ unitOk 4 4 = false ∧ ready.unitState 0 3 ∉ [1, 2, 6] ∧
    ready.tm.cycle ≠ 14000 ∧ (unitIn 6).unitState 0 3 ∈ [1, 2, 6] ∧ (unitIn 1).unitState 0 3 = 1 ∧ (unitIn 2).unitState 0 3 = 2 ∧
    (unitIn 3).unitState 0 3 = 3 ∧ (unitIn 3).domFailed (domainOfUnit 0 3) = false ∧
    ((unitIn 3).setFld (.PWR_DOM 3) Fld.PWR_DOM_FAILED 1).domFailed (domainOfUnit 0 3) = true ∧ (unitIn 4).unitState 0 3 = 4 ∧
    (unitIn 5).unitState 0 3 = 5 ∧ ((0, 3) : Nat × Nat) ∉ (unitIn 5).flt.returning ∧ (unitIn 5).isolated (niOfUnit 0 3) = false ∧
    ((unitIn 5).setBit (.NOC_ISOLATE 0) (niOfUnit 0 3) true).isolated (niOfUnit 0 3) = true ∧ (unitIn 5).fallow.length < 16 ∧
    2 ∈ returning.flt.shepFrozen ∧ 2 ∉ ready.flt.shepFrozen ∧ returning.tm.cycle = 0 ∧ returning.flt.returning = [(0, 3)] ∧
    returning.unitState 0 3 = 5 ∧ (∀ u ∈ returning.flt.barDue, unitOk u.1 u.2 = true) := by decide +kernel

/-- A full fallow list. -/
theorem witness_UnitsReturn_full : 16 ≤ ((List.range 16).foldl (fun s m => s.setFld (.ALM_FALLOW m) Fld.ALM_FALLOW_VALID 1) ready).fallow.length := by
  decide +kernel

def withCh (c : MovCh) (s : State) : State := { s with mov := { s.mov with ch := SMap.set movIdle s.mov.ch 0 c } }
def moving (lead : Nat) : State :=
  (withCh { MovCh.idle with active := some (xferOf 0 4096 256), acked := [(0, lead)] } ready).setFld (.MOV_ENG 0) Fld.MOV_ENG_BUSY 1

theorem witness_MoveEngines :
    let full := (moving 0).setFld (.MOV_CH_STATUS 0 0) Fld.MOV_CH_STATUS_SH_FULL 1
    let ring := ready.setFld (.MOV_CH_CFG 0 0) Fld.MOV_CH_CFG_MODE 1
    let halted := ready.setFld (.MOV_CH_STATUS 0 0) Fld.MOV_CH_STATUS_HALTED 1
    ready.halted = false ∧ ready.fld (.MOV_CH_CFG 0 0) Fld.MOV_CH_CFG_MODE = 0 ∧ full.fld (.MOV_CH_STATUS 0 0) Fld.MOV_CH_STATUS_SH_FULL = 1 ∧
    (moving 0).fld (.MOV_CH_STATUS 0 0) Fld.MOV_CH_STATUS_SH_FULL = 0 ∧ ((moving 0).movCh 0 0).active.isSome = true ∧ (ready.movCh 0 0).active = none ∧
    (xferOf 0 0 0).bad = true ∧ (xferOf 0 4096 256).bad = false ∧ ready.fld (.MOV_CH_CFG 0 0) Fld.MOV_CH_CFG_ENABLE = 0 ∧
    ring.fld (.MOV_CH_CFG 0 0) Fld.MOV_CH_CFG_MODE = 1 ∧ (ring.movCh 0 0).active = none ∧ ring.movHalted 0 0 = false ∧
    (ring.movCh 0 0).reading < 16 ∧ (ring.requestPacket (niMove 0) pktRead 0 0 32 true []).isSome = true ∧
    ring.isolated (niMove 0) = false ∧ halted.movHalted 0 0 = true ∧ halted.fld (.MOV_CH_STATUS 0 0) Fld.MOV_CH_STATUS_SH_FULL = 0 ∧
    (moving 256).fld (.MOV_ENG 0) Fld.MOV_ENG_CUR_CH = 0 ∧ (moving 256).movHalted 0 0 = false ∧ (moving 256).fld (.MOV_ENG 0) Fld.MOV_ENG_BUSY = 1 ∧
    (moving 256).movFree 0 = true ∧ (xferOf 0 4096 256).len ≤ ((moving 256).movCh 0 0).lead ∧ ((moving 255).movCh 0 0).lead < 256 ∧
    ((moving 256).movCh 0 0).desc = none := by decide +kernel

/-- A COPY of 64 bytes between Pasture slices, whose record stands at the start of Pasture memory. -/
theorem witness_MoveEngines_copy :
    let dev := 2 ^ 63
    let rec_ := leBytes 16 (dev + pastureBase + 0x1000 + 2 ^ 64 * (dev + pastureBase + 0x400000)) ++ leBytes 16 64
    let s : State := withRels [inService 5 0 0 1 0] { ready with mem := Memory.writeBytes [] pastureBase rec_ }
    let r := inService 5 0 0 1 0
    let d := s.trying.agentRead (niMove 0) (pastureBase + relArg r.word) 32
    let w := leAt d.1.data 16 8
    let x := xferOf (leAt d.1.data 0 8) (leAt d.1.data 8 8) (BitVec.ofNat 64 w)
    let b := d.2.agentRead (niMove 0) (bitsOf x.src 0 48) x.len
    s.serving 5 0 0 0 = some r ∧ r.ran = false ∧ relOp r.word = 1 ∧ relFill r.word = false ∧ relArg r.word % 32 = 0 ∧
    relOp (inService 5 0 0 2 0).word ≠ 1 ∧ d.1.status = stOk ∧ w / 2 ^ 39 = 0 ∧ bitsOf w 32 5 = 0 ∧ allZero (slice d.1.data 24 8) = true ∧ x.bad = false ∧
    isDeviceAddr x.src = true ∧ isDeviceAddr x.dst = true ∧ x.src + x.len ≤ x.dst ∧ b.1.status = stOk ∧
    (b.2.agentWrite (niMove 0) (bitsOf x.dst 0 48) (slice b.1.data 0 x.len)).1.status = stOk ∧
    s.unhindered (fun u => u.copyRelease 0 (.data [])) := by unfold State.unhindered; decide +kernel

/-! ### Start-up, host interface, Crook port, UART, serial lanes: premises met -/

theorem witness_StatusPortDoorbell :
    let s := ready.setFld .STP_CTRL Fld.STP_CTRL_WR_EN 1
    s.bit .SYS_READY 41 = true ∧ s.fld .STP_CTRL Fld.STP_CTRL_WR_EN = 1 ∧ (s.setBit .STP_DB_PEND 63 true).bit .STP_DB_PEND 63 = true ∧
    s.bit .STP_DB_PEND 63 = false ∧ (∀ i : Fin 64, (0x8080 : BitVec 16).toNat ≠ 0x8000 + 2 * i.val) := by decide +kernel

/-- Each class of the table, and the numbers beside it. -/
theorem witness_ClockClassQuality : ∀ c ∈ [6, 7, 135, 140, 150, 160, 165, 248, 255, 5, 8],
    (ready.setFld (.TIM_REF_CFG 7) Fld.TIM_REF_CFG_CLOCK_CLASS c).fld (.TIM_REF_CFG 7) Fld.TIM_REF_CFG_CLOCK_CLASS = c ∧
    (ready.setFld (.TIM_REF_CFG 7) Fld.TIM_REF_CFG_CLOCK_CLASS c).fld (.TIM_REF_CFG 7) Fld.TIM_REF_CFG_QL_OVR = 0 ∧ ready.halted = false := by
  decide +kernel

def booting (fromHost : Bool) : State := { ready with sys := { ready.sys with booting := some fromHost, fuses := true } }

theorem witness_StartUp :
    let go : BitVec 64 := Fld.SYS_CTRL_KEY.set (Fld.SYS_CTRL_RESET.set 0 1) 0x5EED
    let bare := ready.setFld .SYS_BOOT_STATUS Fld.SYS_BOOT_STATUS_BARE 1
    Fld.SYS_CTRL_RESET.get go = 1 ∧ Fld.SYS_CTRL_KEY.get go = 0x5EED ∧ Fld.SYS_CTRL_KEY.get (Fld.SYS_CTRL_RESET.set 0 1) ≠ 0x5EED ∧
    Fld.SYS_CTRL_BOOT_LOCK.get 0 = 0 ∧ Fld.SYS_CTRL_FH_READY.get 0 = 0 ∧ State.reset.sys.fuses = false ∧ (booting false).sys.fuses = true ∧
    ((booting false).setBit .SYS_READY 3 false).bit .SYS_READY 3 = false ∧ ready.bit .SYS_READY 3 = true ∧
    (ready.setBit .SYS_READY 5 false).bit .SYS_READY 5 = false ∧ ready.bit .SYS_READY 41 = true ∧ State.reset.bit .SYS_READY 41 = false ∧
    ready.halted = false ∧ startable.locked = true ∧ ready.locked = false ∧ ready.groupFailed 0 = false ∧ ready.sys.booting = none ∧
    (booting false).sys.booting = some false ∧ (booting false).bootCanFinish [] = true ∧ bootMagic [] ≠ none ∧
    bare.fld .SYS_BOOT_STATUS Fld.SYS_BOOT_STATUS_BARE = 1 ∧ bare.sys.booting = none ∧ (bare.hostImage).1 ≠ none := by decide +kernel

/-- A host whose endpoint is served: the power management register stands where the implementation puts it. -/
def hosted : State :=
  let s := ready.setFld .HST_STATUS Fld.HST_STATUS_LINK_UP 1
  { s with sys := { s.sys with fuses := true, pcieCfg := [(Config.pmcsrOffset, 0)], hostReads := [packet 0] } }

theorem witness_HostInterface_served : hosted.barServed = true := by
  have h : hosted.linkUp = true ∧ hosted.pcieReady = true := by decide +kernel
  have c : hosted.cfgByte Config.pmcsrOffset = 0 := by simp [hosted, State.cfgByte, SMap.get]
  simp [State.barServed, h, c]

theorem witness_HostInterface :
    let held := { arrived { packet 1 with src := 77 } with sys := hosted.sys }
    hosted.halted = false ∧ hosted.sys.fuses = true ∧ State.reset.sys.fuses = false ∧ hosted.linkUp = true ∧ ready.linkUp = false ∧
    hosted.bit .SYS_READY 0 = true ∧ (hosted.setBit .SYS_READY 0 false).bit .SYS_READY 0 = false ∧ cfgFixed 4 = none ∧ (cfgFixed 0x10).isSome = true ∧
    hosted.sys.hostReads[0]? = some (packet 0) ∧ (packet 0).type = 0 ∧ hosted.sys.hostReads[1]? = none ∧
    (hosted.rtEntry 76 0).toNat.testBit 63 = true ∧ hosted.isolated 76 = false ∧ held.hostWriteHeld = true ∧ hosted.hostWriteHeld = false ∧
    hosted.sys.barHeld = [] ∧ bar2Addr (2 ^ 36 + pastureSize) = none ∧ bar2Addr (2 ^ 36 + pastureSize - 1) = some (pastureBase + pastureSize - 1) ∧
    bar2Addr (2 ^ 36 - 1) = some (ddrBase + 2 ^ 36 - 1) ∧ (hosted.agentPost 77 pastureBase [1, 2]).1.errs = [] ∧
    (hosted.trying.agentRead 77 pastureBase 4).1.errs = [] := by decide +kernel

theorem witness_HostInterface_read : hosted.unhindered (fun u => u.barRead true (2 ^ 36) 4) := by
  unfold State.unhindered
  cases h : hosted.trying.barServed
  · simp only [State.barRead, h]; decide +kernel
  · simp only [State.barRead, h]; decide +kernel

def attached : State := ready.setFld .DBG_ATTACH Fld.DBG_ATTACH_ATTACHED 1
def lockedOut (after : Nat) : State := { ready with dbg := { ready.dbg with lockEnd := some (BitVec.ofNat 64 after) } }
def accessing (a : Nat) (write : Bool) (s : State) : State := { s with dbg := { s.dbg with access := some ⟨a, write, 5⟩ } }

theorem witness_CrookPort :
    State.reset.bit .SYS_READY 43 = false ∧ ready.bit .SYS_READY 43 = true ∧ ready.attached = false ∧ attached.attached = true ∧
    attached.halted = false ∧ halted.attached = true ∧ halted.halted = true ∧ ready.lockedOut = false ∧ (lockedOut 5).lockedOut = true ∧
    min 255 (ready.fld .DBG_AUTH_STAT Fld.DBG_AUTH_STAT_FAILS + 1) < 3 ∧
    3 ≤ min 255 ((ready.setFld .DBG_AUTH_STAT Fld.DBG_AUTH_STAT_FAILS 2).fld .DBG_AUTH_STAT Fld.DBG_AUTH_STAT_FAILS + 1) ∧
    (accessing 0 false attached).dbg.access.isSome = true ∧ attached.dbg.access = none ∧ ready.dbg.lockEnd = none ∧
    ((lockedOut 5).reachTime 5).isSome = true ∧ ((lockedOut (2 ^ 40)).reachTime (BitVec.ofNat 64 (2 ^ 40))).isSome = false ∧ ready.quiet ∧
    ready.place 0x200000 = .none ∧ 8 * (0x1FFFFF / 8) < 0x200000 ∧ halted.ecc.flips = [] ∧ halted.fld .MEM_INJECT Fld.MEM_INJECT_ARM = 0 ∧
    8 * ((regBase + Reg.off (.STP_FW 255) + 7) / 8) = regBase + Reg.off (.STP_FW 255) := by unfold State.quiet; decide +kernel

/-- Without a nonce no authorisation is good. -/
theorem witness_CrookPort_refused : (Config.fuseDebugKey != 0 && match ready.dbg.nonce with
    | some n => hmacGood n (leBytes 32 0)
    | none => false) = false := by simp [ready, State.wr, State.reset]

theorem witness_HaltAndRestart :
    let resuming : State := { halted with dbg := { halted.dbg with resume := true } }
    let restart : State := { ready with dbg := { ready.dbg with restart := some 0 }, pwr := { ready.pwr with emulEnd := true } }
    let emulated := restart.setFld (.PWR_DOM 3) Fld.PWR_DOM_EMULATED 1
    attached.attached = true ∧ attached.halted = false ∧ ready.attached = false ∧ halted.attached = true ∧ halted.halted = true ∧
    resuming.dbg.resume = true ∧ resuming.bit .SYS_READY 6 = true ∧ restart.halted = false ∧ restart.tm.cycle = 0 ∧
    restart.dbg.restart = some restart.edgePos ∧ ready.dbg.restart ≠ some ready.edgePos ∧ restart.pwr.emulEnd = true ∧ ready.pwr.emulEnd = false ∧
    emulated.fld (.PWR_DOM 3) Fld.PWR_DOM_EMULATED = 1 := by decide +kernel

def uartWith (u : Uart) : State := { ready.setFld .UART_CFG Fld.UART_CFG_EN 1 with uart := u }

/-- The queues with 63 and with 64 characters, and the lowest divisor. -/
theorem witness_MaintenanceUart :
    let idle := uartWith ready.uart
    let tx (n : Nat) : State := uartWith { ready.uart with tx := List.replicate n 65, shift := some 66 }
    let rx (n : Nat) : State := uartWith { ready.uart with rx := List.replicate n 65 }
    idle.halted = false ∧ idle.uartOn = true ∧ State.reset.uartOn = false ∧ idle.uartIdle = true ∧ (tx 63).uartIdle = false ∧ (tx 63).uart.tx.length < 64 ∧
    64 ≤ (tx 64).uart.tx.length ∧ (tx 63).uartOn = true ∧ idle.fld .UART_IRQ Fld.UART_IRQ_TX_EN = 0 ∧ (rx 63).uart.rx.length < 64 ∧
    64 ≤ (rx 64).uart.rx.length ∧ idle.uart.rx = [] ∧ (rx 1).uart.rx = 65 :: [] ∧
    Fld.UART_CFG_DIV.get (Fld.UART_CFG_FRAC.set (Fld.UART_CFG_DIV.set 0 32) 170) * 256
      + Fld.UART_CFG_FRAC.get (Fld.UART_CFG_FRAC.set (Fld.UART_CFG_DIV.set 0 32) 170) < 32 * 256 + 171 ∧
    ¬ Fld.UART_CFG_DIV.get (Fld.UART_CFG_FRAC.set (Fld.UART_CFG_DIV.set 0 32) 171) * 256
      + Fld.UART_CFG_FRAC.get (Fld.UART_CFG_FRAC.set (Fld.UART_CFG_DIV.set 0 32) 171) < 32 * 256 + 171 := by decide +kernel

def quadWith (rate lock failed up : Nat) : State :=
  let s := ((ready.setFld (.SDS_QUAD_CFG 2) Fld.SDS_QUAD_CFG_RATE rate).setFld (.SDS_QUAD_STATUS 2) Fld.SDS_QUAD_STATUS_LOCK lock).setFld
    (.SDS_QUAD_STATUS 2) Fld.SDS_QUAD_STATUS_FAILED failed
  s.setFld (.SDS_QUAD_STATUS 2) Fld.SDS_QUAD_STATUS_READY up

theorem witness_SerialLanes_quads :
    let held := ready.setFld (.SDS_LANE_CFG 8) Fld.SDS_LANE_CFG_LPBK 1
    ready.halted = false ∧ 5 ≤ Fld.SDS_QUAD_CFG_RATE.get 5 ∧ Fld.SDS_QUAD_CFG_RATE.get 4 < 5 ∧ held.rateHeld 2 = true ∧ ready.rateHeld 2 = false ∧
    ready.quadRate 2 = 0 ∧ (quadWith 3 0 0 0).quadRate 2 = 3 ∧ (quadWith 3 0 0 0).quadPowered 2 = true ∧
    (quadWith 3 0 0 0).quadIs 2 Fld.SDS_QUAD_STATUS_LOCK = false ∧ (quadWith 3 0 0 0).quadIs 2 Fld.SDS_QUAD_STATUS_FAILED = false ∧
    (quadWith 3 1 0 0).quadIs 2 Fld.SDS_QUAD_STATUS_LOCK = true ∧ (quadWith 3 1 0 1).quadIs 2 Fld.SDS_QUAD_STATUS_READY = true ∧
    (quadWith 3 1 0 0).quadIs 2 Fld.SDS_QUAD_STATUS_READY = false ∧
    ((withDom 27 (waking 2 0 true true) (quadWith 3 0 0 0)).dom 27).wake = some ⟨2, 0, 700, true, true⟩ := by decide +kernel

def laneWith (signal lock adapted lpbk fomMin : Nat) : State :=
  let s := ((((quadWith 3 1 0 1).setFld (.SDS_LANE_STATUS 8) Fld.SDS_LANE_STATUS_SIGNAL signal).setFld (.SDS_LANE_STATUS 8)
    Fld.SDS_LANE_STATUS_LOCK lock).setFld (.SDS_LANE_STATUS 8) Fld.SDS_LANE_STATUS_ADAPTED adapted).setFld (.SDS_LANE_CFG 8) Fld.SDS_LANE_CFG_LPBK lpbk
  { s.setFld (.SDS_LANE_CFG 8) Fld.SDS_LANE_CFG_FOM_MIN fomMin with
    sds := { adapting := [8], low := SMap.set zeroNat [] 8 2, high := SMap.set zeroNat [] 8 2 } }

/-- The figure of merit at its limit, and one below. -/
theorem witness_SerialLanes_lanes :
    let s := laneWith 1 1 1 0 255
    s.lpbk 8 ≠ 2 ∧ (laneWith 1 1 1 2 0).lpbk 8 = 2 ∧ s.laneIs 8 Fld.SDS_LANE_STATUS_SIGNAL = true ∧
    (laneWith 0 0 0 0 0).laneIs 8 Fld.SDS_LANE_STATUS_SIGNAL = false ∧ s.quadIs (8 / 4) Fld.SDS_QUAD_STATUS_READY = true ∧ 8 ∈ s.sds.adapting ∧
    s.laneIs 8 Fld.SDS_LANE_STATUS_LOCK = true ∧ s.laneIs 8 Fld.SDS_LANE_STATUS_ADAPTED = true ∧
    s.fld (.SDS_LANE_CFG 8) Fld.SDS_LANE_CFG_FOM_MIN ≠ 0 ∧ s.fld (.SDS_LANE_CFG 8) Fld.SDS_LANE_CFG_FOM_MIN ≤ 64 * 128 * 255 / 8192 ∧
    64 * 127 * 255 / 8192 < s.fld (.SDS_LANE_CFG 8) Fld.SDS_LANE_CFG_FOM_MIN ∧ 2 ≤ SMap.get zeroNat s.sds.low 8 ∧
    2 ≤ SMap.get zeroNat s.sds.high 8 ∧ Fld.SDS_LANE_CFG_LPBK.get (Fld.SDS_LANE_CFG_LPBK.set 0 2) = 2 ∧
    Fld.SDS_LANE_CFG_READAPT.get (Fld.SDS_LANE_CFG_READAPT.set 0 1) = 1 ∧ Fld.SDS_LANE_CFG_READAPT.get 0 = 0 ∧
    ffeOk (Fld.SDS_LANE_FFE_MAIN.set 0 63) = true ∧ ffeOk (Fld.SDS_LANE_FFE_PRE1.set (Fld.SDS_LANE_FFE_MAIN.set 0 63) 1) = false ∧
    s.fld (.SDS_LANE_PRBS 8) Fld.SDS_LANE_PRBS_CHK_EN = 0 ∧ Fld.SDS_LANE_PRBS_CHK_EN.get (Fld.SDS_LANE_PRBS_CHK_EN.set 0 1) = 1 ∧
    (s.setFld (.SDS_LANE_PRBS 8) Fld.SDS_LANE_PRBS_CHK_EN 1).fld (.SDS_LANE_PRBS 8) Fld.SDS_LANE_PRBS_CHK_EN = 1 := by decide +kernel

/-! ### Drove links, fabric, muster: premises met -/

/-- `m` bits that alternate, beginning with the opposite of `b`. -/
def alternate : Nat → Bool → List Bool
  | 0, _ => []
  | m + 1, b => (!b) :: alternate m (!b)

theorem alternate_length : ∀ m b, (alternate m b).length = m
  | 0, _ => rfl
  | m + 1, b => by simp [alternate, alternate_length m]

theorem scrambleFrame_length : ∀ st bs, (scrambleFrame st bs).length = bs.length
  | _, [] => rfl
  | st, _ :: bs => by simp [scrambleFrame, scrambleFrame_length _ bs]

/-- Scrambling a scrambled string gives the string back, and as many bits more as follow it. -/
theorem scrambleFrame_back (b : List Bool) : ∀ a st, ∃ r, r.length = b.length ∧ scrambleFrame st (scrambleFrame st a ++ b) = a ++ r
  | [], st => ⟨_, scrambleFrame_length st b, rfl⟩
  | x :: a, st => by
    obtain ⟨r, hr, h⟩ := scrambleFrame_back b a (st / 2 + if (st.testBit 28 != st.testBit 0) then 2 ^ 30 else 0)
    exact ⟨r, hr, by rw [scrambleFrame, List.cons_append, scrambleFrame, h]; simp⟩

/-- Where fewer bits follow than stuffs are left, the limit holds. -/
theorem stuff_within (limit : Nat) : ∀ bs last run n acc, n + bs.length ≤ limit → (stuff limit bs last run n false acc).2.1 = false
  | [], _, _, _, _, _ => rfl
  | b :: bs, last, run, n, acc, h => by
    simp only [List.length_cons] at h
    simp only [stuff, show n < limit by omega, if_true]
    repeat' split
    all_goals first | exact stuff_within limit bs (!b) 1 (n + 1) _ (by omega) | exact stuff_within limit bs b _ n _ (by omega)

/-- Bits that alternate take no stuff. -/
theorem stuff_alternate (limit : Nat) (r : List Bool) : ∀ m last run acc, ∃ last' run' acc',
    stuff limit (alternate m last ++ r) last run 0 false acc = stuff limit r last' run' 0 false acc'
  | 0, last, run, acc => ⟨last, run, acc, rfl⟩
  | m + 1, last, run, acc => by
    obtain ⟨x, y, z, h⟩ := stuff_alternate limit r m (!last) 1 ((!last) :: acc)
    exact ⟨x, y, z, by simpa [alternate, stuff] using h⟩

/-- A frame whose scrambled bits alternate keeps within the limit of rate 1. -/
theorem line_of_alternate (m : Nat) (plain : List Bool) (hp : plain = List.replicate 32 false ++ scrambleFrame 0x7FFFFFFF (alternate m false)) :
    let whole := plain ++ msbBits 64 (crc64 plain)
    (lineBits 1 (whole.take 32 ++ scrambleFrame 0x7FFFFFFF (whole.drop 32))).2 = false := by
  obtain ⟨r, hr, h⟩ := scrambleFrame_back (msbBits 64 (crc64 plain)) (alternate m false) 0x7FFFFFFF
  obtain ⟨x, y, z, hs⟩ := stuff_alternate 78 r m false 34 (List.replicate 32 false)
  have within : (stuff 78 r x y 0 false z).2.1 = false := stuff_within 78 r x y 0 z (by simp [hr, msbBits])
  have zeros : ∀ l, stuff 78 (List.replicate 32 false ++ l) false 2 0 false [] = stuff 78 l false 34 0 false (List.replicate 32 false) := fun _ => rfl
  generalize crc64 plain = c at h
  subst hp
  generalize scrambleFrame 0x7FFFFFFF (alternate m false) = body at h
  simp only [List.append_assoc, List.take_left' (List.length_replicate ..), List.drop_left' (List.length_replicate ..), h, lineBits, mostStuffs,
    if_true]
  rw [zeros, hs, within]

/-- A frame of rate 1, number 0 and without a key. -/
def plainFrame : List Bool := List.replicate 32 false ++ scrambleFrame 0x7FFFFFFF (alternate (288 + 256 * blocksOf 1) false)

theorem witness_DroveFrameRoundTrip :
    let whole := plainFrame ++ msbBits 64 (crc64 plainFrame)
    plainFrame.length = 320 + 256 * blocksOf 1 ∧ scrambleSeed (bitsNat (plainFrame.take 31)) none = 0x7FFFFFFF ∧ plainFrame.getD 31 false = false ∧
    (lineBits 1 (whole.take 32 ++ scrambleFrame 0x7FFFFFFF (whole.drop 32))).2 = false :=
  ⟨by simp [plainFrame, scrambleFrame_length, alternate_length, blocksOf], by decide +kernel, by decide +kernel, line_of_alternate _ plainFrame rfl⟩

/-- Group 0 has lane 8, which is up and its own. -/
def grouped : State :=
  ((laneWith 1 1 1 0 0).setFld (.SDS_LANE_STATUS 8) Fld.SDS_LANE_STATUS_USER 2).wr (.DRL_GRP_LANES 0) (BitVec.ofNat 64 (2 ^ 8))
def groupOn : State := grouped.setFld (.DRL_GRP_CFG 0) Fld.DRL_GRP_CFG_ENABLE 1
def laneFrame : LaneFrame := ⟨8, false, 0, 0, [], 0, false, false, 0⟩

theorem witness_DroveGroups :
    let held : State := { groupOn with drl := { groupOn.drl with grps := SMap.set grpIdle [] 0 { grpIdle 0 with held := [laneFrame] } } }
    let due : State := { groupOn with drl := { groupOn.drl with secDue := true } }
    let periods : State := { groupOn with drl := { groupOn.drl with due15 := true, due24 := true } }
    grouped.halted = false ∧ grouped.grpOn 0 = false ∧ groupOn.grpOn 0 = true ∧ grouped.rd (.DRL_GRP_LANES 0) &&& BitVec.ofNat 64 (2 ^ 8) ≠ 0 ∧
    grouped.laneUser 8 = 2 ∧ grouped.laneUser 9 ≠ 2 ∧ Fld.DRL_GRP_CFG_ENABLE.get (Fld.DRL_GRP_CFG_ENABLE.set 0 1) = 1 ∧
    Fld.DRL_GRP_CFG_ENABLE.get 0 = 0 ∧ grouped.rd (.DRL_GRP_LANES 1) = 0 ∧ grouped.rd (.DRL_GRP_LANES 0) ≠ 0 ∧
    ((atTime 0 13999 groupOn).grp 0).sent ≠ some ((atTime 0 13999 groupOn).frameNum 3) ∧ (atTime 0 13999 groupOn).tm.cycle / 3500 < 4 ∧
    14000 ≤ (atTime 0 14000 groupOn).tm.cycle ∧ groupOn.groupOfLane 8 = some 0 ∧ groupOn.groupOfLane 9 = none ∧
    (∃ f ∈ (held.grp 0).held, f.lane = 8) ∧ (∀ f ∈ (groupOn.grp 0).held, f.lane ≠ 8) ∧ groupOn.quadIs (8 / 4) Fld.SDS_QUAD_STATUS_READY = true ∧
    (ready.quadIs (8 / 4) Fld.SDS_QUAD_STATUS_READY = false) ∧ (groupOn.laneRx 8).los = false ∧ (groupOn.laneRx 8).lol = false ∧
    groupOn.drl.secDue = false ∧ due.drl.secDue = true ∧ periods.drl.due15 = true ∧ periods.drl.due24 = true ∧ periods.drl.secDue = false := by
  decide +kernel

/-- Group 0 in service, and a route over it to device 1. -/
def routed : State := fused [(.FAB_UID, 5)] (((groupOn.setFld (.FAB_GRP 0) Fld.FAB_GRP_IN_SERVICE 1).setFld (.FAB_ROUTE 1) Fld.FAB_ROUTE_VALID 1).setFld
  (.DRL_GRP_PEER_UID 0) ⟨0, 64⟩ 9)
def remote (type : BitVec 4) : Packet := { packet type with addr := BitVec.ofNat 64 (2 ^ 47 + 2 ^ 41), src := 3 }
def waitingFor (p : Packet) (s : State) : State := { s with fab := { s.fab with waiting := [p] } }
def requests (n : Nat) : List FabReq := (List.range n).map fun t => ⟨t, 0, remote 0, 0, 0⟩
def withReqs (n : Nat) (s : State) : State := { s with fab := { s.fab with reqs := requests n } }

theorem witness_FabricRequests :
    let late := atTime 200 0 (withReqs 1 (routed.setFld .FAB_CFG Fld.FAB_CFG_TIMEOUT 1))
    routed.halted = false ∧ (waitingFor (remote 1) routed).fab.waiting = [remote 1] ∧ remoteDev (remote 1).addr.toNat = 1 ∧
    Fld.FAB_ROUTE_VALID.get (routed.rd (.FAB_ROUTE 1)) ≠ 0 ∧ Fld.FAB_ROUTE_VALID.get (routed.rd (.FAB_ROUTE 2)) = 0 ∧ (remote 1).src.toNat < 79 ∧
    (remote 1).type = 1 ∧ (remote 0).type ≠ 1 ∧ routed.inService 0 = true ∧ ready.inService 0 = false ∧ 0 < routed.segCap 0 ∧ routed.segCap 0 ≤ 511 ∧
    hopOf (Fld.FAB_ROUTE_ROUTE.get (routed.rd (.FAB_ROUTE 1))) 0 = 0 ∧ routed.freeTag = some 0 ∧ (withReqs 255 routed).freeTag = some 255 ∧
    (withReqs 256 routed).freeTag = none ∧ late.fab.reqs.find? (fun r => r.tag == 0) = some ⟨0, 0, remote 0, 0, 0⟩ ∧
    dtDiff (0 + late.fabTimeout) late.now ≤ 0 ∧ routed.fab.reqs.find? (fun r => r.tag == 0) = none ∧
    dtDiff (0 : Word) routed.now ≤ 0 ∧ routed.fab.inbox.find? (fun p => p.1 == 0) = none := by decide +kernel

/-- A segment as it stands in the buffer of a group: header, payload, CRC. -/
def segmentBytes (h : Nat) (payload : List Byte) : List Byte := leBytes 8 h ++ payload ++ leBytes 4 (crc32 (leBytes 8 h ++ payload))
def inboxed (b : List Byte) : State := { routed with fab := { routed.fab with inbox := [(0, b)] } }
/-- The header of a whole transaction of `len` bytes: KIND, DST, FIRST and LAST. -/
def headerOf (kind dst hop nhops len : Nat) : Nat := 2 ^ 60 * kind + 2 ^ 48 * dst + 2 ^ 33 * hop + 2 ^ 31 * nhops + 2 ^ 10 + 2 ^ 9 + len

theorem witness_FabricSegments :
    let write := leBytes 16 (transHead pastureBase 1 0 0 0 3 0 0) ++ [1, 2, 3, 4]
    let b := segmentBytes (headerOf 2 0 0 0 20) write
    let n := b.length - 4
    let h : Word := BitVec.ofNat 64 (leAt b 0 8)
    let tr := leAt ((b.take n).drop 8) 0 16
    let on : Word := BitVec.ofNat 64 (headerOf 2 9 0 1 20)
    (inboxed b).fab.inbox.find? (fun p => p.1 == 0) = some (0, b) ∧ crc32 (b.take n) = leAt b n 4 ∧
    crc32 ((0 :: b.tail).take n) ≠ leAt (0 :: b.tail) n 4 ∧ segKind h = segBe ∧ segHop h ≤ 3 ∧ segNhops h < segHop h + 1 ∧ segFirst h = true ∧
    segLast h = true ∧ trType tr = pktWrite ∧ segDst h = (inboxed b).fabAddr ∧ segLen h = 17 + trLen tr ∧ segLen h ≤ ((b.take n).drop 8).length ∧
    pastureBase ≤ trOffset tr ∧ trOffset tr + trLen tr + 1 ≤ pastureBase + pastureSize ∧ (inboxed b).fab.partials = [] ∧
    (inboxed b).unhindered (fun u => u.takeInbox 0) ∧ segHop on + 1 ≤ segNhops on ∧ segLen on ≤ routed.segCap 0 ∧ segDst on ≠ (inboxed b).fabAddr ∧
    hopOf 0 1 = 0 ∧ segKind (BitVec.ofNat 64 (headerOf 0 0 0 0 0)) = 0 ∧ 3 < segKind (BitVec.ofNat 64 (headerOf 4 0 0 0 0)) ∧
    3 < segHop (BitVec.ofNat 64 (headerOf 2 0 4 0 0)) := by unfold State.unhindered; decide +kernel

/-- A response of four bytes to the request of tag 0. -/
theorem witness_FabricResponses :
    let b := segmentBytes (headerOf 2 0 0 0 20) (leBytes 16 (transHead 0 3 0 0 0 3 0 0) ++ [1, 2, 3, 4])
    let h : Word := BitVec.ofNat 64 (leAt b 0 8)
    let tr := leAt ((b.take (b.length - 4)).drop 8) 0 16
    trType tr = pktReadResp ∧ segLen h = 16 + trBytes tr ∧ trLd tr = false ∧
    (withReqs 1 (inboxed b)).fab.reqs.find? (fun r => r.tag == trFtag tr && r.gen == trGen tr) = some ⟨0, 0, remote 0, 0, 0⟩ ∧
    (inboxed b).fab.reqs.find? (fun r => r.tag == trFtag tr && r.gen == trGen tr) = none := by decide +kernel

theorem witness_FabricPost : (ready.requestPacket niFabric pktWriteAck 0 pastureBase 4 false [1, 2, 3, 4]).map (fun p => (ready.cross p).1) = some .reached ∧
    pastureBase % 256 + 4 ≤ 256 ∧ ready.ecc.flips = [] ∧ ready.fld .MEM_INJECT Fld.MEM_INJECT_ARM = 0 := by decide +kernel

/-- A message of type 1 that stands in Pasture memory. -/
theorem witness_FabricMessages :
    let s : State := { routed with mem := Memory.writeBytes [] pastureBase (leBytes 8 (headerOf 3 1 0 0 24) ++ controlMsg 1 7 [1, 2, 3, 4]) }
    let v := Fld.FAB_MSG_TX_GO.set (Fld.FAB_MSG_TX_ADDR.set 0 pastureBase) 1
    let head := (s.trying.wrAccess .FAB_MSG_TX v).agentRead niFabric (Fld.FAB_MSG_TX_ADDR.get v) 24
    let h : Word := BitVec.ofNat 64 (leAt head.1.data 0 8)
    let tr := leAt head.1.data 8 16
    let body := head.2.agentRead niFabric (Fld.FAB_MSG_TX_ADDR.get v + 24) (trLen tr + 1)
    Fld.FAB_MSG_TX_GO.get v = 1 ∧ s.unhindered (fun u => u.writeMsgTx v) ∧ head.1.status = stOk ∧ head.1.errs = [] ∧ body.1.status = stOk ∧
    body.1.errs = [] ∧ msgTypes.contains (trMsg tr) = true ∧ s.inService (hopOf (segRoute h) 0) = true ∧ 0 < s.segCap (hopOf (segRoute h) 0) := by
  unfold State.unhindered; decide +kernel

def mustered (state : Nat) (f : Muster → Muster) : State :=
  let s := routed.setFld .FAB_MUSTER Fld.FAB_MUSTER_STATE state
  { s with fab := { s.fab with mus := f s.fab.mus } }
def report (uid peer : Nat) : List Byte := leBytes 4 0 ++ leBytes 8 uid ++ [0, 0, 0, 0, 1] ++ leBytes 8 peer ++ [0, 0, 0, 0]

theorem witness_MusterSteps :
    let go := Fld.FAB_CTRL_MUSTER.set 0 1
    let p (m uid : Nat) : List Byte := leBytes 4 m ++ leBytes 8 uid ++ leBytes 300 0
    let own : LinkReport := reportOf (report 5 9)
    let heard := mustered musCollect fun m => { m with reports := [own] }
    let known := mustered musCollect fun m => { m with copies := [(1, 0, 5), (2, 0, 9), (5, 0, 5), (6, 0, 5)] }
    routed.halted = false ∧ (∃ g, g < 32 ∧ routed.inService g = true ∧ routed.rd (.DRL_GRP_PEER_UID g) ≠ routed.uid) ∧ ready.groupsInService = [] ∧
    28 ≤ (routed.wr (.DRL_GRP_LANES 0) 0x300).segCap 0 ∧ (routed.wr (.DRL_GRP_LANES 0) 0x300).segCap 0 ≤ 511 ∧ Fld.FAB_CTRL_MUSTER.get go = 1 ∧ Fld.FAB_CTRL_MUSTER.get 0 = 0 ∧
    Fld.FAB_CTRL_STAT_CLR.get (Fld.FAB_CTRL_STAT_CLR.set 0 1) = 1 ∧ Fld.FAB_CTRL_STAT_CLR.get 0 = 0 ∧
    msgM (p 0 5) = routed.fld .FAB_MUSTER Fld.FAB_MUSTER_NUMBER ∧ routed.fld .FAB_MUSTER Fld.FAB_MUSTER_NUMBER < msgM (p 1 5) ∧
    known.fab.mus.copies.contains (1, msgM (p 0 5), msgUid (p 0 5)) = true ∧ routed.fab.mus.copies.contains (1, msgM (p 0 5), msgUid (p 0 5)) = false ∧
    heard.musState = musCollect ∧ setClosed (heard.fab.mus.reports ++ [reportOf (report 9 5)]) = true ∧
    setClosed (heard.fab.mus.reports ++ [reportOf (report 8 5)]) = false ∧ lowestUid (heard.fab.mus.reports ++ [reportOf (report 9 5)]) = heard.uid ∧
    lowestUid ([reportOf (report 5 3)] ++ [reportOf (report 3 5)]) ≠ heard.uid ∧ msgUid (p 0 5) = heard.uid.toNat := by decide +kernel

theorem witness_MusterSteps_later :
    let assign := leBytes 4 0 ++ leBytes 8 5 ++ [63, 0, 0, 0] ++ leBytes 300 0
    let excluded := leBytes 4 0 ++ leBytes 8 5 ++ [64, 0, 0, 0] ++ leBytes 300 0
    let acked := mustered musAssign fun m => { m with assigns := [⟨5, some 0, []⟩, ⟨9, some 1, []⟩], acked := [5] }
    let late := mustered musCollect fun m => { m with held := 7 }
    let timed (n : Nat) : State := atTime 800 0 ((mustered musCollect fun m => m).setFld .FAB_MUSTER Fld.FAB_MUSTER_ABORTS n)
    let lone := atTime 2000 0 (routed.setFld .FAB_ADDR Fld.FAB_ADDR_LONE 1)
    let due : State := { fused [(.FAB_EPOCH, 1)] (mustered musWait fun m => { m with held := 1 }) with tm := { routed.tm with secDT := 1 } }
    leAt assign 12 1 < 64 ∧ 64 ≤ leAt excluded 12 1 ∧ msgUid assign = (mustered musAssign id).uid.toNat ∧ acked.fab.mus.assigns ≠ [] ∧
    (acked.fab.mus.assigns.all fun a => ((acked.fab.mus.acked ++ [9]).eraseDups).contains a.uid.toNat) = true ∧
    (acked.fab.mus.assigns.all fun a => ((acked.fab.mus.acked ++ [8]).eraseDups).contains a.uid.toNat) = false ∧ acked.fab.mus.again = false ∧
    leAt assign 12 8 ≠ 0 ∧ dtDiff (BitVec.ofNat 64 (leAt assign 12 8)) (atTime 800 0 late).now < 0 ∧
    ((fused [(.FAB_EPOCH, 7)] late).rd .FAB_EPOCH).toNat = late.fab.mus.held ∧ late.fab.mus.held ≠ 0 ∧ ready.fab.mus.held = 0 ∧
    dtDiff ((timed 1).fab.mus.started + msUnits 5) (timed 1).now ≤ 0 ∧ min 255 ((timed 1).fld .FAB_MUSTER Fld.FAB_MUSTER_ABORTS + 1) < 3 ∧
    3 ≤ min 255 ((timed 2).fld .FAB_MUSTER Fld.FAB_MUSTER_ABORTS + 1) ∧ (mustered musBackoff id).musState = musBackoff ∧
    dtDiff (mustered musBackoff id).fab.mus.backoff (mustered musBackoff id).now ≤ 0 ∧ lone.fld .FAB_ADDR Fld.FAB_ADDR_LONE = 1 ∧
    lone.groupsInService ≠ [] ∧ lone.musState = musIdle ∧ dtDiff (lone.fab.mus.lastProbe + msUnits 10) lone.now ≤ 0 ∧
    routed.musState = musIdle ∧ dtDiff (0 + msUnits 2500) ({ routed with tm := { routed.tm with secDT := BitVec.ofNat 64 (3 * unitsPerSecond) } } : State).now ≤ 0 ∧
    due.tm.cycle = 0 ∧ due.epochDue = true ∧ routed.epochDue = false ∧ due.alm.swap = none := by decide +kernel

/-! ### Syllables of the DSP cores: premises met -/

theorem fold_ready {s : State} {n len : Nat} (h : s.halted = false ∧ s.coreRuns n = true ∧ (s.core n).bundle = [] ∧ (s.core n).loopDue = false ∧
    (s.core n).fence = false ∧ s.ecc.flips = [] ∧ (s.core n).pc + 4 * len ≤ 0x80000 ∧ isControl n = false) : s.readyFor n len :=
  ⟨h.1, h.2.1, h.2.2.1, h.2.2.2.1, .inl h.2.2.2.2.1, fun _ => ⟨h.2.2.2.2.2.1, h.2.2.2.2.2.2.1⟩, fun c => by simp [h.2.2.2.2.2.2.2] at c⟩

theorem control_ready {s : State} {n len : Nat} (h : s.halted = false ∧ s.coreRuns n = true ∧ (s.core n).bundle = [] ∧ (s.core n).loopDue = false ∧
    (s.core n).fence = false ∧ isControl n = true ∧ (s.core n).mpuAllows 2 (s.programBase n + (s.core n).pc) (4 * len) = true ∧
    (s.programBase n + (s.core n).pc) / 64 = (s.programBase n + (s.core n).pc + 4 * len - 1) / 64 ∧
    (s.core n).icache.contains ((s.programBase n + (s.core n).pc) / 64) = true) : s.readyFor n len :=
  ⟨h.1, h.2.1, h.2.2.1, h.2.2.2.1, .inl h.2.2.2.2.1, fun c => by simp [h.2.2.2.2.2.1] at c, fun _ => ⟨h.2.2.2.2.2.2.1, fun l lo hi => by
    rw [show l = (s.programBase n + (s.core n).pc) / 64 by omega]; exact h.2.2.2.2.2.2.2.2⟩⟩

/-- Core 0 of Fold 0 with a release in service. -/
def folding (f : Core → Core) : State := (withRels [inService 0 0 0 0 0] ready).mapCore 0 f
/-- Core 0 of the Shepherd complex with the line of its PC in its instruction cache. -/
def shepherding (f : Core → Core) : State := ready.mapCore 128 fun c => f { c with icache := [ready.programBase 128 / 64] }
def sylWith (core : Fin 136) (stop : Bool) (pg : BitVec 3) (ops : Nat) : Syl := ⟨core, stop, pg, BitVec.ofNat 20 ops, none⟩

/-- At the last bundle of a program half, and one further on. -/
theorem witness_ready : (folding id).readyFor 0 4 ∧ (folding fun c => { c with pc := 0x7FFFC }).readyFor 0 1 ∧ (shepherding id).readyFor 128 4 :=
  ⟨fold_ready (by decide +kernel), fold_ready (by decide +kernel), control_ready (by decide +kernel)⟩

/-- A core in TK (STATUS 2), and one in FW whose exceptions can be entered. -/
def inTk (c : Core) : Core := c.setCr 0 2

theorem witness_enters : enters 0 (folding id) ∧ enters 0 (folding inTk) ∧ ((folding inTk).core 0).pl = 2 ∧ ((folding inTk).core 0).exk = false :=
  ⟨.inl (by decide +kernel), .inl (by decide +kernel), by decide +kernel⟩

/-- Operands of ScalarSyllables at the ends of their ranges: D 7 and 8, P15 and 16, a shift with IMM[9:6] clear and set, guards on and off. -/
theorem witness_ScalarSyllables :
    let y := sylWith 0 true 0
    let c := (folding id).core 0
    (y (2 ^ 15 * 7)).d < 8 ∧ 8 ≤ (y (2 ^ 15 * 8)).d ∧ (y 0).bits 0 2 = 0 ∧ (y 0).bits 2 2 ≠ 3 ∧ (y 12).bits 2 2 = 3 ∧ (y 1).bits 0 2 ≠ 0 ∧
    (c.qreg 0).testBit 0 = true ∧ (c.qreg 1).testBit 0 = false ∧ (y 0).a = 0 ∧ (y (2 ^ 10)).a ≠ 0 ∧ (y 63).bits 6 4 = 0 ∧ (y 64).bits 6 4 ≠ 0 ∧
    (y (2 ^ 15 * 15)).d < 16 ∧ 16 ≤ (y (2 ^ 15 * 16)).d ∧ (y 0).ops = 0 ∧ crExists false 0x27 = true ∧ crExists false 0x28 = false ∧
    crExists true 0x6F = true ∧ crExists true 0x70 = false ∧ crLevel 0x14 < ((folding inTk).core 0).pl ∧ c.pl ≤ crLevel 0x27 ∧
    (fit 64 false true (2 ^ 63 : Int)).arith = true ∧ (fit 64 false true (2 ^ 63 - 1 : Int)).arith = false ∧ c.flight = [] := by decide +kernel

theorem witness_ScalarSyllables_join :
    let s := folding fun c => { c with bundle := [.nop (sylWith 0 false 0 0)] }
    sylOf (.nop (sylWith 0 false 0 0)) = some (sylWith 0 false 0 0) ∧ s.halted = false ∧ s.coreRuns 0 = true ∧ (s.core 0).loopDue = false ∧
    (s.core 0).bundle.length < 3 ∧ bundleFull (s.core 0).bundle = false ∧ (s.core 0).pc + 4 * (s.core 0).bundle.length < 0x80000 := by decide +kernel

/-- Formats and lanes of VectorSyllables, and a compare step with its trace pointer in the own data memory and one place free. -/
theorem witness_VectorSyllables :
    let y := sylWith 0 true 0
    let store : Store := ⟨[(0, [0])]⟩
    let s := folding fun c => { c with p := SMap.set zeroNat [] 14 (foldAddr 0 0x3FFDFC), wbuf := [store, store, store] }
    ([0, 1, 2] : List Nat).contains ((y 16).bits 3 2) = true ∧ ([0, 1] : List Nat).contains ((y 16).bits 3 2) = false ∧ (y 0).bits 0 2 ≠ 3 ∧
    (y (2 ^ 5 * 31)).b < 512 / 16 ∧ 512 / 32 ≤ (y (2 ^ 5 * 16)).b ∧ ((s.core 0).qreg 1).testBit 0 = false ∧ (y 3).bits 0 2 ≠ 0 ∧
    (y (2 ^ 10 * 2 + 2 ^ 15 * 4)).a % 2 = 0 ∧ (y (2 ^ 10 * 2 + 2 ^ 15 * 4)).d ≠ (y (2 ^ 10 * 2 + 2 ^ 15 * 4)).a + 1 ∧ (y (2 ^ 10)).a % 2 = 1 ∧
    (s.core 0).pl < 2 ∧ (s.core 0).resume = false ∧ (s.core 0).wbuf.length < 4 ∧ ((s.core 0).preg 14 % 2 ^ 48) % 4 = 0 ∧
    ownMemory 0 true ((s.core 0).preg 14 % 2 ^ 48) 4 = some 0x3FFDFC ∧ ownMemory 0 true (foldAddr 0 0x3FFE00) 4 = none ∧
    ownMemory 0 false (foldAddr 0 0x3FFFFC) 4 = some 0x3FFFFC ∧ s.coreRuns 0 = true := by decide +kernel

/-- A window of TK from 0 to 0x40, to read and write. -/
def windowCr : Nat := 2 ^ 63 + 2 ^ 62 + 2 ^ 32 * 0x40

theorem witness_MemorySyllables :
    let s := folding fun c => { (inTk c).setCr 0x18 windowCr with p := SMap.set zeroNat [] 2 (foldAddr 0 0x38) }
    let y := sylWith 0 true 0 (2 ^ 11 * 2)
    s.halted = false ∧ (s.core 0).resume = false ∧ (s.core 0).address (y.bits 8 3) (y.bits 0 8) 8 2 = some (foldAddr 0 0x38, none) ∧
    (s.core 0).address 5 0 8 2 = none ∧ (s.core 0).address 2 8 8 2 = none ∧ foldAddr 0 0x38 % 8 = 0 ∧ foldAddr 0 0x39 % 8 ≠ 0 ∧
    (s.core 0).tkRange true 0x38 8 = true ∧ (s.core 0).tkRange true 0x39 8 = false ∧ (s.core 0).pl = 2 ∧ (s.core 0).flight = [] ∧
    (s.core 0).wbuf.length < 4 ∧ ((folding id).core 0).pl < 2 ∧ ownMemory 0 false (foldAddr 1 0) 8 = none ∧
    (∀ i ∈ (List.range 32).filter fun i => ((s.core 0).qreg 0).testBit i, (ownMemory 0 false (foldAddr 0 0 + i * 2) 2).isSome = true ∧
      (s.core 0).tkRange false (i * 2) 2 = true) := by decide +kernel

def cached (dirty : Bool) (c : Core) : Core := { c with dcache := [(2, ⟨dirty, List.replicate 64 7⟩)] }

/-- A control core with a line of its data cache, a store in its write buffer, and a protection unit that allows nothing. -/
theorem witness_CacheSyllables :
    let s := shepherding (cached true)
    let stored := shepherding fun c => { cached true c with wbuf := [⟨[(128, [1, 2])]⟩] }
    let barred := shepherding fun c => (cached true c).setCr 0x48 3
    let w := s.trying.agentWrite 76 (64 * 2) (List.replicate 64 7)
    128 % 8 = 0 ∧ s.cacheable 128 = true ∧ ((s.core 128).line? 2).isSome = true ∧ (s.core 128).mpuAllows 0 128 8 = true ∧
    (barred.core 128).mpuAllows 0 128 8 = false ∧ (barred.core 128).mpuAllows 1 128 64 = false ∧ (s.core 128).wbuf = [] ∧
    s.coreRuns 128 = true ∧ s.coreLives 128 = true ∧ (stored.core 128).wbuf = [⟨[(128, [1, 2])]⟩] ∧ (stored.core 128).doneDue = false ∧
    ((shepherding (cached false)).core 128).line? 2 = some ⟨false, List.replicate 64 7⟩ ∧ ((shepherding id).core 128).line? 2 = none ∧
    w.1.status = stOk ∧ w.1.errs = [] ∧ w.2.noc.wait = some [] := by decide +kernel

theorem witness_FoldDrain :
    let s := folding fun c => { c with wbuf := [⟨[(0x3FFFF8, leBytes 8 5)]⟩] }
    s.coreLives 0 = true ∧ (s.core 0).bundle = [] ∧ (s.core 0).doneDue = false ∧ isControl 0 = false ∧ s.ecc.flips = [] ∧
    s.fld .MEM_INJECT Fld.MEM_INJECT_ARM = 0 ∧ 0x3FFFF8 + 8 ≤ 0x400000 := by decide +kernel

/-- Control transfers: the last target of a program half, counts at their limits, levels and tags. -/
theorem witness_ControlSyllables :
    let c := (folding id).core 0
    let tk := (folding inTk).core 0
    let handler := (folding fun c => c.setCr 0x21 2).core 0
    let y := sylWith 0 true 0
    c.la = false ∧ c.ra = false ∧ ((folding fun c => c.setCr 0 (2 ^ 8)).core 0).la = true ∧ ((folding fun c => c.setCr 0 (2 ^ 9)).core 0).ra = true ∧
    (c.pc : Int) + 4 * signedOf 20 ((y 0x1FFFF).bits 0 20) = 0x7FFFC ∧ (c.pc : Int) + 4 * signedOf 20 ((y 0x20000).bits 0 20) = 0x80000 ∧
    c.sreg (y 0).a % 2 ^ 19 % 4 = 0 ∧ c.pc + 4 < c.pc + 4 * (y 2).bits 0 10 ∧ c.pc + 4 * (y 1).bits 0 10 ≤ c.pc + 4 ∧ (y (2 ^ 10)).bits 10 10 = 1 ∧
    (y 4096).bits 0 13 ≤ 4096 ∧ 4096 < (y 4097).bits 0 13 ∧ (y 0).bits 8 12 = 0 ∧ c.flight = [] ∧ enters 0 (folding id) ∧
    bitsOf (handler.getCr (if handler.pl = 0 then 0x21 else 0x11)) 0 2 ≠ 3 ∧ handler.pl ≠ 2 ∧ handler.getCr 0x20 / 4 * 4 < 0x80000 ∧ tk.pl = 2 ∧
    c.sh = false ∧ c.wbuf = [] ∧ c.tagsIn 1 = 0 ∧ ((folding id).serving 0 0 0 0).isSome = true ∧ c.pl = 0 ∧ tk.pl ≠ 0 ∧
    crExists false 0x26 = true ∧ c.pl ≤ crLevel 0x26 ∧ crLevel 0x26 < tk.pl ∧ SMap.get zeroNat c.tags 0 ≠ 1 ∧
    SMap.get zeroNat ((folding fun c => { c with tags := SMap.set zeroNat [] 0 1 }).core 0).tags 0 = 1 := by unfold enters; decide +kernel

theorem witness_CoreEvents :
    let looped := folding fun c => { c.setCr 4 1 with loopDue := true }
    let pending := folding fun c => ((c.setCr 0x25 15).setCr 0x26 8).setCr 0 4
    let timed := folding fun c => c.setCr 0x27 100
    sylOf (.add ⟨0, true, 0, 0, some 0x15⟩) = some ⟨0, true, 0, 0, some 0x15⟩ ∧ opClass (.ext 0 true 0) = some .ext ∧ controlHas (.vadd (sylWith 128 true 0 0)) = false ∧
    looped.coreRuns 0 = true ∧ (looped.core 0).loopDue = true ∧ (looped.core 0).getCr 4 = 1 ∧ ((folding id).core 0).loopDue = false ∧
    ((pending.core 0).getCr 0x26).testBit 3 = true ∧ ((pending.core 0).getCr 0x25).testBit 3 = true ∧
    (∀ d, d < 3 → (((pending.core 0).getCr 0x26).testBit d && ((pending.core 0).getCr 0x25).testBit d) = false) ∧ (pending.core 0).ie = true ∧
    (pending.core 0).exf = false ∧ (pending.core 0).flight = [] ∧ (pending.core 0).bundle = [] ∧ timed.coreLives 0 = true ∧
    timed.tm.cycle ≤ (timed.core 0).getCr 0x27 % 2 ^ 14 ∧ (timed.core 0).getCr 0x27 % 2 ^ 14 < 14000 ∧
    14000 ≤ (2 ^ 14 - 1) % 2 ^ 14 ∧ (∀ r ∈ (ready.mapCore 0 fun c => c.setCr 0x27 100).drv.rels, r.live = false) ∧
    (ready.mapCore 0 fun c => c.setCr 0x27 100).noc.flight = [] := by decide +kernel

/-- A GOLD_BITS command of 8 bits to offset 0x100 of the own data memory. -/
def goldBytes : List Byte := bytesWith 64 [(0, [1]), (0x10, [8]), (0x20, leBytes 8 (foldAddr 0 0x100))]
def acquiring (d : List Byte) : State :=
  let s := folding fun c => { c with bundle := [.acq (sylWith 0 true 0 (2 ^ 11 * 2 + 2 ^ 8 * 2))], p := SMap.set zeroNat [] 2 (foldAddr 0 0) }
  { s with mem := Memory.writeBytes [] (foldAddr 0 0) d }

theorem witness_AcqCommit :
    let s := acquiring goldBytes
    let c := s.core 0
    let y := sylWith 0 true 0 (2 ^ 11 * 2 + 2 ^ 8 * 2)
    let p := c.preg (y.bits 11 4) % 2 ^ 48
    let d (s : State) : List Byte := (List.range 64).map fun i => s.mem.read (realAddr 0 p + i)
    s.coreRuns 0 = true ∧ y.bits 8 2 = 2 ∧ y.bits 0 4 = 0 ∧ y.bits 4 4 = 0 ∧ y.bits 10 1 = 0 ∧ y.bits 15 5 = 0 ∧ c.bundle = [.acq y] ∧ c.wbuf = [] ∧
    accBadPlace c 0 p = false ∧ accBadPlace c 0 (p + 1) = true ∧ accRefusal c 0 p 2 0 (SMap.get zeroNat s.dsp.enable 0) (d s) = none ∧
    (accRefusal c 0 p 2 0 0 (d (acquiring (bytesWith 64 [(0, [5])])))).map (·.1) = some 4 ∧ c.ra = false ∧ s.ecc.flips = [] := by decide +kernel

/-! ### Accelerators, engines and kernels: premises met -/

def command (unit : Nat) (d : List Byte) (ran : Bool) : AccCmd := ⟨0, 0, unit, 0, d, 0, ran⟩
def commanded (unit : Nat) (d : List Byte) (ran : Bool) : State := { ready with dsp := { ready.dsp with cmds := [command unit d ran] } }

theorem witness_AcceleratorComplete : (commanded 2 goldBytes true).accHead 0 2 = some (command 2 goldBytes true) ∧
    (commanded 2 goldBytes false).accHead 0 2 = some (command 2 goldBytes false) ∧ ready.accHead 0 2 = none ∧
    ((commanded 2 goldBytes true).core (coreNo 0 0)).bundle = [] ∧ ((commanded 2 goldBytes true).core (coreNo 0 0)).doneDue = false ∧
    accField goldBytes 1 1 % 2 = 0 ∧ accField (bytesWith 64 [(1, [1])]) 1 1 % 2 = 1 := by decide +kernel

/-- The premises for a command of an accelerator: it is served, its work waits for nothing and its reads succeed. -/
def served? (unit op : Nat) (d : List Byte) (work : State → State) : Prop :=
  let s := commanded unit d false
  s.accHead 0 unit = some (command unit d false) ∧ accField d 0 1 = op ∧ s.unhindered work ∧
    (s.trying.accRead (command unit d false) (((accRegions unit d).filter fun r => !r.out).flatMap Region.ranges)).1 = none

def placed (n : Nat) : List Byte := leBytes 8 (foldAddr 0 n)
theorem witness_gram : served? 0 1 (bytesWith 64 [(0, [1]), (8, [2]), (10, [2]), (0x10, placed 0), (0x20, placed 0x100), (0x30, [8]), (0x38, [16])])
    (fun v => v.accGram 0) := by unfold served? State.unhindered; decide +kernel
theorem witness_chol : served? 0 2 (bytesWith 64 [(0, [2]), (8, [1]), (0x10, placed 0), (0x20, placed 0x100), (0x30, [8]), (0x38, [8])])
    (fun v => v.accChol 0) := by unfold served? State.unhindered; decide +kernel
theorem witness_trsv : served? 0 3 (bytesWith 64 [(0, [3]), (8, [1]), (10, [1]), (0x10, placed 0), (0x18, placed 0x40), (0x20, placed 0x100), (0x30, [8]), (0x34, [8]), (0x38, [8])])
    (fun v => v.accTrsv 0) := by unfold served? State.unhindered; decide +kernel
theorem witness_solve : served? 0 4 (bytesWith 64 [(0, [4]), (8, [1]), (10, [1]), (0x10, placed 0), (0x18, placed 0x40), (0x20, placed 0x100), (0x30, [8]), (0x34, [8]), (0x38, [8])])
    (fun v => v.accSolve 0) := by unfold served? State.unhindered; decide +kernel
theorem witness_dft : served? 1 1 (bytesWith 64 [(0, [1]), (8, [12]), (10, [1]), (0x10, placed 0), (0x18, placed 0x40), (0x20, [48]), (0x24, [48])])
    (fun v => v.accDft 0 false) := by unfold served? State.unhindered; decide +kernel
theorem witness_goldBits : served? 2 1 goldBytes (fun v => v.accGoldBits 0) := by unfold served? State.unhindered; decide +kernel
theorem witness_goldQpsk : served? 2 2 (bytesWith 64 [(0, [2]), (0x10, [1]), (0x14, [255, 127]), (0x20, placed 0x100)]) (fun v => v.accGoldQpsk 0) := by
  unfold served? State.unhindered; decide +kernel
theorem witness_zc : served? 2 3 (bytesWith 64 [(0, [3]), (8, [139]), (12, [1]), (0x10, [1]), (0x14, [255, 127]), (0x18, [1]), (0x20, placed 0x100)])
    (fun v => v.accZc 0) := by unfold served? State.unhindered; decide +kernel
theorem witness_lowpapr : served? 2 4 (bytesWith 64 [(0, [4]), (0x10, [12]), (0x14, [255, 127]), (0x18, [1]), (0x20, placed 0x100)])
    (fun v => v.accLowpapr 0) := by unfold served? State.unhindered; decide +kernel

/-- The reads of a DECODE command succeed. -/
theorem witness_decode :
    let d := bytesWith 64 [(0, [1]), (8, [0]), (10, [12]), (12, [54, 0]), (0x10, placed 0), (0x18, placed 0x100)]
    (commanded 3 d false).accHead 0 3 = some (command 3 d false) ∧ accField d 0 1 = 1 ∧
    ((commanded 3 d false).trying.accRead (command 3 d false) (((accRegions 3 d).filter fun r => !r.out).flatMap Region.ranges)).1 = none := by
  decide +kernel

/-- A release in service, which fills from the first entry of a request where one is given. -/
def taken (cls phys core op : Nat) (entry : Option (List Byte)) : Release :=
  { inService cls phys core op 0 with word := 2 ^ 48 * op + (if entry.isSome then 2 ^ 9 else 0), req := entry.map fun _ => 0 }

/-- An engine that serves it, with bytes in memory. -/
def serving (cls phys core op : Nat) (entry : Option (List Byte)) (ps : List (Nat × List Byte)) : State :=
  { ready with
    mem := ps.foldl (fun m p => Memory.writeBytes m p.1 p.2) []
    drv := { ready.drv with rels := [taken cls phys core op entry], store := entry.toList.map fun e => { finished with entries := [e], results := [⟨0, false, 0, 0, 0, false⟩] } } }

/-- An entry of KIND `kind`: one PRB, symbol 2, one layer, MCS 0. -/
def entry (kind : Byte) : List Byte := bytesWith 64 [(0, [kind]), (6, [1]), (8, [2, 1, 1])]

def pasture (o : Nat) : List Byte := leBytes 8 (pastureBase + o)

theorem witness_loadWeights :
    let desc := bytesWith 64 [(0, [1]), (0x0C, [64]), (0x10, pasture 0x1000), (0x38, [64])]
    let s := serving 1 0 0 1 none [(pastureBase, desc)]
    let d := s.trying.agentRead (niMce 0) pastureBase 64
    s.serving 1 0 0 0 = some (taken 1 0 0 1 none) ∧ relArg (taken 1 0 0 1 none).word = 0 ∧ s.unhindered (fun v => v.loadWeights 0) ∧ d.1.status = stOk ∧
    (mceJobOf d.1.data).bad 1 = false ∧ (d.2.agentRead (niMce 0) (pastureBase + 0x1000) 64).1.status = stOk ∧
    (mceJobOf (bytesWith 64 [(0, [2])])).bad 1 = true := by unfold State.unhindered; decide +kernel

/-- A weight block of one row and one column, in two valid lines. -/
def weighted (s : State) : State :=
  { s with mem := Memory.writeBytes s.mem (mceAddr 0 0) [0, 1, 1], mce := { s.mce with valid := SMap.set zeroNat [] 0 3 } }

/-- A COMBINE or PRECODE job of one symbol and PRB. -/
def arrayDesc (down gain : Bool) : List Byte :=
  bytesWith 64 [(0, [if down then 3 else 2, if gain then 2 else 0]), (6, [1]), (9, [1, 12]), (0x10, pasture 0x1000), (0x18, pasture 0x2000),
    (0x28, if gain then pasture 0x3000 else []), (0x38, [64])]
def arrayJob (down gain : Bool) : State := weighted (serving 1 0 0 (if down then 3 else 2) none [(pastureBase, arrayDesc down gain)])
def blocksRead (s : State) (down : Bool) : Option (List (Nat × Block) × State) :=
  let d := s.trying.agentRead (niMce 0) pastureBase 64
  match d.2.readBlocks 0 (mceJobOf d.1.data) down (mceJobOf d.1.data).groups none [] with
  | .inr x => some x
  | .inl _ => none

theorem witness_array :
    let x := (false, true)
    let op := if x.1 then 3 else 2
    let s := arrayJob x.1 x.2
    let j := mceJobOf (arrayDesc x.1 x.2)
    s.serving 1 0 0 0 = some (taken 1 0 0 op none) ∧ s.unhindered (fun v => v.arrayJob 0 x.1) ∧
    (s.trying.agentRead (niMce 0) pastureBase 64).1 = ⟨stOk, arrayDesc x.1 x.2, []⟩ ∧ j.bad op = false ∧ j.gain = x.2 ∧
    (blocksRead s x.1).map (fun b => (b.1.length, (b.2.arraySymbols 0 j b.1 none (List.range j.symCount)).1, (b.2.agentRead (niMce 0) j.aux0 64).1.status))
      = some (1, none, stOk) := by
  unfold State.unhindered; decide +kernel

theorem witness_demap :
    let op := 4
    let desc := bytesWith 64 [(0, [4]), (3, [8]), (8, [0, 14, 12]), (0x10, pasture 0x1000), (0x18, pasture 0x2000), (0x28, pasture 0x3000),
      (0x30, pasture 0x4000), (0x38, [64])]
    let s := serving 1 0 0 op (some (entry 2)) [(pastureBase, desc)]
    let d := s.trying.agentRead (niMce 0) pastureBase 64
    let j := mceJobOf d.1.data
    s.serving 1 0 0 1 = some (taken 1 0 0 op (some (entry 2))) ∧ relFill (taken 1 0 0 op (some (entry 2))).word = true ∧
    s.unhindered (fun v => v.demapJob 0 false) ∧ d.1.status = stOk ∧ j.bad op = false ∧
    d.2.entryOf (taken 1 0 0 op (some (entry 2))) = some (entry 2) ∧ llrOffset (entry 2) 14 ≤ j.len ∧ 12 ≤ j.nsc ∧
    (d.2.agentRead (niMce 0) j.aux0 64).1.status = stOk ∧ (d.2.agentRead (niMce 0) j.aux1 16).1.status = stOk ∧ entKind (entry 3) = 3 := by
  unfold State.unhindered; decide +kernel

/-- A core of Fold 0 that serves a kernel's release for an entry of KIND `kind`. -/
def kernelAt (kind : Byte) : State := serving 0 0 0 0 (some (entry kind)) []
def own (o : Nat) : Nat := foldAddr 0 o

theorem witness_kernels :
    let s := kernelAt 2
    let r := taken 0 0 0 0 (some (entry 2))
    s.serving 0 0 0 0 = some r ∧ r.ran = false ∧ s.entryOf r = some (entry 2) ∧ ([3].contains (entKind (entry 2))) = false ∧
    (r.req.bind s.trying.request).isSome = true ∧ (serving 0 0 0 0 none []).entryOf (taken 0 0 0 0 none) = none ∧
    idleEngine 0 0 0 0 ready ∧ (entry 2 = entry 2 ∧ entTp (entry 2) = false) ∧ entTp (bytesWith 64 [(1, [2])]) = true := by
  unfold idleEngine; decide +kernel

theorem witness_gainSelect : (kernelAt 2).unhindered (fun v => v.gainSelect 0 0 (own 0)) ∧ ((kernelAt 2).trying.agentRead 0 (own 0) 64).1.status = stOk := by
  unfold State.unhindered; decide +kernel
theorem witness_puschChest : (kernelAt 2).unhindered (fun v => v.puschChest 0 0 (own 0) (own 0x1000) 0) := by unfold State.unhindered; decide +kernel
theorem witness_puschMmse : (kernelAt 2).unhindered (fun v => v.puschMmse 0 0 (own 0) (own 0x1000) (own 0x2000) 1 1 0 1 64 0 8) ∧
    ((kernelAt 2).trying.readEstimates 0 (own 0) 1 1 [0]).1 = none := by unfold State.unhindered; decide +kernel
theorem witness_foTrack : (kernelAt 2).unhindered (fun v => v.foTrack 0 0 [(5, 100)]) := by unfold State.unhindered; decide +kernel
theorem witness_puschPhase : (kernelAt 2).unhindered (fun v => v.puschPhase 0 0 (own 0)) := by unfold State.unhindered; decide +kernel
theorem witness_puschTpIdft : (kernelAt 8).unhindered (fun v => v.puschIdft 0 0 (own 0) 12 48) ∧
    ((kernelAt 8).trying.idftEach 0 (12 * entPrbCount (entry 8)) (idftRows (entry 8) (own 0) 12 48)).1 = none := by unfold State.unhindered; decide +kernel
theorem witness_uci : (kernelAt 2).unhindered (fun v => v.puschUci 0 0 (own 0) (own 0x1000) false) ∧
    (kernelAt 8).unhindered (fun v => v.puschUci 0 0 (own 0) (own 0x1000) true) ∧
    ((kernelAt 2).trying.agentRead 0 (own 0) (llrOffset (entry 2) 14)).1.status = stOk := by unfold State.unhindered; decide +kernel
theorem witness_pucch : (kernelAt 3).unhindered (fun v => v.pucchKernel 0 0) := by unfold State.unhindered; decide +kernel
theorem witness_srsEst : (kernelAt 4).unhindered (fun v => v.srsEst 0 0) := by unfold State.unhindered; decide +kernel
theorem witness_dlWeights : (kernelAt 1).unhindered (fun v => v.dlWeights 0 0 (own 0) 1 1 1 1 64 0) := by unfold State.unhindered; decide +kernel
theorem witness_dlRs : (kernelAt 1).unhindered (fun v => v.dlRs 0 0 (own 0) 12 48 0 false) := by unfold State.unhindered; decide +kernel

/-- Each case of the gain step: clipped, held, above, below and within the target. -/
theorem witness_gainStep :
    let cfg := Fld.MCE_GAIN_CFG_HYST.set (Fld.MCE_GAIN_CFG_CLIP_PPM.set 0 1000) 4
    let full := 2 * 32767 * 32767
    let h : Int := 4
    1000000 * 2 > Fld.MCE_GAIN_CFG_CLIP_PPM.get cfg * (2 * 1) ∧ ¬1000000 * 0 > Fld.MCE_GAIN_CFG_CLIP_PPM.get cfg * (2 * 1) ∧
    signedOf 8 (Fld.MCE_GAIN_CFG_TARGET.get cfg) = 0 ∧ (Fld.MCE_GAIN_CFG_HYST.get cfg : Int) = h ∧
    (⟨2 * full, 1, 0⟩ : Level).above h = true ∧ (⟨full, 1, 0⟩ : Level).above h = false ∧ (⟨full, 1, 0⟩ : Level).below (-h) = false ∧
    (⟨0, 1, 0⟩ : Level).above h = false ∧ (⟨0, 1, 0⟩ : Level).below (-h) = true := by decide +kernel

/-! ### PRACH search, decoders and encoders: premises met -/

/-- A PRACH engine with entry 0 valid: one root, one antenna, format 0. -/
def searching (op arg : Nat) : State :=
  let s := withRels [inService 4 0 0 op arg] ready
  (((s.setFld (.PRA_CELL_A 0) Fld.PRA_CELL_A_VALID 1).setFld (.PRA_CELL_A 0) Fld.PRA_CELL_A_FORMAT1 15).setFld (.PRA_CELL_A 0) Fld.PRA_CELL_A_NROOT 1).setFld
    (.PRA_CELL_B 0) Fld.PRA_CELL_B_ANT 1

theorem witness_Prach :
    let r := inService 4 0 0 1 0
    let s := searching 1 0
    s.serving 4 0 0 0 = some r ∧ r.ran = false ∧ relOp r.word = 1 ∧ bitsOf (relArg r.word) 23 9 = 0 ∧ s.praOk 0 0 = true ∧ s.praOk 1 0 = false ∧
    s.praOk 0 1 = false ∧ bitsOf (relArg r.word) 10 6 + bitsOf (relArg r.word) 16 6 + 1 ≤ s.fld (.PRA_CELL_B 0) Fld.PRA_CELL_B_ANT ∧
    s.fld (.PRA_CELL_B 0) Fld.PRA_CELL_B_ANT < bitsOf (2 ^ 10) 10 6 + bitsOf (2 ^ 10) 16 6 + 1 ∧ bitsOf (2 ^ 10) 10 13 ≠ 0 ∧
    (s.pra.banks.find? fun (b : Bank) => b.key == bankKey r) = none ∧
    (s.heldBank 0 (s.praA 0 Fld.PRA_CELL_A_NROOT * praPdp (s.praFormat 0 0)) none).1 = none ∧
    (searching 2 0).serving 4 0 0 0 = some (inService 4 0 0 2 0) ∧ (searching 2 0).unitState 4 0 ∉ [1, 2, 6] ∧ idleEngine 4 0 0 0 ready := by
  unfold idleEngine; decide +kernel

/-- A record waiting for ring 3, with `held` records in it. -/
def posting (enabled held pi : Nat) : State :=
  let s := { ready with pra := { ready.pra with posts := [⟨0, 3, true, List.replicate 32 1⟩] } }
  ((((s.setFld (.PRA_RING_CFG 3) Fld.PRA_RING_CFG_ENABLE enabled).setFld (.PRA_RING_CFG 3) Fld.PRA_RING_CFG_LOG2_SIZE 4).setFld
    (.PRA_RING_PI 3) Fld.PRA_RING_PI_INDEX pi).setFld (.PRA_RING_DB 3) Fld.PRA_RING_DB_INDEX ((pi + 2 ^ 16 - held) % 2 ^ 16)).setFld
    (.PRA_RING_PI 3) Fld.PRA_RING_PI_PHASE 1

theorem witness_PrachRings :
    let held (s : State) := (s.fld (.PRA_RING_PI 3) Fld.PRA_RING_PI_INDEX + 2 ^ 16 - s.fld (.PRA_RING_DB 3) Fld.PRA_RING_DB_INDEX) % 2 ^ 16
    let size (n : Nat) : Word := Fld.PRA_RING_CFG_LOG2_SIZE.set 0 n
    held (posting 1 16 3) = 16 ∧ held (posting 1 15 15) = 15 ∧ (posting 1 15 15).fld (.PRA_RING_CFG 3) Fld.PRA_RING_CFG_LOG2_SIZE = 4 ∧
    (posting 0 0 0).fld (.PRA_RING_CFG 3) Fld.PRA_RING_CFG_ENABLE = 0 ∧ (15 + 1) % 16 = 0 ∧ (14 + 1) % 16 ≠ 0 ∧
    ((posting 1 15 15).pra.posts.filter fun p => p.eng == 0) = [⟨0, 3, true, List.replicate 32 1⟩] ∧
    ((posting 1 15 15).pra.posts.filter fun p => p.eng == 1) = [] ∧
    isDeviceAddr (((posting 1 15 15).rd (.PRA_RING_BASE 3)).toNat + 15 * 32) = false ∧
    ([3, 4, 12, 13].map fun n => Fld.PRA_RING_CFG_LOG2_SIZE.get (size n)) = [3, 4, 12, 13] ∧
    Fld.PRA_RING_CFG_ENABLE.get (Fld.PRA_RING_CFG_ENABLE.set (size 4) 1) = 1 ∧ ready.fld (.PRA_RING_CFG 3) Fld.PRA_RING_CFG_ENABLE = 0 := by
  decide +kernel

/-- An entry of KIND `kind` with a transport block of `tbs` bits. -/
def block (kind : Byte) (tbs : Nat) : List Byte := bytesWith 64 [(0, [kind]), (6, [1]), (8, [2, 1, 1]), (0x10, leBytes 4 tbs)]
def decodeDesc (op : Byte) : List Byte := bytesWith 64 [(0, [op]), (8, [255, 1]), (0x10, pasture 0x1000), (0x18, pasture 0x2000), (0x20, pasture 0x3000),
  (0x28, leBytes 4 4096), (0x2C, leBytes 4 64)]
def blockDesc : List Byte := bytesWith 64 [(0, [3]), (0x18, pasture 0x1000), (0x2C, leBytes 4 64)]
def coding (cls op : Nat) (e : List Byte) (desc : List Byte) : State := serving cls 0 0 op (some e) [(pastureBase, desc)]

/-- The premises common to a coding engine's jobs. -/
def coded (cls ni op : Nat) (e desc : List Byte) (bad : List Byte → Bool) (work : State → State) : Prop :=
  let s := coding cls op e desc
  let r := taken cls 0 0 op (some e)
  s.serving cls 0 0 0 = some r ∧ r.ran = false ∧ relOp r.word = op ∧ relArg r.word % 64 = 0 ∧ relArg r.word + 64 ≤ pastureSize ∧ s.unhindered work ∧
    (s.trying.agentRead ni pastureBase 64).1 = ⟨stOk, desc, []⟩ ∧ bad desc = false ∧ s.trying.entryOf r = some e ∧
    (r.req.bind s.trying.request).isSome = true

theorem witness_decLdpc : coded 2 (niDecoder 0) 1 (block 2 24) (decodeDesc 1) (badDecDesc 1) (fun v => v.decodeJob 0 false false) ∧
    ulBits (block 2 24) ≤ 4096 ∧ ceilDiv (codeOf (block 2 24)).b 8 ≤ 64 := by unfold coded State.unhindered; decide +kernel
theorem witness_decTurbo : coded 2 (niDecoder 0) 2 (block 8 40) (decodeDesc 2) (badDecDesc 2) (fun v => v.decodeJob 0 true false) ∧
    ulBits (block 8 40) ≤ 4096 ∧ ceilDiv (codeOf (block 8 40)).b 8 ≤ 64 := by unfold coded State.unhindered; decide +kernel
theorem witness_tbDone : coded 2 (niDecoder 0) 3 (block 2 24) blockDesc (badDecDesc 3) (fun v => v.tbDone 0 false) := by
  unfold coded State.unhindered; decide +kernel

def encodeDesc (op : Byte) (ps : List (Nat × List Byte)) : List Byte := bytesWith 64 ([(0, [op]), (0x0C, [48]), (0x18, pasture 0x1000), (0x28, leBytes 4 4096)] ++ ps)
theorem witness_encDlsch : coded 3 niEncoder 1 (bytesWith 64 [(0, [1]), (8, [2, 0, 1])]) (encodeDesc 1 [(4, [1])]) (badEncDesc 1) (fun v => v.encodeJob 0 false) := by
  unfold coded State.unhindered; decide +kernel
theorem witness_encLteDlsch : coded 3 niEncoder 2 (bytesWith 64 [(0, [7]), (8, [2, 0, 1])]) (encodeDesc 2 [(4, [1])]) (badEncDesc 2) (fun v => v.encodeJob 0 true) := by
  unfold coded State.unhindered; decide +kernel
theorem witness_encCtrl : coded 3 niEncoder 3 (entry 6) (encodeDesc 3 []) (badEncDesc 3) (fun v => v.encodeControl 0) := by
  unfold coded State.unhindered; decide +kernel
theorem witness_lteCtrlMap : coded 3 niEncoder 5 (entry 6) (bytesWith 64 [(0, [5]), (0x0C, [72]), (0x10, pasture 0x1000), (0x18, pasture 0x2000), (0x28, leBytes 4 4096)])
    (badEncDesc 5) (fun v => v.mapControl 0) := by
  unfold coded State.unhindered; decide +kernel

/-- The broadcast channel of an LTE cell, whose writes reach a memory. -/
theorem witness_encPbch :
    let desc := encodeDesc 4 []
    let s := (serving 3 0 0 4 none [(pastureBase, desc)]).setFld (.DEC_CELL_C 0) Fld.DEC_CELL_C_LTE 1
    s.serving 3 0 0 0 = some (taken 3 0 0 4 none) ∧ s.fld (.DEC_CELL_C 0) Fld.DEC_CELL_C_LTE = 1 ∧ badEncDesc 4 desc = false ∧
    (s.trying.agentRead niEncoder pastureBase 64).1 = ⟨stOk, desc, []⟩ ∧
    (s.trying.agentWrite niEncoder (pastureBase + 0x1000) (List.replicate 48 1)).2.noc.wait = some [] := by
  decide +kernel

/-! ### Words of syllables: premises met -/

theorem witness_SyllableEncoding :
    let i := decodeSyllable 5 0x80108000
    let ext := decodeSyllable 5 0xF0000005
    let kept := decodeSyllable 5 0x01500000
    sylOk i = true ∧ (sylOf i).map (·.core) = some 5 ∧ encodeSyllable i = some 0x80108000 ∧ sylCode i = some (0, 1) ∧ reservedOpc 0 1 = false ∧
    ext = .ext 5 true 5 ∧ encodeSyllable ext = some 0xF0000005 ∧ (0xF0000005 : BitVec 32).extractLsb' 28 3 = 7 ∧ reservedOpc 0 0x15 = true ∧
    standsForGroup kept = true ∧ encodeSyllable kept = some 0x01500000 := by decide +kernel

/-! ### The spec's worked examples -/

/-- The bundle of the encoding example (after R239). -/
theorem test_example_bundle : decodeSyllable 0 0x30980101 = .vldw ⟨0, false, 0, 0b10000_0000_001_00000001, none⟩ ∧
    decodeSyllable 0 0x30990901 = .vldw ⟨0, false, 0, 0b10010_0001_001_00000001, none⟩ ∧
    decodeSyllable 0 0xD0705B20 = .vcmacc ⟨0, true, 0, 0b00000_10110_11001_0_00_00, none⟩ := by decide +kernel

/-- Bit-reversed and circular pointers (example after R203). -/
theorem test_pointer_updates :
    ((List.range 8).foldl (fun (a : List Nat × Nat) _ => (a.1 ++ [a.2], (ptrReversed a.2 (2 ^ 40 * 32 + 16)).getD 0)) ([], 0)).1 = [0, 16, 8, 24, 4, 20, 12, 28] ∧
    ptrCircular (512 + 396) (2 ^ 40 * 400 + 4) = 512 := by decide +kernel

/-- The channel and its offset of a DDR address (example after R287). -/
theorem test_ddr_interleave : ddrChannel 0x1300 = 2 ∧ ddrChanOffset 0x1300 = 0x400 := by decide +kernel

/-- From MCE 3 by ROUTE 0x0712 with LAST 2 to Pasture slice 20 (example after R276). -/
theorem test_route : (walk 9 (niPort 43).1 0x712 0 2).2 = some 36 ∧ niPort 43 = (.hub 1, 9) ∧ niPort 36 = (.hub 6, 7) := by decide +kernel

/-- Two data symbols of 1,200 REs, and the LLRs of one dimension of 256QAM (example after R137). -/
theorem test_demap :
    llrOffset (bytesWith 64 [(0, [2]), (6, [100]), (8, [0, 14, 2, 20, 1]), (0x14, [4, 8])]) 3 = 38400 ∧ lambdas 2048 4 10540 = [10540, 5844, 2348, 1748] ∧
    (lambdas 2048 4 10540).map (fun l => llrOf l 2048 11) = [41, 23, 9, 7] := by decide +kernel

/-- Where a HARQ process and the record of its block 0 in bank 1 lie (example before R181). -/
theorem test_harq_slot : (harqOf (0x001040000000 + (17 * 16 + 5) * 1216576) 32 [] [] (nrCode 0 false) false 0).slot 1 0 =
    0x001054161540 + 64 + 32 * 19008 ∧ 0x001040000000 + (17 * 16 + 5) * 1216576 = 0x001054161540 := by decide +kernel

/-- The check value of CRC-32 (IEEE 802.3), and the digest of "abc" (FIPS 180-4). -/
theorem test_crc32 : crc32 [0x31, 0x32, 0x33, 0x34, 0x35, 0x36, 0x37, 0x38, 0x39] = 0xCBF43926 := by decide +kernel
theorem test_sha256 : sha256Kind.digest [0x61, 0x62, 0x63] = ([0xBA, 0x78, 0x16, 0xBF, 0x8F, 0x01, 0xCF, 0xEA, 0x41, 0x41, 0x40, 0xDE, 0x5D, 0xAE, 0x22, 0x23,
    0xB0, 0x03, 0x61, 0xA3, 0x96, 0x17, 0x7A, 0x9C, 0xB4, 0x10, 0xFF, 0x61, 0xF2, 0x00, 0x15, 0xAD] : List Byte) := by decide +kernel
end Sys2Proof.Tests
end

section
/-!
The quality level of a reference input, from its evaluation to the end of a reference evaluation (R374 to R377, R381).
-/
namespace Sys2Proof.Machine

/-! ### What a reference evaluation reads and keeps -/

/-- The configuration and the status of the reference inputs lie apart. -/
theorem off_refCfg_ne_refStatus {i j : Nat} (hi : i < 8) : (Reg.TIM_REF_CFG i).off ≠ (Reg.TIM_REF_STATUS j).off := by
  simp only [Reg.off]
  omega

/-- The status of an evaluated input is the only register that its evaluation touches. -/
theorem State.rd_evaluateInput_ne (s : State) (i : Nat) (o : RefObs) {q : Reg} (h : q.off ≠ (Reg.TIM_REF_STATUS i).off) :
    (s.evaluateInput i o).rd q = s.rd q := by
  unfold State.evaluateInput
  extract_lets -underBinder r ql active freqOk ok good wtr valid samples r' reg b changed tm s1 s2 s3
  have h2 : s2.rd q = s.rd q := by
    simp only [s2, reg, State.rd_setFld_ne _ _ _ h]
    rfl
  have h3 : s3.rd q = s.rd q := (State.rd_setFld_ne s2 _ _ h).trans h2
  split
  · exact (State.rd_setFld_ne s3 _ _ h).trans h3
  · exact h3

/-- A level that the block takes fits the field QL. -/
theorem takenQl_lt (code : Nat) : takenQl code < 2 ^ 4 := by
  unfold takenQl
  split
  · omega
  · decide

theorem State.inputQl_lt (s : State) (i : Nat) (r : RefInput) : s.inputQl i r < 2 ^ 4 := takenQl_lt _

/-- An evaluated input shows its quality level: no later field of its status overlaps QL. -/
theorem State.fld_ql_evaluateInput (s : State) (i : Nat) (o : RefObs) :
    (s.evaluateInput i o).fld (.TIM_REF_STATUS i) Fld.TIM_REF_STATUS_QL =
      s.inputQl i (s.tm.refs.getD i RefInput.idleInput) := by
  unfold State.evaluateInput
  extract_lets -underBinder r ql active freqOk ok good wtr valid samples r' reg b changed tm s1 s2 s3
  have h2 : s2.fld reg Fld.TIM_REF_STATUS_QL = ql := by
    rw [State.fld_setFld_disjoint _ reg _ _ _ (by decide) (by decide), State.fld_setFld_same _ reg _ _ (by decide)]
    exact Nat.mod_eq_of_lt (State.inputQl_lt s i r)
  have h3 : s3.fld reg Fld.TIM_REF_STATUS_QL = ql :=
    (State.fld_setFld_disjoint s2 reg _ _ _ (by decide) (by decide)).trans h2
  split
  · exact (State.fld_setFld_disjoint s3 reg _ _ _ (by decide) (by decide)).trans h3
  · exact h3

/-- The change of the loop touches TIM_STATUS and the registers of signalling alone. -/
theorem State.rd_timChange_ne (s : State) {q : Reg} (h : q.off ≠ (Reg.TIM_STATUS).off) (h1 : q.off ≠ (Reg.HST_STATS).off)
    (h2 : q.off ≠ (Reg.HST_PBA).off) : s.timChange.rd q = s.rd q :=
  (State.rd_msixIf _ _ _ h1 h2).trans (State.rd_setFld_ne s _ _ h)

/-- SELECTED of any input leaves QL of every input alone. -/
theorem State.fld_ql_setSelected (s : State) (i j n : Nat) :
    (s.setFld (.TIM_REF_STATUS j) Fld.TIM_REF_STATUS_SELECTED n).fld (.TIM_REF_STATUS i) Fld.TIM_REF_STATUS_QL =
      s.fld (.TIM_REF_STATUS i) Fld.TIM_REF_STATUS_QL := by
  by_cases h : i = j
  · subst h
    exact State.fld_setFld_disjoint s _ _ _ _ (by decide) (by decide)
  · exact State.fld_setFld_ne s _ _ _ (by simp only [Reg.off]; omega)

/-- The loop takes the quality levels of the inputs as they are. -/
theorem State.fld_ql_runLoop (s : State) (f t : Nat) (thr : Bool × Bool) (dco : Int) {i : Nat} (hi : i < 8) :
    (s.runLoop f t thr dco).fld (.TIM_REF_STATUS i) Fld.TIM_REF_STATUS_QL =
      s.fld (.TIM_REF_STATUS i) Fld.TIM_REF_STATUS_QL := by
  have hf : (Reg.TIM_REF_STATUS i).off ≠ (Reg.TIM_FREQ).off := by simp only [Reg.off]; omega
  have ht : (Reg.TIM_REF_STATUS i).off ≠ (Reg.TIM_STATUS).off := by simp only [Reg.off]; omega
  have hs : (Reg.TIM_REF_STATUS i).off ≠ (Reg.HST_STATS).off := by simp only [Reg.off]; omega
  have hp : (Reg.TIM_REF_STATUS i).off ≠ (Reg.HST_PBA).off := by simp only [Reg.off]; omega
  unfold State.runLoop
  extract_lets -underBinder st changed need inThr timeIn st' locked fresh samples tm s1 hoValid m s2 s3 ql s4 s5 s6
  have h2 : s2.rd (.TIM_REF_STATUS i) = s.rd (.TIM_REF_STATUS i) := by
    unfold s2
    split
    · exact State.rd_setFld_ne m.2 _ _ hf
    · rfl
  have h5 : s5.rd (.TIM_REF_STATUS i) = s.rd (.TIM_REF_STATUS i) := by
    simp only [s5, s4, s3, State.rd_setFld_ne _ _ _ ht, State.rd_setFld_ne _ _ _ hf, h2]
  have h6 : s6.fld (.TIM_REF_STATUS i) Fld.TIM_REF_STATUS_QL = s.fld (.TIM_REF_STATUS i) Fld.TIM_REF_STATUS_QL :=
    foldl_keeps (fun u : State => u.fld (.TIM_REF_STATUS i) Fld.TIM_REF_STATUS_QL = s.fld (.TIM_REF_STATUS i) Fld.TIM_REF_STATUS_QL)
      (State.fld_of_rd _ h5) fun u j hu => (State.fld_ql_setSelected u i j _).trans hu
  split
  · exact (State.fld_of_rd _ (State.rd_timChange_ne s6 ht hs hp)).trans h6
  · exact h6

/-! ### The quality level of input 7 (R377) -/

/-- Every level of the table of R377 is one that the block takes. -/
theorem takenQl_classQl (c : Nat) : takenQl (classQl c) = classQl c := by
  unfold classQl
  repeat' split
  all_goals rfl

/-- Input 7 takes its level from the clockClass where QL_OVR does not replace it. -/
theorem State.inputQl_seven (s : State) (r : RefInput) (h : s.fld (.TIM_REF_CFG 7) Fld.TIM_REF_CFG_QL_OVR = 0) :
    s.inputQl 7 r = classQl (s.fld (.TIM_REF_CFG 7) Fld.TIM_REF_CFG_CLOCK_CLASS) := by
  simp [State.inputQl, h, takenQl_classQl]

/-- Evaluations of inputs leave the configuration of every input alone. -/
theorem State.rd_refCfg_evaluateInputs (s : State) (o : Nat → RefObs) (l : List Nat) {i : Nat} (hi : i < 8) :
    (l.foldl (fun t j => t.evaluateInput j (o j)) s).rd (.TIM_REF_CFG i) = s.rd (.TIM_REF_CFG i) :=
  foldl_keeps (fun u : State => u.rd (.TIM_REF_CFG i) = s.rd (.TIM_REF_CFG i)) rfl fun u j hu =>
    (State.rd_evaluateInput_ne u j (o j) (off_refCfg_ne_refStatus hi)).trans hu

/-- Of all eight inputs, input 7 is evaluated last, with its configuration as it was at first. -/
theorem State.evaluateInputs_seven_last (s : State) (o : Nat → RefObs) :
    ∃ u : State, u.rd (.TIM_REF_CFG 7) = s.rd (.TIM_REF_CFG 7) ∧
      (List.range 8).foldl (fun t j => t.evaluateInput j (o j)) s = u.evaluateInput 7 (o 7) :=
  ⟨_, State.rd_refCfg_evaluateInputs s o (List.range 7) (by decide), by rw [List.range_succ, List.foldl_append]; rfl⟩

theorem State.fld_ql_seven_evaluateRefs (s : State) (obs : List RefObs) (dco : Int)
    (h : s.fld (.TIM_REF_CFG 7) Fld.TIM_REF_CFG_QL_OVR = 0) :
    (s.evaluateRefs obs dco).fld (.TIM_REF_STATUS 7) Fld.TIM_REF_STATUS_QL =
      classQl (s.fld (.TIM_REF_CFG 7) Fld.TIM_REF_CFG_CLOCK_CLASS) := by
  obtain ⟨u, hcfg, hlast⟩ := State.evaluateInputs_seven_last s fun i => obs.getD i ⟨false, 0, 0⟩
  rw [State.evaluateRefs, State.fld_ql_runLoop _ _ _ _ _ (by decide), hlast, State.fld_ql_evaluateInput,
    State.inputQl_seven u _ ((State.fld_of_rd _ hcfg).trans h), State.fld_of_rd _ hcfg]

/-- REFERENCE_EVALUATION while the clocks run. -/
theorem exec_referenceEvaluation {s : State} (obs : List RefObs) (dco : BitVec 32) (h : s.halted = false) :
    exec (.referenceEvaluation obs dco) s = .next (s.keepQueue (s.evaluateRefs obs dco.toInt)) := by
  have harm : exec (.referenceEvaluation obs dco) s = running (fun t => t.evaluateRefs obs dco.toInt) s := rfl
  rw [harm, running, h]
  rfl

end Sys2Proof.Machine

namespace Sys2Proof
open Machine

/-- Settles O44: input 7 is evaluated last, from a configuration that nothing before it has touched, and the loop keeps what its status
shows. -/
theorem clockClassQuality : Obligations.ClockClassQuality := by
  intro s obs dco hlive hovr
  exact ⟨_, exec_referenceEvaluation obs dco hlive, State.fld_ql_seven_evaluateRefs s obs dco.toInt hovr⟩

end Sys2Proof
end

section
/-!
Doorbell writes of the status port (R437): which addresses are doorbells, what ringing one does, and what an ignored write counts.
-/
namespace Sys2Proof.Machine

/-! ### Bits of registers -/

/-- Every bit of a register after one of them was replaced. -/
theorem State.bit_setBit (s : State) (r : Reg) (n : Nat) (b : Bool) {j : Nat} (hj : j < 64) :
    (s.setBit r n b).bit r j = if j = n then b else s.bit r j := by
  rw [State.bit, State.setBit, State.rd_setFld_same, BitField.testBit_set _ _ _ _ hj]
  by_cases h : j = n
  · subst h
    cases b <;> simp
  · have hout : ¬ (n ≤ j ∧ j < n + 1) := by omega
    exact (if_neg hout).trans (if_neg h).symm

/-- A bit of a register that an operation leaves alone. -/
theorem State.bit_of_rd {s t : State} {q : Reg} (n : Nat) (h : t.rd q = s.rd q) : t.bit q n = s.bit q n := by
  simp only [State.bit, h]

/-! ### A doorbell rung (R437) -/

/-- OVERRUN set where doorbell `i` still holds unread data. -/
def State.noteOverrun (s : State) (i : Nat) : State :=
  if s.bit .STP_DB_PEND i then s.setFld .STP_STATUS Fld.STP_STATUS_OVERRUN 1 else s

/-- Doorbell `i` rung with `v`. -/
def State.ringDoorbell (s : State) (i v : Nat) : State :=
  (((s.noteOverrun i).setFld (.STP_DB i) Fld.STP_DB_DATA v).setBit .STP_DB_PEND i true).shepIrq shepDoorbell i

theorem State.noteOverrun_pending (s : State) {i : Nat} (h : s.bit .STP_DB_PEND i = true) :
    s.noteOverrun i = s.setFld .STP_STATUS Fld.STP_STATUS_OVERRUN 1 := if_pos h

theorem State.noteOverrun_clear (s : State) {i : Nat} (h : s.bit .STP_DB_PEND i = false) : s.noteOverrun i = s :=
  if_neg (by simp [h])

/-- Beside STP_STATUS no register changes. -/
theorem State.rd_noteOverrun_ne (s : State) (i : Nat) {q : Reg} (h : q.off ≠ (Reg.STP_STATUS).off) :
    (s.noteOverrun i).rd q = s.rd q := by
  cases hp : s.bit .STP_DB_PEND i with
  | true => rw [State.noteOverrun_pending s hp, State.rd_setFld_ne s _ _ h]
  | false => rw [State.noteOverrun_clear s hp]

/-- Beside the registers nothing changes. -/
theorem State.noteOverrun_frame (s : State) (i : Nat) : s.noteOverrun i = { s with regs := (s.noteOverrun i).regs } := by
  unfold State.noteOverrun
  split <;> rfl

/-- The doorbells lie above the status and the pending bits. -/
theorem off_doorbell_ne (i : Nat) :
    (Reg.STP_DB i).off ≠ (Reg.STP_STATUS).off ∧ (Reg.STP_DB i).off ≠ (Reg.STP_DB_PEND).off := by
  simp only [Reg.off]
  omega

/-- A rung doorbell holds the data written. -/
theorem State.fld_data_ringDoorbell (s : State) (i v : Nat) (hv : v < 2 ^ 32) :
    (s.ringDoorbell i v).fld (.STP_DB i) Fld.STP_DB_DATA = v := by
  calc (s.ringDoorbell i v).fld (.STP_DB i) Fld.STP_DB_DATA
      = ((s.noteOverrun i).setFld (.STP_DB i) Fld.STP_DB_DATA v).fld (.STP_DB i) Fld.STP_DB_DATA :=
        State.fld_of_rd _ (State.rd_setBit_ne _ _ _ (off_doorbell_ne i).2)
    _ = v := by rw [State.fld_setFld_same _ _ _ _ (by decide)]; exact Nat.mod_eq_of_lt hv

/-- Of the pending bits a rung doorbell sets its own alone. -/
theorem State.bit_pend_ringDoorbell (s : State) (i v : Nat) {j : Nat} (hj : j < 64) :
    (s.ringDoorbell i v).bit .STP_DB_PEND j = if j = i then true else s.bit .STP_DB_PEND j := by
  have kept : ((s.noteOverrun i).setFld (.STP_DB i) Fld.STP_DB_DATA v).rd .STP_DB_PEND = s.rd .STP_DB_PEND := by
    rw [State.rd_setFld_ne _ _ _ (off_doorbell_ne i).2.symm, State.rd_noteOverrun_ne s i (by decide)]
  rw [← State.bit_of_rd j kept]
  exact State.bit_setBit _ _ _ _ hj

/-- The status after a doorbell rung is that after the overrun was noted. -/
theorem State.rd_status_ringDoorbell (s : State) (i v : Nat) :
    (s.ringDoorbell i v).rd .STP_STATUS = (s.noteOverrun i).rd .STP_STATUS := by
  rw [State.ringDoorbell, State.rd_shepIrq, State.rd_setBit_ne _ _ _ (by decide),
    State.rd_setFld_ne _ _ _ (off_doorbell_ne i).1.symm]

theorem State.fld_overrun_ringDoorbell (s : State) (i v : Nat) (h : s.bit .STP_DB_PEND i = true) :
    (s.ringDoorbell i v).fld .STP_STATUS Fld.STP_STATUS_OVERRUN = 1 := by
  rw [State.fld_of_rd _ (State.rd_status_ringDoorbell s i v), State.noteOverrun_pending s h,
    State.fld_setFld_same _ _ _ _ (by decide)]
  rfl

theorem State.regsKept_ringDoorbell (s : State) (i v : Nat) :
    regsKept [.STP_DB i, .STP_DB_PEND, .STP_STATUS] s (s.ringDoorbell i v) := by
  intro r hr
  simp only [List.map_cons, List.map_nil, List.mem_cons, List.not_mem_nil, or_false, not_or] at hr
  obtain ⟨hdb, hpend, hstatus⟩ := hr
  rw [State.ringDoorbell, State.rd_shepIrq, State.rd_setBit_ne _ _ _ hpend, State.rd_setFld_ne _ _ _ hdb,
    State.rd_noteOverrun_ne s i hstatus]

/-- The interrupt is the only message sent, and beside it the registers alone change. -/
theorem State.ringDoorbell_frame (s : State) (i v : Nat) :
    s.ringDoorbell i v = { s with regs := (s.ringDoorbell i v).regs, out := s.out ++ [.shepIrq shepDoorbell i] } := by
  unfold State.ringDoorbell
  rw [State.noteOverrun_frame]
  rfl

/-! ### Writes of the status port -/

/-- Where the port takes writes, 0x8000 + 2·i rings doorbell `i`. -/
theorem State.statusWrite_doorbell (s : State) {i : Nat} (v : Nat) (hi : i < 64) (hon : s.bit .SYS_READY 41 = true)
    (hen : s.fld .STP_CTRL Fld.STP_CTRL_WR_EN = 1) : s.statusWrite (0x8000 + 2 * i) v = s.ringDoorbell i v := by
  have hidx : (0x8000 + 2 * i - 0x8000) / 2 = i := by omega
  have hin : ¬ (0x8000 + 2 * i < 0x8000 ∨ 0x8080 ≤ 0x8000 + 2 * i ∨ (0x8000 + 2 * i) % 2 ≠ 0 ∨
      s.fld .STP_CTRL Fld.STP_CTRL_WR_EN = 0) := by omega
  rw [State.statusWrite, hon, if_neg (by decide), if_neg hin, hidx]
  rfl

/-- A write at no doorbell is counted in BAD_WR. -/
theorem State.statusWrite_elsewhere (s : State) {a : Nat} (v : Nat) (ha : ∀ i : Fin 64, a ≠ 0x8000 + 2 * i.val)
    (hon : s.bit .SYS_READY 41 = true) : s.statusWrite a v = s.bump .STP_STATUS Fld.STP_STATUS_BAD_WR := by
  have hout : a < 0x8000 ∨ 0x8080 ≤ a ∨ a % 2 ≠ 0 := Decidable.byContradiction fun hin =>
    have hidx : (a - 0x8000) / 2 < 64 := by omega
    have haddr : a = 0x8000 + 2 * ((a - 0x8000) / 2) := by omega
    ha ⟨(a - 0x8000) / 2, hidx⟩ haddr
  have hbad : a < 0x8000 ∨ 0x8080 ≤ a ∨ a % 2 ≠ 0 ∨ s.fld .STP_CTRL Fld.STP_CTRL_WR_EN = 0 := by omega
  rw [State.statusWrite, hon, if_neg (by decide), if_pos hbad]

/-- STP_DB acts whether the clocks are halted or not. -/
theorem exec_stpDb (a : BitVec 16) (v : BitVec 32) (s : State) :
    exec (.stpDb a v) s = .next (s.keepQueue (s.statusWrite a.toNat v.toNat)) := rfl

end Sys2Proof.Machine

namespace Sys2Proof
open Machine

/-- A write to 0x8000 + 2·i rings doorbell `i`, the queue of commands included in what it keeps. -/
theorem exec_stpDb_doorbell {s : State} (i : Fin 64) (v : BitVec 32) (hon : s.bit .SYS_READY 41 = true)
    (hen : s.fld .STP_CTRL Fld.STP_CTRL_WR_EN = 1) :
    exec (.stpDb (BitVec.ofNat 16 (0x8000 + 2 * i.val)) v) s = .next (s.ringDoorbell i v.toNat) := by
  have haddr : (BitVec.ofNat 16 (0x8000 + 2 * i.val)).toNat = 0x8000 + 2 * i.val := by
    rw [BitVec.toNat_ofNat]
    omega
  have hqueue : s.keepQueue (s.ringDoorbell i v.toNat) = s.ringDoorbell i v.toNat := by
    rw [State.ringDoorbell_frame]
    rfl
  rw [exec_stpDb, haddr, State.statusWrite_doorbell s _ i.isLt hon hen, hqueue]

theorem exec_stpDb_elsewhere {s : State} {a : BitVec 16} (v : BitVec 32) (ha : ∀ i : Fin 64, a.toNat ≠ 0x8000 + 2 * i.val)
    (hon : s.bit .SYS_READY 41 = true) : exec (.stpDb a v) s = .next (s.bump .STP_STATUS Fld.STP_STATUS_BAD_WR) := by
  rw [exec_stpDb, State.statusWrite_elsewhere s _ ha hon]
  rfl

/-- Settles O43: an address of the port rings its doorbell or is counted, and each of the two outcomes has its law. -/
theorem statusPortDoorbell : Obligations.StatusPortDoorbell := by
  intro s v hon hen
  constructor
  · intro i
    refine ⟨s.ringDoorbell i v.toNat, exec_stpDb_doorbell i v hon hen, State.fld_data_ringDoorbell s _ _ v.isLt, ?own, ?others,
      ?irq, State.fld_overrun_ringDoorbell s _ _, ?status, State.regsKept_ringDoorbell s _ _, ?rest⟩
    case own => rw [State.bit_pend_ringDoorbell s _ _ i.isLt, if_pos rfl]
    case others => exact fun j hj hne => by rw [State.bit_pend_ringDoorbell s _ _ hj, if_neg hne]
    case irq => rw [State.ringDoorbell_frame]
    case status => exact fun h => by rw [State.rd_status_ringDoorbell, State.noteOverrun_clear s h]
    case rest => rw [State.ringDoorbell_frame]
  · intro a ha
    refine ⟨_, exec_stpDb_elsewhere v ha hon, State.fld_bump_same s _ _ 1 (by decide), fun r hr => ?_, rfl⟩
    exact State.rd_bump_ne s _ _ (by simpa using hr)

end Sys2Proof
end
